-- ==== Sys2Proof/Word.lean ====
section
/-! DEFINITION. The plain value types of the model: bytes, 32-bit words, unit numbers, and the sparse table. -/

namespace Sys2Proof

/-- One byte of memory (R13). -/
abbrev Byte := BitVec 8

/-- One 32-bit control-space register or core register (R16, R178). -/
abbrev Word := BitVec 32

/-- A host port H0 to H3 (R350). -/
abbrev Port := Fin 4

/-- A context number (R22: 256 numbers). -/
abbrev CtxNo := Fin 256

/-- A partition number (R337). -/
abbrev PartNo := Fin 16

/-- A logical cluster number (R19). -/
abbrev CluNo := Fin 768

/-- A local core number (R19). -/
abbrev CoreNo := Fin 64

/-- A Stava cage L0 to L7 (R269). -/
abbrev CageNo := Fin 8

/-- A stack M0 to M31 (R18). -/
abbrev StackNo := Fin 32

/-- A die half: 0 West, 1 East (R20). -/
abbrev HalfNo := Fin 2

/-- A sparse table: keys strictly rise and no entry equals what an unlisted key reads as. -/
abbrev SMap (α : Type) := List (Nat × α)

end Sys2Proof
end

