-- ==== Sys2Proof/Syntax.lean ====
section
/-! DEFINITION. The commands of the block: one constructor for each row of the opcode table, with its operands. -/

namespace Sys2Proof

/-- Who uses a memory tag of a cluster (R224). `kind` 0 = running unit number `u`, 1 = the core context's far
accesses, 2 = multicast tree `u` whose source the cluster is. -/
structure TagUser where
  kind : Fin 3
  u : Nat
  deriving DecidableEq, Repr

/-- One error that the error-correcting code reports (R238, R239). `word` is the place of the 64 B code word (stack × 2^36 + byte offset) divided by
64, `fatal` tells an uncorrectable error from a corrected one. -/
structure EccNote where
  word : Nat
  fatal : Bool
  syndrome : Word
  symbol : Byte
  pattern : BitVec 4
  deriving DecidableEq, Repr

/-- The fabric header of a packet (R249). -/
structure FabricHeader where
  vc : BitVec 3
  kind : BitVec 5
  len : BitVec 3
  srcSite : BitVec 10
  dstSite : BitVec 10
  srcCluster : BitVec 10
  epoch : Byte
  context : Byte
  ctxValid : Bool
  deriving DecidableEq, Repr

/-- A packet of the fabric: its header and what follows it in its flits (R249). -/
structure FabricPacket where
  head : FabricHeader
  payload : List Byte
  deriving DecidableEq, Repr

/-- A read of `size` bytes at offset `off`; for a core, `off` is the word it names (R16, R17). -/
structure ReadAt where
  off : Nat
  size : Nat
  deriving DecidableEq, Repr

/-- The tag of an access that was not answered, by its place among the cluster's read tags and then its write tags, and the stack that did
not answer (R222). -/
structure NoAnswer where
  tag : Nat
  stack : Fin 32
  deriving DecidableEq, Repr

/-- The nanoseconds for which the four lanes of each half of a cage have been locked and have shown no uncorrectable code word (R295). -/
structure CleanLanes where
  lower : Nat
  upper : Nat
  deriving DecidableEq, Repr

/-- Why a cage has lost its link (R294), and the uncorrectable code words that it sees now (R295). -/
structure LossSeen where
  reason : Nat
  words : Nat
  deriving DecidableEq, Repr

/-- What the start of main power meets: the temperature of the inlet, and the spare sites that passed the test of reset (R263, R451). -/
structure StartSeen where
  inlet : Int
  passed : List Nat
  deriving DecidableEq, Repr

/-- What exhausts a margin (R460): the milliseconds of the last 24 h for which temperature has held a half below 1,200 MHz with the coolant
within R461, and whether a half needs the highest entry of its adaptive voltage table to run at 1,600 MHz. -/
structure MarginSeen where
  belowMs : Nat
  highest : Bool
  deriving DecidableEq, Repr

/-- A received Ethernet frame (R271): whether its FCS is good, its addresses, 802.1Q tag and EtherType, whether it is a PAUSE or
priority-flow-control frame (R270), and its bytes from the Stava header to the end of the payload. `poison` names the 64 B pieces of
the payload that come with poison attached (R289). -/
structure EtherFrame where
  fcsOk : Bool
  dstMac : BitVec 48
  srcMac : BitVec 48
  tag : Option (BitVec 16)
  etherType : BitVec 16
  pause : Bool
  body : List Byte
  poison : List Nat
  deriving DecidableEq, Repr

/-- A Stava packet: the header of R275 with its DATA or ACK tail, the collective tail of R303 in `tail`, and the
payload. `poison` names the code words of a READ_DATA, counted from the one that holds its first byte, whose poison is attached to it (R289);
no field of the header carries them. -/
structure StavaPacket where
  version : BitVec 4
  type : BitVec 2
  openF : Bool
  ordered : Bool
  cmark : Bool
  echo : Bool
  srcNode : BitVec 10
  dstNode : BitVec 10
  flow : BitVec 12
  seq : BitVec 24
  ackSeq : BitVec 24
  sendTime : BitVec 64
  op : BitVec 4
  status : BitVec 4
  srcCtx : Byte
  srcGen : BitVec 16
  window : BitVec 16
  winGen : BitVec 16
  key : Word
  tag : BitVec 12
  offset : BitVec 40
  length : BitVec 13
  sack : BitVec 64
  tail : List Word
  payload : List Byte
  poison : List Nat
  deriving DecidableEq, Repr

/-- The commands. Each constructor is one row of the opcode table. An operand `t` names a command that ENTRY_TAKE has
taken from a ring, by its place in the order of taking. An operand `u` names a running unit of a cluster. -/
inductive Instr where
  /-- IDENTIFY (R369). Admin command that writes the 256-byte identity page to the named DPA. -/
  | identify (t : Nat)
  /-- VERSION (R406). Admin command that checks a driver interface version and moves the device between HELD and RUNNING. -/
  | version (t : Nat)
  /-- CTX_CREATE (R368). Admin command that binds a FREE context number to a partition with a new generation, page tables, kernel table and rings. -/
  | ctxCreate (t : Nat)
  /-- CTX_DESTROY (R370). Admin command that starts the teardown of a BOUND or RESIDENT context. -/
  | ctxDestroy (t : Nat)
  /-- CTX_GRANT (R367). Admin command that replaces the set of host ports granted access to a context. -/
  | ctxGrant (t : Nat)
  /-- WINDOW_OPEN (R284). Admin command that writes a window descriptor and opens the window, keeping its generation. -/
  | windowOpen (t : Nat)
  /-- WINDOW_REVOKE (R284). Admin command that closes a window, raises its generation and sends REVOKE_NOTICE to a named peer. -/
  | windowRevoke (t : Nat)
  /-- KEY_WRITE (R335). Admin command that writes a P-384 public key into a key slot and discards Frames staged under that slot's earlier key. -/
  | keyWrite (t : Nat)
  /-- FRAME_STAGE (R341). Admin command that copies a Frame container into a staging slot and verifies it. -/
  | frameStage (t : Nat)
  /-- FRAME_APPLY (R343). Admin command that puts a staged full or partial Frame in force. -/
  | frameApply (t : Nat)
  /-- FRAME_APPLICATION_START (R344). A waiting application begins once earlier applications complete, checks the running structure and stops intake for the partition. -/
  | frameApplicationStart
  /-- HANDOVER (R354). Admin command that starts handing ownership to another port. -/
  | handover (t : Nat)
  /-- FENCE (R367). Admin command that completes after every earlier admin command. -/
  | fence (t : Nat)
  /-- FENCE_CONTEXT (R372). Context command that completes after every earlier command of its ring. -/
  | fenceContext (t : Nat)
  /-- RECLAIM (R390). Admin command that takes a partition back under a new slice table by departing every resident not listed. -/
  | reclaim (t : Nat)
  /-- RECLAIM_COMPLETE (R390). When every departure of a reclaim has ended, the reclaim completes and the new table governs. -/
  | reclaimComplete (p : PartNo)
  /-- SLICE_TABLE (R381). Admin command that installs a new slice table for a partition, taking effect at a later boundary. -/
  | sliceTable (t : Nat)
  /-- FW_STAGE (R410). Admin command that verifies a firmware image, writes it into the non-running bank and marks that bank pending. -/
  | fwStage (t : Nat)
  /-- FW_ACTIVATE (R414). Admin command that hands every firmware processor over to the pending image, or undoes the handover on a failed start. -/
  | fwActivate (t : Nat)
  /-- DEFERRED_ACTIVATION_START (R413). A deferred activation starts on its own when the power or thermal emergency clears. -/
  | deferredActivationStart
  /-- STACK_RETIRE (R439). Admin command that permanently retires a stack by fuse and powers it down. -/
  | stackRetire (t : Nat)
  /-- FUSE_WRITE (R443). Admin command that fuses a new owner-port policy mask. -/
  | fuseWrite (t : Nat)
  /-- TEST_PACKAGE (R438). Admin command that installs a signed test-pattern package in the security core. -/
  | testPackage (t : Nat)
  /-- ESCALATE (R431). Admin command that requests recovery at a named escalation level for a target. -/
  | escalate (t : Nat)
  /-- SUBMIT (R55). Context command that admits a stream program after checking its header and every entry. -/
  | submit (t : Nat)
  /-- SUBMIT_GATE_OPEN (R364). A gated SUBMIT is admitted once its event counter passes WAIT_VALUE. -/
  | submitGateOpen (t : Nat)
  /-- COLLECTIVE (R302). Context command that checks and admits a collective descriptor. -/
  | collective (t : Nat)
  /-- IDLE_WINDOWS (R327). Context command that replaces the context's declared pipeline bubbles. -/
  | idleWindows (t : Nat)
  /-- ENTRY_TAKE (R371). The device takes the next submission entry once the completion ring has room for its reservation, checking rights, held state, format, units, state and resources. -/
  | entryTake (ring : Option CtxNo)
  /-- CLAIM (R354). A write of the claim code to OWN_CLAIM, acted on by the ownership state machine. -/
  | claim (p : Port) (v : Word)
  /-- PORT_LOST (R449). A host port's link goes down or it receives a hot, function-level or PERST# reset, resetting that port alone. -/
  | portLost (p : Port)
  /-- LOSS_TIMEOUT (R354). The owner-loss timer reaches OWN_LOSS_MS and the device becomes UNOWNED. -/
  | lossTimeout
  /-- HANDOVER_TIMEOUT (R354). One second passes in HANDING without the target's claim, and HANDOVER fails. -/
  | handoverTimeout
  /-- DRAIN_END (R355). The last taken admin command's record is written, NOT_OWNER records follow and DRAINING returns to 0. -/
  | drainEnd
  /-- DOORBELL (R358). A write of a new tail index to a submission-ring doorbell, acted on after earlier BAR2 writes of the port are visible. -/
  | doorbell (p : Port) (ring : Option CtxNo) (v : Word)
  /-- HEAD_WRITE (R359). A consumer writes a head index to release records of a device-written ring. -/
  | headWrite (p : Port) (ring : CtxNo ⊕ Fin 4) (v : Word)
  /-- RING_CTRL (R376). A write to a ring CTRL register that enables a ring, disables it or changes its vector. -/
  | ringCtrl (p : Port) (ring : Fin 4) (v : Word)
  /-- APERTURE_ACCESS (R351). A host read or write through a BAR2 aperture, in DPA or CONTEXT mode, or refused. -/
  | apertureAccess (p : Port) (a : Fin 16) (off len : Nat) (data : Option (List Byte))
  /-- RING_APER_HI (R474). A write to RING_APER_HI that commits both halves of an aperture base. -/
  | ringAperHi (p q : Port) (a : Fin 16) (v : Word)
  /-- CAPTURE (R17). A read of a _LO register that captures the upper half for the same reader's next _HI read. -/
  | capture (r : Port ⊕ (CluNo × CoreNo)) (off : ReadAt)
  /-- REGISTER_WRITE (R13). A write to a register with no behaviour of its own, setting, staging, clearing or refusing fields by its access type. -/
  | registerWrite (p : Port) (off size : Nat) (v : Word)
  /-- STREAM_START (R30). The device starts a stream once its dependency is met and a Tally slot in its home is free, writing its zero-tile map and record status. -/
  | streamStart (c : CtxNo)
  /-- UNIT_CLAIM (R44). A free cluster claims the lowest unclaimed or re-issued unit of the chosen stream, reading SKETCH predictions. -/
  | unitClaim (k : CluNo)
  /-- UNIT_START (R48). A claimed unit starts on a cluster once array, residency, Palette, kept-limit, digest-unit and core-context conditions allow. -/
  | unitStart (k : CluNo)
  /-- PASS (R96). One array pass streams rows against a held stationary block while the next block preloads. -/
  | pass (k : CluNo) (u : Nat)
  /-- BOUND_PASS (R145). After a chunk's compute passes, SKETCH runs a bound pass for each predicted tile and k-block. -/
  | boundPass (k : CluNo) (u : Nat)
  /-- STRIP_DRAIN (R54). A closing strip drains through Glaze and Varnish to STORE, freeing accumulator space. -/
  | stripDrain (k : CluNo) (u strip : Nat)
  /-- UNIT_COMMIT (R46). A unit commits once its last output write is visible, and the Tally counts it done. -/
  | unitCommit (k : CluNo) (u : Nat)
  /-- PART_COMBINE (R45). Once every reduction part of a tile has committed, the home adds them in part order and passes the tile through Glaze and Varnish. -/
  | partCombine (c : CtxNo) (idx tile : Nat)
  /-- RESULT_COPY (R113). Once a tile's result slot is complete, the slot is copied into Y under the write mask. -/
  | resultCopy (c : CtxNo) (idx tile : Nat)
  /-- RECORD_SLOT_WRITE (R137). After the last commit the home writes the stream's digest, counts, comparison and status into its record slot. -/
  | recordSlotWrite (c : CtxNo) (idx : Nat)
  /-- STREAM_COMPLETE (R63). A stream completes and its statistics record is written, freeing its Tally slot. -/
  | streamComplete (c : CtxNo) (idx : Nat)
  /-- CHECKPOINT_BEGIN (R120). A BEGIN marker starts once every earlier stream of the program has completed. -/
  | checkpointBegin (c : CtxNo)
  /-- CHECKPOINT_END (R120). An END completes when every stream of the block has completed and the block record is written, stopping the program under HALT. -/
  | checkpointEnd (c : CtxNo)
  /-- PROGRAM_COMPLETE (R366). A stream program ends or stops and its final completion record is written. -/
  | programComplete (c : CtxNo)
  /-- LIST_PHASE (R165). The home sorter of a DISPATCH places assignments into per-expert token lists. -/
  | listPhase (c : CtxNo) (idx : Nat)
  /-- MOVE_UNIT (R167). A SORT move unit copies, scales or combines rows between token and expert order. -/
  | moveUnit (k : CluNo) (u : Nat)
  /-- RECEIVE (R174). A RECEIVE or COMBINE completes its wait when every arrival word holds its TAG. -/
  | receive (c : CtxNo) (idx : Nat)
  /-- PARCEL_START (R204). A parcel goes to the lowest-numbered idle core with its entry registers set. -/
  | parcelStart (k : CluNo)
  /-- KERNEL_LOAD (R207). Kernel code is loaded into a kernel frame when a slot first runs on a cluster. -/
  | kernelLoad (k : CluNo)
  /-- CORE_CONTEXT_CHANGE (R203). The cores of a cluster change to another context, saving and restoring keep areas, barriers and semaphores. -/
  | coreContextChange (k : CluNo) (c : CtxNo)
  /-- S_ALU (R185). Scalar register-register ALU instruction. -/
  | sAlu (k : CluNo) (j : CoreNo) (w : Word)
  /-- S_IMM (R185). Scalar register-immediate ALU instruction. -/
  | sImm (k : CluNo) (j : CoreNo) (w : Word)
  /-- UPPER (R185). Instruction that loads a 20-bit immediate shifted left by 12. -/
  | upper (k : CluNo) (j : CoreNo) (w : Word)
  /-- BRANCH (R185). Conditional branch instruction. -/
  | branch (k : CluNo) (j : CoreNo) (w : Word)
  /-- JUMP (R185). Jump instruction with link register. -/
  | jump (k : CluNo) (j : CoreNo) (w : Word)
  /-- LOAD (R182). Scalar load instruction (LW, LH, LHU, LB, LBU). -/
  | load (k : CluNo) (j : CoreNo) (w : Word)
  /-- STORE (R182). Scalar store instruction (SW, SH, SB). -/
  | store (k : CluNo) (j : CoreNo) (w : Word)
  /-- LOAD_RETURN (R182). Data of a load returns after its target's latency. -/
  | loadReturn (k : CluNo) (j : CoreNo)
  /-- V_ALU (R187). Vector ALU instruction selected by OP and TYPE. -/
  | vAlu (k : CluNo) (j : CoreNo) (w : Word)
  /-- VLD (R190). Vector load instruction. -/
  | vld (k : CluNo) (j : CoreNo) (w : Word)
  /-- VST (R190). Vector store instruction. -/
  | vst (k : CluNo) (j : CoreNo) (w : Word)
  /-- VGATHER (R194). Vector gather from the core address map. -/
  | vgather (k : CluNo) (j : CoreNo) (w : Word)
  /-- VSCATTER (R194). Vector scatter to the core address map. -/
  | vscatter (k : CluNo) (j : CoreNo) (w : Word)
  /-- VBCAST (R190). Broadcast of a scalar register to vector lanes. -/
  | vbcast (k : CluNo) (j : CoreNo) (w : Word)
  /-- VCVT (R191). Lane-wise format conversion instruction. -/
  | vcvt (k : CluNo) (j : CoreNo) (w : Word)
  /-- BLOCK (R191). Encode or decode one block of a block-scaled format. -/
  | block (k : CluNo) (j : CoreNo) (w : Word)
  /-- FLD (R193). Far load of 64 B from device memory. -/
  | fld (k : CluNo) (j : CoreNo) (w : Word)
  /-- FST (R193). Far store of 64 B to device memory. -/
  | fst (k : CluNo) (j : CoreNo) (w : Word)
  /-- FGATHER (R193). Far gather of elements from device memory. -/
  | fgather (k : CluNo) (j : CoreNo) (w : Word)
  /-- FSCATTER (R193). Far scatter of elements to device memory. -/
  | fscatter (k : CluNo) (j : CoreNo) (w : Word)
  /-- SEMWAIT (R198). Instruction that waits on a semaphore count. -/
  | semwait (k : CluNo) (j : CoreNo) (w : Word)
  /-- SEMWAIT_RELEASE (R198). A waiting SEMWAIT is served in arrival order once the count suffices. -/
  | semwaitRelease (k : CluNo) (i : Fin 64)
  /-- SEMPOST (R198). Instruction that adds to a semaphore count after a fence. -/
  | sempost (k : CluNo) (j : CoreNo) (w : Word)
  /-- BARRIER (R197). Instruction that arrives at a barrier with a participant count. -/
  | barrier (k : CluNo) (j : CoreNo) (w : Word)
  /-- BARRIER_RELEASE (R197). A barrier releases its arrivals 4 cycles after the n-th and starts a new generation. -/
  | barrierRelease (k : CluNo) (i : Fin 8)
  /-- EVWAIT (R199). Instruction that waits on a device event counter. -/
  | evwait (k : CluNo) (j : CoreNo) (w : Word)
  /-- EVWAIT_RETURN (R199). A waiting EVWAIT returns once the counter passes its value. -/
  | evwaitReturn (k : CluNo) (j : CoreNo)
  /-- EVADD (R199). Instruction that adds to a device event counter after a far fence. -/
  | evadd (k : CluNo) (j : CoreNo) (w : Word)
  /-- FENCE_CORE (R200). Core instruction that waits until earlier core-store and Palette stores are cluster-visible. -/
  | fenceCore (k : CluNo) (j : CoreNo) (w : Word)
  /-- FENCE_FAR (R200). Core instruction that waits until earlier far stores are visible device-wide. -/
  | fenceFar (k : CluNo) (j : CoreNo) (w : Word)
  /-- GDONE (R200). Instruction that fences and ends the parcel. -/
  | gdone (k : CluNo) (j : CoreNo) (w : Word)
  /-- CSRR (R185). Instruction that reads a core CSR. -/
  | csrr (k : CluNo) (j : CoreNo) (w : Word)
  /-- CSRW (R186). Instruction that writes the FLAGS CSR. -/
  | csrw (k : CluNo) (j : CoreNo) (w : Word)
  /-- TAG_TAKEN (R224). A waiting tag user takes a free memory tag under its guarantee. -/
  | tagTaken (k : CluNo) (user : TagUser) (words : List Nat)
  /-- TAG_LANDED (R223). A memory tag's last piece lands or is accepted and the tag is freed. -/
  | tagLanded (k : CluNo) (i : Nat) (ecc : List EccNote)
  /-- DEFERRED_PIECE_ISSUE (R226). A deferred piece issues once its pseudo-channel falls below quota. -/
  | deferredPieceIssue (k : CluNo) (user : TagUser)
  /-- UNMAPPED_READ_DUE (R60). A waiting run-ahead read to an unmapped page becomes due and faults the context if still unmapped. -/
  | unmappedReadDue (k : CluNo) (u va : Nat)
  /-- PAGE_WALK (R219). A translation miss walks the page tables, faulting on an unmapped, read-only or malformed entry. -/
  | pageWalk (k : CluNo) (c : CtxNo) (va : Nat) (wr : Bool)
  /-- WRITE_ACCEPT (R221). A hub accepts a write, making it visible. -/
  | writeAccept (k : CluNo)
  /-- COMBINING_WRITE_BACK (R221). A partial code word is written back from the combining buffer by read-modify-write. -/
  | combiningWriteBack (k : CluNo) (word : Nat)
  /-- STACK_NO_ANSWER (R222). An access unanswered for 100 µs completes as uncorrectable with a syndrome record. -/
  | stackNoAnswer (k : CluNo) (i : NoAnswer)
  /-- SRAM_UNCORRECTABLE (R241). An uncorrectable SRAM error abandons a unit, faults a context or is recorded only. -/
  | sramUncorrectable (k : CluNo) (structure_ off : Nat) (owner : Option CtxNo) (syndrome : Nat)
  /-- PATROL_SCRUB (R242). The hubs read and correct every code word of every stack once per 8 hours. -/
  | patrolScrub (ecc : List EccNote)
  /-- VALIDATE (R246). A MEM_SET_CTRL write that checks a stripe set and makes it valid. -/
  | validate (p : Port) (i : Fin 8)
  /-- INVALIDATE (R246). A MEM_SET_CTRL write that stops new accesses to a stripe set and starts it draining. -/
  | invalidate (p : Port) (i : Fin 8)
  /-- SET_DRAIN_END (R246). DRAINING returns to 0 when accesses accepted before INVALIDATE complete. -/
  | setDrainEnd (i : Fin 8)
  /-- MEM_INVAL_GO (R219). A write that starts a translation invalidation. -/
  | memInvalGo (p : Port) (v : Word)
  /-- MEM_INVAL_COMPLETE (R219). An invalidation completes once no translation is cached and old accesses have landed. -/
  | memInvalComplete
  /-- MEM_DUMP_HI (R474). A write that commits the dump-region address if it lies in one valid set. -/
  | memDumpHi (p : Port) (v : Word)
  /-- MEM_SYNLOG_HI (R474). A write that commits the syndrome-log address. -/
  | memSynlogHi (p : Port) (v : Word)
  /-- MEM_BANK_SEL (R235). A write that selects the bank-conflict counting target and clears the counters. -/
  | memBankSel (p : Port) (v : Word)
  /-- MULTICAST_REQUEST (R230). A member requests a W chunk from the tree source, joining or starting a delivery. -/
  | multicastRequest (k : CluNo) (u : Nat)
  /-- MULTICAST_DELIVERY_START (R230). A waiting request starts a new delivery when the current one ends. -/
  | multicastDeliveryStart (p : PartNo) (tree : Nat)
  /-- MULTICAST_ACCEPT (R231). A member accepts a tag's data once its chunk buffer is free; the source frees the tag after all accept. -/
  | multicastAccept (k : CluNo) (u : Nat)
  /-- MULTICAST_TIMEOUT (R232). A member that has not accepted within the timeout is removed and fetches the chunk itself. -/
  | multicastTimeout (k : CluNo) (u : Nat)
  /-- PACKET_RECEIVE (R262). A receiver accepts or drops a fabric packet by its binding site and epoch. -/
  | packetReceive (h : FabricPacket)
  /-- CLUSTER_REMAP (R264). A dead cluster is fenced, rebound to a spare with a new epoch, or FENCED when no spare remains. -/
  | clusterRemap (k : CluNo)
  /-- FRAME_RECEIVE (R271). A cage receives an Ethernet frame and drops it for bad FCS, EtherType or address. -/
  | frameReceive (g : CageNo) (f : EtherFrame)
  /-- WRITE (R285). An arriving WRITE packet is checked against its window and lands or is refused. -/
  | write (g : CageNo) (q : StavaPacket)
  /-- READ_REQ (R289). An arriving READ_REQ is checked and answered with READ_DATA or RESPONSE. -/
  | readReq (g : CageNo) (q : StavaPacket)
  /-- READ_DATA (R289). Read data arrives for the requester's remote tag. -/
  | readData (g : CageNo) (q : StavaPacket)
  /-- RESPONSE (R288). A refusal status arrives for a remote tag. -/
  | response (g : CageNo) (q : StavaPacket)
  /-- REVOKE_NOTICE (R288). A revocation notice arrives and queued transactions to the window complete with STALE_GENERATION. -/
  | revokeNotice (g : CageNo) (q : StavaPacket)
  /-- ACK (R277). An ACK arrives, freeing acknowledged packets and triggering SACK retransmission and window change. -/
  | ack (g : CageNo) (q : StavaPacket)
  /-- ACK_TIMER (R277). An ACK is sent 2 µs after the oldest unacknowledged landed packet. -/
  | ackTimer (node flow : Nat)
  /-- RETRANSMIT_TIMEOUT (R278). A packet unacknowledged 20 µs after its last transmission is retransmitted. -/
  | retransmitTimeout (node flow seq : Nat)
  /-- SUSPEND_EXPIRY (R278). A suspended node-cage pair's 10 ms suspension ends. -/
  | suspendExpiry (node : Nat) (g : CageNo)
  /-- FLOW_IDLE_FREE (R276). Flow state is freed after 1 ms idle. -/
  | flowIdleFree (node flow : Nat) (rx : Bool)
  /-- FLOW_FAIL (R281). A flow fails, completing its transactions with LINK_LOST. -/
  | flowFail (node flow : Nat)
  /-- CAGE_ENABLE (R293). ENABLE written 1 or 0 enables a cage or disables it. -/
  | cageEnable (p : Port) (g : CageNo) (v : Word)
  /-- RETRAIN (R293). RETRAIN written 1 sends an UP or UP_HALF cage back to TRAINING. -/
  | retrain (p : Port) (g : CageNo) (v : Word)
  /-- PRESENCE_HELD (R293). Presence held 100 ms powers the optic and starts CMIS initialisation. -/
  | presenceHeld (g : CageNo)
  /-- MODULE_READY (R293). A ready optic or identified copper cable starts training, or a high power class sends the cage DOWN. -/
  | moduleReady (g : CageNo) (copper : Bool) (watts : Nat)
  /-- CMIS_TIMEOUT (R293). CMIS not ready within 5 s sends the cage DOWN. -/
  | cmisTimeout (g : CageNo)
  /-- TRAINING_DONE (R293). Eight lanes lock and the PCS aligns; the cage becomes UP. -/
  | trainingDone (g : CageNo)
  /-- TRAINING_TIMEOUT (R293). After 2 s of training the cage becomes UP_HALF or DOWN. -/
  | trainingTimeout (g : CageNo) (clean : CleanLanes)
  /-- LINK_LOSS (R294). Loss of signal, alignment or the FEC threshold sends an UP cage DOWN and moves its packets. -/
  | linkLoss (g : CageNo) (loss : LossSeen)
  /-- DOWN_TIMEOUT (R293). One second in DOWN returns the cage to TRAINING. -/
  | downTimeout (g : CageNo)
  /-- PRESENCE_LOST (R293). Presence lost for 1 ms sends the cage to EMPTY. -/
  | presenceLost (g : CageNo)
  /-- LINK_WINTAB_HI (R474). A write that commits the window-table address and clears every descriptor. -/
  | linkWintabHi (p : Port) (v : Word)
  /-- COLLECTIVE_GATE_OPEN (R299). A collective takes its contribution once its gate counter passes WAIT_VALUE and sends READY. -/
  | collectiveGateOpen (c : CtxNo) (t : Nat)
  /-- COLLECTIVE_STAGE (R311). The reduction engine starts a non-preemptible stage of up to 256 KiB for a resident context. -/
  | collectiveStage (c : CtxNo) (t : Nat)
  /-- COLLECTIVE_STAGE_END (R387). A collective stage finishes, extending a slice on overrun. -/
  | collectiveStageEnd (c : CtxNo) (t : Nat)
  /-- PARTIAL (R306). A partial-sum chunk arrives and is added in member order. -/
  | partial_ (g : CageNo) (q : StavaPacket)
  /-- RESULT (R306). A result chunk arrives, is written to DST and passed on. -/
  | result (g : CageNo) (q : StavaPacket)
  /-- READY (R310). A member's READY arrives at the coordinator or a sender. -/
  | ready (g : CageNo) (q : StavaPacket)
  /-- ALL_READY (R310). The coordinator's ALL_READY arrives at a member. -/
  | allReady (g : CageNo) (q : StavaPacket)
  /-- STRAGGLER (R310). A STRAGGLER message with the missing map arrives and the member raises the event. -/
  | straggler (g : CageNo) (q : StavaPacket)
  /-- RECORD (R313). A RECORD message with non-finite counts arrives. -/
  | record (g : CageNo) (q : StavaPacket)
  /-- NORM_TOTAL (R315). A member's norm total arrives up the heap. -/
  | normTotal (g : CageNo) (q : StavaPacket)
  /-- DIGEST (R321). A digest-exchange message arrives and the reference is derived. -/
  | digest (g : CageNo) (q : StavaPacket)
  /-- GRANT (R326). A PERMUTE GRANT arrives, allowing the staged piece to be sent. -/
  | grant (g : CageNo) (q : StavaPacket)
  /-- ARRIVAL (R323). An ARRIVAL message lands after a receiver's last packet. -/
  | arrival (g : CageNo) (q : StavaPacket)
  /-- REFUSE (R304). A REFUSE arrives and the collective completes with its status. -/
  | refuse (g : CageNo) (q : StavaPacket)
  /-- STRAGGLER_TIMEOUT (R310). COLL_STRAGGLER elapses without ALL_READY and the coordinator or member raises a straggler event. -/
  | stragglerTimeout (c : CtxNo) (t : Nat)
  /-- NORM_STEP (R315). A NORM_FINAL collective forms the global norm once earlier NORM collectives complete and writes clip and skip. -/
  | normStep (c : CtxNo) (t : Nat)
  /-- COLLECTIVE_COMPLETE (R309). A collective completes on a member, writing its record and adding to DONE_CTR. -/
  | collectiveComplete (c : CtxNo) (t : Nat)
  /-- SLICE_BOUNDARY (R382). At a slice boundary incoming residents arrive and a pending table takes effect. -/
  | sliceBoundary (p : PartNo)
  /-- DEPARTURE (R383). A context departs from t_s: dealing stops, rebuildable state is dropped and kept state saved. -/
  | departure (c : CtxNo)
  /-- DEPARTURE_ABANDON (R383). A departing context's unit still uncommitted at the budget is abandoned and re-issued. -/
  | departureAbandon (k : CluNo) (u : Nat)
  /-- CONTEXT_ARRIVAL (R386). An arriving context has its kept state restored and dealing resumes. -/
  | contextArrival (c : CtxNo)
  /-- ALL_BLOCKED (R389). When every resident is blocked, a runnable standby is brought in, evicting a resident if needed. -/
  | allBlocked (p : PartNo)
  /-- NOTICE_TIMEOUT (R396). A member in fallback lets incoming contexts arrive at local T + 1 ms without a switch notice. -/
  | noticeTimeout (p : PartNo)
  /-- SYNC_EDGE (R393). A SYNC rising edge loads an armed time or measures the counter error. -/
  | syncEdge
  /-- REFERENCE_PRESENT (R393). Reference and SYNC present for 10 ms; the loop locks. -/
  | referencePresent
  /-- REFERENCE_LOST (R393). Reference or SYNC absent for 3 ms; the counter enters HOLDOVER. -/
  | referenceLost
  /-- TIME_ARM_HI (R392). A write that arms the time of a coming SYNC edge. -/
  | timeArmHi (p : Port) (v : Word)
  /-- ACCOUNTING_PERIOD (R400). At each multiple of TIME_ACCT_PERIOD, PERIODIC accounting records are written. -/
  | accountingPeriod
  /-- TIME_ACCT_SNAP (R400). A GO write that writes a SNAPSHOT accounting record for a context. -/
  | timeAcctSnap (p : Port) (v : Word)
  /-- KAPPA_CALIBRATION (R402). Every 100 ms the energy calibration factor is recomputed from rail measurements. -/
  | kappaCalibration (measured : Nat)
  /-- TEARDOWN_COMPLETE (R426). TEARING ends when every activity is disposed of, and FINAL accounting is written. -/
  | teardownComplete (c : CtxNo)
  /-- TEARDOWN_TIMEOUT (R426). Activity still held at 200 µs of TEARING is reset at the engine level. -/
  | teardownTimeout (c : CtxNo)
  /-- QUIESCENCE_END (R427). The quiescence epoch ends and the context number returns to FREE. -/
  | quiescenceEnd (c : CtxNo)
  /-- HANG (R429). A progress watchdog reaches four budgets and the context is faulted, dumped and torn down. -/
  | hang (c : CtxNo)
  /-- ENGINE_RESET_TIMEOUT (R430). An engine reset exceeding 1 ms escalates to partition reset. -/
  | engineResetTimeout (k : CluNo)
  /-- PARTITION_RESET_TIMEOUT (R430). A partition reset exceeding 10 ms escalates to chip reset. -/
  | partitionResetTimeout (p : PartNo)
  /-- CHIP_RESET (R430). A chip reset loses contexts, returns the null Frame and UNOWNED, tests sites and boots firmware. -/
  | chipReset (cause : Nat) (passed : List Nat)
  /-- POWER_CYCLE (R453). The module asserts PCYC_REQ# and requests a power cycle. -/
  | powerCycle
  /-- TEST_RUN (R436). A test-package run starts on an eligible cluster. -/
  | testRun (k : CluNo)
  /-- TEST_RUN_END (R435). A test run ends in pass or fail and the unit's health state changes. -/
  | testRunEnd (k : CluNo) (failed : Option (Option (Fin 3)))
  /-- TEST_RUN_ABANDON (R436). A reclaim, eviction arrival, remap or partial application abandons a test run. -/
  | testRunAbandon (k : CluNo)
  /-- TEST_STARVED (R436). A SUSPECT cluster without a test window for an hour raises TEST_STARVED. -/
  | testStarved (k : CluNo)
  /-- FLT_LOG_HI (R474). A write that commits the fault-log address. -/
  | fltLogHi (p : Port) (v : Word)
  /-- BOOT (R405). After power-good or chip reset the security core verifies a bank and loads firmware, entering HELD or RECOVERY. -/
  | boot
  /-- PROCESSOR_CRASH (R417). A firmware processor misses its watchdog or faults, stopping it or escalating after a fourth crash. -/
  | processorCrash (proc : Fin 4) (k : CluNo) (cause : Fin 3)
  /-- PROCESSOR_RESTART (R417). A crashed processor restarts and resumes its duties. -/
  | processorRestart (proc : Fin 4) (k : CluNo)
  /-- STANDBY_START (R451). VIN rises through 47 V, the standby converter starts and the module controller answers. -/
  | standbyStart (mv : Nat)
  /-- MAIN_POWER_ON (R451). TRAY_EN asserted starts the main rails in order and asserts PG, or refuses to start. -/
  | mainPowerOn (mv : Nat) (start : StartSeen)
  /-- MAIN_POWER_OFF (R452). TRAY_EN deasserted or VIN below 46 V removes main power. -/
  | mainPowerOff (mv : Option Nat)
  /-- STANDBY_STOP (R452). VIN falls below 42 V and standby power stops. -/
  | standbyStop (mv : Nat)
  /-- GOVERNOR_STEP (R454). The governor steps a half's clock toward its limits, pausing its routers. -/
  | governorStep (h : HalfNo) (junction : Int) (dieW : Nat) (drawsMore : Bool)
  /-- POWER_WINDOW (R456). Each 100 µs window, partition power estimates set array throttling. -/
  | powerWindow (est : List (Nat × Nat))
  /-- EMERGENCY_FLAG_RAISED (R457). An emergency flag is raised and the governor takes its safe state. -/
  | emergencyFlagRaised (i : Fin 6)
  /-- EMERGENCY_END (R457). All flags clear for 100 ms end the emergency. -/
  | emergencyEnd
  /-- THERMAL_TRIP (R458). A junction at 110 °C or a stack at 100 °C turns off the main rails. -/
  | thermalTrip (junction stack : Int)
  /-- SHORT_PRESS (R463). A short press of the button requests removal. -/
  | shortPress (ms : Nat)
  /-- LONG_PRESS (R463). A 5 s press cancels removal. -/
  | longPress (ms : Nat)
  /-- REQUEST (R464). A PWR_REMOVE REQUEST write requests removal. -/
  | request (p : Port)
  /-- QUIESCE_NOW (R464). A PWR_REMOVE QUIESCE_NOW write starts quiescing at once. -/
  | quiesceNow (p : Port)
  /-- CANCEL (R464). A PWR_REMOVE CANCEL write cancels removal and restores the cages. -/
  | cancel (p : Port)
  /-- GRACE_TIMEOUT (R464). The grace timer reaches GRACE_S and quiescing begins. -/
  | graceTimeout
  /-- QUIESCE_COMPLETE (R465). Quiescing completes and QUIESCED is asserted. -/
  | quiesceComplete
  /-- SET_TIME (R468). Management command that arms the time of a coming SYNC edge. -/
  | setTime (ns : Nat)
  /-- GET_STATUS (R468). Management command that returns power, health, firmware and time status. -/
  | getStatus
  /-- REMOVAL (R468). Management command that cancels, requests or quiesces removal. -/
  | removal (code : Nat)
  /-- PLDM_FIRMWARE_UPDATE (R469). A PLDM firmware update stages and activates an image from the tray controller. -/
  | pldmFirmwareUpdate (activate : Bool) (image : List Byte)
  /-- HOST_LINK_UP (R449). A host port's link trains and comes up after HpPERST# deassertion or a reset, so its claims become valid and a HANDOVER to it becomes legal. -/
  | hostLinkUp (p : Port)
  /-- APPLICATION_COMMIT (R345). At the commit instant every cluster of the partition and the I/O ring switch to the shadow tables together, and the application completes. -/
  | applicationCommit
  /-- ACTIVATION_COMPLETE (R414). A firmware activation finishes its handover steps, or a new component misses its start bound, and the activation completes OK or is undone with ACTIVATION_FAILED. -/
  | activationComplete (failed : Option (Fin 4 × CluNo))
  /-- FW_STAGE_COMPLETE (R410). A firmware staging that took up to 2 s plus LENGTH at 200 MB/s finishes writing the bank, marks it pending and completes. -/
  | fwStageComplete
  /-- FRAME_STAGE_COMPLETE (R341). A Frame staging finishes copying and verifying the container, within 1 ms plus LENGTH at 1 GB/s, and fills its staging slot. -/
  | frameStageComplete
  /-- CLUSTER_REMAP_COMPLETE (R264). After the binding acknowledgements, the VC7 wait and the spare's SRAM clearing, the remapped cluster takes units again. -/
  | clusterRemapComplete (k : CluNo)
  /-- BUBBLE_START (R328). A declared pipeline bubble begins at START + k × PERIOD, letting the filler's units be dealt to clusters that the declaring context leaves idle, or being counted as not filled. -/
  | bubbleStart (c : CtxNo) (i : Nat)
  /-- LINK_LANE_TEST (R435). A SUSPECT link lane is tested on the corrected FEC rate over the past 15 minutes at its eligible moments, passing, failing or going to REPLACE_MEDIA. -/
  | linkLaneTest (lane : Fin 64) (errPerMillion : Nat)
  /-- MARGIN_EXHAUSTED (R460). PWR_STATUS.MARGIN bit 0 sets when temperature has held either half below 1,200 MHz for more than 1 h within 24 h, entering replace requested. -/
  | marginExhausted (margin : MarginSeen)
  /-- MODULE_PULLED (R467). A module pulled with main power on loses PRSNT# before its blades break, and its main rails turn off within 500 µs, losing every content. -/
  | modulePulled
  deriving DecidableEq, Repr

end Sys2Proof
end

