-- ==== Sys2Proof/Decode.lean ====
section
/-! DEFINITION. Words and what they spell: no row of the opcode table gives bits, so no word spells a command; the 32-bit
words of the cores (R185, R186) decode to core instructions, and core instructions encode to words. -/

namespace Sys2Proof

/-- The command that a word of the opcode table spells: the table gives no row any bits. -/
def decodeTableWord (_nbits _w : Nat) : Option Instr := none

/-! ### Core instructions (07_cores_and_glaze R185) -/

/-- OP of S-ALU and S-IMM. -/
inductive AluOp where
  | add | sub | and | or | xor | sll | srl | sra | slt | sltu | mul | mulhu | min | max
  deriving DecidableEq, Repr

/-- COND of BRANCH. -/
inductive Cond where
  | eq | ne | lt | ge | ltu | geu
  deriving DecidableEq, Repr

/-- OP of a scalar load. -/
inductive LoadOp where
  | lw | lh | lhu | lb | lbu
  deriving DecidableEq, Repr

/-- OP of a scalar store. -/
inductive StoreOp where
  | sw | sh | sb
  deriving DecidableEq, Repr

/-- OP of V-ALU (R187). -/
inductive VOp where
  | vadd | vsub | vmul | vfma | vmin | vmax | vabs | vneg | vdiv | vsqrt | vexp | vlog | vrsqrt | vsum | vmaxr
  | vcmpgt | vcmple | vcmpeq | vsel | vand | vor | vxor | vshl | vshr | vmov
  deriving DecidableEq, Repr

/-- TYPE of V-ALU (R187). -/
inductive VType where
  | fp32 | bf16 | fp16 | int32 | int16 | int8
  deriving DecidableEq, Repr

/-- WIDTH of V-MEM and FAR. -/
inductive VWidth where
  | w32 | w16 | w8
  deriving DecidableEq, Repr

/-- ROUND (R84). -/
inductive Round where
  | nearest | toZero | up | down | stochastic
  deriving DecidableEq, Repr

/-- A format code (R64). -/
inductive Fmt where
  | fp32 | bf16 | fp16 | e4m3 | e5m2 | e3m2 | e2m3 | e2m1 | int8 | int4 | int32 | mxfp8 | mxfp6 | mxfp4 | mxint8 | bq8
  deriving DecidableEq, Repr

/-- A core instruction. Fields that R185 does not mark 0 are kept, also where the instruction has no use for them. -/
inductive CoreInstr where
  | alu (op : AluOp) (rd rs1 rs2 : BitVec 5)
  | imm (op : AluOp) (rd rs1 : BitVec 5) (imm12 : BitVec 12)
  | upper (rd : BitVec 5) (imm20 : BitVec 20)
  | branch (c : Cond) (rs1 rs2 : BitVec 5) (off : BitVec 15)
  | jump (rd rs : BitVec 5) (off : BitVec 18)
  | load (op : LoadOp) (rd base : BitVec 5) (off : BitVec 15)
  | store (op : StoreOp) (rs base : BitVec 5) (off : BitVec 15)
  | valu (op : VOp) (ty : VType) (pred : BitVec 2) (vd va vb vc : BitVec 4)
  | vld (pred : BitVec 2) (vd : BitVec 4) (base : BitVec 5) (wd : VWidth) (off : BitVec 8)
  | vst (pred : BitVec 2) (vs : BitVec 4) (base : BitVec 5) (wd : VWidth) (off : BitVec 8)
  | vgather (pred : BitVec 2) (vd : BitVec 4) (base : BitVec 5) (vidx : BitVec 4) (wd : VWidth)
  | vscatter (pred : BitVec 2) (vs : BitVec 4) (base : BitVec 5) (vidx : BitVec 4) (wd : VWidth)
  | vbcast (pred : BitVec 2) (vd : BitVec 4) (base : BitVec 5) (wd : VWidth)
  | vcvt (dst src : Fmt) (round : Round) (vd va : BitVec 4) (seed : BitVec 5) (bqU : Bool)
  | block (fmt : Fmt) (decode : Bool) (src dst seed : BitVec 5) (round : Round) (bqU : Bool)
  | fld (pred : BitVec 2) (vd : BitVec 4) (base : BitVec 5) (vidx : BitVec 4) (wd : VWidth)
  | fst (pred : BitVec 2) (vs : BitVec 4) (base : BitVec 5) (vidx : BitVec 4) (wd : VWidth)
  | fgather (pred : BitVec 2) (vd : BitVec 4) (base : BitVec 5) (vidx : BitVec 4) (wd : VWidth)
  | fscatter (pred : BitVec 2) (vs : BitVec 4) (base : BitVec 5) (vidx : BitVec 4) (wd : VWidth)
  | semwait (obj : BitVec 6) (r : BitVec 5)
  | sempost (obj : BitVec 6) (r : BitVec 5)
  | barrier (obj : BitVec 6) (r : BitVec 5)
  | evwait (obj : BitVec 6) (r : BitVec 5)
  | evadd (obj : BitVec 6) (r : BitVec 5)
  | fence (obj : BitVec 6) (r : BitVec 5)
  | fenceFar (obj : BitVec 6) (r : BitVec 5)
  | gdone (obj : BitVec 6) (r : BitVec 5)
  | csrr (rd : BitVec 5) (csr : BitVec 8)
  | csrw (rs : BitVec 5) (csr : BitVec 8)
  deriving DecidableEq, Repr

/-! ### Operation codes -/

def AluOp.code : AluOp → Nat
  | .add => 0 | .sub => 1 | .and => 2 | .or => 3 | .xor => 4 | .sll => 5 | .srl => 6 | .sra => 7 | .slt => 8
  | .sltu => 9 | .mul => 10 | .mulhu => 11 | .min => 12 | .max => 13

def aluOps : List AluOp :=
  [.add, .sub, .and, .or, .xor, .sll, .srl, .sra, .slt, .sltu, .mul, .mulhu, .min, .max]

def Cond.code : Cond → Nat
  | .eq => 0 | .ne => 1 | .lt => 2 | .ge => 3 | .ltu => 4 | .geu => 5

def conds : List Cond := [.eq, .ne, .lt, .ge, .ltu, .geu]

def LoadOp.code : LoadOp → Nat
  | .lw => 0 | .lh => 1 | .lhu => 2 | .lb => 3 | .lbu => 4

def loadOps : List LoadOp := [.lw, .lh, .lhu, .lb, .lbu]

def StoreOp.code : StoreOp → Nat
  | .sw => 5 | .sh => 6 | .sb => 7

def storeOps : List StoreOp := [.sw, .sh, .sb]

def VOp.code : VOp → Nat
  | .vadd => 0 | .vsub => 1 | .vmul => 2 | .vfma => 3 | .vmin => 4 | .vmax => 5 | .vabs => 6 | .vneg => 7
  | .vdiv => 8 | .vsqrt => 9 | .vexp => 10 | .vlog => 11 | .vrsqrt => 12 | .vsum => 13 | .vmaxr => 14
  | .vcmpgt => 15 | .vcmple => 16 | .vcmpeq => 17 | .vsel => 18 | .vand => 19 | .vor => 20 | .vxor => 21
  | .vshl => 22 | .vshr => 23 | .vmov => 24

def vOps : List VOp :=
  [.vadd, .vsub, .vmul, .vfma, .vmin, .vmax, .vabs, .vneg, .vdiv, .vsqrt, .vexp, .vlog, .vrsqrt, .vsum, .vmaxr,
    .vcmpgt, .vcmple, .vcmpeq, .vsel, .vand, .vor, .vxor, .vshl, .vshr, .vmov]

def VType.code : VType → Nat
  | .fp32 => 0 | .bf16 => 1 | .fp16 => 2 | .int32 => 3 | .int16 => 4 | .int8 => 5

def vTypes : List VType := [.fp32, .bf16, .fp16, .int32, .int16, .int8]

def VWidth.code : VWidth → Nat
  | .w32 => 0 | .w16 => 1 | .w8 => 2

def vWidths : List VWidth := [.w32, .w16, .w8]

/-- Bytes of an element of this width (R190). -/
def VWidth.bytes : VWidth → Nat
  | .w32 => 4 | .w16 => 2 | .w8 => 1

def Round.code : Round → Nat
  | .nearest => 0 | .toZero => 1 | .up => 2 | .down => 3 | .stochastic => 4

def rounds : List Round := [.nearest, .toZero, .up, .down, .stochastic]

def Fmt.code : Fmt → Nat
  | .fp32 => 0 | .bf16 => 1 | .fp16 => 2 | .e4m3 => 3 | .e5m2 => 4 | .e3m2 => 5 | .e2m3 => 6 | .e2m1 => 7
  | .int8 => 8 | .int4 => 9 | .int32 => 10 | .mxfp8 => 11 | .mxfp6 => 12 | .mxfp4 => 13 | .mxint8 => 14 | .bq8 => 15

def fmts : List Fmt :=
  [.fp32, .bf16, .fp16, .e4m3, .e5m2, .e3m2, .e2m3, .e2m1, .int8, .int4, .int32, .mxfp8, .mxfp6, .mxfp4, .mxint8, .bq8]

/-- The formats of VCVT (R191). -/
def Fmt.vcvtOk (f : Fmt) : Bool := f.code ≤ 10

/-- The formats of BLOCK (R185). -/
def Fmt.blockOk (f : Fmt) : Bool := 11 ≤ f.code

/-- The types an operation takes (R187). -/
def VOp.typeOk (op : VOp) (ty : VType) : Bool :=
  match op with
  | .vdiv | .vsqrt | .vexp | .vlog | .vrsqrt => ty == .fp32
  | _ => true

/-- A compare, whose VD[1:0] names the predicate written (R187). -/
def VOp.isCompare : VOp → Bool
  | .vcmpgt | .vcmple | .vcmpeq => true
  | _ => false

/-- What R185 to R187 and R191 ask of an instruction beyond its fields' widths. -/
def CoreInstr.wf : CoreInstr → Bool
  | .valu op ty _ vd _ _ _ => op.typeOk ty && (!op.isCompare || vd.toNat % 4 != 0)
  | .vcvt dst src _ _ _ _ _ => dst.vcvtOk && src.vcvtOk
  | .block fmt _ _ _ _ _ _ => fmt.blockOk
  | .fld _ _ base _ _ | .fst _ _ base _ _ | .fgather _ _ base _ _ | .fscatter _ _ base _ _ => base.toNat % 2 == 0
  | .csrw _ csr => csr == 4
  | _ => true

/-! ### Decoder -/

/-- The field of `w` bits at bit `pos`. -/
def wfld (n pos w : Nat) : BitVec w := BitVec.ofNat w (n / 2 ^ pos)

/-- V-MEM (R185, R190). -/
def decodeVMem (n : Nat) : Option CoreInstr :=
  let pred := wfld n 23 2
  let vd := wfld n 19 4
  let base := wfld n 14 5
  let vidx := wfld n 10 4
  let off := wfld n 0 8
  match vWidths[n / 2 ^ 8 % 4]?, n / 2 ^ 25 % 8 with
  | some wd, 0 => if vidx = 0 then some (.vld pred vd base wd off) else none
  | some wd, 1 => if vidx = 0 then some (.vst pred vd base wd off) else none
  | some wd, 2 => if off = 0 then some (.vgather pred vd base vidx wd) else none
  | some wd, 3 => if off = 0 then some (.vscatter pred vd base vidx wd) else none
  | some wd, 4 => if vidx = 0 ∧ off = 0 then some (.vbcast pred vd base wd) else none
  | _, _ => none

/-- FAR (R185, R193). -/
def decodeFar (n : Nat) : Option CoreInstr :=
  let pred := wfld n 23 2
  let vd := wfld n 19 4
  let base := wfld n 14 5
  let vidx := wfld n 10 4
  if n % 256 ≠ 0 then none
  else
    match vWidths[n / 2 ^ 8 % 4]?, n / 2 ^ 25 % 8 with
    | some wd, 0 => some (.fld pred vd base vidx wd)
    | some wd, 1 => some (.fst pred vd base vidx wd)
    | some wd, 2 => some (.fgather pred vd base vidx wd)
    | some wd, 3 => some (.fscatter pred vd base vidx wd)
    | _, _ => none

/-- SYNC (R185). -/
def decodeSync (n : Nat) : Option CoreInstr :=
  let obj := wfld n 18 6
  let r := wfld n 13 5
  if n % 2 ^ 13 ≠ 0 then none
  else
    match n / 2 ^ 24 % 16 with
    | 0 => some (.semwait obj r)
    | 1 => some (.sempost obj r)
    | 2 => some (.barrier obj r)
    | 3 => some (.evwait obj r)
    | 4 => some (.evadd obj r)
    | 5 => some (.fence obj r)
    | 6 => some (.fenceFar obj r)
    | 7 => some (.gdone obj r)
    | _ => none

/-- LOAD/STORE (R185). -/
def decodeMem (n : Nat) : Option CoreInstr :=
  let r := wfld n 20 5
  let base := wfld n 15 5
  let off := wfld n 0 15
  match n / 2 ^ 25 % 8 with
  | 0 => some (.load .lw r base off)
  | 1 => some (.load .lh r base off)
  | 2 => some (.load .lhu r base off)
  | 3 => some (.load .lb r base off)
  | 4 => some (.load .lbu r base off)
  | 5 => some (.store .sw r base off)
  | 6 => some (.store .sh r base off)
  | _ => some (.store .sb r base off)

/-- What the word's class and fields spell, before `CoreInstr.wf`. -/
def decodeFields (n : Nat) : Option CoreInstr :=
  match n / 2 ^ 28 % 16 with
  | 0 =>
    if n % 2 ^ 7 ≠ 0 then none
    else (aluOps[n / 2 ^ 22 % 64]?).map fun op => .alu op (wfld n 17 5) (wfld n 12 5) (wfld n 7 5)
  | 1 => (aluOps[n / 2 ^ 22 % 64]?).map fun op => .imm op (wfld n 17 5) (wfld n 12 5) (wfld n 0 12)
  | 2 => if n % 8 ≠ 0 then none else some (.upper (wfld n 23 5) (wfld n 3 20))
  | 3 => (conds[n / 2 ^ 25 % 8]?).map fun c => .branch c (wfld n 20 5) (wfld n 15 5) (wfld n 0 15)
  | 4 => some (.jump (wfld n 23 5) (wfld n 18 5) (wfld n 0 18))
  | 5 => decodeMem n
  | 6 =>
    match vOps[n / 2 ^ 22 % 64]?, vTypes[n / 2 ^ 19 % 8]? with
    | some op, some ty =>
      if n % 2 ≠ 0 then none else some (.valu op ty (wfld n 17 2) (wfld n 13 4) (wfld n 9 4) (wfld n 5 4) (wfld n 1 4))
    | _, _ => none
  | 7 => decodeVMem n
  | 8 =>
    match fmts[n / 2 ^ 24 % 16]?, fmts[n / 2 ^ 20 % 16]?, rounds[n / 2 ^ 17 % 8]? with
    | some dst, some src, some rnd =>
      if n % 8 ≠ 0 then none
      else some (.vcvt dst src rnd (wfld n 13 4) (wfld n 9 4) (wfld n 4 5) (n / 2 ^ 3 % 2 == 1))
    | _, _, _ => none
  | 9 =>
    match fmts[n / 2 ^ 24 % 16]?, rounds[n / 2 ^ 5 % 8]? with
    | some f, some rnd =>
      if n % 16 ≠ 0 then none
      else some (.block f (n / 2 ^ 23 % 2 == 1) (wfld n 18 5) (wfld n 13 5) (wfld n 8 5) rnd (n / 2 ^ 4 % 2 == 1))
    | _, _ => none
  | 10 => decodeFar n
  | 11 => decodeSync n
  | 12 =>
    if n % 2 ^ 11 ≠ 0 then none
    else
      match n / 2 ^ 24 % 16 with
      | 0 => some (.csrr (wfld n 19 5) (wfld n 11 8))
      | 1 => some (.csrw (wfld n 19 5) (wfld n 11 8))
      | _ => none
  | _ => none

/-- The core instruction of a word; none where R186 makes the word illegal. -/
def decodeCore (w : Word) : Option CoreInstr :=
  match decodeFields w.toNat with
  | some i => if i.wf then some i else none
  | none => none

/-! ### Encoder -/

/-- The fields of an instruction as (bit position, value), from the table of R185. -/
def CoreInstr.fields : CoreInstr → List (Nat × Nat)
  | .alu op rd rs1 rs2 => [(28, 0), (22, op.code), (17, rd.toNat), (12, rs1.toNat), (7, rs2.toNat)]
  | .imm op rd rs1 i => [(28, 1), (22, op.code), (17, rd.toNat), (12, rs1.toNat), (0, i.toNat)]
  | .upper rd i => [(28, 2), (23, rd.toNat), (3, i.toNat)]
  | .branch c rs1 rs2 off => [(28, 3), (25, c.code), (20, rs1.toNat), (15, rs2.toNat), (0, off.toNat)]
  | .jump rd rs off => [(28, 4), (23, rd.toNat), (18, rs.toNat), (0, off.toNat)]
  | .load op rd base off => [(28, 5), (25, op.code), (20, rd.toNat), (15, base.toNat), (0, off.toNat)]
  | .store op rs base off => [(28, 5), (25, op.code), (20, rs.toNat), (15, base.toNat), (0, off.toNat)]
  | .valu op ty p vd va vb vc =>
    [(28, 6), (22, op.code), (19, ty.code), (17, p.toNat), (13, vd.toNat), (9, va.toNat), (5, vb.toNat), (1, vc.toNat)]
  | .vld p vd base wd off =>
    [(28, 7), (25, 0), (23, p.toNat), (19, vd.toNat), (14, base.toNat), (8, wd.code), (0, off.toNat)]
  | .vst p vs base wd off =>
    [(28, 7), (25, 1), (23, p.toNat), (19, vs.toNat), (14, base.toNat), (8, wd.code), (0, off.toNat)]
  | .vgather p vd base vidx wd =>
    [(28, 7), (25, 2), (23, p.toNat), (19, vd.toNat), (14, base.toNat), (10, vidx.toNat), (8, wd.code)]
  | .vscatter p vs base vidx wd =>
    [(28, 7), (25, 3), (23, p.toNat), (19, vs.toNat), (14, base.toNat), (10, vidx.toNat), (8, wd.code)]
  | .vbcast p vd base wd => [(28, 7), (25, 4), (23, p.toNat), (19, vd.toNat), (14, base.toNat), (8, wd.code)]
  | .vcvt dst src rnd vd va seed u =>
    [(28, 8), (24, dst.code), (20, src.code), (17, rnd.code), (13, vd.toNat), (9, va.toNat), (4, seed.toNat),
      (3, if u then 1 else 0)]
  | .block f dec src dst seed rnd u =>
    [(28, 9), (24, f.code), (23, if dec then 1 else 0), (18, src.toNat), (13, dst.toNat), (8, seed.toNat), (5, rnd.code),
      (4, if u then 1 else 0)]
  | .fld p vd base vidx wd =>
    [(28, 10), (25, 0), (23, p.toNat), (19, vd.toNat), (14, base.toNat), (10, vidx.toNat), (8, wd.code)]
  | .fst p vs base vidx wd =>
    [(28, 10), (25, 1), (23, p.toNat), (19, vs.toNat), (14, base.toNat), (10, vidx.toNat), (8, wd.code)]
  | .fgather p vd base vidx wd =>
    [(28, 10), (25, 2), (23, p.toNat), (19, vd.toNat), (14, base.toNat), (10, vidx.toNat), (8, wd.code)]
  | .fscatter p vs base vidx wd =>
    [(28, 10), (25, 3), (23, p.toNat), (19, vs.toNat), (14, base.toNat), (10, vidx.toNat), (8, wd.code)]
  | .semwait o r => [(28, 11), (24, 0), (18, o.toNat), (13, r.toNat)]
  | .sempost o r => [(28, 11), (24, 1), (18, o.toNat), (13, r.toNat)]
  | .barrier o r => [(28, 11), (24, 2), (18, o.toNat), (13, r.toNat)]
  | .evwait o r => [(28, 11), (24, 3), (18, o.toNat), (13, r.toNat)]
  | .evadd o r => [(28, 11), (24, 4), (18, o.toNat), (13, r.toNat)]
  | .fence o r => [(28, 11), (24, 5), (18, o.toNat), (13, r.toNat)]
  | .fenceFar o r => [(28, 11), (24, 6), (18, o.toNat), (13, r.toNat)]
  | .gdone o r => [(28, 11), (24, 7), (18, o.toNat), (13, r.toNat)]
  | .csrr rd c => [(28, 12), (24, 0), (19, rd.toNat), (11, c.toNat)]
  | .csrw rs c => [(28, 12), (24, 1), (19, rs.toNat), (11, c.toNat)]

/-- The sum of the fields at their places. -/
def sumFields : List (Nat × Nat) → Nat
  | [] => 0
  | (p, v) :: t => v * 2 ^ p + sumFields t

/-- The word of a core instruction (R185). -/
def encodeCore (i : CoreInstr) : Word := BitVec.ofNat 32 (sumFields i.fields)

/-! ### Which row a word belongs to -/

/-- The rows of the opcode table for core instructions. -/
inductive CoreRow where
  | sAlu | sImm | upper | branch | jump | load | store | vAlu | vld | vst | vgather | vscatter | vbcast | vcvt | block
  | fld | fst | fgather | fscatter | semwait | sempost | barrier | evwait | evadd | fenceCore | fenceFar | gdone
  | csrr | csrw
  deriving DecidableEq, Repr

/-- The row that issues a word, by its class and OP. A word with a reserved OP belongs to the first row of its class, and
one of the classes 0xD to 0xF to S_ALU: it is illegal whichever row issues it (R186). -/
def coreRow (w : Word) : CoreRow :=
  let n := w.toNat
  match n / 2 ^ 28 % 16 with
  | 0 => .sAlu
  | 1 => .sImm
  | 2 => .upper
  | 3 => .branch
  | 4 => .jump
  | 5 => if n / 2 ^ 25 % 8 < 5 then .load else .store
  | 6 => .vAlu
  | 7 => ([.vld, .vst, .vgather, .vscatter, .vbcast] : List CoreRow).getD (n / 2 ^ 25 % 8) .vld
  | 8 => .vcvt
  | 9 => .block
  | 10 => ([.fld, .fst, .fgather, .fscatter] : List CoreRow).getD (n / 2 ^ 25 % 8) .fld
  | 11 => ([.semwait, .sempost, .barrier, .evwait, .evadd, .fenceCore, .fenceFar, .gdone] : List CoreRow).getD
      (n / 2 ^ 24 % 16) .semwait
  | 12 => ([.csrr, .csrw] : List CoreRow).getD (n / 2 ^ 24 % 16) .csrr
  | _ => .sAlu

end Sys2Proof
end

