-- ==== Sys2Proof/Machine/State.lean ====
section
/-! DEFINITION. The state of the block as plain data, its reset, and the reasons a step can stop.
Each field's docstring gives: what it is; width; the file and rule of spec/ that names it; its reset value. -/

namespace Sys2Proof.Machine

/-- Why a step faults. Nobody raises a fault: every command of the table has an effect or leaves the block as it is,
and every error the spec describes is the device's own (a status, a context fault, an event). Safe. -/
inductive Fault where
  deriving DecidableEq, Repr

/-- Why a command is refused. -/
inductive Refusal where
  /-- Raised by an arm of exec whose command has no meaning yet; safe, since nothing is claimed of it. -/
  | notModelled (mnemonic : String)
  deriving DecidableEq, Repr

/-- An exact value: NaN, an infinity, or (−1)^neg × m × 2^e (R67, R81). -/
inductive Num where
  | nan
  | inf (neg : Bool)
  | fin (neg : Bool) (m : Nat) (e : Int)
  deriving DecidableEq, Repr

/-! ### Kept without main power: fuses, flash banks, module controller -/

/-- A fuse-log record (R443). -/
structure FuseRec where
  kind : Nat
  entry : Nat
  requester : Nat
  port : Nat
  old : Nat
  new : Nat
  time : Nat
  deriving DecidableEq, Repr

/-- What a flash bank holds of a firmware image that verifies but for its rollback index (R408). -/
structure Image where
  version : Nat
  rollback : Nat
  ifMin : Nat
  ifMax : Nat
  handoffOut : Nat
  handoffMin : Nat
  deriving DecidableEq, Repr

/-- Removal states (R464). -/
inductive Removal where
  | idle | pending | quiescing | quiesced
  deriving DecidableEq, Repr

/-- What survives the loss of main power (R368, R442, R464): fuses and flash for ever, the rest on standby power. -/
structure NonVol where
  /-- Option position memory is M24. width 1. 00_scope R2, R7. Reset false (OCY-9600-M32-L8-S, the printed reset). -/
  m24 : Bool
  /-- Option position links is L4. width 1. 00_scope R7, R8. Reset false. -/
  l4 : Bool
  /-- Option position speculation and sorting is N. width 1. 00_scope R7, R8. Reset false. -/
  specN : Bool
  /-- DEV_STEPPING as fused. width 32. 00_scope R7. Reset 0x0001_0101. -/
  stepping : Word
  /-- Anti-rollback counter. width 7. 15_firmware R409, R442. Reset DESIGN CHOICE 0 (log entry 3): the spec says "fused". -/
  rollback : Nat
  /-- Retired stacks in the order of retirement, at most 4. width 4 x 5. 08_memory R244, R442. Reset none (the printed reset of FLT_HEALTH). -/
  retired : List Nat
  /-- Fused cluster remaps (cluster, site), at most 48. 09_on_die_fabric R267, R442. Reset none (the printed reset of FLT_HEALTH). -/
  remaps : List (Nat × Nat)
  /-- OWN_POLICY.MASK. width 4. 13_host_interface R356, R375. Reset 0xF. -/
  policyMask : Nat
  /-- OWN_POLICY.CHANGES. width 4. 13_host_interface R356, R375. Reset 0. -/
  policyChanges : Nat
  /-- The fuse log, oldest first, at most 256 records. 16_faults R442. Reset DESIGN CHOICE empty (log entry 3): FLT_FUSE_COUNT is "fused". -/
  fuseLog : List FuseRec
  /-- Flash bank A. 15_firmware R405, R410. Reset DESIGN CHOICE a verifying image (log entry 4). -/
  bankA : Option Image
  /-- Flash bank B. 15_firmware R405, R410. Reset DESIGN CHOICE empty (log entry 4). -/
  bankB : Option Image
  /-- The bank marked active is B. width 1. 15_firmware R405. Reset DESIGN CHOICE false (log entry 4). -/
  activeB : Bool
  /-- The bank marked pending, true = B. 15_firmware R410, FW_STATE.PENDING. Reset none. -/
  pendingB : Option Bool
  /-- Context generations, held by the module controller. 256 x 16. 13_host_interface R368. Reset 0. -/
  gens : SMap Nat
  /-- The standby converter runs. width 1. 17_module R451, R452. Reset true (chip reset is released under main power). -/
  standby : Bool
  /-- VIN in mV. 17_module R450. Reset DESIGN CHOICE 54000, the typical value (log entry 5). -/
  vin : Nat
  /-- TRAY_EN. width 1. 17_module R447. Reset true (PWR_STATUS resets to 0x0000_8000). -/
  trayEn : Bool
  /-- The main rails are on. width 1. 17_module R451. Reset true. -/
  mainOn : Bool
  /-- PG. width 1. 17_module R447, R451. Reset true. -/
  pg : Bool
  /-- PCYC_REQ# asserted. width 1. 17_module R453. Reset false. -/
  pcycReq : Bool
  /-- QUIESCED. width 1. 17_module R447, R464. Reset false. -/
  quiescedPin : Bool
  /-- PRSNT# asserted. width 1. 17_module R447, R467. Reset true. -/
  prsnt : Bool
  /-- Removal state. width 2. 17_module R464, PWR_REMOVE.STATE. Reset IDLE. -/
  removal : Removal
  /-- PWR_REMOVE.SOURCE. width 2. 17_module R472. Reset 0. -/
  removalSource : Nat
  /-- `up` when the grace timer started. 17_module R464. Reset 0. -/
  graceFrom : Nat
  /-- ENABLE of each cage before quiescing disabled it. width 8. 17_module R464. Reset 0. -/
  cagesBefore : Nat
  /-- The module's own oscillator: ns since standby power-on. The model's own clock of every duration (log entry 1). Reset 0. -/
  up : Nat
  deriving DecidableEq, Repr

/-! ### Ownership, rings, apertures (13_host_interface) -/

/-- Ownership states (R354). -/
inductive OwnSt where
  | unowned | owned | lost | handing
  deriving DecidableEq, Repr

/-- Ownership of the device. -/
structure Own where
  /-- OWN_STATE.STATE. width 3. 13 R354, R375. Reset UNOWNED. -/
  st : OwnSt
  /-- OWN_STATE.OWNER. width 2. 13 R375. Reset 0. -/
  owner : Port
  /-- OWN_STATE.TARGET. width 2. 13 R375. Reset 0. -/
  target : Port
  /-- OWN_STATE.ELECTIONS. width 16. 13 R375. Reset 0. -/
  elections : Nat
  /-- OWN_LOSS_MS. width 16. 13 R375. Reset 2000. -/
  lossMs : Nat
  /-- Ports whose link is up. width 4. 13 R354, 17 R449. Reset 0: the links train after reset. -/
  linkUp : Nat
  /-- `up` when the loss timer started. 13 R354. Reset 0. -/
  lossFrom : Nat
  /-- `up` when the handover timer started. 13 R354. Reset 0. -/
  handFrom : Nat
  /-- The HANDOVER in progress (its place in the order of taking). 13 R354. Reset none. -/
  handTag : Option Nat
  /-- UNOWNED was reached by the loss timer: the next election has code 2. 13 R374. Reset false. -/
  afterLoss : Bool
  deriving DecidableEq, Repr

/-- The admin rings (R357, R376). -/
structure AdminRing where
  /-- RING_ADMIN_LO/HI.ADDR as the DPA in units of 4 KiB. width 32. 13 R376. Reset 0. -/
  base : Nat
  /-- RING_ADMIN_CTRL.VECTOR. width 5. 13 R376. Reset 0. -/
  vector : Nat
  /-- RING_ADMIN_CTRL.LOG2. width 4. 13 R376. Reset 0. -/
  log2 : Nat
  /-- RING_ADMIN_CTRL.ENABLE. width 1. 13 R376. Reset 0. -/
  en : Bool
  /-- RING_ADMIN_SQ_TAIL. width 12. 13 R376. Reset 0. -/
  sqTail : Nat
  /-- RING_ADMIN_STATUS.SQ_HEAD. width 12. 13 R376. Reset 0. -/
  sqHead : Nat
  /-- RING_ADMIN_STATUS.CQ_TAIL. width 12. 13 R376. Reset 0. -/
  cqTail : Nat
  /-- RING_ADMIN_CQ_HEAD. width 12. 13 R376. Reset 0. -/
  cqHead : Nat
  /-- RING_ADMIN_STATUS.PHASE. width 1. 13 R376. Reset 0 (no ring is enabled). -/
  phase : Bool
  /-- RING_ADMIN_STATUS.DRAINING. width 1. 13 R355, R376. Reset 0. -/
  draining : Bool
  /-- Doorbells not yet consumed: (tail, port) in order (R358 attributes entries to ports). Reset empty. -/
  bells : List (Nat × Port)
  /-- CMD_IDs of the untaken entries that get NOT_OWNER when the drain ends (R355), in ring order. Reset empty. -/
  untaken : List Nat
  deriving DecidableEq, Repr

/-- A device-written owner ring: event, firmware log or accounting (R357, R359). -/
structure DevRing where
  /-- RING_DEV_LO/HI.ADDR in units of 4 KiB. width 32. 13 R376. Reset 0. -/
  base : Nat
  /-- RING_DEV_CTRL.VECTOR. width 5. 13 R376. Reset 0. -/
  vector : Nat
  /-- RING_DEV_CTRL.LOG2. width 4. 13 R376. Reset 0. -/
  log2 : Nat
  /-- RING_DEV_CTRL.ENABLE. width 1. 13 R376. Reset 0. -/
  en : Bool
  /-- RING_DEV_HEAD. width 12. 13 R376. Reset 0. -/
  head : Nat
  /-- RING_DEV_TAIL.TAIL. width 12. 13 R376. Reset 0. -/
  tail : Nat
  /-- RING_DEV_TAIL.PHASE. width 1. 13 R376. Reset 0. -/
  phase : Bool
  /-- Records waiting on die, oldest first, PHASE bit 0. 13 R359, RING_DEV_TAIL.QUEUED. Reset empty. -/
  queue : List Nat
  /-- RING_DEV_LOST. width 32. 13 R376. Reset 0. -/
  lost : Nat
  /-- Events discarded since the last EVENTS_LOST (event ring only). 13 R374. Reset 0. -/
  gap : Nat
  deriving DecidableEq, Repr

/-- A BAR2 aperture (R351, R376, R474). -/
structure Aperture where
  /-- RING_APER_CTRL.MODE. width 2. 13 R376. Reset 0. -/
  mode : Nat
  /-- RING_APER_CTRL.WRITE. width 1. 13 R376. Reset 0. -/
  write : Bool
  /-- RING_APER_CTRL.CTX. width 8. 13 R376. Reset 0. -/
  ctx : Nat
  /-- RING_APER_LO/HI.BASE in force, in bytes. width 52. 13 R376. Reset 0. -/
  base : Nat
  /-- Staged RING_APER_LO.BASE (R474). Reset none. -/
  stage : Option Nat
  deriving DecidableEq, Repr

/-- A command taken from a ring and not complete (R360). -/
structure Taken where
  /-- Its place in the order of taking. -/
  tag : Nat
  /-- The ring: none = admin, else the context. -/
  ring : Option CtxNo
  /-- The port whose doorbell submitted it. -/
  port : Port
  /-- The 64-byte entry, little-endian (R363). -/
  entry : Nat
  /-- The command has begun and completes by another step. -/
  begun : Bool
  /-- Its INFO or DEFERRED record has been written (R360). -/
  informed : Bool
  deriving DecidableEq, Repr

/-- An MSI-X interrupt sent (R362): port and vector. -/
structure Irq where
  port : Port
  vector : Nat
  deriving DecidableEq, Repr

/-- Rings, apertures and commands taken. -/
structure Rings where
  /-- The admin rings. 13 R357. -/
  admin : AdminRing
  /-- The event ring, RING_DEV k = 0. 13 R357. -/
  evRing : DevRing
  /-- The firmware log ring, RING_DEV k = 1. 13 R357. -/
  logRing : DevRing
  /-- The accounting ring, RING_DEV k = 2. 13 R357. -/
  acctRing : DevRing
  /-- RING_DENIED. width 32. 13 R376. Reset 0. -/
  denied : Nat
  /-- Apertures, key 16p + a. 4 x 16. 13 R351. Reset OFF. -/
  apers : SMap Aperture
  /-- Commands taken and not complete, in the order of taking. 13 R360, R372. Reset empty. -/
  taken : List Taken
  /-- The next place in the order of taking. The model's own. Reset 0. -/
  nextTag : Nat
  /-- Events raised since chip reset. width 32. 13 R374 SEQ. Reset 0. -/
  evSeq : Nat
  /-- Interrupts sent, newest first. 13 R362. The model's own record of an output. Reset empty. -/
  irqs : List Irq
  /-- `up` of the last interrupt of each ring (0 admin, 1 to 3 device rings, 4 + c context c). 13 R362. Reset none. -/
  irqAt : SMap Nat
  /-- Rings whose interrupt is held until a microsecond has passed. 13 R362. Reset none. -/
  irqDue : List Nat
  /-- Halves captured by reads of _LO: key port or 4 + global core, value (offset of the _HI, captured half). 00 R17. Reset none. -/
  captures : List (Nat × Nat × Word)
  /-- The value the last register read returned. 00 R14. The model's own record of an output. Reset 0. -/
  readValue : Word
  /-- The bytes the last aperture read returned, and its EP indication. 13 R351, 08 R239. The model's own record of an output. Reset empty. -/
  readData : List Byte
  /-- The EP (poisoned) indication of the last aperture read. 08 R239. Reset false. -/
  readPoison : Bool
  deriving DecidableEq, Repr

/-! ### Stream programs (02_tile_streams to 07_cores_and_glaze) -/

/-- The stream program header (R28). -/
structure ProgHeader where
  entries : Nat
  spillBase : Nat
  spillSize : Nat
  statsBase : Nat
  recordBase : Nat
  deriving DecidableEq, Repr

/-- A stream descriptor (R34). Operand addresses are byte addresses. -/
structure StreamDesc where
  stream : Nat
  spillOk : Bool
  passThrough : Bool
  xposeFetch : Bool
  digest : Bool
  zmapSkip : Bool
  speculate : Bool
  zmapRecord : Bool
  pathLen : Nat
  arrayOp : Nat
  path : List Nat
  pathWord : Nat
  wAddr : Nat
  wFmt : Nat
  wPitch : Nat
  xAddr : Nat
  xFmt : Nat
  xPitch : Nat
  yAddr : Nat
  yFmt : Nat
  yPitch : Nat
  m : Nat
  round : Nat
  ksplit : Nat
  k : Nat
  wTree : Nat
  n : Nat
  glaze : Nat
  tm : Nat
  tn : Nat
  tk : Nat
  tp : Nat
  memOrder : Nat
  palOrder : Nat
  home : Nat
  depStream : Nat
  depKind : Nat
  palBase : Nat
  palSize : Nat
  recordSlot : Nat
  deriving DecidableEq, Repr

/-- The programmer-written fields of a stream record slot (R126). -/
structure SlotP where
  mapAddr : Nat
  predAddr : Nat
  maskAddr : Nat
  maskKind : Nat
  poly : Nat
  tau : Nat
  deriving DecidableEq, Repr

/-- A kernel table entry (R201). -/
structure KernelEntry where
  codeAddr : Nat
  codeWords : Nat
  kind : Nat
  shipped : Nat
  paramAddr : Nat
  arg0 : Nat
  arg1 : Nat
  deriving DecidableEq, Repr

/-- A remote target record (R291). -/
structure RemoteTarget where
  node : Nat
  window : Nat
  flowSel : Nat
  arrive : Bool
  winGen : Nat
  key : Nat
  arriveValue : Nat
  offset : Nat
  arriveOffset : Nat
  deriving DecidableEq, Repr

/-- A SORT descriptor (R159), fields as their tables mean them (CAND, EXPERTS, GROUP with 1 added). -/
structure SortDesc where
  stream : Nat
  op : Nat
  scale : Bool
  policy : Nat
  topk : Nat
  cand : Nat
  experts : Nat
  t : Nat
  rounds : Nat
  routeAddr : Nat
  srcAddr : Nat
  srcFmt : Nat
  srcPitch : Nat
  dstAddr : Nat
  dstFmt : Nat
  dstPitch : Nat
  listAddr : Nat
  cap : Nat
  self : Nat
  rowLen : Nat
  wStride : Nat
  group : Nat
  home : Nat
  depStream : Nat
  depKind : Nat
  tag : Nat
  deriving DecidableEq, Repr

/-- A checkpoint marker (R118). -/
structure Marker where
  kind : Nat
  mode : Nat
  rebuild : Bool
  halt : Bool
  block : Nat
  palKeep : Nat
  blockSlot : Nat
  deriving DecidableEq, Repr

/-- An entry of a stream program (R29) with the structures read at admission (R125, R202, R291). -/
inductive Entry where
  | finish
  | stream (d : StreamDesc) (slot : SlotP) (kernel : Option KernelEntry) (src dst : Option RemoteTarget)
      (gov : Option SortDesc)
  | marker (m : Marker)
  | sort (d : SortDesc)
  deriving DecidableEq, Repr

/-- A Tally slot (R49). -/
structure TallySlot where
  /-- TALLY_CTRL.STREAM. width 10. 02 R49. Reset 0. -/
  stream : Nat
  /-- TALLY_CTRL.CONTEXT. width 8. 02 R49. Reset 0. -/
  ctx : Nat
  /-- TALLY_CTRL.ACTIVE. width 1. 02 R49. Reset 0. -/
  active : Bool
  /-- TALLY_CTRL.COMBINING. width 1. 02 R49. Reset 0. -/
  combining : Bool
  /-- TALLY_NEXT. width 24. 02 R49. Reset 0. -/
  next : Nat
  /-- TALLY_TOTAL. width 24. 02 R49. Reset 0. -/
  total : Nat
  /-- TALLY_DONE. width 24. 02 R49. Reset 0. -/
  done : Nat
  /-- TALLY_REISSUE.PENDING. width 16. 02 R49. Reset 0. -/
  reissuePending : Nat
  /-- TALLY_REISSUE.TOTAL_REISSUED. width 16. 02 R49. Reset 0. -/
  reissued : Nat
  deriving DecidableEq, Repr

/-- An active stream or SORT entry of a program: R30 to R33, R43 to R54. -/
structure StreamRun where
  /-- Index of its entry in the program. -/
  idx : Nat
  /-- Home cluster (device number) and its Tally slot. -/
  home : Nat
  slot : Nat
  /-- Mode of its block: 0 FORWARD, 1 RECOMPUTE, 2 PLAIN (R121). -/
  mode : Nat
  /-- START_TIME of R63. -/
  startTime : Nat
  /-- System time at the last commit so far (END_TIME of R63). -/
  lastTime : Nat
  /-- Units on the re-issue list, ascending (R47). -/
  reissue : List Nat
  /-- Repair units not yet dealt, ascending bit index (R148). -/
  repairs : List Nat
  /-- Repair units that a cluster lost, ascending: they are dealt before the others (R47, R148). -/
  lostRepairs : List Nat
  /-- Repair units dealt or due and not committed. -/
  repairsOpen : Nat
  /-- Mispredicted tiles of a block-scaled Y whose repair has not committed, ascending, and the values that Glaze gave the elements of
  the blocks which those tiles share, FP32 or INT32, key row × 2^24 + column (R148). -/
  openTiles : List Nat
  openVals : SMap Word
  /-- Units committed, ascending. -/
  committed : List Nat
  /-- Tiles combined (R45), staged (R113) and copied (R113). -/
  combined : List Nat
  staged : List Nat
  copied : List Nat
  /-- Who makes the copy of a staged tile: key tile, 1 + the cluster; 0 = the copy was lost or not yet given out (R113). -/
  copier : SMap Nat
  /-- XOR of the digest contributions so far (R135). -/
  merge : Nat
  /-- CLUSTERS of R126 as one number, bit c. -/
  clusters : Nat
  /-- A non-finite value was narrowed (R91, R180). -/
  nonfinite : Bool
  /-- SKIPPED and MISPREDICTS (R126). -/
  skipped : Nat
  mispredicts : Nat
  /-- ISSUE_CYCLES and SPILL_CYCLES (R63). -/
  issue : Nat
  spill : Nat
  /-- The nine stall causes in the order of R63. -/
  stalls : List Nat
  /-- MC_FALLBACK (R63). -/
  fallback : Nat
  /-- The record slot has been written; its comparison found a difference (R137). -/
  recorded : Bool
  mismatch : Bool
  noref : Bool
  compared : Bool
  /-- The list phase has ended (R161), or arrival words have been seen (R174). -/
  ready : Bool
  /-- COUNT tables read when the stream started (R171). -/
  counts : List Nat
  /-- EXCHANGE: the arrival word has been sent (R292). -/
  arriveSent : Bool
  /-- Status of a failed remote transaction (R175, R281), 0 = none. -/
  remoteStatus : Nat
  /-- The refused packet whose status it is: node, flow and sequence number (R287). -/
  refusedAt : Option (Nat × Nat × Nat)
  /-- Its Tally slot while its context is away (R384). -/
  saved : Option TallySlot
  /-- Cycles without progress of its list phase or its wait (R428). -/
  idle : Nat
  deriving DecidableEq, Repr

/-- A stream of the program that has completed. -/
structure DoneRun where
  idx : Nat
  status : Nat
  mismatch : Bool
  noref : Bool
  compared : Bool
  skipped : Nat
  mispredicts : Nat
  deriving DecidableEq, Repr

/-- The block of a program now open (R120). -/
structure OpenBlock where
  idx : Nat
  marker : Marker
  beginTime : Nat
  restarts : Nat
  deriving DecidableEq, Repr

/-- A stream program admitted and not complete (R366). -/
structure Prog where
  tag : Nat
  header : ProgHeader
  entries : List Entry
  /-- The next entry to start (R30), and the cycles it has waited for one of the 8 active streams, a Tally slot or the spill area
  (R31, R33, R54). -/
  next : Nat
  waited : Nat
  block : Option OpenBlock
  runs : List StreamRun
  done : List DoneRun
  /-- The program stopped: status and entry index (R139, R168, R175, R281). -/
  stop : Option (Nat × Nat)
  mismatch : Bool
  nonfinite : Bool
  preempts : Nat
  deriving DecidableEq, Repr

/-! ### Contexts (13_host_interface R370, 14_scheduling) -/

/-- A digest unit (R140). -/
structure DigestUnit where
  /-- DIG_STATUS.SEQ. width 16. 05 R140. Reset 0. -/
  seq : Nat
  /-- DIG_STATUS.CONTEXT. width 8. 05 R140. Reset 0. -/
  ctx : Nat
  /-- DIG_STATUS.BUSY. width 1. 05 R140. Reset 0. -/
  busy : Bool
  /-- DIG_STATUS.VALID. width 1. 05 R140. Reset 0. -/
  valid : Bool
  /-- DIG_STREAM.POLY. width 2. 05 R140. Reset 0. -/
  poly : Nat
  /-- DIG_STREAM.STREAM. width 10. 05 R140. Reset 0. -/
  stream : Nat
  /-- DIG_UNIT.REPAIR. width 1. 05 R140. Reset 0. -/
  repair : Bool
  /-- DIG_UNIT.UNIT. width 24. 05 R140. Reset 0. -/
  unit : Nat
  /-- DIG_RESULT. width 64. 05 R140. Reset 0. -/
  result : Nat
  deriving DecidableEq, Repr

/-- Context states (R370). -/
inductive CtxSt where
  | free | bound | resident | tearing | quiescing
  deriving DecidableEq, Repr

/-- Totals of a context's accounting record (R399). -/
structure Acct where
  memRead : Nat
  memWrite : Nat
  linkTx : Nat
  linkRx : Nat
  /-- In pJ; the record gives whole µJ. -/
  energy : Nat
  fwd : Nat
  bwd : Nat
  dummyFwd : Nat
  dummyBwd : Nat
  core : Nat
  stalls : List Nat
  spill : Nat
  bank : Nat
  deriving DecidableEq, Repr

/-- A barrier (R197): arrivals of the current generation in order, the first arrival's n, and the generation. -/
structure Barrier where
  arrived : List Nat
  n : Nat
  gen : Nat
  deriving DecidableEq, Repr

/-- A semaphore (R198): count and waiters (core, n) in arrival order. -/
structure Sem where
  count : Nat
  waiters : List (Nat × Nat)
  deriving DecidableEq, Repr

/-- The core-context state of one cluster while it is held off the cluster (R203): keep areas, key core × 4,096 + byte,
barriers and semaphores. -/
structure CoreSave where
  keeps : SMap Byte
  bars : SMap Barrier
  sems : SMap Sem
  deriving DecidableEq, Repr

/-- A bubble record (R327). -/
structure Bubble where
  start : Nat
  length : Nat
  period : Nat
  count : Nat
  filler : Nat
  any : Bool
  /-- The next bubble to begin. -/
  next : Nat
  deriving DecidableEq, Repr

/-- One context number. -/
structure Ctx where
  /-- State of R370. 13 R370. Reset FREE. -/
  st : CtxSt
  /-- Partition it is bound to. width 4. 14 R377. Reset 0. -/
  part : PartNo
  /-- Root page-table DPA. width 44. 13 R368. Reset 0. -/
  root : Nat
  /-- Kernel-table virtual address. width 52. 13 R368. Reset 0. -/
  ktab : Nat
  /-- Ring virtual address. width 52. 13 R368. Reset 0. -/
  ring : Nat
  /-- SQ_LOG2. width 4. 13 R368. Reset 0. -/
  sqLog : Nat
  /-- CQ_LOG2. width 4. 13 R368. Reset 0. -/
  cqLog : Nat
  /-- PRIORITY. width 4. 13 R368. Reset 0. -/
  prio : Nat
  /-- IRQ port. width 2. 13 R368. Reset 0. -/
  irqPort : Port
  /-- IRQ enable. width 1. 13 R368. Reset 0. -/
  irqEn : Bool
  /-- MSI-X vector. width 5. 13 R368. Reset 0. -/
  vector : Nat
  /-- OWN_GRANT.PORTS. width 4. 13 R375. Reset 0. -/
  grant : Nat
  /-- The context's rings are enabled. 13 R368, R370. Reset false. -/
  ringEn : Bool
  /-- RING_CTX_SQ_TAIL. width 12. 13 R376. Reset 0. -/
  sqTail : Nat
  /-- RING_CTX_STATUS.SQ_HEAD. width 12. 13 R376. Reset 0. -/
  sqHead : Nat
  /-- RING_CTX_STATUS.CQ_TAIL. width 12. 13 R376. Reset 0. -/
  cqTail : Nat
  /-- RING_CTX_CQ_HEAD. width 12. 13 R376. Reset 0. -/
  cqHead : Nat
  /-- RING_CTX_STATUS.PHASE. width 1. 13 R376. Reset 0. -/
  phase : Bool
  /-- Doorbells not yet consumed (R358). Reset empty. -/
  bells : List (Nat × Port)
  /-- Device event counters. 16 x 32. 07 R196, R199. Reset 0. -/
  ctrs : SMap Word
  /-- The program admitted and not complete. 13 R372. Reset none. -/
  prog : Option Prog
  /-- Status of the faulting command while TEARING, 0 without a fault. 13 R370. Reset 0. -/
  faultStatus : Nat
  /-- Tag of the faulting command, if one. 13 R370. Reset none. -/
  faultTag : Option Nat
  /-- Status that its other commands get while TEARING: CONTEXT_TORN_DOWN, or HANG_RESET in a partition reset. 13 R370, 16 R430. Reset 0. -/
  tornStatus : Nat
  /-- `up` when TEARING began, or when QUIESCING began. 16 R426, R427. Reset 0. -/
  tearFrom : Nat
  /-- `up` of the last transmission carrying this generation. 16 R427. Reset 0. -/
  lastTx : Nat
  /-- A departure is in progress: t_s in system time. 14 R383. Reset none. -/
  departing : Option Nat
  /-- The boundary T of that departure, if a boundary caused it. 14 R382, R387. Reset none. -/
  departT : Option Nat
  /-- Kept bytes of its last save, in bytes. 14 R384. Reset 0. -/
  kept : Nat
  /-- Overrun carried to its next slice, ns. 14 R387. Reset 0. -/
  overrun : Nat
  /-- `up` of its last progress. 14 R388. Reset 0. -/
  progressAt : Nat
  /-- Its save area: the DPA that the table gave when it became resident. width 44. 14 R378, R384. Reset none. -/
  save : Option Nat
  /-- Palette granules (cluster, granule) in its save area. 14 R384. Reset none. -/
  savedGran : List (Nat × Nat)
  /-- The digest units it used on its partition's clusters: key 2 x cluster + unit. 05 R122, 14 R384. Reset none. -/
  savedDigs : SMap DigestUnit
  /-- The bytes of those granules: key cluster x 2^19 + Palette byte. 14 R384. Reset none. -/
  savedPal : SMap (Option Byte)
  /-- `palFrom` of those granules: key cluster x 512 + KiB. The model's own (log entry 25). Reset none. -/
  savedFrom : SMap Nat
  /-- Its keep areas, barriers and semaphores held off the clusters: key cluster. 07 R203, 14 R384. Reset none. -/
  savedCores : SMap CoreSave
  /-- Declared bubbles. 11 R327. Reset empty. -/
  bubbles : List Bubble
  /-- Accounting totals since CTX_CREATE. 14 R399. Reset 0. -/
  acct : Acct
  /-- Totals at the last record. 14 R400. Reset 0. -/
  acctLast : Acct
  /-- Accounting SEQ. width 32. 14 R399. Reset 0. -/
  acctSeq : Nat
  /-- END_TIME of the last accounting record. 14 R400. Reset 0. -/
  acctFrom : Nat
  deriving DecidableEq, Repr

/-! ### Frames and partitions (12_frames_and_partitions) -/

/-- A tree record (R338). -/
structure Tree where
  source : Nat
  timeout : Nat
  members : Nat
  deriving DecidableEq, Repr

/-- A PARTITION section (R337). -/
structure Section where
  number : Nat
  remove : Bool
  row0 : Nat
  col0 : Nat
  rows : Nat
  cols : Nat
  stations : Nat
  formats : Nat
  cages : Nat
  maxResident : Nat
  tileBudget : Nat
  dummyFill : Bool
  dummyGap : Nat
  powerW : Nat
  keptLimit : Nat
  trees : List Tree
  deriving DecidableEq, Repr

/-- The GLOBAL section (R336). -/
structure Global where
  read : Nat
  write : Nat
  remote : Nat
  vcMap : Nat
  deriving DecidableEq, Repr

/-- A verified Frame in a staging slot (R341). -/
structure Frame where
  isPartial : Bool
  serial : Nat
  length : Nat
  keySlot : Nat
  glob : Option Global
  sections : List Section
  deriving DecidableEq, Repr

/-- An application taken (R343 to R347): its command, its staging slot, and, once its checks have passed, its Frame. -/
structure Application where
  tag : Nat
  slot : Nat
  frame : Option Frame
  /-- Its commit instant is past, and its record is not written (R345 steps 4 and 5, R348). -/
  committed : Bool
  deriving DecidableEq, Repr

/-- Frame state of the security core and the running structure. -/
structure FrameSt where
  /-- The two key slots, x + 2^384 y. 12 R335. Reset empty (cleared at chip reset). -/
  keys : List (Option Nat)
  /-- The four staging slots. 12 R341. Reset empty. -/
  slots : List (Option Frame)
  /-- A FRAME_STAGE in progress: tag, slot, container bytes. 12 R341, PART_FRAME.STAGING. Reset none. -/
  staging : Option (Nat × Nat × List Byte)
  /-- Applications in command order, the first in progress. 12 R347, PART_FRAME.APPLYING. Reset empty. -/
  apps : List Application
  /-- MEM_SPLIT and the virtual-channel map. 12 R336, 08 R245. Reset 10:4:2, map 0x6B1A (null Frame, R331). -/
  glob : Global
  /-- The running partitions, key NUMBER. 12 R337, R349. Reset none (null Frame). -/
  parts : SMap (Option Section)
  /-- PART_SECTION.SERIAL per partition. 16 x 32. 12 R349. Reset 0. -/
  sectionSerial : SMap Nat
  /-- PART_SERIAL. width 64. 12 R349. Reset 0. -/
  serial : Nat
  /-- PART_FRAME.SEQ. width 16. 12 R349. Reset 0. -/
  seq : Nat
  /-- PART_FRAME.LAST_STATUS. width 8. 12 R349. Reset 0. -/
  lastStatus : Nat
  /-- PART_CTX_SEL.CONTEXT. width 8. 12 R349. Reset 0. -/
  ctxSel : Nat
  /-- Commands that complete with STATE_MISMATCH when the security core returns (R348). Reset none. -/
  owed : List (Nat × Nat)
  deriving DecidableEq, Repr

/-! ### Memory (08_memory) -/

/-- A stripe set (R212, R245). -/
structure StripeSet where
  /-- MEM_SET_MASK. width 32. 08 R245. Reset set 0 CAP_MEMORY, else 0. -/
  mask : Nat
  /-- MEM_SET_RANGE.BASE. width 15. 08 R245. Reset 0. -/
  base : Nat
  /-- MEM_SET_RANGE.SIZE. width 15. 08 R245. Reset set 0 24,576, else 0. -/
  size : Nat
  /-- MEM_SET_CTRL.VALID. width 1. 08 R245. Reset set 0 1, else 0. -/
  valid : Bool
  /-- MEM_SET_CTRL.DRAINING. width 1. 08 R245. Reset 0. -/
  draining : Bool
  /-- MEM_SET_CTRL.ERROR. width 4. 08 R246. Reset 0. -/
  error : Nat
  deriving DecidableEq, Repr

/-- External memory, its registers and counters. -/
structure Mem where
  /-- External memory, one byte a cell, by place: stack × 2^36 + byte offset within the stack. 32 x 48 GiB. 08 R211 to R213. Reset nothing listed; an unlisted byte reads 0: DESIGN CHOICE (log entry 2). -/
  cells : List Host.Cell
  /-- Poisoned code words (place / 64), ascending. 08 R239. Reset none. -/
  poison : List Nat
  /-- The eight stripe sets. 08 R212. -/
  sets : List StripeSet
  /-- MEM_TAG_QUOTA.QPC. width 5. 08 R245. Reset 4. -/
  quota : Nat
  /-- MEM_DUMP in force, bytes. width 44. 08 R245, R473. Reset C - 64 MiB. -/
  dump : Nat
  /-- Staged MEM_DUMP_LO.ADDR (R474). Reset none. -/
  dumpStage : Option Nat
  /-- MEM_SYNLOG in force, bytes. width 44. 08 R245, R473. Reset C - 64 MiB - 128 KiB. -/
  synlog : Nat
  /-- Staged MEM_SYNLOG_LO.ADDR (R474). Reset none. -/
  synStage : Option Nat
  /-- MEM_SYNLOG_HEAD. width 32. 08 R245. Reset 0. -/
  synHead : Nat
  /-- MEM_SCRUB.PASSES. width 16. 08 R245. Reset 0. -/
  scrubPasses : Nat
  /-- `up` of the last full scrub pass. 08 R242. Reset 0. -/
  scrubAt : Nat
  /-- MEM_SRAM_CE. width 32. 08 R245. Reset 0. -/
  sramCe : Nat
  /-- MEM_SRAM_UE. width 32. 08 R245. Reset 0. -/
  sramUe : Nat
  /-- MEM_INVAL_CTX.ALL. width 1. 08 R245. Reset 0. -/
  invAll : Bool
  /-- MEM_INVAL_CTX.CONTEXT. width 8. 08 R245. Reset 0. -/
  invCtx : Nat
  /-- MEM_INVAL_VA_LO/HI in bytes. width 52. 08 R245. Reset 0. -/
  invVa : Nat
  /-- MEM_INVAL_COUNT. width 32. 08 R245. Reset 0. -/
  invCount : Nat
  /-- The invalidation in progress: all, context, first address, pages. 08 R219, MEM_INVAL_STATUS.BUSY. Reset none. -/
  inval : Option (Bool × Nat × Nat × Nat)
  /-- MEM_INVAL_STATUS.REFUSED. width 1. 08 R245. Reset 0. -/
  invRefused : Bool
  /-- MEM_INVAL_STATUS.SEQ. width 16. 08 R245. Reset 0. -/
  invSeq : Nat
  /-- MEM_CE_COUNT, key stack. 32 x 32. 08 R245. Reset 0. -/
  ce : SMap Nat
  /-- MEM_UE_COUNT, key stack. 32 x 32. 08 R245. Reset 0. -/
  ue : SMap Nat
  /-- MEM_BANK_SEL.ENABLE. width 1. 08 R245. Reset 0. -/
  bankEn : Bool
  /-- MEM_BANK_SEL.CONTEXT. width 8. 08 R245. Reset 0. -/
  bankCtx : Nat
  /-- MEM_BANK_SEL.CLUSTER. width 10. 08 R245. Reset 0. -/
  bankClu : Nat
  /-- MEM_BANK_CNT, key bank. 32 x 32. 08 R245. Reset 0. -/
  bankCnt : SMap Nat
  /-- Last syndrome record of a code word: (word, `up`, index of the record), newest first; a code word of SRAM is 2^41 + the WHERE of its record. 08 R238, R243. Reset none. -/
  synAt : List (Nat × Nat × Nat)
  /-- Errors that have come about in code words and that no access has met yet (R237 to R239). Reset none. -/
  latent : List EccNote
  /-- `up` of the corrected errors of each stack within the hour before its last, newest first, at most 1,001: key stack. 16 R435. Reset none. -/
  ceHour : SMap (List Nat)
  deriving DecidableEq, Repr

/-! ### Clusters (02, 07, 08, 09) -/

/-- A parcel of a Glaze kernel (R204). `elems` is IN (ELEMENT), or the delivered row (ROW). -/
structure Parcel where
  ctx : CtxNo
  idx : Nat
  unit : Nat
  row : Nat
  col : Nat
  rows : Nat
  elems : List Word
  welems : List Word
  /-- Device addresses of s2, s8 and s10 for a ROW parcel: the Palette places the parcel uses. -/
  inAt : Nat
  outAt : Nat
  wAt : Nat
  deriving DecidableEq, Repr

/-- A unit running on a cluster (R48), or claimed by it and not started (R44). -/
structure UnitRun where
  ctx : CtxNo
  idx : Nat
  unit : Nat
  repair : Bool
  /-- A combined tile of the home (R45) rather than a dealt unit. -/
  combine : Bool
  /-- Array kind: 0 none, 1 FWD, 2 BWD. -/
  kind : Nat
  /-- Passes run so far, and bound passes run so far. -/
  pos : Nat
  bpos : Nat
  /-- Partial sums, key row × 2^24 + column, FP32 or INT32 bits. 02 R50, 08 R236. -/
  acc : SMap Word
  /-- Chunk buffers: bytes fetched, by virtual address. 02 R39, R59. -/
  buf : SMap Byte
  /-- Virtual code words (address / 64) that have landed. -/
  have_ : List Nat
  /-- Virtual code words whose data landed poisoned (R239). -/
  bad : List Nat
  /-- The 32 × 32 blocks of the transposed operand that FETCH has written turned into the chunk buffer: (32 positions of the reduction,
  32 of the other dimension), by number (R105). -/
  turned : List (Nat × Nat)
  /-- Pieces set aside at quota, oldest first, at most 64 (R226). -/
  deferred : List Nat
  /-- Strips delivered to Glaze, and strips drained. -/
  sent : List Nat
  drained : List Nat
  /-- Glaze outputs, key row × 2^24 + column (ELEMENT) or the output row bytes' FP32 words (ROW). -/
  outs : SMap Word
  /-- Parcels of the unit not yet ended. -/
  parcelsLeft : Nat
  /-- Its prediction map has been read, or it has none (R60, R143). -/
  predRead : Bool
  /-- Predicted tiles of the unit (R143), and those not confirmed (R147). -/
  pred : List Nat
  missed : List Nat
  /-- Bounds of predicted tiles, key row × 2^24 + column (R146). -/
  bound : SMap Word
  /-- Digest unit held, and the contribution so far (R136). -/
  dig : Option (Fin 2)
  contrib : Nat
  /-- Tiles with a live element that is not zero (R131). -/
  nonzero : List Nat
  nonfinite : Bool
  /-- The chunk whose tree delivery it waits for or belongs to (R230), and the chunks it fetches itself (R232). -/
  mcast : Option Nat
  fell : List Nat
  /-- QPC of MEM_TAG_QUOTA when it started (R226, R245). -/
  qpc : Nat
  /-- Bytes for the remote window that no packet has taken: runs by window offset (R292). -/
  xout : List (Nat × List Byte)
  /-- A move unit has moved its rows (R167). -/
  moved : Bool
  /-- Cycles without progress, as the watchdog counts them (R428). -/
  idle : Nat
  /-- Cycles that its passes still occupy its array, for the charging of R62; no command waits for them (R96). The model's own (log entry 23). -/
  busy : Nat
  deriving DecidableEq, Repr

/-- A memory tag in use (R223). -/
structure Tag where
  user : TagUser
  ctx : CtxNo
  /-- Virtual code words of its pieces. -/
  words : List Nat
  /-- DPAs of those code words, and their places in the stacks, each divided by 64. -/
  dpas : List Nat
  dwords : List Nat
  /-- `up` of issue. -/
  at_ : Nat
  /-- Virtual code words whose stack did not answer (R222). -/
  lost : List Nat
  /-- Of a tree delivery: its entry and chunk, the members that have not accepted (cluster numbers), system time of landing, and
  the data staged in the tag by virtual address, with the words that are poisoned (R229, R231). -/
  dlv : Option (Nat × Nat)
  waiting : List Nat
  landed : Option Nat
  data : SMap Byte
  bad : List Nat
  /-- Its user still wants the data; false once the unit was abandoned or its context torn down (R47, R425). -/
  live : Bool
  deriving DecidableEq, Repr

/-- A write on its way to a hub (R221): byte address and bytes, in one code word. -/
structure WriteReq where
  ctx : CtxNo
  /-- Places of the running units it belongs to, or a core of the cluster, or neither. -/
  units : List Nat
  core : Option Nat
  /-- DPA of its first byte, and its bytes. -/
  addr : Nat
  data : List Byte
  deriving DecidableEq, Repr

/-- A memory tag that holds writes until their hubs accept them (R223): its user, none for a shared tag, and `up` of issue. -/
structure WriteTag where
  user : Option TagUser
  at_ : Nat
  pieces : List WriteReq
  deriving DecidableEq, Repr

/-- A stationary block of an array (R93, R107): the unit whose it is, its expert, first k-block and first column, whether SKETCH formed
it (R145), the 128 × 8 cells by rows, and the metadata fields that the cells' selectors follow, by groups (R109). -/
structure StatBlock where
  ctx : CtxNo
  idx : Nat
  unit : Nat
  expert : Nat
  b : Nat
  col : Nat
  bound : Bool
  cells : List Num
  metas : List Nat
  deriving DecidableEq, Repr

/-- One array (R93, R97). -/
structure ArraySt where
  /-- The block in the cells. 04 R93. Reset none. -/
  held : Option StatBlock
  /-- The block in the shadow registers. 04 R97. Reset none. -/
  shadow : Option StatBlock
  /-- The context whose real row the array took last, that row, and the cycles since (R115 to R117). Reset none. -/
  last : Option (CtxNo × Nat × Nat)
  deriving DecidableEq, Repr

/-- A region of the Easel (R103): the unit, the k-block, the first of its 32 positions of the other dimension, and its four transposed
blocks of 32 × 32 elements, in ascending reduction order, by rows. -/
structure EaselRegion where
  ctx : CtxNo
  idx : Nat
  unit : Nat
  b : Nat
  at_ : Nat
  blocks : List (List Num)
  deriving DecidableEq, Repr

/-- The Easel (R104). -/
structure Easel where
  /-- The regions held, at most two, the one that supplies the array first. 04 R104. Reset none. -/
  held : List EaselRegion
  /-- The region being transposed, and the cycles still to go. 04 R104. Reset none. -/
  filling : Option (EaselRegion × Nat)
  deriving DecidableEq, Repr

/-- A Palette access that waits for its bank (R234): its class in the order of service (0 array feed, 1 Easel, 2 spill move, 3 landing,
4 STORE read, 5 core), the core, the context it is for, the bank, the cycles refused so far, and whether it is a write of less than
32 B. -/
structure BankReq where
  cls : Nat
  core : Nat
  ctx : CtxNo
  bank : Nat
  refused : Nat
  narrow : Bool
  deriving DecidableEq, Repr

/-- A cached translation (R219). -/
structure Xlate where
  ctx : Nat
  /-- First byte of the page, its size in bytes, the page's DPA, and its WRITE bit. -/
  va : Nat
  size : Nat
  dpa : Nat
  write : Bool
  deriving DecidableEq, Repr

/-- A kernel frame of the code store (R207). -/
structure KernelFrame where
  ctx : Nat
  slot : Nat
  /-- CODE_ADDR and CODE_WORDS as admission read them for the program that loaded it (R202). -/
  codeAddr : Nat
  codeWords : Nat
  code : List Word
  /-- Order of last use. -/
  used : Nat
  deriving DecidableEq, Repr

/-- A multicast delivery in progress at a source (R230). -/
structure Delivery where
  part : PartNo
  tree : Nat
  ctx : CtxNo
  idx : Nat
  /-- The chunk: the number of its first unit's column, expert and part × 2^24 + chunk number. -/
  chunk : Nat
  members : List Nat
  /-- Code words not yet asked for. -/
  words : List Nat
  /-- The first tag of the delivery has been freed: no more joining. -/
  closed : Bool
  deriving DecidableEq, Repr

/-- One cluster. -/
structure Cluster where
  /-- The claimed unit not yet started. 02 R44. Reset none. -/
  claimed : Option UnitRun
  /-- Units started and not committed, by place: dealt units (R48) and tiles that the home combines (R45). Reset none. -/
  units : SMap (Option UnitRun)
  /-- The context claimed from at each claim, newest first, without repeats. 02 R44. Reset empty. -/
  claimOrder : List Nat
  /-- The 16 Tally slots. 02 R49. Reset 0. -/
  slots : SMap TallySlot
  /-- The two digest units. 05 R140. Reset 0. -/
  digs : SMap DigestUnit
  /-- The core context. 07 R203. Reset none. -/
  coreCtx : Option CtxNo
  /-- Kernel frames of the code store. 4 x 16 KiB. 07 R181, R207. Reset none. -/
  frames : SMap (Option KernelFrame)
  /-- Order counter of frame use. 07 R207. The model's own. Reset 0. -/
  frameUse : Nat
  /-- The 8 barriers. 07 R197. Reset no arrivals. -/
  bars : SMap Barrier
  /-- The 64 semaphores. 07 R198. Reset 0. -/
  sems : SMap Sem
  /-- Parcels waiting for a core, oldest first. 07 R204. Reset empty. -/
  parcels : List Parcel
  /-- The Palette, 512 KiB, key byte: what was written; a byte not listed reads as `palFrom` says. 08 R234. Reset DESIGN CHOICE 0 (log entry 2). -/
  palette : SMap (Option Byte)
  /-- Where the stations left contents of their own: key KiB, 1 + the first free byte of that KiB; 0 reads 0. 02 R39. The model's own (log entry 25). 512 entries. Reset 0. -/
  palFrom : SMap Nat
  /-- Palette granules written by STORE, a core or a window landing: (context, granule). 14 R384. Reset none. -/
  written : List (Nat × Nat)
  /-- Memory tags in use, at most 21. 08 R223. Reset none. -/
  tags : List Tag
  /-- Writes that wait for a memory tag, oldest first. 08 R223, R224. Reset empty. -/
  writes : List WriteReq
  /-- Memory tags that hold writes, oldest first. 08 R223. Reset none. -/
  wtags : List WriteTag
  /-- Partial code words held for combining (R221), at most 1,024. Reset empty. -/
  combining : List WriteReq
  /-- Cached translations, at most 128, newest first. 08 R219. Reset none. -/
  xlates : List Xlate
  /-- Deliveries of trees whose source this is, and waiting requests (tree, context, entry, chunk, member). 08 R230. -/
  deliveries : List Delivery
  mcWait : List (Nat × Nat × Nat × Nat × Nat)
  /-- The cluster control core is restarting since `up`. 15 R417. Reset none. -/
  downFrom : Option Nat
  /-- The cluster control core is stopped. 15 R418. Reset false. -/
  stopped : Bool
  /-- `up` of its control core's crashes within 10 minutes, newest first. 15 R418. Reset empty. -/
  crashes : List Nat
  /-- `up` of its engine resets within 10 minutes. 16 R437. Reset empty. -/
  resets : List Nat
  /-- The cluster is declared dead and not yet remapped. 16 R437. Reset false. -/
  dead : Bool
  /-- An engine reset in progress: `up` of its start and of its end, and the tag of its ESCALATE if one. 16 R430. Reset none. -/
  reset : Option (Nat × Nat)
  resetTag : Option Nat
  /-- A remap in progress: old site, new site, `up`. 09 R264. Reset none. -/
  remap : Option (Nat × Nat × Nat)
  /-- A test run in progress: its end in `up`. 16 R436. Reset none. -/
  test : Option Nat
  /-- `up` of the corrected SRAM errors within the hour before the last, newest first, at most 17. 16 R435. Reset none. -/
  sramCeHour : List Nat
  /-- The arrays: key 0 FWD, 1 and 2 the BWD pair. 3 entries. 04 R93, R102. Reset empty. -/
  arrays : SMap ArraySt
  /-- The Easel. 04 R103, R104. Reset empty. -/
  easel : Easel
  /-- Palette accesses that wait for their banks, oldest first, and the banks that a narrow write still occupies. 08 R234. Reset none. -/
  bankQ : List BankReq
  bankHold : List Nat
  deriving DecidableEq, Repr

/-- What a core waits for (R197 to R199). -/
inductive CoreWait where
  | none
  | sem (i n : Nat)
  | bar (i gen : Nat)
  | ev (c : Nat) (v : Word)
  deriving DecidableEq, Repr

/-- A parcel running on a core. `shipped` ≠ 0 names a shipped kernel (R208). -/
structure ParcelRun where
  parcel : Parcel
  shipped : Nat
  frame : Nat
  slot : Nat
  isRow : Bool
  deriving DecidableEq, Repr

/-- One core (R178). -/
structure Core where
  /-- The parcel it runs; none = idle. 07 R204. Reset none. -/
  run : Option ParcelRun
  /-- s0 to s31. 32 x 32. 07 R178. Reset 0 (R179 at every parcel start); s0 is never listed. -/
  s : SMap Word
  /-- v0 to v15, key 16 x register + lane. 16 x 16 x 32. 07 R178. Reset 0; v0 is never listed. -/
  v : SMap Word
  /-- p1 to p3; p0 reads all ones. 3 x 16. 07 R178. Reset 0. -/
  p : SMap (BitVec 16)
  /-- pc, byte address in the code store. width 32. 07 R178. Reset 0. -/
  pc : Word
  /-- FLAGS. width 4. 07 R179. Reset 0. -/
  flags : BitVec 4
  /-- Keep area of the core store, 4 KiB, key byte. 07 R181. Reset DESIGN CHOICE 0 (log entry 2). -/
  store : SMap Byte
  /-- Scratch of the core store, 12 KiB, key core address: what was written since the parcel started. 07 R181. Reset DESIGN CHOICE 0 (log entry 2). -/
  scratch : SMap (Option Byte)
  /-- 1 + the first free byte of the scratch that its parcel found (R179); 0 reads 0. The model's own (log entry 6). Reset 0. -/
  scratchFrom : Nat
  /-- Loads on their way: (register, value). 07 R182. Reset empty. -/
  loads : List (Nat × Word)
  /-- Far loads on their way (R193): vector register, and the lanes still due as (lane, virtual address, width); an FLD's are one item of width 64, its lane 16 + the mask of its lanes. Reset empty. -/
  fars : List (Nat × List (Nat × Nat × Nat))
  /-- What it waits for. 07 R197 to R199. Reset nothing. -/
  wait : CoreWait
  /-- Cycles run since the parcel's delivery. 14 R401. Reset 0. -/
  cycles : Nat
  deriving DecidableEq, Repr

/-! ### Fabric (09_on_die_fabric) -/

/-- A binding-table entry (R261). -/
structure Binding where
  site : Nat
  epoch : Nat
  live : Bool
  fenced : Bool
  deriving DecidableEq, Repr

/-- What a packet is for: the messages of a remap (R264), or the traffic of any other kind. -/
inductive NetBody where
  /-- The fence for the router of the receiving site. -/
  | fence
  /-- The binding of cluster `k` for the receiving router's copy of the table. -/
  | bind (k : Nat) (b : Binding)
  /-- A router's acknowledgement of a binding of cluster `k`. -/
  | ack (k : Nat)
  /-- Anything else. -/
  | traffic
  deriving DecidableEq, Repr

/-- A flit of 64 B (R249). -/
structure Flit where
  /-- The header of its packet. -/
  head : FabricHeader
  body : NetBody
  /-- Its place in the packet; 0 is the header flit. -/
  idx : Nat
  bytes : List Byte
  deriving DecidableEq, Repr

/-- A binding message on its way to every router (R264). -/
structure Rebind where
  /-- Routers that have acknowledged it. -/
  acks : Nat
  /-- `up` at which the last acknowledgement arrived. -/
  done : Option Nat
  deriving DecidableEq, Repr

/-- The fabric. -/
structure Fabric where
  /-- Bindings that differ from the ones of R20 and the fuses. 768 x 20. 09 R261. Reset none. -/
  bind : SMap (Option Binding)
  /-- Sites quarantined until the next chip reset. 09 R267. Reset none. -/
  quarantined : List Nat
  /-- Spare sites withheld by their reset test. 09 R267. Reset none. -/
  withheld : List Nat
  /-- `up` of the last EPOCH_DROP event. 16 R444. Reset none. -/
  dropAt : Option Nat
  /-- The last packet received was accepted. The model's own record of an output. Reset false. -/
  accepted : Bool
  /-- Copies of the binding table that a binding message has not reached, key receiver × 768 + cluster: the entry they still hold. 884 x 768 x 20. 09 R261. Reset none. -/
  copies : SMap (Option Binding)
  /-- Routers that a fence has reached. 816 x 1. 09 R264. Reset none. -/
  fences : List Nat
  /-- Bindings being acknowledged, by cluster. 09 R264. Reset none. -/
  rebinds : SMap (Option Rebind)
  /-- Flits buffered, key ((node × 6 + input) × 4 + channel) × 8 + VC: inputs 0 to 3 of a router are its north, east, south and west links, 4 its local port; 5 is the queue before a local or ring port. 4 flits per VC per channel, 8 behind the seam. 09 R252, R258. Reset empty. -/
  bufs : SMap (List Flit)
  /-- 1 + the input that an output channel granted last, by VC, key ((node × 6 + output) × 4 + channel) × 8 + VC. 09 R252. Reset 0. -/
  grants : SMap Nat
  deriving DecidableEq, Repr

/-! ### Links (10_stava_links) -/

/-- Cage states (R293). -/
inductive CageSt where
  | disabled | empty | present | training | up | upHalf | down
  deriving DecidableEq, Repr

/-- A frame that a cage sends (R271), but for its FCS: the MAC makes that. -/
structure SentFrame where
  dstMac : Nat
  srcMac : Nat
  /-- The 802.1Q tag, when LINK_FABRIC.VLAN = 1. -/
  tag : Option Nat
  etherType : Nat
  pkt : StavaPacket
  deriving DecidableEq, Repr

/-- One cage. -/
structure Cage where
  /-- LINK_CAGE_CTRL.ENABLE. width 1. 10 R296. Reset 0. -/
  en : Bool
  /-- LINK_CAGE_CTRL.ALLOW_HALF. width 1. 10 R296. Reset 0. -/
  allowHalf : Bool
  /-- LINK_CAGE_STATE.STATE. width 4. 10 R293. Reset DISABLED. -/
  st : CageSt
  /-- LINK_CAGE_STATE.LANES. width 8. 10 R296. Reset 0. -/
  lanes : Nat
  /-- LINK_CAGE_STATE.REASON. width 4. 10 R296. Reset 0. -/
  reason : Nat
  /-- LINK_CAGE_STATE.CHANGES. width 16. 10 R296. Reset 0. -/
  changes : Nat
  /-- `up` of the last state change. 10 R293. Reset 0. -/
  since : Nat
  /-- Presence has been held for 100 ms and not lost since. 10 R293. Reset false. -/
  present : Bool
  /-- LINK_CAGE_CNT, key k. 10 x 32. 10 R296. Reset 0. -/
  cnt : SMap Nat
  /-- The receive queue, oldest first, at most 256 packets. 10 R280. Reset empty. -/
  rxq : List StavaPacket
  /-- The transmit queue, oldest first. 10 R273. Reset empty. -/
  txq : List SentFrame
  /-- The line time that the first frame of the transmit queue has had, in bytes. 10 R274. Reset 0. -/
  line : Nat
  /-- `up` of the uncorrectable FEC code words of the last millisecond, newest first. 10 R295. Reset none. -/
  fecs : List Nat
  deriving DecidableEq, Repr

/-- A packet sent and not acknowledged (R277, R278). -/
structure TxPacket where
  seq : Nat
  pkt : StavaPacket
  cage : Nat
  firstAt : Nat
  lastAt : Nat
  sends : Nat
  /-- The unit (cluster, place), the collective (context, tag), or the entry (context, index) whose arrival word it is. -/
  unit : Option (Nat × Nat)
  coll : Option (Nat × Nat)
  arr : Option (Nat × Nat)
  /-- The remote tag that it holds until it is acknowledged (R277, R289). -/
  tag : Nat
  deriving DecidableEq, Repr

/-- A transmit flow (R276, R280). -/
structure TxFlow where
  node : Nat
  flow : Nat
  /-- Its first packet has left. -/
  opened : Bool
  nextSeq : Nat
  sent : List TxPacket
  /-- Packets held until earlier ones are acknowledged or the window opens. -/
  queue : List TxPacket
  win : Nat
  ackedClean : Nat
  echoAt : Nat
  lastAt : Nat
  noCageFrom : Option Nat
  /-- The cage after which spraying goes on (R273). -/
  lastCage : Nat
  deriving DecidableEq, Repr

/-- A receive flow (R276, R277). -/
structure RxFlow where
  node : Nat
  flow : Nat
  ackSeq : Nat
  landed : List Nat
  unacked : Nat
  oldest : Nat
  mark : Bool
  lastAt : Nat
  /-- The cage after which its ACKs go on (R273). -/
  lastCage : Nat
  deriving DecidableEq, Repr

/-- A remote read outstanding (R289). -/
structure RemoteRead where
  tag : Nat
  node : Nat
  flow : Nat
  window : Nat
  ctx : CtxNo
  unit : Option (Nat × Nat)
  /-- The data asked for, in order: row, first byte within it, and length of each part. -/
  parts : List (Nat × Nat × Nat)
  /-- Sequence number of its READ_REQ (R287). -/
  seq : Nat
  deriving DecidableEq, Repr

/-- The links. -/
structure Link where
  /-- LINK_NODE. width 10. 10 R296. Reset 0. -/
  node : Nat
  /-- LINK_FABRIC.VID. width 12. 10 R296. Reset 0. -/
  vid : Nat
  /-- LINK_FABRIC.PCP. width 3. 10 R296. Reset 0. -/
  pcp : Nat
  /-- LINK_FABRIC.VLAN. width 1. 10 R296. Reset 0. -/
  vlan : Bool
  /-- LINK_FABRIC.FABRIC. width 8. 10 R296. Reset 0. -/
  fabric : Nat
  /-- LINK_ETHERTYPE. width 16. 10 R296. Reset 0x88B5. -/
  etherType : Nat
  /-- LINK_WINTAB in force, bytes. width 44. 10 R296. Reset 0. -/
  wintab : Nat
  /-- Staged LINK_WINTAB_LO.ADDR (R474). Reset none. -/
  wintabStage : Option Nat
  /-- LINK_WINTAB_HI.READY. width 1. 10 R296. Reset 0. -/
  ready : Bool
  /-- LINK_ROUTE_IDX. width 10. 10 R296. Reset 0. -/
  routeIdx : Nat
  /-- The route table, key node. 1024 x 32. 10 R273. Reset 0. -/
  routes : SMap Nat
  /-- LINK_DELAY_MARK. width 16. 10 R296. Reset 80. -/
  delayMark : Nat
  /-- LINK_CNT, key k. 7 x 32. 10 R296. Reset 0. -/
  cnt : SMap Nat
  /-- The eight cages, key c. 10 R293. Reset DISABLED. -/
  cages : SMap Cage
  /-- Suspended pairs: (node, cage, `up` of the end). 10 R278. Reset none. -/
  suspended : List (Nat × Nat × Nat)
  /-- Pairs on probation after a suspension: (node, cage, packets since the last one carried). 10 R278. Reset none. -/
  probation : List (Nat × Nat × Nat)
  /-- Due retransmissions: (node, cage, `up`), newest first. 10 R278. Reset none. -/
  dues : List (Nat × Nat × Nat)
  /-- Transmit flows, at most 4,096. 10 R276. Reset none. -/
  tx : List TxFlow
  /-- Receive flows, at most 4,096. 10 R276. Reset none. -/
  rx : List RxFlow
  /-- Remote tags held by reads. 10 R289. Reset none. -/
  reads : List RemoteRead
  /-- Packets acknowledged whose remote tag no later packet has taken: a RESPONSE may still name it (R287). Reset none. -/
  past : List TxPacket
  /-- Frames sent: (cage, frame), newest first. The model's own record of an output. Reset empty. -/
  out : List (Nat × SentFrame)
  /-- Windows valid now (window numbers): a mirror of VALID in the table, used by R284 and LINK_WINTAB. Reset none. -/
  valid : List Nat
  deriving DecidableEq, Repr

/-! ### Collectives (11_training_collectives) -/

/-- A collective descriptor (R301). -/
structure CollDesc where
  op : Nat
  mode : Nat
  norm : Bool
  normFinal : Bool
  skipNonfinite : Bool
  srcFmt : Nat
  dstFmt : Nat
  tag : Nat
  count : Nat
  src : Nat
  dst : Nat
  groupAddr : Nat
  postscale : Nat
  maxNorm : Nat
  clipAddr : Nat
  recordAddr : Nat
  waitCtr : Nat
  doneCtr : Nat
  waitEn : Bool
  doneEn : Bool
  waitValue : Nat
  deriving DecidableEq, Repr

/-- A member of a group record (R300). -/
structure Member where
  node : Nat
  window : Nat
  winGen : Nat
  dest : Nat
  key : Nat
  ctx : Nat
  ctxGen : Nat
  deriving DecidableEq, Repr

/-- A group record (R300). -/
structure Group where
  self : Nat
  id : Nat
  gen : Nat
  members : List Member
  deriving DecidableEq, Repr

/-- A collective admitted or waiting (R298). -/
structure CollRun where
  ctx : CtxNo
  /-- The tag of its COLLECTIVE command. -/
  tag : Nat
  desc : CollDesc
  group : Group
  /-- In progress (admitted), or waiting in submission order (R298). -/
  active : Bool
  gateOpen : Bool
  /-- System time and `up` at which its gate opened. -/
  startTime : Nat
  gateUp : Nat
  /-- Members whose READY has arrived, and ALL_READY seen or sent (R310). -/
  readyFrom : List Nat
  allReady : Bool
  /-- Straggler events raised here, and whether a STRAGGLER has arrived (R310). -/
  raised : Nat
  told : Bool
  missing : List Nat
  /-- A stage in progress since `up`, and the bytes of memory traffic it has made (R311). -/
  stage : Option Nat
  traffic : Nat
  /-- PARTIAL chunks that have arrived: key 2 x chunk, + 1 from the second child of a tree. -/
  inbox : SMap (List Word)
  /-- Chunks that this member's own contribution has entered. -/
  added : List Nat
  /-- RESULT chunks that have arrived, key chunk, and the chunks written to DST and passed on. -/
  resIn : SMap (List Word)
  results : List Nat
  /-- FP32 results that this member finally holds, key element (R314). -/
  held : SMap Word
  /-- Non-finite results among the elements it holds: count, first index, first node (R313). -/
  own : Nat × Nat × Nat
  /-- RECORD contents by final holder, and the holders whose RECORD has been passed on. -/
  records : SMap (Option (Nat × Nat × Nat))
  recSent : List Nat
  /-- Norm totals by member, the members whose total has gone up, the norm, and whether it has gone down (R315). -/
  totals : SMap (Option (Word × Word))
  totSent : List Nat
  normVal : Option Word
  normSent : Bool
  /-- Clip factor and skip word once written (R316). -/
  clip : Option (Word × Nat)
  /-- Digests by member (R321): none = not known, some none = no digest; digests gone up; children told. -/
  digests : SMap (Option (Option Nat))
  digUp : List Nat
  digDown : List Nat
  /-- Moves (R323 to R326): bytes sent by receiver, receivers sent an ARRIVAL, ARRIVALs landed. -/
  sentTo : SMap Nat
  arrSent : List Nat
  arrivals : List Nat
  /-- PERMUTE (R326): the present piece, its bytes copied and sent, GRANTs sent and landed. -/
  piece : Nat
  copied : Nat
  posted : Nat
  grantsOut : List Nat
  grantsIn : List Nat
  /-- BROADCAST below the root: the parts of the block that have landed in this member's window, (first byte, bytes) (R325). -/
  landed : List (Nat × Nat)
  /-- A refusing status or LINK_LOST received (R304, R312), 0 = none. -/
  bad : Nat
  deriving DecidableEq, Repr

/-- A part of a norm set: the command's tag, TAG, the two terms, and the status (R315). -/
structure NormPart where
  tag : Nat
  bucket : Nat
  hi : Word
  lo : Word
  status : Nat
  deriving DecidableEq, Repr

/-- A context's open norm set (R315): the parts of its completed collectives, and how many joined. -/
structure NormSet where
  parts : List NormPart
  joined : Nat
  deriving DecidableEq, Repr

/-- The reduction engine. -/
structure Coll where
  /-- COLL_STRAGGLER.MS. width 24. 11 R330. Reset 5000. -/
  stragglerMs : Nat
  /-- COLL_CTX_SEL. width 8. 11 R330. Reset 0. -/
  ctxSel : Nat
  /-- COLL_CNT, key k. 8 x 32. 11 R330. Reset 0. -/
  cnt : SMap Nat
  /-- Collectives in submission order. 11 R298, COLL_STATE. Reset none. -/
  runs : List CollRun
  /-- Open norm sets, key context. 11 R315, COLL_CTX_STATE. Reset none. -/
  norms : SMap NormSet
  deriving DecidableEq, Repr

/-! ### Scheduling and time (14_scheduling_and_lending) -/

/-- A slice entry (R378). -/
structure Slice where
  start : Nat
  coord : Bool
  residents : List Nat
  standby : List Nat
  deriving DecidableEq, Repr

/-- A slice table copied on die (R378). -/
structure SliceTable where
  blockUs : Nat
  period : Nat
  epoch : Nat
  lead : Nat
  noticeOffset : Nat
  slices : List Slice
  saves : List (Nat × Nat)
  group : Option Group
  deriving DecidableEq, Repr

/-- A reclaim in progress (R390). -/
structure Reclaim where
  tag : Nat
  table : SliceTable
  deadline : Nat
  departing : List Nat
  gone : Nat
  kept : Nat
  deriving DecidableEq, Repr

/-- The scheduler's state of one partition. -/
structure PartSched where
  /-- The governing slice table. 14 R378, TIME_PART_STATE.TABLE. Reset none. -/
  table : Option SliceTable
  /-- A table waiting for its boundary: table, tag of its command, system time of the boundary. 14 R381, PENDING. Reset none. -/
  next : Option (SliceTable × Nat × Nat)
  /-- System time of the next boundary, ns; TIME_PART_NEXT. width 64. 14 R403. Reset 0. -/
  boundary : Nat
  /-- Index of the current slice entry, TIME_PART_STATE.ENTRY. width 6. 14 R403. Reset 0. -/
  entry : Nat
  /-- The boundary number of the current slice. 14 R396. Reset 0. -/
  number : Nat
  /-- Contexts that arrive once the boundary's departures have ended. 14 R382. Reset empty. -/
  incoming : List Nat
  /-- The boundary awaits a switch notice since local time T. 14 R396. Reset none. -/
  notice : Option Nat
  /-- The reclaim in progress. 14 R390, TIME_PART_STATE.RECLAIM. Reset none. -/
  reclaim : Option Reclaim
  /-- TIME_PART_STATE.EVICTIONS. width 16. 14 R403. Reset 0. -/
  evictions : Nat
  /-- `up` of the last eviction. 14 R389. Reset none. -/
  evictAt : Option Nat
  /-- Evicted contexts, standby until the slice ends. 14 R389. Reset none. -/
  evicted : List Nat
  /-- A partition reset in progress since `up`, with its ESCALATE's tag. 16 R430. Reset none. -/
  reset : Option Nat
  resetTag : Option Nat
  deriving DecidableEq, Repr

/-- Time states (R393). -/
inductive TimeSt where
  | unset | locking | locked | holdover
  deriving DecidableEq, Repr

/-- System time and accounting registers. -/
structure Time where
  /-- The system-time counter, ns. width 64. 14 R392, TIME_NOW. Reset 0. -/
  now : Nat
  /-- TIME_STATE.STATE. width 3. 14 R393. Reset UNSET. -/
  st : TimeSt
  /-- LOCKING was entered from UNSET. 14 R393. Reset false. -/
  fromUnset : Bool
  /-- TIME_STATE.FALLBACK. width 1. 14 R403. Reset 1. -/
  fallback : Bool
  /-- TIME_STATE.REF_OK. width 1. 14 R403. Reset 0. -/
  refOk : Bool
  /-- TIME_STATE.SYNC_OK. width 1. 14 R403. Reset 0. -/
  syncOk : Bool
  /-- The armed value that awaits its edge, and the time it was armed. 14 R392, ARMED. Reset none. -/
  armed : Option (Nat × Nat)
  /-- TIME_ARM in force. width 64. 14 R403. Reset 0. -/
  arm : Nat
  /-- Staged TIME_ARM_LO (R474). Reset none. -/
  armStage : Option Nat
  /-- TIME_STATE.HOLDOVERS. width 16. 14 R403. Reset 0. -/
  holdovers : Nat
  /-- `up` when HOLDOVER began. 14 R395. Reset 0. -/
  holdFrom : Nat
  /-- TIME_ERROR, ns signed. width 32. 14 R403. Reset 0. -/
  error : Int
  /-- The error still to be corrected by slewing or half rate. 14 R394. Reset 0. -/
  slew : Int
  /-- Nanoseconds since the slew last changed the counter. 14 R394. The model's own. Reset 0. -/
  slewAcc : Nat
  /-- The counter runs at half rate until the error is 0. 14 R394. Reset false. -/
  half : Bool
  /-- TIME_SYNC_DELAY. width 16. 14 R403. Reset 0. -/
  syncDelay : Nat
  /-- LOCKED has been reached since chip reset. 14 R397. Reset false. -/
  everLocked : Bool
  /-- Cycles of the West and East half since chip reset, in thousandths. 07 R179 CYCLE. Reset 0. -/
  west : Nat
  east : Nat
  /-- TIME_ACCT_PERIOD. width 11. 14 R403. Reset 1000. -/
  acctPeriod : Nat
  /-- The last multiple of the period served, ns. 14 R400. Reset 0. -/
  acctAt : Nat
  /-- TIME_ACCT_SNAP.CONTEXT. width 8. 14 R403. Reset 0. -/
  snapCtx : Nat
  /-- TIME_ACCT_STATUS.SEQ. width 16. 14 R403. Reset 0. -/
  snapSeq : Nat
  /-- TIME_ACCT_STATUS.REFUSED. width 1. 14 R403. Reset 0. -/
  snapRefused : Bool
  /-- TIME_ACCT_STATUS.VALID. width 1. 14 R403. Reset 0. -/
  snapValid : Bool
  /-- TIME_ENERGY_CAL.KAPPA. width 16. 14 R403. Reset 0x1000. -/
  kappa : Nat
  /-- TIME_ENERGY_CAL.WINDOWS. width 16. 14 R403. Reset 0. -/
  kappaWindows : Nat
  /-- `up` of the last calibration. 14 R402. Reset 0. -/
  kappaAt : Nat
  /-- The unscaled estimate of the window now running, in pJ. 14 R402. Reset 0. -/
  estimate : Nat
  /-- TIME_ENERGY_UNATTR, held in pJ. width 64 in µJ. 14 R403. Reset 0. -/
  unattr : Nat
  deriving DecidableEq, Repr

/-! ### Firmware (15_firmware) -/

/-- FW_STATE.MODE (R405). -/
inductive FwMode where
  | booting | held | running | recovery
  deriving DecidableEq, Repr

/-- Processor states (FW_PROC.STATE). -/
inductive ProcSt where
  | running | restarting | stopped
  deriving DecidableEq, Repr

/-- One of the firmware processors 0 to 2. -/
structure Proc where
  st : ProcSt
  crashes : Nat
  /-- `up` of crashes within 10 minutes, newest first (R418). -/
  recent : List Nat
  downFrom : Nat
  deriving DecidableEq, Repr

/-- Firmware. -/
structure Fw where
  /-- FW_STATE.MODE. width 3. 15 R420. Reset BOOTING. -/
  mode : FwMode
  /-- FW_STATE.BANK: running bank is B. width 1. 15 R420. Reset 0. -/
  bankB : Bool
  /-- The running image; FW_VERSION, FW_ROLLBACK.RUNNING, FW_IF_MIN, FW_IF_MAX. 15 R420. Reset none (reads 0). -/
  image : Option Image
  /-- FW_STATE.ACTIVATIONS. width 16. 15 R420. Reset 0. -/
  activations : Nat
  /-- A stage in progress: host tag (none = PLDM), image bytes. 15 R410, STAGING. Reset none. -/
  staging : Option (Option Nat × List Byte)
  /-- An activation in progress: host tag (none = PLDM), `up` of its start. 15 R414, ACTIVATING. Reset none. -/
  acting : Option (Option Nat × Nat)
  /-- The handoff region of the security core's SRAM, key byte: what an activation has written there. 4 MiB. 15 R415. Reset DESIGN CHOICE 0 (log entry 124). -/
  handoff : SMap Byte
  /-- A deferred activation. 15 R413, DEFER_PENDING. Reset none. -/
  deferred : Option (Option Nat)
  /-- FW_IF. width 32. 15 R420. Reset 0. -/
  ifAccepted : Nat
  /-- FW_ACT_STATUS.SEQ. width 16. 15 R420. Reset 0. -/
  actSeq : Nat
  /-- FW_ACT_STATUS.LAST_STATUS. width 8. 15 R420. Reset 0. -/
  actStatus : Nat
  /-- FW_ACT_PAUSE.US. width 16. 15 R420. Reset 0. -/
  actPause : Nat
  /-- The processors 0 security, 1 power management, 2 scheduler. 15 R404, FW_PROC. Reset RUNNING. -/
  procs : SMap Proc
  /-- FW_CCC.CRASHES. width 16. 15 R420. Reset 0. -/
  cccCrashes : Nat
  /-- FW_LOG_LEVEL. width 2. 15 R420. Reset 2. -/
  logLevel : Nat
  /-- FW_TRACE_MASK. width 16. 15 R420. Reset 0. -/
  traceMask : Nat
  /-- FW_LOG_SEQ. width 32. 15 R420. Reset 0. -/
  logSeq : Nat
  deriving DecidableEq, Repr

/-! ### Faults and recovery (16_faults_and_recovery) -/

/-- Health of a unit (R434). -/
inductive Health where
  | healthy | suspect | dead | retireDue | retired | replaceMedia
  deriving DecidableEq, Repr

/-- A unit under observation (FLT_UNIT_STATE). -/
structure UnitHealth where
  st : Health
  reason : Nat
  failures : Nat
  passes : Nat
  /-- `up` of the last change, of becoming SUSPECT, of the last test, of the last TEST_STARVED, and of the last moment at which a test run
  could have started (R436). -/
  since : Nat
  suspectAt : Nat
  testedAt : Option Nat
  starvedAt : Nat
  eligibleAt : Nat
  deriving DecidableEq, Repr

/-- The installed test package (R438). -/
structure TestPkg where
  id : Nat
  runUs : Nat
  kinds : Nat
  deriving DecidableEq, Repr

/-- Faults. -/
structure Flt where
  /-- FLT_LOG in force, bytes. width 44. 16 R445, 08 R473. Reset C - 64 MiB - 512 KiB. -/
  log : Nat
  /-- Staged FLT_LOG_LO.ADDR (R474). Reset none. -/
  logStage : Option Nat
  /-- FLT_LOG_HEAD. width 32. 16 R445. Reset 0. -/
  head : Nat
  /-- FLT_HEALTH.REASONS. width 5. 16 R440. Reset 0. -/
  reasons : Nat
  /-- FLT_HEALTH.REPLACE. width 1. 16 R440. Reset 0. -/
  replace : Bool
  /-- FLT_TEST.PERIOD. width 16. 16 R445. Reset 24. -/
  testPeriod : Nat
  /-- The package slot. 16 R438, FLT_TEST.PKG_VALID, FLT_PKG_ID. Reset none. -/
  pkg : Option TestPkg
  /-- FLT_UNIT_SEL.KIND. width 4. 16 R445. Reset 0. -/
  selKind : Nat
  /-- FLT_UNIT_SEL.ID. width 12. 16 R445. Reset 0. -/
  selId : Nat
  /-- FLT_FUSE_SEL. width 8. 16 R445. Reset 0. -/
  fuseSel : Nat
  /-- A chip reset is due, with its ESCALATION cause. 16 R430. Reset none. -/
  resetDue : Option Nat
  /-- A power cycle is due. 16 R430. Reset false. -/
  cycleDue : Bool
  /-- FLT_CNT, key k (k = 5 is kept since power-on in `Kept`). 14 x 32. 16 R445. Reset 0. -/
  cnt : SMap Nat
  /-- Health of units, key kind x 4096 + ID. 16 R434. Reset HEALTHY. -/
  units : SMap UnitHealth
  deriving DecidableEq, Repr

/-- What keeps its value through a chip reset and restarts at main power-on (R481). -/
structure Kept where
  /-- Dumps since power-on; FLT_DUMP_STATUS.SEQ shows the low 16 bits. width 32. 16 R432, R445. Reset 0. -/
  dumpSeq : Nat
  /-- FLT_DUMP_STATUS.LEVEL. width 3. 16 R445. Reset 0. -/
  dumpLevel : Nat
  /-- FLT_DUMP_STATUS.VALID. width 1. 16 R445. Reset 0. -/
  dumpValid : Bool
  /-- FLT_DUMP_STATUS.LOCK. width 1. 16 R445. Reset 0. -/
  dumpLock : Bool
  /-- FLT_DUMP_ADDR. width 44. 16 R445. Reset 0. -/
  dumpAddr : Nat
  /-- FLT_CNT 5, chip resets since power-on. width 32. 16 R445. Reset 0: the reset of power-on is not counted (log entry 40). -/
  chipResets : Nat
  /-- `up` of the chip resets within the hour. 16 R430. Reset empty. -/
  resetAt : List Nat
  /-- PWR_STATUS.MARGIN. width 2. 17 R460. Reset 0. -/
  margin : Nat
  /-- PWR_RAIL_E, key k, mJ. 8 x 64. 17 R472. Reset 0. -/
  railE : SMap Nat
  /-- PWR_TEMP.MAX, key k, 0.1 degC. 8 x 16 signed. 17 R472. Reset 0. -/
  tempMax : SMap Int
  /-- PWR_COUNT, key k. 6 x 32. 17 R472. Reset 0. -/
  pwrCnt : SMap Nat
  /-- Messages queued for the tray controller, oldest first, at most 256. 16 R441. Each is (class 0 syndrome, 1 event, 2 fuse log, 3 the module controller's own report; record); ALERT# is asserted while it is not empty (R468). Kept through a chip reset and the loss of main power: DEDUCED (log entry 41). Reset empty. -/
  mgmt : List (Nat × Nat)
  deriving DecidableEq, Repr

/-! ### Power (17_module_physical) -/

/-- Power and thermal. -/
structure Pwr where
  /-- PWR_STATUS.FLAGS. width 6. 17 R472. Reset 0; an emergency outlasts a chip reset and main power (log entry 108). -/
  flags : Nat
  /-- PWR_STATUS.EMERGENCY. width 1. 17 R472. Reset 0. -/
  emergency : Bool
  /-- `up` when a flag was raised last. 17 R457. Reset 0. -/
  clearFrom : Nat
  /-- PWR_STATUS.SAFE. width 1. 17 R472. Reset 0. -/
  safe : Bool
  /-- PWR_STATUS.CONSERVATIVE. width 1. 17 R472. Reset 0. -/
  conservative : Bool
  /-- PWR_CLK.CEIL of the halves, MHz, key h. 2 x 11. 17 R472. Reset 1600. -/
  ceil : SMap Nat
  /-- PWR_CLK.MHZ of the halves, key h. 2 x 11. 17 R472. Reset 1600. -/
  mhz : SMap Nat
  /-- PWR_CLK.REASON of the halves, key h. 2 x 3. 17 R472. Reset 0. -/
  reason : SMap Nat
  /-- A half is held down by temperature until below 90 degC, key h. 17 R454. Reset false. -/
  hot : SMap Bool
  /-- A half is held down by the die limit, key h: its limit in MHz. 17 R455. Reset 1600. -/
  dieCap : SMap Nat
  /-- `up` since when the die has stayed below 95 % of its limit. 17 R455. Reset none. -/
  dieLow : Option Nat
  /-- `up` of the last step of each half, key h. 17 R454. Reset 0. -/
  stepAt : SMap Nat
  /-- PWR_DIE_LIMIT. width 11. 17 R472. Reset 1150. -/
  dieLimit : Nat
  /-- PWR_RAIL (PEAK_W, W), key k. 8 x 32. 17 R472. Reset 0. -/
  rail : SMap (Nat × Nat)
  /-- PWR_TEMP.NOW, key k, 0.1 degC. 8 x 16. 17 R472. Reset 0. -/
  temp : SMap Int
  /-- PWR_PART (THROTTLE, W), key p. 16 x 32. 17 R472. Reset 0. -/
  part : SMap (Nat × Nat)
  /-- PWR_REMOVE.GRACE_S. width 10. 17 R472. Reset 30. -/
  graceS : Nat
  /-- PWR_LAMP.LOCATE. width 1. 17 R472. Reset 0. -/
  locate : Bool
  /-- The response of the last management command. 17 R468. The model's own record of an output. Reset empty. -/
  response : List Word
  deriving DecidableEq, Repr

/-! ### The block -/

/-- What main power holds up: the device. -/
structure Device where
  own : Own
  rings : Rings
  /-- Contexts, key number. 256. 13 R370. Reset FREE. -/
  ctxs : SMap Ctx
  frames : FrameSt
  mem : Mem
  /-- Clusters, key number. 768. 09 R19. Reset idle. -/
  clus : SMap Cluster
  /-- Cores, key cluster x 64 + local number. 49,152. 07 R178. Reset idle. -/
  cores : SMap Core
  fabric : Fabric
  link : Link
  coll : Coll
  /-- Scheduler state per partition, key number. 14 R377. Reset none. -/
  sched : SMap PartSched
  time : Time
  fw : Fw
  flt : Flt
  kept : Kept
  pwr : Pwr
  /-- Free values drawn so far: the argument of Config.freeByte. The model's own field (log entry 6). Reset DESIGN CHOICE 0. -/
  fresh : Nat
  deriving DecidableEq, Repr

/-- The state: the queue of commands that wait, and the block. -/
structure State where
  /-- Commands waiting, first in, first out. The model's own. Reset empty. -/
  pending : List Instr
  nv : NonVol
  d : Device
  deriving DecidableEq, Repr

/-! ### Reset -/

/-- A disabled device ring. -/
def DevRing.init : DevRing := ⟨0, 0, 0, false, 0, 0, false, [], 0, 0⟩

/-- A FREE context with every count 0. -/
def Acct.zero : Acct := ⟨0, 0, 0, 0, 0, 0, 0, 0, 0, 0, [0, 0, 0, 0, 0, 0, 0, 0, 0], 0, 0⟩

/-- A FREE context (R370). -/
def Ctx.init : Ctx :=
  { st := .free, part := 0, root := 0, ktab := 0, ring := 0, sqLog := 0, cqLog := 0, prio := 0, irqPort := 0,
    irqEn := false, vector := 0, grant := 0, ringEn := false, sqTail := 0, sqHead := 0, cqTail := 0, cqHead := 0,
    phase := false, bells := [], ctrs := [], prog := none, faultStatus := 0, faultTag := none, tornStatus := 0, tearFrom := 0,
    lastTx := 0, departing := none, departT := none, kept := 0, overrun := 0, progressAt := 0,
    save := none, savedGran := [], savedDigs := [], savedPal := [], savedFrom := [], savedCores := [], bubbles := [], acct := .zero, acctLast := .zero, acctSeq := 0, acctFrom := 0 }

/-- An idle Tally slot (R49). -/
def TallySlot.init : TallySlot := ⟨0, 0, false, false, 0, 0, 0, 0, 0⟩

/-- An idle digest unit (R140). -/
def DigestUnit.init : DigestUnit := ⟨0, 0, false, false, 0, 0, false, 0, 0⟩

/-- An array without a block (R93). -/
def ArraySt.init : ArraySt := ⟨none, none, none⟩

/-- An idle cluster. -/
def Cluster.init : Cluster :=
  { claimed := none, units := [], claimOrder := [], slots := [], digs := [], coreCtx := none, frames := [],
    frameUse := 0, bars := [], sems := [], parcels := [], palette := [], palFrom := [], written := [], tags := [],
    writes := [], wtags := [], combining := [], xlates := [], deliveries := [], mcWait := [], downFrom := none, stopped := false,
    crashes := [], resets := [], dead := false, reset := none, resetTag := none, remap := none, test := none, sramCeHour := [],
    arrays := [], easel := ⟨[], none⟩, bankQ := [], bankHold := [] }

/-- An idle core (R178, R179). -/
def Core.init : Core :=
  { run := none, s := [], v := [], p := [], pc := 0, flags := 0, store := [], scratch := [], scratchFrom := 0, loads := [], fars := [], wait := .none, cycles := 0 }

/-- A DISABLED cage (R293). -/
def Cage.init : Cage := ⟨false, false, .disabled, 0, 0, 0, 0, false, [], [], [], 0, []⟩

/-- A partition without a slice table (R377). -/
def PartSched.init : PartSched :=
  ⟨none, none, 0, 0, 0, [], none, none, 0, none, [], none, none⟩

/-- A running processor (FW_PROC). -/
def Proc.init : Proc := ⟨.running, 0, [], 0⟩

/-- A HEALTHY unit (R434). -/
def UnitHealth.init : UnitHealth := ⟨.healthy, 0, 0, 0, 0, 0, none, 0, 0⟩

/-- An aperture that is OFF (R351). -/
def Aperture.init : Aperture := ⟨0, false, 0, 0, none⟩

/-- An invalid stripe set (R214). -/
def StripeSet.init : StripeSet := ⟨0, 0, 0, false, false, 0⟩

/-- CAP_MEMORY.STACKS (R9, R10): the populated stacks less the retired ones. -/
def NonVol.capMemory (nv : NonVol) : Nat :=
  nv.retired.foldl (fun m n => if m.testBit n then m - 2 ^ n else m) (if nv.m24 then 0x3F3F3F3F else 0xFFFFFFFF)

/-- The number of set STACKS bits (R10). -/
def NonVol.stacks (nv : NonVol) : Nat := ((List.range 32).filter (nv.capMemory.testBit ·)).length

/-- C of R473: the capacity of set 0 at chip reset, bytes. -/
def NonVol.capacity (nv : NonVol) : Nat := nv.stacks * 48 * 2 ^ 30

/-- External memory at chip reset, its contents and poison kept (R214, R430, R473). -/
def Mem.afterReset (nv : NonVol) (cells : List Host.Cell) (poison : List Nat) (up : Nat) : Mem :=
  { cells := cells, poison := poison,
    sets := ⟨nv.capMemory, 0, 24576, true, false, 0⟩ :: List.replicate 7 StripeSet.init,
    quota := 4, dump := nv.capacity - 64 * 2 ^ 20, dumpStage := none,
    synlog := nv.capacity - 64 * 2 ^ 20 - 128 * 2 ^ 10, synStage := none, synHead := 0, scrubPasses := 0,
    scrubAt := up, sramCe := 0, sramUe := 0, invAll := false, invCtx := 0, invVa := 0, invCount := 0, inval := none,
    invRefused := false, invSeq := 0, ce := [], ue := [], bankEn := false, bankCtx := 0, bankClu := 0, bankCnt := [],
    synAt := [], latent := [], ceHour := [] }

/-- Kept state at main power-on (R481). -/
def Kept.init : Kept := ⟨0, 0, false, false, 0, 0, [], 0, [], [], [], []⟩

/-- The device at chip reset (R331, R354, R393, R405, R430), given what a chip reset keeps: memory contents, and `kept`. -/
def Device.afterReset (nv : NonVol) (cells : List Host.Cell) (poison : List Nat) (kept : Kept) : Device :=
  { own := { st := .unowned, owner := 0, target := 0, elections := 0, lossMs := 2000, linkUp := 0, lossFrom := 0,
             handFrom := 0, handTag := none, afterLoss := false }
    rings := { admin := ⟨0, 0, 0, false, 0, 0, 0, 0, false, false, [], []⟩, evRing := .init, logRing := .init,
               acctRing := .init, denied := 0, apers := [], taken := [], nextTag := 0, evSeq := 0, irqs := [],
               irqAt := [], irqDue := [], captures := [], readValue := 0, readData := [], readPoison := false }
    ctxs := []
    frames := { keys := [none, none], slots := [none, none, none, none], staging := none, apps := [],
                glob := ⟨10, 4, 2, 0x6B1A⟩, parts := [], sectionSerial := [], serial := 0, seq := 0, lastStatus := 0,
                ctxSel := 0, owed := [] }
    mem := Mem.afterReset nv cells poison nv.up
    clus := [], cores := []
    fabric := { bind := [], quarantined := [], withheld := [], dropAt := none, accepted := false, copies := [], fences := [],
                rebinds := [], bufs := [], grants := [] }
    link := { node := 0, vid := 0, pcp := 0, vlan := false, fabric := 0, etherType := 0x88B5, wintab := 0,
              wintabStage := none, ready := false, routeIdx := 0, routes := [], delayMark := 80, cnt := [], cages := [],
              suspended := [], probation := [], dues := [], tx := [], rx := [], reads := [], past := [], out := [], valid := [] }
    coll := ⟨5000, 0, [], [], []⟩
    sched := []
    time := { now := 0, st := .unset, fromUnset := false, fallback := true, refOk := false, syncOk := false,
              armed := none, arm := 0, armStage := none, holdovers := 0, holdFrom := 0, error := 0, slew := 0,
              slewAcc := 0, half := false, syncDelay := 0, everLocked := false, west := 0, east := 0, acctPeriod := 1000, acctAt := 0,
              snapCtx := 0, snapSeq := 0, snapRefused := false, snapValid := false, kappa := 0x1000, kappaWindows := 0,
              kappaAt := nv.up, estimate := 0, unattr := 0 }
    fw := { mode := .booting, bankB := false, image := none, activations := 0, staging := none, acting := none, handoff := [],
            deferred := none, ifAccepted := 0, actSeq := 0, actStatus := 0, actPause := 0, procs := [],
            cccCrashes := 0, logLevel := 2, traceMask := 0, logSeq := 0 }
    flt := { log := nv.capacity - 64 * 2 ^ 20 - 512 * 2 ^ 10, logStage := none, head := 0, reasons := 0,
             replace := false, testPeriod := 24, pkg := none, selKind := 0, selId := 0, fuseSel := 0, resetDue := none, cycleDue := false, cnt := [],
             units := [] }
    kept := kept
    pwr := { flags := 0, emergency := false, clearFrom := 0, safe := false, conservative := false, ceil := [],
             mhz := [], reason := [], hot := [], dieCap := [], dieLow := none, stepAt := [], dieLimit := 1150, rail := [], temp := [],
             part := [], graceS := 30, locate := false, response := [] }
    fresh := 0 }

/-- The module before its first reset: the fuses of OCY-9600-M32-L8-S, main power on, TRAY_EN and PG asserted. -/
def NonVol.init : NonVol :=
  { m24 := false, l4 := false, specN := false, stepping := 0x00010101, rollback := 0, retired := [], remaps := [],
    policyMask := 0xF, policyChanges := 0, fuseLog := [],
    bankA := some ⟨0x01000000, 0, 1, 1, 1, 1⟩, bankB := none, activeB := false, pendingB := none, gens := [],
    standby := true, vin := 54000, trayEn := true, mainOn := true, pg := true, pcycReq := false, quiescedPin := false,
    prsnt := true, removal := .idle, removalSource := 0, graceFrom := 0, cagesBefore := 0,
    up := 0 }

/-- The machine right after chip reset is released under main power (R451 step 4), before it boots (R405). -/
def State.reset : State :=
  { pending := [], nv := NonVol.init, d := Device.afterReset NonVol.init [] [] Kept.init }

end Sys2Proof.Machine
end

