-- ==== Sys2Proof/Machine/Bits.lean ====
section
/-! DEFINITION. Sparse tables, bit fields, byte strings, packed records and list helpers: the plain operations that every
other file of the model uses. Everything is little-endian (R13). -/

namespace Sys2Proof.Machine

/-! ### Sparse tables -/

/-- What a sparse table holds at key `k`; `d` is what an unlisted key reads as. -/
def smGet {α : Type} (m : SMap α) (d : α) (k : Nat) : α :=
  match m with
  | [] => d
  | (k', v) :: t => if k' = k then v else smGet t d k

/-- Removes key `k`. -/
def smDel {α : Type} (m : SMap α) (k : Nat) : SMap α :=
  match m with
  | [] => []
  | (k', v) :: t => if k' = k then smDel t k else (k', v) :: smDel t k

/-- Inserts `(k, v)` at its place, in place of an entry of the same key. -/
def smIns {α : Type} (m : SMap α) (k : Nat) (v : α) : SMap α :=
  match m with
  | [] => [(k, v)]
  | (k', v') :: t =>
    if k' = k then (k, v) :: t else if k < k' then (k, v) :: (k', v') :: t else (k', v') :: smIns t k v

/-- Sets key `k` to `v`: an entry equal to the default is not listed, so that equal tables are equal data. -/
def smPut {α : Type} [DecidableEq α] (m : SMap α) (d : α) (k : Nat) (v : α) : SMap α :=
  if v = d then smDel m k else smIns m k v

/-- Applies `f` at key `k`. -/
def smMod {α : Type} [DecidableEq α] (m : SMap α) (d : α) (k : Nat) (f : α → α) : SMap α :=
  smPut m d k (f (smGet m d k))

/-- Keys strictly rise from `lo` on and no entry equals the default: the canonical form, as a Bool. -/
def smWfFrom {α : Type} [DecidableEq α] (d : α) (lo : Nat) (m : SMap α) : Bool :=
  match m with
  | [] => true
  | (k, v) :: t => decide (lo ≤ k) && decide (v ≠ d) && smWfFrom d (k + 1) t

/-- The canonical form of a sparse table. -/
def smWf {α : Type} [DecidableEq α] (d : α) (m : SMap α) : Bool := smWfFrom d 0 m

/-! ### Bits and bytes -/

/-- The field of `w` bits at bit `pos` of `n`. -/
def fld (n pos w : Nat) : Nat := n / 2 ^ pos % 2 ^ w

/-- Bit `pos` of `n`. -/
def bit (n pos : Nat) : Bool := n / 2 ^ pos % 2 == 1

/-- 1 for true. -/
def b2n (b : Bool) : Nat := if b then 1 else 0

/-- A record from its fields (bit position, width, value); a value keeps its low `width` bits. -/
def pack (fs : List (Nat × Nat × Nat)) : Nat :=
  match fs with
  | [] => 0
  | (p, w, v) :: t => v % 2 ^ w * 2 ^ p + pack t

/-- `n` with the field of `w` bits at `pos` replaced by `v`. -/
def putFld (n pos w v : Nat) : Nat := n - fld n pos w * 2 ^ pos + v % 2 ^ w * 2 ^ pos

/-- `n` with bit `pos` set to `b`. -/
def putBit (n pos : Nat) (b : Bool) : Nat := putFld n pos 1 (b2n b)

/-- The low `len` bytes of `n`, the first the least significant (R13). -/
def toBytes (len n : Nat) : List Byte :=
  match len with
  | 0 => []
  | l + 1 => BitVec.ofNat 8 n :: toBytes l (n / 256)

/-- The number a byte string spells (R13). -/
def ofBytes (bs : List Byte) : Nat :=
  match bs with
  | [] => 0
  | b :: t => b.toNat + 256 * ofBytes t

/-- `n` as a 32-bit word. -/
def w32 (n : Nat) : Word := BitVec.ofNat 32 n

/-- The number of set bits among the low `w` bits of `n`. -/
def popCount (w n : Nat) : Nat :=
  match w with
  | 0 => 0
  | v + 1 => n % 2 + popCount v (n / 2)

/-- The positions of the set bits among the low `w` bits of `n`, ascending, counted from `i`. -/
def bitsFrom (w i n : Nat) : List Nat :=
  match w with
  | 0 => []
  | v + 1 => if n % 2 = 1 then i :: bitsFrom v (i + 1) (n / 2) else bitsFrom v (i + 1) (n / 2)

/-- The positions of the set bits of `n` below `w`, ascending. -/
def bitsOf (w n : Nat) : List Nat := bitsFrom w 0 n

/-- The number whose set bits are the members of `l`. -/
def ofBits (l : List Nat) : Nat := l.foldl (fun n i => if bit n i then n else n + 2 ^ i) 0

/-- Ceiling of a quotient. -/
def cdiv (a b : Nat) : Nat := (a + b - 1) / b

/-- A two's-complement value of `w` bits. -/
def sext (w n : Nat) : Int := if 2 * (n % 2 ^ w) < 2 ^ w then (n % 2 ^ w : Nat) else (n % 2 ^ w : Nat) - (2 ^ w : Nat)

/-- The two's-complement pattern of `w` bits of `z`. -/
def ofInt (w : Nat) (z : Int) : Nat := (z % (2 ^ w : Nat)).toNat

/-- `n + 1`, held at the largest value of `w` bits. -/
def satInc (w n : Nat) : Nat := min (n + 1) (2 ^ w - 1)

/-- `n + 1`, wrapping at `w` bits. -/
def wrapInc (w n : Nat) : Nat := (n + 1) % 2 ^ w

/-! ### Lists -/

/-- `l` with its `i`-th element replaced by `f` of it. -/
def lMod {α : Type} (l : List α) (i : Nat) (f : α → α) : List α :=
  match l, i with
  | [], _ => []
  | a :: t, 0 => f a :: t
  | a :: t, j + 1 => a :: lMod t j f

/-- `i` inserted into an ascending list without repeats. -/
def insAsc (i : Nat) (l : List Nat) : List Nat :=
  match l with
  | [] => [i]
  | a :: t => if i < a then i :: a :: t else if i = a then a :: t else a :: insAsc i t

/-- Everything but `x`. -/
def without {α : Type} [DecidableEq α] (l : List α) (x : α) : List α := l.filter (· ≠ x)

/-- The bytes of `l` cut into pieces of `n` bytes. -/
def chunks (n fuel : Nat) (l : List Byte) : List (List Byte) :=
  match fuel with
  | 0 => []
  | f + 1 => if l.isEmpty then [] else l.take n :: chunks n f (l.drop n)

/-- The first `some` of a list of choices. -/
def firstSome {α : Type} (l : List (Option α)) : Option α :=
  match l with
  | [] => none
  | some a :: _ => some a
  | none :: t => firstSome t

/-- The first failed check of a list of (passes, status): 0 when all pass (R371). -/
def firstFail (l : List (Bool × Nat)) : Nat :=
  match l with
  | [] => 0
  | (ok, st) :: t => if ok then firstFail t else st

/-- The number, counted from `n`, and the status of the first check of a command's own table that fails (R365). -/
def failedCheck (n : Nat) (l : List (Bool × Nat)) : Option (Nat × Nat) :=
  match l with
  | [] => none
  | (ok, st) :: t => if ok then failedCheck (n + 1) t else some (n, st)

end Sys2Proof.Machine
end

