-- ==== Sys2Proof/Machine/Formats.lean ====
section
/-! DEFINITION. The sixteen number formats and their exact arithmetic (03_number_formats): values, rounding under the five
modes, conversion, block formats and the layout of stored rows. -/

namespace Sys2Proof.Machine

/-- +0. -/
def Num.zero : Num := .fin false 0 0

/-! ### Format codes (R64, R65) -/

/-- The element type of a format: block formats give the type of their elements, MXINT8 and BQ8 as integers (R70, R73). -/
def elemFmt (f : Nat) : Nat :=
  match f with
  | 0xB => 3
  | 0xC => 6
  | 0xD => 7
  | 0xE => 8
  | 0xF => 8
  | _ => f

/-- Element bits of a format (R64). -/
def fmtBits (f : Nat) : Nat :=
  match elemFmt f with
  | 0 => 32
  | 1 => 16
  | 2 => 16
  | 3 => 8
  | 4 => 8
  | 5 => 6
  | 6 => 6
  | 7 => 4
  | 8 => 8
  | 9 => 4
  | _ => 32

/-- The format is INT8, INT4 or INT32 (R64). -/
def fmtInt (f : Nat) : Bool := f == 8 || f == 9 || f == 10

/-- The format is block-scaled (R64). -/
def fmtBlock (f : Nat) : Bool := 11 ≤ f

/-- Elements of a block: 32, or 128 for BQ8 (R69). -/
def blockSize (f : Nat) : Nat := if f = 15 then 128 else 32

/-- Exponent bits, mantissa bits and bias of a float element type (R65). -/
def floatParams (f : Nat) : Nat × Nat × Nat :=
  match f with
  | 0 => (8, 23, 127)
  | 1 => (8, 7, 127)
  | 2 => (5, 10, 15)
  | 3 => (4, 3, 7)
  | 4 => (5, 2, 15)
  | 5 => (3, 2, 3)
  | 6 => (2, 3, 1)
  | _ => (2, 1, 1)

/-- The format has infinities: FP32, BF16, FP16, FP8-E5M2 (R65). -/
def fmtInf (f : Nat) : Bool := f == 0 || f == 1 || f == 2 || f == 4

/-- The format has a NaN code: those and FP8-E4M3 (R65). -/
def fmtNan (f : Nat) : Bool := fmtInf f || f == 3

/-- The magnitude code of the largest finite value of a float element type (R65). -/
def maxCode (f : Nat) : Nat :=
  let (eb, mb, _) := floatParams f
  if fmtInf f then (2 ^ eb - 1) * 2 ^ mb - 1 else if f = 3 then 0x7E else 2 ^ (eb + mb) - 1

/-- The value of an element code of a scalar format (R65, R66). -/
def decodeElem (f code : Nat) : Num :=
  if fmtInt f then
    let z := sext (fmtBits f) code
    .fin (decide (z < 0)) z.natAbs 0
  else
    let (eb, mb, bias) := floatParams f
    let neg := bit code (eb + mb)
    let e := code / 2 ^ mb % 2 ^ eb
    let m := code % 2 ^ mb
    if fmtInf f ∧ e = 2 ^ eb - 1 then if m = 0 then .inf neg else .nan
    else if f = 3 ∧ e = 15 ∧ m = 7 then .nan
    else if e = 0 then .fin neg m (1 - bias - mb) else .fin neg (2 ^ mb + m) (e - bias - mb)

/-! ### Exact arithmetic -/

/-- The product of two numbers, exact (R80, R82). -/
def Num.mul (x y : Num) : Num :=
  match x, y with
  | .nan, _ => .nan
  | _, .nan => .nan
  | .inf a, .inf b => .inf (a != b)
  | .inf a, .fin b m _ => if m = 0 then .nan else .inf (a != b)
  | .fin a m _, .inf b => if m = 0 then .nan else .inf (a != b)
  | .fin a m e, .fin b n g => .fin (a != b) (m * n) (e + g)

/-- The signed integer of a finite number in units of 2^`g`, where `g` does not exceed its exponent. -/
def scaled (neg : Bool) (m : Nat) (e g : Int) : Int :=
  let v : Int := (m * 2 ^ (e - g).toNat : Nat)
  if neg then -v else v

/-- The exact sum of two numbers; a zero sum is +0 unless both are −0 (R80 to R82). -/
def Num.add (x y : Num) : Num :=
  match x, y with
  | .nan, _ => .nan
  | _, .nan => .nan
  | .inf a, .inf b => if a = b then .inf a else .nan
  | .inf a, .fin _ _ _ => .inf a
  | .fin _ _ _, .inf b => .inf b
  | .fin a m e, .fin b n g =>
    if m = 0 ∧ n = 0 then .fin (a && b) 0 0
    else if m = 0 then .fin b n g
    else if n = 0 then .fin a m e
    else
      let u := min e g
      let z := scaled a m e u + scaled b n g u
      .fin (decide (z < 0)) z.natAbs u

/-- The exact sum of a list of products; of none it is +0 (R81). -/
def sumNums (l : List Num) : Num :=
  match l with
  | [] => .zero
  | x :: t => t.foldl Num.add x

/-- A number without its sign. -/
def Num.abs (x : Num) : Num :=
  match x with
  | .fin _ m e => .fin false m e
  | .inf _ => .inf false
  | .nan => .nan

/-- The number with its sign changed. -/
def Num.neg (x : Num) : Num :=
  match x with
  | .nan => .nan
  | .inf a => .inf !a
  | .fin a m e => .fin (!a) m e

/-- The number is finite. -/
def Num.isFin (x : Num) : Bool :=
  match x with
  | .fin _ _ _ => true
  | _ => false

/-- The number is ±0. -/
def Num.isZero (x : Num) : Bool :=
  match x with
  | .fin _ m _ => m == 0
  | _ => false

/-- The number is below 0, or is −0. -/
def Num.signed (x : Num) : Bool :=
  match x with
  | .nan => false
  | .inf a => a
  | .fin a _ _ => a

/-- `x < y` as numbers; false with a NaN. -/
def Num.lt (x y : Num) : Bool :=
  match x, y with
  | .nan, _ => false
  | _, .nan => false
  | .inf a, .inf b => a && !b
  | .inf a, .fin _ _ _ => a
  | .fin _ _ _, .inf b => !b
  | .fin a m e, .fin b n g => decide (scaled a m e (min e g) < scaled b n g (min e g))

/-- `x = y` as numbers; false with a NaN. -/
def Num.eq (x y : Num) : Bool :=
  match x, y with
  | .nan, _ => false
  | _, .nan => false
  | .inf a, .inf b => a == b
  | .fin a m e, .fin b n g => decide (scaled a m e (min e g) = scaled b n g (min e g))
  | _, _ => false

/-- `x ≤ y` as numbers; false with a NaN. -/
def Num.le (x y : Num) : Bool := Num.lt x y || Num.eq x y

/-- ⌊log2⌋ of a magnitude that is not 0. -/
def log2Of (m : Nat) (e : Int) : Int := (Nat.log2 m : Int) + e

/-! ### Rounding (R84, R85) -/

/-- The magnitude m × 2^e as a multiple of 2^l, rounded under `mode`; `r` is the random value of mode 4. -/
def roundAt (mode : Nat) (neg : Bool) (r m : Nat) (e l : Int) : Nat :=
  if l ≤ e then m * 2 ^ (e - l).toNat
  else
    let s := (l - e).toNat
    let q := m / 2 ^ s
    let rem := m % 2 ^ s
    let up : Bool :=
      match mode with
      | 0 => decide (2 ^ s < 2 * rem) || (decide (2 ^ s = 2 * rem) && q % 2 == 1)
      | 1 => false
      | 2 => !neg && rem != 0
      | 3 => neg && rem != 0
      | _ => decide (r < rem * 65536 / 2 ^ s)
    if up then q + 1 else q

/-- The magnitude code that m × 2^e rounds to in a float element type, its range unbounded above. -/
def roundCode (f mode : Nat) (neg : Bool) (r m : Nat) (e : Int) : Nat :=
  let (_, mb, bias) := floatParams f
  let emin : Int := 1 - bias - mb
  if m = 0 then 0
  else
    let l := max emin (log2Of m e - mb)
    (l - emin).toNat * 2 ^ mb + roundAt mode neg r m e l

/-- The code of the infinity, or of the NaN, of a float element type without its sign. -/
def infCode (f : Nat) : Nat := maxCode f + 1

/-- The exact magnitude m × 2^e lies beyond the largest finite one of a float element type. -/
def beyondRange (f m : Nat) (e : Int) : Bool := decide (maxCode f < roundCode f 2 false 0 m e)

/-- The code a finite magnitude is written as in a float element type (R85, R89): under stochastic rounding a magnitude beyond the range,
which takes in every rounding that passes the largest finite value, converts as under code 0. -/
def finCode (f mode : Nat) (neg : Bool) (r m : Nat) (e : Int) : Nat :=
  if !beyondRange f m e then roundCode f mode neg r m e
  else
    let mode := if mode = 4 then 0 else mode
    let c := roundCode f mode neg r m e
    if c ≤ maxCode f then c
    else if !fmtInf f then maxCode f
    else if mode = 0 ∨ (mode = 2 ∧ !neg) ∨ (mode = 3 ∧ neg) then infCode f else maxCode f

/-- The canonical NaN of a float element type (R90); formats without a NaN write 0. -/
def nanCode (f : Nat) : Nat :=
  match f with
  | 0 => 0x7FC00000
  | 1 => 0x7FC0
  | 2 => 0x7E00
  | 3 => 0x7F
  | 4 => 0x7E
  | _ => 0

/-- The integer that a number rounds to under `mode`, saturated to lo … hi (R89). -/
def roundInt (mode : Nat) (neg : Bool) (r m : Nat) (e lo hi : Int) : Int :=
  let q := roundAt mode neg r m e 0
  max lo (min hi (if neg then -(q : Int) else q))

/-- The range of an integer format of `w` bits. -/
def intMin (w : Nat) : Int := -(2 ^ (w - 1) : Nat)
def intMax (w : Nat) : Int := (2 ^ (w - 1) : Nat) - 1

/-- The code that a number is written as in a scalar format (R88 to R90). -/
def encodeElem (f mode r : Nat) (x : Num) : Nat :=
  if fmtInt f then
    let w := fmtBits f
    match x with
    | .nan => 0
    | .inf neg => ofInt w (if neg then intMin w else intMax w)
    | .fin neg m e => ofInt w (roundInt mode neg r m e (intMin w) (intMax w))
  else
    let (eb, mb, _) := floatParams f
    let sign (neg : Bool) : Nat := b2n neg * 2 ^ (eb + mb)
    match x with
    | .nan => nanCode f
    | .inf neg => sign neg + (if fmtInf f then infCode f else maxCode f)
    | .fin neg m e => sign neg + finCode f mode neg r m e

/-- The write replaces a NaN or an infinity that the format cannot hold (R91). -/
def narrowed (f : Nat) (x : Num) : Bool :=
  match x with
  | .nan => fmtInt f || !fmtNan f
  | .inf _ => fmtInt f || !fmtInf f
  | .fin _ _ _ => false

/-- A finite number beyond the range of an integer format after rounding (FLAGS.SATURATED, R179). -/
def saturatesInt (f mode r : Nat) (x : Num) : Bool :=
  match x with
  | .fin neg m e =>
    let q := roundAt mode neg r m e 0
    let z : Int := if neg then -(q : Int) else q
    fmtInt f && (decide (z < intMin (fmtBits f)) || decide (intMax (fmtBits f) < z))
  | _ => false

/-- A finite number that a float format writes as an infinity (FLAGS.OVERFLOW, R179). -/
def overflowsTo (f code : Nat) (x : Num) : Bool :=
  x.isFin && !fmtInt f && fmtInf f && (decodeElem f code == .inf false || decodeElem f code == .inf true)

/-- FP32 to nearest even (R80, R188). -/
def f32 (x : Num) : Word := w32 (encodeElem 0 0 0 x)

/-- The value of an FP32 word. -/
def numOf (w : Word) : Num := decodeElem 0 w.toNat

/-- FP32 addition rounded to nearest even (R80). -/
def addF32 (a b : Word) : Word := f32 (Num.add (numOf a) (numOf b))

/-- The signed value of an INT32 word (R66). -/
def intOf (w : Word) : Int := sext 32 w.toNat

/-- INT32 addition that saturates (R83). -/
def addSat (a : Word) (z : Int) : Word := w32 (ofInt 32 (max (intMin 32) (min (intMax 32) (intOf a + z))))

/-- An integer as a number. -/
def Num.ofInt (z : Int) : Num := .fin (decide (z < 0)) z.natAbs 0

/-- The integer a number of an integer format holds. -/
def Num.toInt (x : Num) : Int :=
  match x with
  | .fin neg m e => scaled neg m e (min e 0) / (2 ^ (-(min e 0)).toNat : Nat)
  | _ => 0

/-! ### Block formats (R70 to R75) -/

/-- The largest ⌊log2⌋ among the finite inputs that are not 0, none when all are 0 (R72, R74). -/
def blockLog (xs : List Num) : Option Int :=
  xs.foldl (fun a x =>
    match x with
    | .fin _ m e =>
      if m = 0 then a
      else match a with
        | none => some (log2Of m e)
        | some b => some (max b (log2Of m e))
    | _ => a) none

/-- E of R72. -/
def mxE (f : Nat) : Int := if f = 0xB then 8 else if f = 0xE then 0 else 2

/-- A number times 2^`k`. -/
def Num.shift (x : Num) (k : Int) : Num :=
  match x with
  | .fin n m e => .fin n m (e + k)
  | y => y

/-- Clamps to −127 … 127. -/
def clamp127 (z : Int) : Int := max (-127) (min 127 z)

/-- A block encoded: element codes, then the scale bytes (R72, R74). `u` selects BQ8-U; `rs` are the random values. -/
def encodeBlock (f mode : Nat) (u : Bool) (rs : List Nat) (xs : List Num) : List Nat × List Nat :=
  let bad := xs.any fun x => !x.isFin
  let zeros := xs.map fun _ => 0
  if f = 15 then
    if bad then (zeros, [0xFF, 0])
    else
      let e := clamp127 ((blockLog xs).getD (-127))
      let el (x : Num) (r : Nat) : Nat :=
        match x with
        | .fin neg m g =>
          if u then ofInt 8 (roundInt mode neg r m (g + 7 - e) 0 255)
          else ofInt 8 (roundInt mode neg r m (g + 6 - e) (-127) 127)
        | _ => 0
      ((xs.zip rs).map (fun p => el p.1 p.2), [(e + 127).toNat, b2n u])
  else if bad then (zeros, [0xFF])
  else
    let x0 := clamp127 (((blockLog xs).map (· - mxE f)).getD (-127))
    let el (x : Num) (r : Nat) : Nat :=
      match x with
      | .fin neg m g =>
        if f = 0xE then ofInt 8 (roundInt mode neg r m (g - x0 + 6) (-127) 127)
        else encodeElem (elemFmt f) mode r (.fin neg m (g - x0))
      | _ => 0
    ((xs.zip rs).map (fun p => el p.1 p.2), [(x0 + 127).toNat])

/-- The value of an element code under its block's scale bytes (R71, R73). -/
def decodeBlocked (f code scale mode : Nat) : Num :=
  if scale = 0xFF then .nan
  else
    let e : Int := scale - 127
    if f = 15 then
      if mode / 2 ≠ 0 then .nan
      else if mode = 1 then .fin false code (e - 7)
      else (decodeElem 8 code).shift (e - 6)
    else if f = 0xE then (decodeElem 8 code).shift (e - 6)
    else (decodeElem (elemFmt f) code).shift e

/-! ### Stored rows (R67 to R69) -/

/-- Scale bytes of a block: two for BQ8, one for the MX formats (R68). -/
def scaleBytes (f : Nat) : Nat := if f = 15 then 2 else 1

/-- The length in bytes of a stored row of `l` elements (R68). -/
def rowLen (f l : Nat) : Nat :=
  if fmtBlock f then (blockSize f * fmtBits f / 8 + scaleBytes f) * cdiv l (blockSize f) else cdiv (fmtBits f * l) 8

/-- Where the scale bytes of block `j` of a row of `l` elements stand. -/
def scaleAt (f l j : Nat) : Nat := blockSize f * fmtBits f / 8 * cdiv l (blockSize f) + scaleBytes f * j

/-- The byte offsets within its row that element `i` of a row of `l` elements is read from (R67, R68). -/
def elemBytes (f l i : Nat) : List Nat :=
  let b := fmtBits f
  let lo := b * i / 8
  (List.range ((b * i + b - 1) / 8 - lo + 1)).map (lo + ·) ++
    (if fmtBlock f then (List.range (scaleBytes f)).map (scaleAt f l (i / blockSize f) + ·) else [])

/-- The code of element `i` of a row of which `rd` gives the bytes (R67). -/
def elemCode (f : Nat) (rd : Nat → Byte) (i : Nat) : Nat :=
  let b := fmtBits f
  let lo := b * i / 8
  let bytes := (List.range ((b * i + b - 1) / 8 - lo + 1)).map fun j => rd (lo + j)
  fld (ofBytes bytes) (b * i % 8) b

/-- The value of element `i` of a row of `l` elements; beyond `l` it is +0 (R69). -/
def elemNum (f l : Nat) (rd : Nat → Byte) (i : Nat) : Num :=
  if l ≤ i then .zero
  else if fmtBlock f then
    let s := scaleAt f l (i / blockSize f)
    decodeBlocked f (elemCode f rd i) (rd s).toNat (rd (s + 1)).toNat
  else decodeElem f (elemCode f rd i)

/-- Codes of `b` bits packed from bit 0 on, as bytes (R67). DESIGN CHOICE: the bits of the last byte that no code fills are 0
(log entry 118). -/
def packCodes (b : Nat) (codes : List Nat) : List Byte :=
  toBytes (cdiv (b * codes.length) 8) (codes.foldr (fun c n => c % 2 ^ b + n * 2 ^ b) 0)

/-! ### Widening (R87) -/

/-- The format in which FETCH delivers a row to a kernel: FP32, BF16, FP16, INT8 and INT32 as stored, INT4 as INT32, every
other format as FP32 (R87). -/
def delivered (f : Nat) : Nat := if f = 0 ∨ f = 1 ∨ f = 2 ∨ f = 8 ∨ f = 10 then f else if f = 9 then 10 else 0

/-- A number widened to FP32 (R87). -/
def widen32 (x : Num) : Nat := encodeElem 0 0 0 x

/-- A number as a move stream or a sorter widens it: INT32 for an integer format, else FP32 (R475). -/
def widenNum (f : Nat) (x : Num) : Word := if fmtInt f then w32 (ofInt 32 x.toInt) else w32 (widen32 x)

/-- The value a widened word holds: INT32 or FP32. -/
def wordNum (int : Bool) (w : Word) : Num := if int then Num.ofInt (intOf w) else numOf w

end Sys2Proof.Machine
end

