-- ==== Sys2Proof/Config.lean ====
section
/-! DEFINITION. The free values: what the spec leaves open. Each is a constant without a body, so no proof knows a value
of it. -/

namespace Sys2Proof

/-- A byte of undefined contents: scratch core store at the start of a parcel (R179). Its argument is the model's own
counter of free values (log entry 6). -/
opaque Config.freeByte : Nat → Byte

/-- A word that the spec leaves open, drawn by the same counter. -/
opaque Config.freeWord : Nat → Word

/-- VEXP of an FP32 operand: the spec gives it within 2 units in the last place, the same on every core (R187, R188). -/
opaque Config.vexp : Word → Word

/-- VLOG of an FP32 operand, as `vexp`. -/
opaque Config.vlog : Word → Word

/-- VRSQRT of an FP32 operand, as `vexp`. -/
opaque Config.vrsqrt : Word → Word

/-- A shift by the width or more: operation code, operand, amount. The spec states no result. -/
opaque Config.shiftOver : Nat → Word → Word → Word

/-- Verification of an image's or a package's signature under a factory key, which the spec does not give (R408, R438). -/
opaque Config.factorySignature : List Byte → Bool

/-- Energy of one event of a class, pJ: a coefficient that firmware holds (R402). -/
opaque Config.energyPj : Nat → Nat

/-- The key, and the window generation, that a SORT descriptor's exchange quotes for a window (node, window): the node table
gives neither (R173; log entry 31). -/
opaque Config.exchangeKey : Nat → Nat → Nat

/-- The window generation that goes with `exchangeKey`. -/
opaque Config.exchangeGen : Nat → Nat → Nat

/-- Nanoseconds that the clock change of time `up` pauses the routers of its half, modulo 1,001: the spec gives the bound of 1 µs alone
(R260). -/
opaque Config.routerPause : Nat → Nat

/-- Packets that a cage's transmit queue holds beyond one: the spec gives no size (R273). -/
opaque Config.txQueueSlots : Nat

end Sys2Proof
end

