-- ==== Sys2Proof/Machine/Crypto.lean ====
section
/-! DEFINITION. The checks over byte strings that the spec names: CRC-32C (R86, R332), CRC-64 (R135), SHA-384 and ECDSA on
P-384 (R334, R349). The constants of SHA-384 and of the curve are those of FIPS 180-4 and FIPS 186-4: PRESUMED
(log entry 7). -/

namespace Sys2Proof.Machine

/-! ### CRC -/

/-- One byte into a reflected CRC: `n` shifts. -/
def crcShift (poly n c : Nat) : Nat :=
  match n with
  | 0 => c
  | k + 1 => crcShift poly k (if c % 2 = 1 then (c / 2) ^^^ poly else c / 2)

/-- A reflected CRC register over bytes. -/
def crcRun (poly c : Nat) (bs : List Byte) : Nat :=
  match bs with
  | [] => c
  | b :: t => crcRun poly (crcShift poly 8 (c ^^^ b.toNat)) t

/-- CRC-32C: polynomial 0x1EDC6F41, reflected, initial value and final XOR all ones. -/
def crc32c (bs : List Byte) : Nat := crcRun 0x82F63B78 0xFFFFFFFF bs ^^^ 0xFFFFFFFF

/-! ### SHA-384 -/

/-- The `k`-th root of `n`, rounded down, from its `b` bits below the root `r` so far. -/
def rootBits (k n b r : Nat) : Nat :=
  match b with
  | 0 => r
  | c + 1 => rootBits k n c (if (r + 2 ^ c) ^ k ≤ n then r + 2 ^ c else r)

/-- The first 64 bits of the fraction of the `k`-th root of `p`, a number below 2^9 (FIPS 180-4). -/
def rootFraction (k p : Nat) : Nat := rootBits k (p * 2 ^ (64 * k)) 69 0 % 2 ^ 64

/-- The primes up to 409: the first 80. A composite number below 441 has a factor below 21. -/
def primes80 : List Nat :=
  (List.range 410).filter fun n => decide (2 ≤ n) && (List.range 21).all fun f => decide (f < 2 ∨ n ≤ f ∨ n % f ≠ 0)

/-- The 80 round constants: the cube roots of the first 80 primes (FIPS 180-4). -/
def shaK : List Nat := primes80.map (rootFraction 3)

/-- The initial hash values of SHA-384: the square roots of the ninth to the sixteenth prime (FIPS 180-4). -/
def shaH0 : List Nat := ((primes80.drop 8).take 8).map (rootFraction 2)

/-- Rotation right of a 64-bit word. -/
def rotr64 (n x : Nat) : Nat := x / 2 ^ n + x % 2 ^ n * 2 ^ (64 - n)

/-- The number a byte string spells, first byte most significant. -/
def ofBytesBE (bs : List Byte) : Nat := bs.foldl (fun n b => n * 256 + b.toNat) 0

/-- `len` bytes of `n`, first byte most significant. -/
def toBytesBE (len n : Nat) : List Byte := (toBytes len n).reverse

/-- The padded message: 0x80, zeros, and the length in bits as 128 bits. -/
def shaPad (bs : List Byte) : List Byte :=
  bs ++ [0x80#8] ++ List.replicate ((239 - bs.length % 128) % 128) 0 ++ toBytesBE 16 (bs.length * 8)

/-- Extends the message schedule, held newest first. -/
def shaExtend (n : Nat) (w : List Nat) : List Nat :=
  match n with
  | 0 => w
  | k + 1 =>
    let x2 := w.getD 1 0
    let x15 := w.getD 14 0
    let s1 := rotr64 19 x2 ^^^ rotr64 61 x2 ^^^ (x2 / 2 ^ 6)
    let s0 := rotr64 1 x15 ^^^ rotr64 8 x15 ^^^ (x15 / 2 ^ 7)
    shaExtend k ((s1 + w.getD 6 0 + s0 + w.getD 15 0) % 2 ^ 64 :: w)

/-- One round on the working variables a to h. -/
def shaRound (v : List Nat) (kw : Nat × Nat) : List Nat :=
  let a := v.getD 0 0
  let e := v.getD 4 0
  let t1 := v.getD 7 0 + (rotr64 14 e ^^^ rotr64 18 e ^^^ rotr64 41 e) +
    ((e &&& v.getD 5 0) ^^^ ((2 ^ 64 - 1 - e) &&& v.getD 6 0)) + kw.1 + kw.2
  let t2 := (rotr64 28 a ^^^ rotr64 34 a ^^^ rotr64 39 a) +
    ((a &&& v.getD 1 0) ^^^ (a &&& v.getD 2 0) ^^^ (v.getD 1 0 &&& v.getD 2 0))
  [(t1 + t2) % 2 ^ 64, a, v.getD 1 0, v.getD 2 0, (v.getD 3 0 + t1) % 2 ^ 64, e, v.getD 5 0, v.getD 6 0]

/-- One block of 128 bytes. -/
def shaBlock (h : List Nat) (block : List Byte) : List Nat :=
  let w0 := (chunks 8 16 block).map ofBytesBE
  let w := (shaExtend 64 w0.reverse).reverse
  let v := (shaK.zip w).foldl shaRound h
  (h.zip v).map fun x => (x.1 + x.2) % 2 ^ 64

/-- The SHA-384 digest, 48 bytes in order. -/
def sha384 (bs : List Byte) : List Byte :=
  let m := shaPad bs
  let h := (chunks 128 (m.length / 128) m).foldl shaBlock shaH0
  ((h.take 6).map (toBytesBE 8)).flatten

/-! ### ECDSA on P-384 -/

def p384P : Nat := 0xfffffffffffffffffffffffffffffffffffffffffffffffffffffffffffffffeffffffff0000000000000000ffffffff
def p384B : Nat := 0xb3312fa7e23ee7e4988e056be3f82d19181d9c6efe8141120314088f5013875ac656398d8a2ed19d2a85c8edd3ec2aef
def p384N : Nat := 0xffffffffffffffffffffffffffffffffffffffffffffffffc7634d81f4372ddf581a0db248b0a77aecec196accc52973
def p384G : Nat × Nat :=
  (0xaa87ca22be8b05378eb1c71ef320ad746e1d3b628ba79b9859f741e082542a385502f25dbf55296c3a545e3872760ab7,
   0x3617de4a96262c6f5d9e98bf9292dc29f8f41dbd289a147ce9da3113b5f0b8c00a60b1ce1d7e819d7a431d7c90ea0e5f)

/-- `b ^ e` mod `m`, over `n` bits of the exponent. -/
def powMod (m n b e : Nat) : Nat :=
  match n with
  | 0 => 1
  | k + 1 => let r := powMod m k (b * b % m) (e / 2); if e % 2 = 1 then r * b % m else r

/-- The inverse modulo a prime of 384 bits. -/
def invMod (m a : Nat) : Nat := powMod m 384 a (m - 2)

/-- Point addition on the curve; none is the point at infinity. -/
def ecAdd (x y : Option (Nat × Nat)) : Option (Nat × Nat) :=
  match x, y with
  | none, q => q
  | q, none => q
  | some a, some b =>
    if a.1 = b.1 ∧ (a.2 + b.2) % p384P = 0 then none
    else
      let l := if a.1 = b.1 then (3 * a.1 * a.1 + p384P - 3) * invMod p384P (2 * a.2 % p384P) % p384P
        else (b.2 + p384P - a.2) * invMod p384P ((b.1 + p384P - a.1) % p384P) % p384P
      let x3 := (l * l + 2 * p384P - a.1 - b.1) % p384P
      some (x3, (l * (a.1 + p384P - x3) + p384P - a.2) % p384P)

/-- `k` times a point, over `n` bits of `k`. -/
def ecMul (n k : Nat) (q : Option (Nat × Nat)) : Option (Nat × Nat) :=
  match n with
  | 0 => none
  | m + 1 => let r := ecMul m (k / 2) (ecAdd q q); if k % 2 = 1 then ecAdd r q else r

/-- The point lies on P-384 (R335). -/
def onCurve (x y : Nat) : Bool :=
  x < p384P && y < p384P && (y * y % p384P == (x * x * x + (p384P - 3) * x + p384B) % p384P)

/-- ECDSA verification of the signature (r, s) of a message under the key (x, y), with SHA-384 (R334). -/
def ecdsaOk (x y : Nat) (msg : List Byte) (r s : Nat) : Bool :=
  if r = 0 ∨ s = 0 ∨ p384N ≤ r ∨ p384N ≤ s then false
  else
    let e := ofBytesBE (sha384 msg)
    let w := invMod p384N s
    match ecAdd (ecMul 384 (e * w % p384N) (some p384G)) (ecMul 384 (r * w % p384N) (some (x, y))) with
    | none => false
    | some q => q.1 % p384N == r

end Sys2Proof.Machine
end

