-- ==== Sys2Proof/Machine/Ops.lean ====
section
/-! DEFINITION. The named operations that commands share: external memory by place, page tables, access to contexts,
clusters and cores, device-written rings, interrupts, events, faults and the start of a teardown. An operation takes the
device last and answers the device; `nv` is what the module keeps without main power. -/

namespace Sys2Proof.Machine

/-! ### External memory (08_memory) -/

/-- Stripe set `i`. -/
def setGet (m : Mem) (i : Nat) : StripeSet := m.sets.getD i StripeSet.init

/-- The place of DPA `a`: stack × 2^36 + byte offset within the stack, none where no valid set covers it (R212, R213,
R215). -/
def physOf (m : Mem) (a : Nat) : Option Nat :=
  let s := setGet m (a / 2 ^ 41)
  let members := bitsOf 32 s.mask
  let k := members.length
  let o := a % 2 ^ 41
  if s.valid ∧ o < k * s.size * 2 ^ 21 then
    let l := o / 2048
    some (members.getD (l % k) 0 * 2 ^ 36 + s.base * 2 ^ 21 + l / k * 2048 + o % 2048)
  else none

/-- The range of `len` bytes at DPA `a` lies in one valid set (R215, R479). -/
def dpaOk (m : Mem) (a len : Nat) : Bool :=
  len = 0 || ((physOf m a).isSome && (physOf m (a + len - 1)).isSome && a / 2 ^ 41 = (a + len - 1) / 2 ^ 41)

/-- The canonical form of external memory: places strictly rise and no entry equals what an unlisted place reads as. -/
def Memory.wf (m : Mem) : Bool := smWf 0 m.cells

/-- One byte of external memory by place; a byte nothing has written reads 0 (DESIGN CHOICE, log entry 2). -/
def placeByte (m : Mem) (p : Nat) : Byte := smGet m.cells 0 p

/-- One byte at DPA `a`; 0 where there is no memory. -/
def dByte (m : Mem) (a : Nat) : Byte :=
  match physOf m a with
  | some p => placeByte m p
  | none => 0

/-- `len` bytes from DPA `a` (R13). -/
def dRead (m : Mem) (a : Nat) : Nat → List Byte
  | 0 => []
  | n + 1 => dByte m a :: dRead m (a + 1) n

/-- Writes one byte at DPA `a`; discarded where there is no memory. -/
def dPut (a : Nat) (b : Byte) (m : Mem) : Mem :=
  match physOf m a with
  | some p => { m with cells := smPut m.cells 0 p b }
  | none => m

/-- Writes bytes from DPA `a` on. -/
def dPuts (a : Nat) (bs : List Byte) (m : Mem) : Mem :=
  match bs with
  | [] => m
  | b :: t => dPuts (a + 1) t (dPut a b m)

/-- The places / 64 of the code words that `len` bytes at DPA `a` cover wholly (R239). -/
def wholeWords (m : Mem) (a len : Nat) : List Nat :=
  (List.range ((a + len) / 64 - cdiv a 64)).filterMap fun i => (physOf m ((cdiv a 64 + i) * 64)).map (· / 64)

/-- The places / 64 of the code words that `len` bytes at DPA `a` touch. -/
def touchedWords (m : Mem) (a len : Nat) : List Nat :=
  (List.range (cdiv (a % 64 + len) 64)).filterMap fun i => (physOf m ((a / 64 + i) * 64)).map (· / 64)

/-- A write of `bs` at DPA `a`; a code word that it covers wholly is poisoned no longer, and what was wrong with it is gone (R221, R239). -/
def dWrite (a : Nat) (bs : List Byte) (m : Mem) : Mem :=
  let m' := dPuts a bs m
  let whole := wholeWords m a bs.length
  { m' with
    poison := m.poison.filter (fun w => !whole.contains w)
    latent := m.latent.filter (fun e => !whole.contains e.word) }

/-- Code word `w` is poisoned, or has an error that cannot be corrected and that no access has met (R239). -/
def wordBad (m : Mem) (w : Nat) : Bool := m.poison.contains w || m.latent.any fun e => e.word == w && e.fatal

/-- Some code word of `len` bytes at DPA `a` is poisoned (R239). -/
def dPoisoned (m : Mem) (a len : Nat) : Bool := (touchedWords m a len).any (wordBad m)

/-- The code words of DPA pieces that a write covers in part: it reads them, and writes them back (R221). -/
def partWords (m : Mem) (ps : List (Nat × Nat)) : List Nat :=
  ps.flatMap fun p => (touchedWords m p.1 p.2).filter fun w => !(wholeWords m p.1 p.2).contains w

/-- The little-endian number of `len` bytes at DPA `a` (R13). -/
def dNat (m : Mem) (a len : Nat) : Nat := ofBytes (dRead m a len)

/-- The offset within set `s` that place `p` holds, if its band holds it: the inverse of R213. -/
def setOffset (s : StripeSet) (p : Nat) : Option Nat :=
  let members := bitsOf 32 s.mask
  let o := p % 2 ^ 36
  if s.valid ∧ members.contains (p / 2 ^ 36) ∧ s.base * 2 ^ 21 ≤ o ∧ o < (s.base + s.size) * 2 ^ 21 then
    some (((o - s.base * 2 ^ 21) / 2048 * members.length + members.idxOf (p / 2 ^ 36)) * 2048 + o % 2048)
  else none

/-- Sets `len` bytes at DPA `a` to 0, the range lying in one set. -/
def dClear (a len : Nat) (m : Mem) : Mem :=
  let inside (p : Nat) : Bool :=
    match setOffset (setGet m (a / 2 ^ 41)) p with
    | some o => a % 2 ^ 41 ≤ o && o < a % 2 ^ 41 + len
    | none => false
  { m with cells := m.cells.filter (fun c => !inside c.1), poison := m.poison.filter (fun w => !inside (w * 64)) }

/-! ### Page tables -/

/-- Why a virtual access cannot be made (R195, R215, R218). -/
inductive VErr where
  | unmapped (va : Nat) (write : Bool)
  | readOnly (va : Nat)
  | malformed (va level : Nat)
  | noMemory (dpa : Nat)
  | outside (va : Nat)
  /-- The entry's code word at place × 64 is poisoned, or has an error that cannot be corrected (R239). -/
  | poisoned (word : Nat)
  deriving DecidableEq, Repr

/-- A mapped page: first byte, size, DPA, and whether writes are permitted (R217). -/
structure Leaf where
  va : Nat
  size : Nat
  dpa : Nat
  write : Bool
  deriving DecidableEq, Repr

/-- What one entry says at its level (R217, R218): a refusal, the next table, or a leaf. -/
def pteStep (m : Mem) (va level e : Nat) (wr : Bool) : Except VErr (Nat ⊕ Leaf) :=
  let leaf := bit e 1
  let addr := fld e 12 32 * 4096
  let size := if level = 2 then 2 ^ 30 else 2 ^ 21
  if !bit e 0 then .error (.unmapped va wr)
  else if fld e 3 9 ≠ 0 ∨ e / 2 ^ 44 ≠ 0 ∨ (!leaf ∧ bit e 2) ∨ (leaf ∧ level = 1) ∨ (!leaf ∧ level = 3) ∨
      (leaf ∧ addr % size ≠ 0) ∨ (physOf m addr).isNone then .error (.malformed va level)
  else if leaf then
    if wr ∧ !bit e 2 then .error (.readOnly va) else .ok (.inr ⟨va / size * size, size, addr, bit e 2⟩)
  else .ok (.inl addr)

/-- The entry at DPA `a`, read by the page walker (R215, R239). -/
def pteRead (m : Mem) (a : Nat) : Except VErr Nat :=
  if !dpaOk m a 8 then .error (.noMemory a)
  else
    match (touchedWords m a 8).find? (wordBad m) with
    | some w => .error (.poisoned w)
    | none => .ok (dNat m a 8)

/-- The walk of the page tables under root DPA `root` (R216 to R218). -/
def walk (m : Mem) (root va : Nat) (wr : Bool) : Except VErr Leaf := do
  if va / 2 ^ 52 ≠ 0 then .error (.outside va)
  match ← pteStep m va 1 (← pteRead m (root + 8 * (va / 2 ^ 39))) wr with
  | .inr l => .ok l
  | .inl t2 =>
    match ← pteStep m va 2 (← pteRead m (t2 + 8 * (va / 2 ^ 30 % 512))) wr with
    | .inr l => .ok l
    | .inl t3 =>
      match ← pteStep m va 3 (← pteRead m (t3 + 8 * (va / 2 ^ 21 % 512))) wr with
      | .inr l => .ok l
      | .inl _ => .error (.malformed va 3)

/-- The DPA pieces (address, length) of `len` bytes at virtual address `va`; `n` bounds the pages. -/
def vSpanGo (m : Mem) (root : Nat) (wr : Bool) (n va len : Nat) : Except VErr (List (Nat × Nat)) :=
  match n with
  | 0 => .ok []
  | n + 1 =>
    if len = 0 then .ok []
    else
      match walk m root va wr with
      | .error e => .error e
      | .ok l =>
        let a := l.dpa + (va - l.va)
        let step := min len (2 ^ 21 - va % 2 ^ 21)
        if dpaOk m a step then
          match vSpanGo m root wr n (va + step) (len - step) with
          | .error e => .error e
          | .ok r => .ok ((a, step) :: r)
        else .error (.noMemory a)

/-- The DPA pieces of `len` bytes at `va` under the context's page tables. -/
def vSpan (m : Mem) (root : Nat) (wr : Bool) (va len : Nat) : Except VErr (List (Nat × Nat)) :=
  vSpanGo m root wr (len / 2 ^ 21 + 2) va len

/-- The bytes of DPA pieces. -/
def spanRead (m : Mem) (ps : List (Nat × Nat)) : List Byte :=
  match ps with
  | [] => []
  | (a, n) :: t => dRead m a n ++ spanRead m t

/-- Writes bytes over DPA pieces. -/
def spanWrite (ps : List (Nat × Nat)) (bs : List Byte) (m : Mem) : Mem :=
  match ps with
  | [] => m
  | (a, n) :: t => spanWrite t (bs.drop n) (dWrite a (bs.take n) m)

/-- `len` bytes at virtual address `va`. -/
def vRead (m : Mem) (root va len : Nat) : Except VErr (List Byte) :=
  (vSpan m root false va len).map (spanRead m)

/-- Writes bytes at virtual address `va`. -/
def vWrite (m : Mem) (root va : Nat) (bs : List Byte) : Except VErr Mem :=
  (vSpan m root true va bs.length).map fun ps => spanWrite ps bs m

/-- Some code word of `len` bytes at `va` is poisoned. -/
def vPoisoned (m : Mem) (root va len : Nat) : Bool :=
  match vSpan m root false va len with
  | .ok ps => ps.any fun p => dPoisoned m p.1 p.2
  | .error _ => false

/-! ### Access to the parts of the device -/

/-- The generation of context `c` (R368). -/
def genOf (nv : NonVol) (c : Nat) : Nat := smGet nv.gens 0 c

def ctxGet (d : Device) (c : Nat) : Ctx := smGet d.ctxs Ctx.init c
def ctxMod (c : Nat) (f : Ctx → Ctx) (d : Device) : Device := { d with ctxs := smMod d.ctxs Ctx.init c f }
def cluGet (d : Device) (k : Nat) : Cluster := smGet d.clus Cluster.init k
def cluMod (k : Nat) (f : Cluster → Cluster) (d : Device) : Device := { d with clus := smMod d.clus Cluster.init k f }
def coreGet (d : Device) (k j : Nat) : Core := smGet d.cores Core.init (k * 64 + j)
def coreMod (k j : Nat) (f : Core → Core) (d : Device) : Device :=
  { d with cores := smMod d.cores Core.init (k * 64 + j) f }
/-- The place that stands for the claimed unit of a cluster where a place of a running unit is named: its reads go ahead of its start (R59). -/
def claimPlace : Nat := 0xFFFF

def unitGet (d : Device) (k u : Nat) : Option UnitRun := smGet (cluGet d k).units none u

/-- The unit at place `u` of cluster `k`, running or claimed. -/
def unitAt (d : Device) (k u : Nat) : Option UnitRun := if u = claimPlace then (cluGet d k).claimed else unitGet d k u
def unitMod (k u : Nat) (f : UnitRun → UnitRun) (d : Device) : Device :=
  cluMod k (fun x =>
    if u = claimPlace then { x with claimed := x.claimed.map f } else { x with units := smMod x.units none u (Option.map f) }) d
def partGet (d : Device) (p : Nat) : Option Section := smGet d.frames.parts none p
def schedGet (d : Device) (p : Nat) : PartSched := smGet d.sched PartSched.init p
def schedMod (p : Nat) (f : PartSched → PartSched) (d : Device) : Device :=
  { d with sched := smMod d.sched PartSched.init p f }
def cageGet (d : Device) (g : Nat) : Cage := smGet d.link.cages Cage.init g
def cageMod (g : Nat) (f : Cage → Cage) (d : Device) : Device :=
  { d with link := { d.link with cages := smMod d.link.cages Cage.init g f } }
def memMod (f : Mem → Mem) (d : Device) : Device := { d with mem := f d.mem }
def acctMod (c : Nat) (f : Acct → Acct) (d : Device) : Device := ctxMod c (fun x => { x with acct := f x.acct }) d

/-- Applies `f` to every listed value and keeps the canonical form. -/
def smMapV {α : Type} [DecidableEq α] (m : SMap α) (dflt : α) (f : Nat → α → α) : SMap α :=
  (m.map fun e => (e.1, f e.1 e.2)).filter fun e => e.2 ≠ dflt

def clusMap (f : Nat → Cluster → Cluster) (d : Device) : Device := { d with clus := smMapV d.clus Cluster.init f }
def coresMap (f : Nat → Core → Core) (d : Device) : Device := { d with cores := smMapV d.cores Core.init f }

/-- A byte of a cluster's Palette (R234): as written last, or what the stations left there, which is free (log entry 25). -/
def palByte (x : Cluster) (a : Nat) : Byte :=
  match smGet x.palette none a with
  | some b => b
  | none =>
    let f := smGet x.palFrom 0 (a / 1024)
    if f = 0 then 0 else Config.freeByte (f - 1 + a % 1024)

/-- Writes one byte of a cluster's Palette. -/
def palPut (a : Nat) (b : Byte) (x : Cluster) : Cluster := { x with palette := smPut x.palette none a (some b) }

/-- Adds one to FLT_CNT `k` (R445; `k` = 5 is kept in `Kept`). -/
def fltCnt (k : Nat) (d : Device) : Device :=
  { d with flt := { d.flt with cnt := smMod d.flt.cnt 0 k (satInc 32) } }

/-- The clusters of a rectangle of rows and logical columns, ascending (R19, R337). -/
def sectionClusters (s : Section) : List Nat :=
  (List.range s.rows).flatMap fun r => (List.range s.cols).map fun c => (s.row0 + r) * 32 + (s.col0 + c)

/-- The clusters of partition `p`. -/
def partClusters (d : Device) (p : Nat) : List Nat :=
  match partGet d p with
  | some s => sectionClusters s
  | none => []

/-- The partition that holds cluster `k` (R337: rectangles do not overlap). -/
def partOf (d : Device) (k : Nat) : Option Nat :=
  (d.frames.parts.filter fun e => (e.2.map fun s => (sectionClusters s).contains k).getD false).head?.map (·.1)

/-- The context is resident (R370). -/
def resident (d : Device) (c : Nat) : Bool := (ctxGet d c).st = .resident

/-- Contexts resident in partition `p`, ascending. -/
def residents (d : Device) (p : Nat) : List Nat :=
  (d.ctxs.filter fun e => decide (e.2.st = .resident ∧ e.2.part.val = p)).map (·.1)

/-- `d` after drawing `n` free values (the model's own counter, log entry 6). -/
def drawFresh (n : Nat) (d : Device) : Device := { d with fresh := d.fresh + n }

/-! ### Interrupts and device-written rings (13_host_interface) -/

/-- The owner's port (R354). -/
def ownerPort (d : Device) : Option Port := if d.own.st = .unowned then none else some d.own.owner

/-- The port and vector of a ring's interrupt: ring 0 admin, 1 to 3 the device rings, 4 + c context c (R362). -/
def irqTarget (d : Device) (ring : Nat) : Option Irq :=
  if ring = 0 then (ownerPort d).map fun p => ⟨p, d.rings.admin.vector⟩
  else if ring = 1 then (ownerPort d).map fun p => ⟨p, d.rings.evRing.vector⟩
  else if ring = 2 then (ownerPort d).map fun p => ⟨p, d.rings.logRing.vector⟩
  else if ring = 3 then (ownerPort d).map fun p => ⟨p, d.rings.acctRing.vector⟩
  else
    let x := ctxGet d (ring - 4)
    if x.irqEn ∧ (ownerPort d = some x.irqPort ∨ bit x.grant x.irqPort.val) then some ⟨x.irqPort, x.vector⟩ else none

/-- Sends the ring's interrupt now. -/
def irqSend (nv : NonVol) (ring : Nat) (d : Device) : Device :=
  { d with rings := { d.rings with
      irqs := (irqTarget d ring).toList ++ d.rings.irqs
      irqAt := smPut d.rings.irqAt 0 ring (nv.up + 1)
      irqDue := without d.rings.irqDue ring } }

/-- A record of the ring has become visible: its interrupt, at most one a microsecond (R362). -/
def irqRaise (nv : NonVol) (ring : Nat) (d : Device) : Device :=
  let last := smGet d.rings.irqAt 0 ring
  if last = 0 ∨ last - 1 + 1000 ≤ nv.up then irqSend nv ring d
  else { d with rings := { d.rings with irqDue := insAsc ring d.rings.irqDue } }

/-- Device ring `k`: 0 event, 1 firmware log, 2 accounting. -/
def devRing (d : Device) (k : Nat) : DevRing :=
  if k = 0 then d.rings.evRing else if k = 1 then d.rings.logRing else d.rings.acctRing

def devRingMod (k : Nat) (f : DevRing → DevRing) (d : Device) : Device :=
  if k = 0 then { d with rings := { d.rings with evRing := f d.rings.evRing } }
  else if k = 1 then { d with rings := { d.rings with logRing := f d.rings.logRing } }
  else { d with rings := { d.rings with acctRing := f d.rings.acctRing } }

/-- Bytes of one record of device ring `k` (R357). -/
def recSize (k : Nat) : Nat := if k = 2 then 128 else 32

/-- Records that wait on die (R359). -/
def queueCap (k : Nat) : Nat := if k = 2 then 4096 else 256

/-- The ring has a released slot (R359). -/
def ringRoom (log2 tail head : Nat) : Bool := (tail + 2 ^ log2 - head) % 2 ^ log2 < 2 ^ log2 - 1

/-- An event record (R374). -/
def eventRec (code : Nat) (ctx : Option Nat) (seq a0 a1 t : Nat) : Nat :=
  pack [(8, 8, code), (16, 8, ctx.getD 0), (24, 1, b2n ctx.isSome), (32, 32, seq), (64, 64, a0), (128, 64, a1),
    (192, 64, t)]

/-- EVENTS_LOST takes its place in the queue once there is room (R374). -/
def lostEvent (k : Nat) (d : Device) : Device :=
  let r := devRing d k
  if k = 0 ∧ r.gap ≠ 0 ∧ r.queue.length < queueCap k then
    let rec_ := eventRec 2 none d.rings.evSeq r.gap 0 d.time.now
    devRingMod k (fun r => { r with queue := r.queue ++ [rec_], gap := 0 })
      { d with rings := { d.rings with evSeq := wrapInc 32 d.rings.evSeq } }
  else d

/-- Writes the oldest waiting record at the tail: PHASE goes into records that have the field (the accounting record has
none, R399); a slot outside a valid set loses the record (R359, R480). -/
def devRingPop (nv : NonVol) (k : Nat) (d : Device) : Device :=
  let r := devRing d k
  match r.queue with
  | [] => d
  | q :: rest =>
    let a := r.base * 4096 + recSize k * r.tail
    let bytes := toBytes (recSize k) (if k = 2 then q else putBit q 0 r.phase)
    let ok := dpaOk d.mem a (recSize k)
    let tail := (r.tail + 1) % 2 ^ r.log2
    let r' := { r with queue := rest, tail := tail, phase := if tail = 0 then !r.phase else r.phase,
                       lost := if ok then r.lost else satInc 32 r.lost }
    let d := devRingMod k (fun _ => r') (if ok then memMod (dWrite a bytes) d else d)
    if ok then irqRaise nv (k + 1) d else d

/-- Writes waiting records while the ring is enabled and has released slots. -/
def flushRing (nv : NonVol) (k : Nat) (fuel : Nat) (d : Device) : Device :=
  match fuel with
  | 0 => d
  | n + 1 =>
    let d := lostEvent k d
    let r := devRing d k
    if r.en ∧ r.queue ≠ [] ∧ ringRoom r.log2 r.tail r.head then flushRing nv k n (devRingPop nv k d) else d

/-- Flushes device ring `k` wholly: at most its waiting records and one EVENTS_LOST. -/
def flushAll (nv : NonVol) (k : Nat) (d : Device) : Device := flushRing nv k ((devRing d k).queue.length + 3) d

/-- A record for device ring `k`: written, queued, or discarded and counted (R359). -/
def pushRec (nv : NonVol) (k rec_ : Nat) (d : Device) : Device :=
  let d :=
    if (devRing d k).queue.length < queueCap k then devRingMod k (fun r => { r with queue := r.queue ++ [rec_] }) d
    else devRingMod k (fun r => { r with lost := satInc 32 r.lost, gap := if k = 0 then r.gap + 1 else 0 }) d
  flushAll nv k d

/-- A message for the tray controller (R441): class 0 syndrome, 1 event, 2 fuse log. -/
def mgmtPush (cls rec_ : Nat) (d : Device) : Device :=
  if d.kept.mgmt.length < 256 then { d with kept := { d.kept with mgmt := d.kept.mgmt ++ [(cls, rec_)] } }
  else fltCnt 13 d

/-- Raises an event (R374); codes 0x21 to 0x2F go to the management bus as well (R441). -/
def raiseEv (nv : NonVol) (code : Nat) (ctx : Option Nat) (a0 a1 : Nat) (d : Device) : Device :=
  let rec_ := eventRec code ctx d.rings.evSeq a0 a1 d.time.now
  let d := pushRec nv 0 rec_ { d with rings := { d.rings with evSeq := wrapInc 32 d.rings.evSeq } }
  if 0x21 ≤ code ∧ code ≤ 0x2F then mgmtPush 1 rec_ d else d

/-- A firmware trace point (R419). -/
def logPoint (nv : NonVol) (level proc clu point a0 a1 : Nat) (d : Device) : Device :=
  if level ≤ d.fw.logLevel ∧ (level = 3 → bit d.fw.traceMask (point / 4096)) then
    pushRec nv 1
      (pack [(1, 2, level), (3, 2, proc), (8, 10, clu), (32, 16, point), (64, 64, a0), (128, 64, a1),
        (192, 64, d.time.now)])
      { d with fw := { d.fw with logSeq := wrapInc 32 d.fw.logSeq } }
  else d

/-- One refused access, write, entry or record (RING_DENIED, R376). -/
def denied (d : Device) : Device := { d with rings := { d.rings with denied := satInc 32 d.rings.denied } }

/-! ### Health, replace requested, syndrome records (16_faults_and_recovery, 08_memory) -/

def healthKey (kind id : Nat) : Nat := kind * 4096 + id
def healthGet (d : Device) (kind id : Nat) : UnitHealth := smGet d.flt.units UnitHealth.init (healthKey kind id)
def healthMod (kind id : Nat) (f : UnitHealth → UnitHealth) (d : Device) : Device :=
  { d with flt := { d.flt with units := smMod d.flt.units UnitHealth.init (healthKey kind id) f } }

/-- The code of a health state (R434). -/
def healthCode : Health → Nat
  | .healthy => 0 | .suspect => 1 | .dead => 2 | .retireDue => 3 | .retired => 4 | .replaceMedia => 5

/-- Changes a unit's health state and raises UNIT_STATE (R434, R444); nothing when it is in that state already. -/
def setHealth (nv : NonVol) (kind id : Nat) (st : Health) (reason : Nat) (d : Device) : Device :=
  let u := healthGet d kind id
  if u.st = st then d
  else
    let u' : UnitHealth := { u with
      st := st, reason := reason, since := nv.up
      failures := if st = .healthy then 0 else u.failures
      passes := if st = .healthy ∨ st = .suspect then 0 else u.passes
      suspectAt := if st = .suspect then nv.up else u.suspectAt
      testedAt := if st = .suspect then none else u.testedAt
      starvedAt := if st = .suspect then nv.up else u.starvedAt
      eligibleAt := if st = .suspect then nv.up else u.eligibleAt }
    raiseEv nv 0x23 none
      (pack [(0, 4, kind), (4, 12, id), (16, 4, healthCode st), (20, 4, healthCode u.st), (24, 4, reason)])
      (pack [(0, 4, u'.failures), (4, 4, u'.passes)]) (healthMod kind id (fun _ => u') d)

/-- A HEALTHY unit becomes SUSPECT (R435). -/
def suspect (nv : NonVol) (kind id reason : Nat) (d : Device) : Device :=
  if (healthGet d kind id).st = .healthy then setHealth nv kind id .suspect reason d else d

/-- The site of cluster `k` before any remap: row × 34 + physical column (R20, R247). -/
def homeSite (k : Nat) : Nat := k / 32 * 34 + (if k % 32 < 16 then k % 32 else k % 32 + 2)

/-- The site the fuses give cluster `k`: its last fused remap, else its home site (R267). -/
def fusedSite (nv : NonVol) (k : Nat) : Nat :=
  match (nv.remaps.filter fun r => r.1 = k).getLast? with
  | some r => r.2
  | none => homeSite k

/-- The binding of cluster `k` (R261). -/
def bindGet (nv : NonVol) (d : Device) (k : Nat) : Binding :=
  (smGet d.fabric.bind none k).getD ⟨fusedSite nv k, 0, false, false⟩

/-- The spare sites of half `h`: physical column 16 or 17 of each row (R20). -/
def spareSites (h : Nat) : List Nat := (List.range 24).map fun r => r * 34 + 16 + h

/-- A spare site that serves no cluster, and that is neither withheld nor quarantined (R263). -/
def spareFree (nv : NonVol) (d : Device) (site : Nat) : Bool :=
  !((List.range 768).any fun k => (bindGet nv d k).site == site) &&
    !d.fabric.withheld.contains site && !d.fabric.quarantined.contains site

/-- Free spares of half `h` (FLT_HEALTH.FREE_WEST, FREE_EAST). -/
def freeSpares (nv : NonVol) (d : Device) (h : Nat) : Nat := ((spareSites h).filter (spareFree nv d)).length

/-- The conditions of replace requested, as the bits of FLT_HEALTH.REASONS (R440). -/
def replaceReasons (nv : NonVol) (d : Device) : Nat :=
  pack [(0, 1, b2n (d.fabric.bind.any fun e => ((e.2.map (·.fenced)).getD false))),
    (1, 1, b2n (decide (freeSpares nv d 0 < 2) || decide (freeSpares nv d 1 < 2))),
    (2, 1, b2n (decide (48 ≤ nv.remaps.length))),
    (3, 1, b2n (decide (4 ≤ nv.retired.length) && (List.range 32).any fun n => (healthGet d 3 n).st = .retireDue)),
    (4, 1, b2n (decide (d.kept.margin ≠ 0)))]

/-- Enters replace requested when a condition holds (R440); bits stay until a chip reset. -/
def checkReplace (nv : NonVol) (d : Device) : Device :=
  let r := d.flt.reasons ||| replaceReasons nv d
  if r = d.flt.reasons then d
  else
    let was := d.flt.replace
    let d := { d with flt := { d.flt with reasons := r, replace := true } }
    if was then d else raiseEv nv 0x24 none r 0 d

/-- The pseudo-channel of a stack byte offset (R220). -/
def pseudoChannel (off : Nat) : Nat := (off / 2048 % 64) ^^^ (off / 2048 / 64 % 64) ^^^ (off / 2048 / 4096 % 64)

/-- WHERE of a syndrome record for external memory (R243). -/
def hbmWhere (place : Nat) : Nat :=
  pack [(0, 36, place % 2 ^ 36 / 64 * 64), (36, 5, place / 2 ^ 36), (41, 6, pseudoChannel (place % 2 ^ 36))]

/-- Writes a syndrome record to the log and to the management bus (R243, R441). -/
def synRecord (kind source : Nat) (ctx : Option Nat) (action : Nat) (syndrome wher symbol pattern : Nat) (d : Device) :
    Device :=
  let r := pack [(0, 4, kind), (4, 4, source), (8, 8, ctx.getD 0), (16, 1, b2n ctx.isSome), (17, 3, action),
    (32, 32, syndrome), (64, 64, wher), (128, 8, symbol), (136, 4, pattern), (192, 64, d.time.now)]
  let a := d.mem.synlog + 32 * (d.mem.synHead % 4096)
  let m := if dpaOk d.mem a 32 then dWrite a (toBytes 32 r) d.mem else d.mem
  mgmtPush 0 r { d with mem := { m with synHead := wrapInc 32 m.synHead } }

/-- Moment `up` before the moments `l` of the hour that ends with it, at most `n` of them (R435). -/
def lastHour (up n : Nat) (l : List Nat) : List Nat := (up :: l.filter fun t => decide (up < t + 3600000000000)).take n

/-- An error on the code word at place `word` × 64 (R238, R239): its stack's counter, its syndrome record, and the
stack's health (R435). A fatal error poisons the word. -/
def hbmError (nv : NonVol) (source : Nat) (ctx : Option Nat) (action : Nat) (e : EccNote) (d : Device) : Device :=
  let stack := e.word * 64 / 2 ^ 36
  if e.fatal then
    let d := memMod (fun m => { m with ue := smMod m.ue 0 stack (satInc 32), poison := insAsc e.word m.poison,
                                       synAt := (e.word, nv.up, m.synHead) :: m.synAt.filter (·.1 ≠ e.word) }) d
    suspect nv 3 stack 8 (synRecord 1 source ctx action e.syndrome.toNat (hbmWhere (e.word * 64)) 0xFF 0 d)
  else
    let recent := d.mem.synAt.any fun s => s.1 = e.word ∧ nv.up < s.2.1 + 1000000
    let d := memMod (fun m => { m with
      ce := smMod m.ce 0 stack (satInc 32), ceHour := smMod m.ceHour [] stack (lastHour nv.up 1001) }) d
    let d :=
      if recent then d
      else
        let n := d.mem.synHead
        synRecord 0 source ctx 0 e.syndrome.toNat (hbmWhere (e.word * 64)) e.symbol.toNat e.pattern.toNat
          (memMod (fun m => { m with synAt := (e.word, nv.up, n) :: m.synAt.filter (·.1 ≠ e.word) }) d)
    if 1000 < (smGet d.mem.ceHour [] stack).length then suspect nv 3 stack 7 d else d

/-- An access from `source` for `ctx` meets the errors in code words `ws` that none has met: each is counted and recorded, a fatal one
with `action` (R238, R239). -/
def meetErrors (nv : NonVol) (source : Nat) (ctx : Option Nat) (action : Nat) (ws : List Nat) (d : Device) : Device :=
  let es := d.mem.latent.filter fun e => ws.contains e.word
  if es = [] then d
  else
    es.foldl (fun d e => hbmError nv source ctx (if e.fatal then action else 0) e d)
      (memMod (fun m => { m with latent := m.latent.filter fun e => !ws.contains e.word }) d)

/-- DETAIL of a fault by the code word at place `word` × 64 (R424, cause 0x0A): the index of its last syndrome record. An error that
has none yet stands as 2^40 + the word until the fault is logged (`faultCtx`). -/
def synIndex (m : Mem) (word : Nat) : Nat :=
  if m.latent.any fun e => e.word == word && e.fatal then 2 ^ 40 + word
  else
    match m.synAt.find? (·.1 = word) with
    | some s => s.2.2
    | none => m.synHead

/-! ### Windows (10_stava_links) -/

/-- The DPA of window `w`'s descriptor (R283). -/
def winAddr (d : Device) (w : Nat) : Nat := d.link.wintab + 64 * w

/-- Window `w`'s descriptor (R283). -/
def winDesc (d : Device) (w : Nat) : Nat := dNat d.mem (winAddr d w) 64

/-- Writes window `w`'s descriptor and keeps the list of valid windows. -/
def winPut (w v : Nat) (d : Device) : Device :=
  let d := memMod (dWrite (winAddr d w) (toBytes 64 v)) d
  { d with link := { d.link with valid := if bit v 0 then insAsc w d.link.valid else without d.link.valid w } }

/-- A DATA packet of context `c` to node `n` that quotes a window (R275). -/
def dataPacket (nv : NonVol) (d : Device) (c n sel op : Nat) : StavaPacket :=
  { version := 1, type := 0, openF := false, ordered := false, cmark := false, echo := false,
    srcNode := BitVec.ofNat 10 d.link.node, dstNode := BitVec.ofNat 10 n, flow := BitVec.ofNat 12 (c * 16 + sel), seq := 0,
    ackSeq := 0, sendTime := 0, op := BitVec.ofNat 4 op, status := 0, srcCtx := BitVec.ofNat 8 c,
    srcGen := BitVec.ofNat 16 (genOf nv c), window := 0, winGen := 0, key := 0, tag := 0, offset := 0, length := 0,
    sack := 0, tail := [], payload := [], poison := [] }

/-- An application of partition `p`, or a full one, is in progress (R344). -/
def applying (d : Device) (p : Nat) : Bool :=
  d.frames.apps.any fun a => match a.frame with
    | some f => !f.isPartial || (f.sections.any fun s => s.number = p)
    | none => false

/-- A packet to send that belongs to nothing. -/
def TxPacket.plain (q : StavaPacket) : TxPacket := ⟨0, q, 0, 0, 0, 0, none, none, none, 0⟩

/-- A transmit flow before its first packet: W is 32 (R280). -/
def TxFlow.init (n f : Nat) : TxFlow := ⟨n, f, false, 0, [], [], 32, 0, 0, 0, none, 0⟩

/-- The transmit flow to node `n` with number `f`. -/
def txGet (d : Device) (n f : Nat) : TxFlow := (d.link.tx.find? fun x => decide (x.node = n ∧ x.flow = f)).getD (TxFlow.init n f)

/-- Puts a transmit flow. -/
def txPut (x : TxFlow) (d : Device) : Device :=
  let held := d.link.tx.any fun y => decide (y.node = x.node ∧ y.flow = x.flow)
  let l := if held then d.link.tx.map (fun y => if y.node = x.node ∧ y.flow = x.flow then x else y) else d.link.tx ++ [x]
  { d with link := { d.link with tx := l } }

/-- Queues a REVOKE_NOTICE of context `c` to node `n` for window `w` of the revoked generation `gen` (R284, R288). It leaves
on flow selector 0 of the context (log entry 15). -/
def noticeQueue (nv : NonVol) (c n w gen : Nat) (d : Device) : Device :=
  let q := { dataPacket nv d c n 0 4 with window := BitVec.ofNat 16 w, winGen := BitVec.ofNat 16 gen }
  let x := txGet d n (c * 16)
  txPut { x with queue := x.queue ++ [TxPacket.plain q] } d

/-- Revokes window `w`: VALID 0, GENERATION + 1, and a notice to the peer when one node is named (R284). -/
def winRevoke (nv : NonVol) (w : Nat) (d : Device) : Device :=
  let v := winDesc d w
  let d := winPut w (putFld (putBit v 0 false) 16 16 (fld v 16 16 + 1)) d
  if bit v 202 then d else noticeQueue nv (fld v 8 8) (fld v 192 10) w (fld v 16 16) d

/-- Revokes every window that context `c` owns (R284). -/
def winRevokeAll (nv : NonVol) (c : Nat) (d : Device) : Device :=
  (d.link.valid.filter fun w => fld (winDesc d w) 8 8 = c).foldl (fun d w => winRevoke nv w d) d

/-! ### Start of a teardown, and faults -/

/-- A Tally slot that its stream no longer holds (R425). -/
def slotFree (s : TallySlot) : TallySlot := { s with active := false, combining := false }

/-- The arrays once context `c` has left: dummy rows on its account end, and its blocks are not used again (R117). -/
def arraysDrop (c : Nat) (m : SMap ArraySt) : SMap ArraySt :=
  let mine (b : StatBlock) : Bool := b.ctx.val == c
  smMapV m ArraySt.init fun _ a =>
    ⟨a.held.filter (fun b => !mine b), a.shadow.filter (fun b => !mine b), a.last.filter fun l => l.1.val ≠ c⟩

/-- The Easel without the regions of context `c`. -/
def easelDrop (c : Nat) (e : Easel) : Easel := ⟨e.held.filter (·.ctx.val ≠ c), e.filling.filter fun f => f.1.ctx.val ≠ c⟩

/-- What a cluster loses when context `c` is torn down (R425). -/
def clusterDrop (c : Nat) (x : Cluster) : Cluster :=
  let mine := x.coreCtx.map (·.val) = some c
  { x with
    claimed := x.claimed.filter (·.ctx.val ≠ c)
    units := x.units.filter fun e => (e.2.map (·.ctx.val)) ≠ some c
    slots := smMapV x.slots TallySlot.init fun _ s => if s.ctx = c then slotFree s else s
    digs := smMapV x.digs DigestUnit.init fun _ g => if g.ctx = c then { g with busy := false } else g
    coreCtx := if mine then none else x.coreCtx
    bars := if mine then [] else x.bars
    sems := if mine then [] else x.sems
    parcels := x.parcels.filter (·.ctx.val ≠ c)
    written := x.written.filter (·.1 ≠ c)
    tags := x.tags.map fun t => if t.ctx.val = c then { t with live := false } else t
    arrays := arraysDrop c x.arrays
    easel := easelDrop c x.easel
    bankQ := x.bankQ.filter (·.ctx.val ≠ c)
    writes := x.writes.filter (·.ctx.val ≠ c)
    wtags := (x.wtags.map fun t => { t with pieces := t.pieces.filter (·.ctx.val ≠ c) }).filter (·.pieces ≠ [])
    combining := x.combining.filter (·.ctx.val ≠ c)
    deliveries := x.deliveries.filter (·.ctx.val ≠ c)
    frames := x.frames.filter fun e => (e.2.map (·.ctx)) ≠ some c
    mcWait := x.mcWait.filter (·.2.1 ≠ c) }

/-- A core that ran a parcel of context `c` is idle (R425). -/
def coreDrop (c : Nat) (x : Core) : Core :=
  if (x.run.map (·.parcel.ctx.val)) = some c then { x with run := none, loads := [], fars := [], wait := .none } else x

/-- Context `c` counts as departed wherever a boundary, an eviction or a reclaim waits for it (R390, R425). -/
def schedDrop (c : Nat) (s : PartSched) : PartSched :=
  { s with
    incoming := without s.incoming c
    evicted := without s.evicted c
    reclaim := s.reclaim.map fun r =>
      if r.departing.contains c then { r with departing := without r.departing c, gone := r.gone + 1 } else r }

/-- The transmit flows of context `c` are freed (R425); a flow number is context × 16 + FLOW_SEL (R275). -/
def linkDrop (c : Nat) (l : Link) : Link := { l with tx := l.tx.filter fun f => f.flow / 16 ≠ c }

/-- TEARING begins (R370, R425): intake stops, windows are revoked, collectives end locally (R312), every activity is
disposed of; what is in flight drains. `status` and `tag` are of the faulting command, if one. -/
def startTeardown (nv : NonVol) (c status : Nat) (tag : Option Nat) (d : Device) : Device :=
  let p := (ctxGet d c).part.val
  let d := winRevokeAll nv c { d with link := linkDrop c d.link }
  let d := ctxMod c (fun x => { x with
    st := .tearing, bells := [], ctrs := [], prog := x.prog.map fun g => { g with runs := [], block := none }
    faultStatus := status, faultTag := tag, tornStatus := 0x21, tearFrom := nv.up, departing := none, departT := none
    kept := 0, overrun := 0, save := none, savedGran := [], savedDigs := [], savedPal := [], savedFrom := [], savedCores := [], bubbles := [] }) d
  let d := coresMap (fun _ x => coreDrop c x) (clusMap (fun _ x => clusterDrop c x) d)
  let d := schedMod p (schedDrop c) d
  { d with
    coll := { d.coll with
      runs := (d.coll.runs.filter fun r => r.ctx.val ≠ c || r.active).map fun r => if r.ctx.val = c then { r with bad := 0x21, stage := none } else r
      norms := smDel d.coll.norms c } }

/-- What a fault record says of a detection (R423). -/
structure FaultAt where
  cause : Nat
  status : Nat
  detector : Nat
  clu : Option Nat
  /-- Core number and pc. -/
  core : Option (Nat × Nat)
  /-- Stream number, unit number, and whether the unit is a repair unit. -/
  stream : Option (Nat × Nat × Bool)
  address : Nat
  detail : Nat
  /-- The tag of the faulting command. -/
  tag : Option Nat
  deriving DecidableEq, Repr

/-- The command with tag `t`. -/
def takenGet (d : Device) (t : Nat) : Option Taken := d.rings.taken.find? (·.tag = t)

/-- CMD_ID of a taken command (R363). -/
def cmdId (x : Taken) : Nat := fld x.entry 16 16

/-- The fault record of R423. -/
def faultRec (nv : NonVol) (c : Nat) (f : FaultAt) (d : Device) : Nat :=
  let cmd := ((f.tag.bind (takenGet d)).map cmdId).getD 0
  let s := f.stream.getD (0, 0, false)
  let k := f.core.getD (0, 0)
  pack [(0, 8, c), (16, 16, genOf nv c), (32, 8, f.cause), (40, 8, f.status), (48, 4, (ctxGet d c).part.val),
    (52, 3, f.detector), (64, 32, d.flt.head), (96, 10, f.clu.getD 0), (106, 1, b2n f.clu.isSome), (107, 6, k.1),
    (113, 1, b2n f.core.isSome), (128, 32, k.2), (160, 10, s.1), (170, 1, b2n f.stream.isSome), (176, 16, cmd),
    (192, 64, f.address), (256, 24, s.2.1), (280, 1, b2n s.2.2), (320, 64, f.detail), (384, 64, d.time.now)]

/-- Writes the fault record at its place in the log, or counts it as discarded (R423). -/
def faultLog (nv : NonVol) (c : Nat) (f : FaultAt) (d : Device) : Device :=
  let a := d.flt.log + 64 * (d.flt.head % 4096)
  if dpaOk d.mem a 64 then
    let d := memMod (dWrite a (toBytes 64 (faultRec nv c f d))) d
    fltCnt 0 { d with flt := { d.flt with head := wrapInc 32 d.flt.head } }
  else fltCnt 12 d

/-- The faulting command of a detection (R370, R421): as given, or the program of the context for an activity of its units, cores,
page walks and writes, and for the watchdog (DEDUCED, log entry 33). -/
def faultingTag (d : Device) (c : Nat) (f : FaultAt) : Option Nat :=
  if f.tag.isSome ∨ 5 < f.detector then f.tag else (ctxGet d c).prog.map (·.tag)

/-- A detection names context `c` (R421, R422): the first of a generation writes its record, raises FAULT and starts the
teardown; one in TEARING or QUIESCING is counted. -/
def faultCtx (nv : NonVol) (c : Nat) (f : FaultAt) (d : Device) : Device :=
  match (ctxGet d c).st with
  | .bound | .resident =>
    let w := f.detail - 2 ^ 40
    let met := f.cause = 0x0A ∧ 2 ^ 40 ≤ f.detail
    let d := if met then meetErrors nv (if f.detector = 3 then 4 else 0) (some c) 2 [w] d else d
    let f := { f with tag := faultingTag d c f, detail := if met then synIndex d.mem w else f.detail }
    let n := d.flt.head
    let d := faultLog nv c f d
    let d := raiseEv nv 0x20 (some c) (pack [(0, 8, f.cause), (8, 8, f.status), (16, 10, f.clu.getD 0)]) n d
    startTeardown nv c f.status f.tag d
  | .tearing | .quiescing => fltCnt 1 d
  | .free => d

/-- CONTEXT_FAULT, PAGE_FAULT, HANG_RESET, UNCORRECTABLE and the other status codes (R373). -/
def stOK : Nat := 0x00
def stMalformed : Nat := 0x10
def stState : Nat := 0x11
def stNotOwner : Nat := 0x12
def stVersion : Nat := 0x13
def stNoResource : Nat := 0x14
def stAcc : Nat := 0x15
def stAbsent : Nat := 0x16
def stCtxFault : Nat := 0x20
def stTorn : Nat := 0x21
def stPreempted : Nat := 0x22
def stPage : Nat := 0x30
def stWindow : Nat := 0x31
def stStale : Nat := 0x32
def stNonfinite : Nat := 0x40
def stMismatch : Nat := 0x41
def stDeferred : Nat := 0x50
def stHang : Nat := 0x60
def stBudget : Nat := 0x70
def stList : Nat := 0x71
def stUncorrectable : Nat := 0x72
def stLinkLost : Nat := 0x73
def stSignature : Nat := 0x74

/-- Cause, status, ADDRESS and DETAIL of a refused virtual access (R424). -/
def vErrFault (e : VErr) : Nat × Nat × Nat × Nat :=
  match e with
  | .unmapped va wr => (5, stPage, va, b2n wr)
  | .readOnly va => (6, stPage, va, 0)
  | .malformed va l => (7, stCtxFault, va, l)
  | .noMemory a => (8, stCtxFault, a, 0)
  | .outside va => (9, stCtxFault, va, 0)
  | .poisoned w => (0x0A, stUncorrectable, 0, 2 ^ 40 + w)

/-- A fault at a refused virtual access, from `detector`. -/
def vFault (e : VErr) (detector : Nat) : FaultAt :=
  let x := vErrFault e
  ⟨x.1, x.2.1, detector, none, none, none, x.2.2.1, x.2.2.2, none⟩

/-! ### The submission entry (R363) -/

def eOpcode (e : Nat) : Nat := fld e 0 8
def eContext (e : Nat) : Nat := fld e 32 8
def ePartition (e : Nat) : Nat := fld e 40 4
/-- ARG0 to ARG3. -/
def eArg (e i : Nat) : Nat := fld e (64 + 64 * i) 64
def eWaitCtr (e : Nat) : Nat := fld e 320 4
def eWaitEn (e : Nat) : Bool := bit e 324
def eWaitValue (e : Nat) : Nat := fld e 352 32
def eTime (e : Nat) : Nat := fld e 384 64

/-! ### Completion records (13_host_interface) -/

/-- A completion record (R365), its phase bit 0. -/
def complRec (info : Bool) (status cmd sqHead index result t : Nat) : Nat :=
  pack [(1, 1, b2n info), (8, 8, status), (16, 16, cmd), (32, 12, sqHead), (48, 16, index), (64, 64, result),
    (192, 64, t)]

/-- Writes a record of the admin completion ring at its tail (R359, R480). -/
def adminRecord (nv : NonVol) (info : Bool) (status cmd index result : Nat) (d : Device) : Device :=
  let r := d.rings.admin
  let a := r.base * 4096 + 64 * 2 ^ r.log2 + 32 * r.cqTail
  let bytes := toBytes 32 (putBit (complRec info status cmd r.sqHead index result d.time.now) 0 r.phase)
  let tail := (r.cqTail + 1) % 2 ^ r.log2
  let ok := dpaOk d.mem a 32
  let d := if ok then memMod (dWrite a bytes) d else denied d
  let d := { d with rings := { d.rings with admin := { d.rings.admin with
    cqTail := tail, phase := if tail = 0 then !r.phase else r.phase } } }
  if ok then irqRaise nv 0 d else d

/-- Writes a record of context `c`'s completion ring; a slot that cannot be written faults the context, and in TEARING
the record is discarded and counted (R480). -/
def ctxRecord (nv : NonVol) (c : Nat) (info : Bool) (status cmd index result : Nat) (d : Device) : Device :=
  let x := ctxGet d c
  let va := x.ring + 64 * 2 ^ x.sqLog + 32 * x.cqTail
  let bytes := toBytes 32 (putBit (complRec info status cmd x.sqHead index result d.time.now) 0 x.phase)
  match vWrite d.mem x.root va bytes with
  | .ok m =>
    let tail := (x.cqTail + 1) % 2 ^ x.cqLog
    irqRaise nv (4 + c)
      (ctxMod c (fun x => { x with cqTail := tail, phase := if tail = 0 then !x.phase else x.phase }) { d with mem := m })
  | .error e => if x.st = .bound ∨ x.st = .resident then faultCtx nv c (vFault e 6) (denied d) else denied d

/-- The record of a taken command on its own ring. -/
def record (nv : NonVol) (x : Taken) (info : Bool) (status index result : Nat) (d : Device) : Device :=
  match x.ring with
  | none => adminRecord nv info status (cmdId x) index result d
  | some c => ctxRecord nv c.val info status (cmdId x) index result d

/-- The command with tag `t` completes: it leaves the list of taken commands and its record is written (R361); the status of a stage or apply command shows in PART_FRAME.LAST_STATUS (R349). -/
def complete (nv : NonVol) (t status index result : Nat) (d : Device) : Device :=
  match takenGet d t with
  | none => d
  | some x =>
    let frame := eOpcode x.entry = 0x09 ∨ eOpcode x.entry = 0x0A
    record nv x false status index result
      { d with
        rings := { d.rings with taken := d.rings.taken.filter (·.tag ≠ t) }
        frames := { d.frames with lastStatus := if frame then status else d.frames.lastStatus } }

/-- An informational record of a command that goes on (R365, R413); at most one (R360). -/
def inform (nv : NonVol) (t status : Nat) (d : Device) : Device :=
  match takenGet d t with
  | none => d
  | some x =>
    if x.informed then d
    else
      record nv x true status 0xFFFF 0
        { d with rings := { d.rings with
            taken := d.rings.taken.map (fun y => if y.tag = t then { y with informed := true } else y) } }

/-- The command with tag `t` has begun and completes by a later command. -/
def markBegun (t : Nat) (d : Device) : Device :=
  { d with rings := { d.rings with
      taken := d.rings.taken.map (fun y => if y.tag = t then { y with begun := true } else y) } }

/-! ### Lifting to the whole state -/

/-- A command that changes the device alone. -/
def onDev (f : NonVol → Device → Device) (s : State) : State := { s with d := f s.nv s.d }

/-- A command that changes what the module keeps as well. -/
def onBoth (f : NonVol → Device → NonVol × Device) (s : State) : State :=
  let r := f s.nv s.d
  { s with nv := r.1, d := r.2 }

/-- The host can reach the device through port `p`: main power is on and the port's link is up (R447, R449). -/
def hostUp (nv : NonVol) (d : Device) (p : Port) : Bool := nv.mainOn && bit d.own.linkUp p.val

/-- Port `p` is the owner's port (R353). -/
def isOwner (d : Device) (p : Port) : Bool := ownerPort d = some p

/-- Port `p` may act for context `c`: it is the owner's or holds a grant (R353). -/
def mayUse (d : Device) (p : Port) (c : Nat) : Bool := isOwner d p || bit (ctxGet d c).grant p.val

/-- The context serves commands (R370). -/
def ctxLive (d : Device) (c : Nat) : Bool :=
  (ctxGet d c).st = .bound || (ctxGet d c).st = .resident

/-- Appends a fuse-log record and raises FUSE (R442, R443, R444). -/
def fuseAppend (kind entry requester port old new_ : Nat) (nv : NonVol) (d : Device) : NonVol × Device :=
  let r : FuseRec := ⟨kind, entry, requester, port, old, new_, d.time.now⟩
  let n := nv.fuseLog.length
  let nv := { nv with fuseLog := if n < 256 then nv.fuseLog ++ [r] else nv.fuseLog }
  let word := pack [(0, 4, kind), (8, 8, entry), (16, 2, requester), (18, 2, port), (32, 32, old), (64, 32, new_),
    (128, 64, r.time)]
  (nv, mgmtPush 2 word (raiseEv nv 0x27 none kind n d))

end Sys2Proof.Machine
end

