-- ==== Sys2Proof/Machine/RegRead.lean ====
section
/-! DEFINITION. What every register of the control space reads (R23, R24): one function per block. Offsets a block does not
define read 0. A read changes nothing (R14). -/

namespace Sys2Proof.Machine

/-! ### DEV (00_scope) -/

/-- DEV_OPTION (R7). -/
def devOption (nv : NonVol) : Nat := b2n nv.m24 + 4 * b2n nv.l4 + 16 * b2n nv.specN

/-- CAP_UNITS (R8). -/
def capUnits (nv : NonVol) : Nat := 0x20180000 + (if nv.l4 then 0x0F00 else 0xFF00) + (if nv.specN then 0 else 3)

/-- The DEV block (R6, R11). -/
def devReg (nv : NonVol) (o : Nat) : Nat :=
  if o = 0 then 0x0C5D9600
  else if o = 4 then nv.stepping.toNat
  else if o = 8 then devOption nv
  else if o = 0x100 then capUnits nv
  else if o = 0x104 then nv.capMemory
  else 0

/-! ### OWN and RING (13_host_interface R375, R376) -/

def ownCode : OwnSt → Nat
  | .unowned => 0 | .owned => 1 | .lost => 2 | .handing => 3

/-- OWN_STATE as port `p` reads it. -/
def ownState (d : Device) (p : Nat) : Nat :=
  pack [(0, 3, ownCode d.own.st), (4, 2, d.own.owner.val), (6, 2, if d.own.st = .handing then d.own.target.val else 0),
    (8, 2, p), (16, 16, d.own.elections)]

def ownReg (nv : NonVol) (d : Device) (p o : Nat) : Nat :=
  if o = 0 then ownState d p
  else if o = 8 then nv.policyMask + 16 * nv.policyChanges
  else if o = 0xC then d.own.lossMs
  else if 0x100 ≤ o ∧ o < 0x500 then (ctxGet d ((o - 0x100) / 4)).grant
  else 0

/-- Aperture `a` of port `p`. -/
def aperGet (d : Device) (p a : Nat) : Aperture := smGet d.rings.apers Aperture.init (16 * p + a)

def ringReg (d : Device) (o : Nat) : Nat :=
  let a := d.rings.admin
  if o = 0 then a.base % 2 ^ 20 * 4096
  else if o = 4 then a.base / 2 ^ 20
  else if o = 8 then pack [(0, 1, b2n a.en), (4, 4, a.log2), (8, 5, a.vector)]
  else if o = 0xC then a.sqTail
  else if o = 0x10 then a.cqHead
  else if o = 0x14 then pack [(0, 12, a.sqHead), (16, 12, a.cqTail), (28, 1, b2n a.phase), (29, 1, b2n a.draining)]
  else if 0x100 ≤ o ∧ o < 0x160 then
    let r := devRing d ((o - 0x100) / 0x20)
    let f := o % 0x20
    if f = 0 then r.base % 2 ^ 20 * 4096
    else if f = 4 then r.base / 2 ^ 20
    else if f = 8 then pack [(0, 1, b2n r.en), (4, 4, r.log2), (8, 5, r.vector)]
    else if f = 0xC then r.head
    else if f = 0x10 then pack [(0, 12, r.tail), (12, 16, r.queue.length), (28, 1, b2n r.phase)]
    else if f = 0x14 then r.lost
    else 0
  else if o = 0x200 then d.rings.denied
  else if 0x400 ≤ o ∧ o < 0x800 then
    let x := aperGet d ((o - 0x400) / 0x100) (o % 0x100 / 0x10)
    let f := o % 0x10
    if f = 0 then pack [(0, 2, x.mode), (2, 1, b2n x.write), (8, 8, x.ctx)]
    else if f = 4 then fld x.base 21 11 * 2 ^ 21
    else if f = 8 then x.base / 2 ^ 32
    else 0
  else if 0x10000 ≤ o ∧ o < 0x11000 then
    let x := ctxGet d ((o - 0x10000) / 0x10)
    let f := o % 0x10
    if f = 0 then x.sqTail
    else if f = 4 then x.cqHead
    else if f = 8 then pack [(0, 12, x.sqHead), (16, 12, x.cqTail), (28, 1, b2n x.phase)]
    else 0
  else 0

/-! ### FW (15_firmware R420) -/

def fwCode : FwMode → Nat
  | .booting => 0 | .held => 1 | .running => 2 | .recovery => 3

/-- The image of the pending bank (FW_STAGED). -/
def pendingImage (nv : NonVol) : Option Image :=
  match nv.pendingB with
  | some true => nv.bankB
  | some false => nv.bankA
  | none => none

def fwState (nv : NonVol) (d : Device) : Nat :=
  pack [(0, 3, fwCode d.fw.mode), (3, 1, b2n d.fw.acting.isSome), (4, 1, b2n d.fw.deferred.isSome),
    (5, 1, b2n d.fw.staging.isSome), (6, 1, b2n d.fw.bankB), (7, 1, b2n nv.pendingB.isSome), (16, 16, d.fw.activations)]

def fwVersion (d : Device) : Nat := (d.fw.image.map (·.version)).getD 0
def fwIfMin (d : Device) : Nat := (d.fw.image.map (·.ifMin)).getD 0
def fwIfMax (d : Device) : Nat := (d.fw.image.map (·.ifMax)).getD 0
def fwStaged (nv : NonVol) : Nat := ((pendingImage nv).map (·.version)).getD 0
def fwRollback (nv : NonVol) (d : Device) : Nat :=
  pack [(0, 7, nv.rollback), (8, 7, (d.fw.image.map (·.rollback)).getD 0)]

def procCode : ProcSt → Nat
  | .running => 0 | .restarting => 1 | .stopped => 2

def fwReg (nv : NonVol) (d : Device) (o : Nat) : Nat :=
  if o = 0 then fwState nv d
  else if o = 4 then fwVersion d
  else if o = 8 then fwStaged nv
  else if o = 0xC then fwRollback nv d
  else if o = 0x10 then d.fw.ifAccepted
  else if o = 0x14 then fwIfMin d
  else if o = 0x18 then fwIfMax d
  else if o = 0x20 then pack [(8, 8, d.fw.actStatus), (16, 16, d.fw.actSeq)]
  else if o = 0x24 then d.fw.actPause
  else if 0x100 ≤ o ∧ o < 0x10C then
    let x := smGet d.fw.procs Proc.init ((o - 0x100) / 4)
    pack [(0, 2, procCode x.st), (16, 16, x.crashes)]
  else if o = 0x110 then
    pack [(0, 10, (d.clus.filter fun e => e.2.downFrom.isSome).length), (16, 16, d.fw.cccCrashes)]
  else if o = 0x200 then d.fw.logLevel
  else if o = 0x204 then d.fw.traceMask
  else if o = 0x208 then d.fw.logSeq
  else 0

/-! ### PART (12_frames_and_partitions R349) -/

/-- PRINT of a key: the first 32 bits of the SHA-384 digest of x, then y, with VALID in place of bit 0. -/
def keyPrint (k : Option Nat) : Nat :=
  match k with
  | none => 0
  | some xy => ofBytes ((sha384 (toBytes 96 xy)).take 4) / 2 * 2 + 1

/-- Partitions running. -/
def partCount (d : Device) : Nat := (d.frames.parts.filter fun e => e.2.isSome).length

/-- PART_RECT to PART_SECTION of a running section. -/
def sectionReg (d : Device) (p f : Nat) (s : Section) : Nat :=
  if f = 0 then pack [(0, 5, s.col0), (8, 5, s.row0), (16, 5, s.cols - 1), (24, 5, s.rows - 1), (31, 1, 1)]
  else if f = 4 then pack [(0, 16, s.stations), (16, 16, s.formats)]
  else if f = 8 then
    pack [(0, 8, s.cages), (8, 5, s.trees.length), (16, 4, s.maxResident), (20, 4, (residents d p).length)]
  else if f = 0xC then pack [(0, 7, s.tileBudget), (7, 1, b2n s.dummyFill), (8, 13, s.dummyGap)]
  else if f = 0x10 then pack [(0, 16, s.powerW), (16, 10, s.keptLimit)]
  else if f = 0x14 then smGet d.frames.sectionSerial 0 p
  else 0

/-- The PART registers (R349). The null Frame is what chip reset leaves, all of whose fields read 0. -/
def partReg (nv : NonVol) (d : Device) (o : Nat) : Nat :=
  let fr := d.frames
  if o = 0 then
    pack [(0, 1, b2n (fr.apps.any (·.frame.isSome))), (1, 1, b2n fr.staging.isSome), (2, 5, partCount d), (8, 8, fr.lastStatus),
      (16, 16, fr.seq)]
  else if o = 4 then fr.serial % 2 ^ 32
  else if o = 8 then fr.serial / 2 ^ 32
  else if o = 0x10 ∨ o = 0x14 then keyPrint (fr.keys.getD ((o - 0x10) / 4) none)
  else if 0x20 ≤ o ∧ o < 0x30 then
    match fr.slots.getD ((o - 0x20) / 4) none with
    | some x => pack [(0, 1, 1), (1, 1, b2n x.isPartial), (2, 1, x.keySlot),
        (4, 4, if x.isPartial then (x.sections.head?.map (·.number)).getD 0 else 0), (16, 16, x.length / 64)]
    | none => 0
  else if 0x100 ≤ o ∧ o < 0x300 then
    match partGet d ((o - 0x100) / 0x20) with
    | some s => sectionReg d ((o - 0x100) / 0x20) (o % 0x20) s
    | none => 0
  else if o = 0x400 then fr.ctxSel
  else if o = 0x404 then
    let x := ctxGet d fr.ctxSel
    pack [(0, 1, b2n (decide (x.st ≠ .free))), (1, 1, b2n (decide (x.st = .resident))), (4, 4, x.part.val),
      (16, 16, genOf nv fr.ctxSel)]
  else 0

/-! ### MEM (08_memory R245) -/

def setReg (s : StripeSet) (f : Nat) : Nat :=
  if f = 0 then s.mask
  else if f = 4 then pack [(0, 15, s.base), (16, 15, s.size)]
  else if f = 8 then pack [(0, 1, b2n s.valid), (1, 1, b2n s.draining), (16, 4, s.error)]
  else 0

def memReg (d : Device) (o : Nat) : Nat :=
  let m := d.mem
  if o = 0 then pack [(0, 4, d.frames.glob.read), (4, 4, d.frames.glob.write), (8, 4, d.frames.glob.remote)]
  else if o = 4 then m.quota
  else if o = 0x10 then m.dump % 2 ^ 32
  else if o = 0x14 then m.dump / 2 ^ 32
  else if o = 0x18 then m.synlog % 2 ^ 32
  else if o = 0x1C then m.synlog / 2 ^ 32
  else if o = 0x20 then m.synHead
  else if o = 0x24 then pack [(0, 16, m.scrubPasses), (16, 8, 8)]
  else if o = 0x28 then m.sramCe
  else if o = 0x2C then m.sramUe
  else if o = 0x40 then pack [(0, 8, m.invCtx), (8, 1, b2n m.invAll)]
  else if o = 0x44 then m.invVa % 2 ^ 32
  else if o = 0x48 then m.invVa / 2 ^ 32
  else if o = 0x4C then m.invCount
  else if o = 0x54 then pack [(0, 1, b2n m.inval.isSome), (1, 1, b2n m.invRefused), (16, 16, m.invSeq)]
  else if 0x100 ≤ o ∧ o < 0x180 then setReg (setGet m ((o - 0x100) / 0x10)) (o % 0x10)
  else if 0x400 ≤ o ∧ o < 0x480 then smGet m.ce 0 ((o - 0x400) / 4)
  else if 0x480 ≤ o ∧ o < 0x500 then smGet m.ue 0 ((o - 0x480) / 4)
  else if o = 0x600 then pack [(0, 10, m.bankClu), (10, 8, m.bankCtx), (31, 1, b2n m.bankEn)]
  else if 0x680 ≤ o ∧ o < 0x700 then smGet m.bankCnt 0 ((o - 0x680) / 4)
  else 0

/-! ### LINK (10_stava_links R296) -/

def cageCode : CageSt → Nat
  | .disabled => 0 | .empty => 1 | .present => 2 | .training => 3 | .up => 4 | .upHalf => 5 | .down => 6

/-- Cages fitted (R269). -/
def cageFitted (nv : NonVol) (g : Nat) : Bool := !nv.l4 || decide (g < 4)

def cageReg (x : Cage) (f : Nat) : Nat :=
  if f = 0 then pack [(0, 1, b2n x.en), (1, 1, b2n x.allowHalf)]
  else if f = 4 then pack [(0, 4, cageCode x.st), (4, 8, x.lanes), (12, 4, x.reason), (16, 16, x.changes)]
  else if 8 ≤ f ∧ f < 0x30 then smGet x.cnt 0 ((f - 8) / 4)
  else 0

def linkReg (nv : NonVol) (d : Device) (o : Nat) : Nat :=
  let l := d.link
  if o = 0 then l.node
  else if o = 4 then pack [(0, 8, l.fabric), (16, 1, b2n l.vlan), (17, 3, l.pcp), (20, 12, l.vid)]
  else if o = 8 then l.etherType
  else if o = 0x10 then l.wintab % 2 ^ 32
  else if o = 0x14 then pack [(0, 12, l.wintab / 2 ^ 32), (31, 1, b2n l.ready)]
  else if o = 0x20 then l.routeIdx
  else if o = 0x24 then smGet l.routes 0 l.routeIdx
  else if o = 0x28 then l.delayMark
  else if o = 0x30 then pack [(0, 13, l.tx.length), (16, 13, l.rx.length)]
  else if 0x40 ≤ o ∧ o < 0x5C then smGet l.cnt 0 ((o - 0x40) / 4)
  else if 0x100 ≤ o ∧ o < 0x300 then
    if cageFitted nv ((o - 0x100) / 0x40) then cageReg (cageGet d ((o - 0x100) / 0x40)) (o % 0x40) else 0
  else 0

/-! ### COLL (11_training_collectives R330) -/

def collReg (d : Device) (o : Nat) : Nat :=
  let c := d.coll
  if o = 0 then c.stragglerMs
  else if o = 4 then
    pack [(0, 16, min 0xFFFF (c.runs.filter fun r => !r.active).length), (16, 7, (c.runs.filter (·.active)).length)]
  else if o = 0x10 then c.ctxSel
  else if o = 0x14 then
    let n := smGet c.norms ⟨[], 0⟩ c.ctxSel
    pack [(0, 5, (c.runs.filter fun r => r.active && r.ctx.val = c.ctxSel).length), (5, 1, b2n (decide (n.joined ≠ 0))),
      (16, 16, min 0xFFFF n.joined)]
  else if 0x40 ≤ o ∧ o < 0x60 then smGet c.cnt 0 ((o - 0x40) / 4)
  else 0

/-! ### FLT (16_faults_and_recovery R445) -/

/-- A fuse-log record as 32 bytes (R443). -/
def fuseWord (r : FuseRec) : Nat :=
  pack [(0, 4, r.kind), (8, 8, r.entry), (16, 2, r.requester), (18, 2, r.port), (32, 32, r.old), (64, 32, r.new),
    (128, 64, r.time)]

def unitStateReg (nv : NonVol) (u : UnitHealth) : Nat :=
  pack [(0, 4, healthCode u.st), (4, 4, u.reason), (8, 4, u.failures), (12, 4, min 15 u.passes),
    (16, 16, min 0xFFFF ((nv.up - u.since) / 60000000000))]

def fltReg (nv : NonVol) (d : Device) (o : Nat) : Nat :=
  let f := d.flt
  let k := d.kept
  if o = 0 then f.log % 2 ^ 32
  else if o = 4 then f.log / 2 ^ 32
  else if o = 8 then f.head
  else if o = 0x10 then pack [(0, 1, b2n k.dumpLock), (1, 1, b2n k.dumpValid), (2, 3, k.dumpLevel), (16, 16, k.dumpSeq)]
  else if o = 0x14 then k.dumpAddr % 2 ^ 32
  else if o = 0x18 then k.dumpAddr / 2 ^ 32
  else if o = 0x20 then
    pack [(2, 3, nv.retired.length), (5, 5, freeSpares nv d 0), (10, 5, freeSpares nv d 1), (16, 6, nv.remaps.length),
      (24, 5, f.reasons), (31, 1, b2n f.replace)]
  else if o = 0x24 then pack [(0, 16, f.testPeriod), (31, 1, b2n f.pkg.isSome)]
  else if o = 0x28 then (f.pkg.map (·.id)).getD 0
  else if o = 0x30 then pack [(0, 4, f.selKind), (4, 12, f.selId)]
  else if o = 0x34 then unitStateReg nv (healthGet d f.selKind f.selId)
  else if o = 0x40 then f.fuseSel
  else if o = 0x44 then nv.fuseLog.length
  else if 0x60 ≤ o ∧ o < 0x80 then
    match nv.fuseLog[f.fuseSel]? with
    | some r => fld (fuseWord r) (8 * (o - 0x60)) 32
    | none => 0
  else if 0x100 ≤ o ∧ o < 0x138 then if o = 0x114 then k.chipResets else smGet f.cnt 0 ((o - 0x100) / 4)
  else 0

/-! ### TIME (14_scheduling_and_lending R403) -/

def timeCode : TimeSt → Nat
  | .unset => 0 | .locking => 1 | .locked => 2 | .holdover => 3

/-- TIME_HOLD_BOUND: 2 µs per second of HOLDOVER (R395). -/
def holdBound (nv : NonVol) (d : Device) : Nat :=
  if d.time.st = .holdover then min (2 ^ 32 - 1) ((nv.up - d.time.holdFrom) * 2 / 1000000) else 0

def timeReg (nv : NonVol) (d : Device) (o : Nat) : Nat :=
  let t := d.time
  if o = 0 then t.now % 2 ^ 32
  else if o = 4 then t.now / 2 ^ 32 % 2 ^ 32
  else if o = 8 then
    pack [(0, 3, timeCode t.st), (3, 1, b2n t.fallback), (4, 1, b2n t.refOk), (5, 1, b2n t.syncOk),
      (6, 1, b2n t.armed.isSome), (16, 16, t.holdovers)]
  else if o = 0xC then ofInt 32 (max (-2147483648) (min 2147483647 t.error))
  else if o = 0x10 then t.arm % 2 ^ 32
  else if o = 0x14 then t.arm / 2 ^ 32
  else if o = 0x18 then t.syncDelay
  else if o = 0x1C then holdBound nv d
  else if o = 0x20 then t.acctPeriod
  else if o = 0x24 then t.snapCtx
  else if o = 0x28 then pack [(0, 1, b2n t.snapValid), (2, 1, b2n t.snapRefused), (16, 16, t.snapSeq)]
  else if o = 0x2C then pack [(0, 16, t.kappa), (16, 16, t.kappaWindows)]
  else if o = 0x30 then t.unattr / 1000000 % 2 ^ 32
  else if o = 0x34 then t.unattr / 1000000 / 2 ^ 32 % 2 ^ 32
  else if 0x100 ≤ o ∧ o < 0x200 then
    let s := schedGet d ((o - 0x100) / 0x10)
    let f := o % 0x10
    if f = 0 then
      pack [(0, 1, b2n s.table.isSome), (1, 1, b2n s.reclaim.isSome), (2, 1, b2n s.next.isSome), (4, 6, s.entry),
        (16, 16, s.evictions)]
    else if f = 4 then if s.table.isSome then s.boundary % 2 ^ 32 else 0
    else if f = 8 then if s.table.isSome then s.boundary / 2 ^ 32 % 2 ^ 32 else 0
    else 0
  else 0

/-! ### PWR (17_module_physical R472) -/

def removalCode : Removal → Nat
  | .idle => 0 | .pending => 1 | .quiescing => 2 | .quiesced => 3

def pwrStatus (nv : NonVol) (d : Device) : Nat :=
  pack [(0, 6, d.pwr.flags), (12, 1, b2n d.pwr.emergency), (13, 1, b2n d.pwr.safe), (14, 1, b2n d.pwr.conservative),
    (15, 1, b2n nv.trayEn), (16, 2, removalCode nv.removal), (18, 2, d.kept.margin)]

/-- The attention lamp (R462). -/
def attention (nv : NonVol) (d : Device) : Nat :=
  match nv.removal with
  | .quiesced => 3
  | .pending | .quiescing => 2
  | .idle => if d.flt.replace then 1 else if d.pwr.locate then 4 else 0

/-- The status lamp under main power (R462). -/
def statusLamp (nv : NonVol) (d : Device) : Nat := if !nv.mainOn then 0 else if d.fw.mode = .running then 2 else 1

/-- The lamp of a cage (R462). -/
def cageLamp : CageSt → Nat
  | .disabled | .empty => 0 | .present | .training => 1 | .up => 2 | .upHalf => 3 | .down => 4

def linkLamp (nv : NonVol) (d : Device) : Nat :=
  pack ((List.range 8).map fun g => (4 * g, 3, if cageFitted nv g then cageLamp (cageGet d g).st else 0))

def pwrReg (nv : NonVol) (d : Device) (o : Nat) : Nat :=
  let w := d.pwr
  let k := d.kept
  if o = 0 then pwrStatus nv d
  else if o = 0x10 ∨ o = 0x14 then
    let h := (o - 0x10) / 4
    pack [(0, 11, smGet w.mhz 1600 h), (12, 3, smGet w.reason 0 h), (16, 11, smGet w.ceil 1600 h)]
  else if o = 0x18 then w.dieLimit
  else if 0x40 ≤ o ∧ o < 0x60 then
    let r := smGet w.rail (0, 0) ((o - 0x40) / 4)
    pack [(0, 16, r.2), (16, 16, r.1)]
  else if 0x80 ≤ o ∧ o < 0xC0 then
    let e := smGet k.railE 0 ((o - 0x80) / 8)
    if o % 8 = 0 then e % 2 ^ 32 else e / 2 ^ 32 % 2 ^ 32
  else if 0xC0 ≤ o ∧ o < 0xE0 then
    pack [(0, 16, ofInt 16 (smGet w.temp 0 ((o - 0xC0) / 4))), (16, 16, ofInt 16 (smGet k.tempMax 0 ((o - 0xC0) / 4)))]
  else if 0x100 ≤ o ∧ o < 0x140 then
    let r := smGet w.part (0, 0) ((o - 0x100) / 4)
    pack [(0, 16, r.2), (24, 8, r.1)]
  else if o = 0x200 then pack [(4, 2, removalCode nv.removal), (8, 2, nv.removalSource), (16, 10, w.graceS)]
  else if o = 0x204 then pack [(0, 1, b2n w.locate), (4, 2, statusLamp nv d), (8, 3, attention nv d)]
  else if o = 0x208 then linkLamp nv d
  else if 0x300 ≤ o ∧ o < 0x318 then smGet k.pwrCnt 0 ((o - 0x300) / 4)
  else 0

/-! ### The whole control space -/

/-- The 32-bit register at word offset `off` of BAR0, as port `p` reads it live (R23, R24). -/
def regVal (nv : NonVol) (d : Device) (p off : Nat) : Nat :=
  if off < 0x10000 then devReg nv off
  else if off < 0x20000 then ownReg nv d p (off - 0x10000)
  else if off < 0x40000 then timeReg nv d (off - 0x20000)
  else if off < 0x100000 then ringReg d (off - 0x40000)
  else if off < 0x200000 then fwReg nv d (off - 0x100000)
  else if off < 0x400000 then partReg nv d (off - 0x200000)
  else if off < 0x600000 then memReg d (off - 0x400000)
  else if off < 0x700000 then linkReg nv d (off - 0x600000)
  else if off < 0x800000 then collReg d (off - 0x700000)
  else if off < 0xA00000 then fltReg nv d (off - 0x800000)
  else if off < 0xB00000 then pwrReg nv d (off - 0xA00000)
  else 0

end Sys2Proof.Machine
end

