-- ==== Sys2Proof/Machine/Host.lean ====
section
/-! DEFINITION. Hosts, ownership, rings, and the admin commands that belong to no other chapter (13_host_interface, the
VERSION command of 15_firmware excepted). -/

namespace Sys2Proof.Machine

/-! ### Ports (R350 to R353, R449) -/

/-- A write from port `p` reaches the registers: its link is up and the device has booted (R405, log entry 8). -/
def hostWrites (nv : NonVol) (d : Device) (p : Port) : Bool := hostUp nv d p && d.fw.mode ≠ .booting

/-- The security core runs (R404). -/
def securityUp (d : Device) : Bool := (smGet d.fw.procs Proc.init 0).st = .running

/-! ### Ownership (R354, R355) -/

/-- OWNER_CHANGE: how 0 election, 1 handover, 2 election after loss (R374). -/
def ownerChange (nv : NonVol) (q : Port) (how : Nat) (d : Device) : Device :=
  raiseEv nv 1 none (q.val + 4 * how) 0 d

/-- CMD_IDs of the admin entries that doorbells made visible and that have not been taken, in ring order, and how many
of them lie in no valid set (R355, R480). -/
def untakenIds (d : Device) : List (Option Nat) :=
  let r := d.rings.admin
  (List.range ((r.sqTail + 2 ^ r.log2 - r.sqHead) % 2 ^ r.log2)).map fun i =>
    let a := r.base * 4096 + 64 * ((r.sqHead + i) % 2 ^ r.log2)
    if dpaOk d.mem a 64 then some (fld (dNat d.mem a 64) 16 16) else none

/-- Ownership leaves the owner's port (R355). -/
def leaveOwner (d : Device) : Device :=
  let r := d.rings.admin
  let ids := if r.en then untakenIds d else []
  let d := (List.replicate (ids.filter Option.isNone).length ()).foldl (fun d _ => denied d) d
  { d with rings := { d.rings with
      admin := { r with en := false, bells := [], untaken := r.untaken ++ ids.filterMap id, draining := r.en || r.draining }
      evRing := { d.rings.evRing with en := false }
      logRing := { d.rings.logRing with en := false }
      acctRing := { d.rings.acctRing with en := false } } }

/-- The HANDOVER in progress completes with `status`. -/
def endHandover (nv : NonVol) (status : Nat) (d : Device) : Device :=
  match d.own.handTag with
  | some t => complete nv t status 0xFFFF 0 { d with own := { d.own with handTag := none } }
  | none => d

/-- Port `q` becomes the owner. -/
def becomeOwner (q : Port) (d : Device) : Device :=
  { d with own := { d.own with
      st := .owned, owner := q, elections := wrapInc 16 d.own.elections, afterLoss := false } }

/-- A write of OWN_CLAIM (R354, R375). -/
def claimWrite (nv : NonVol) (p : Port) (v : Word) (d : Device) : Device :=
  if v.toNat % 2 ^ 16 = 0x0C1A ∧ bit nv.policyMask p.val then
    match d.own.st with
    | .unowned => ownerChange nv p (if d.own.afterLoss then 2 else 0) (becomeOwner p d)
    | .owned => d
    | .lost => if p = d.own.owner then { d with own := { d.own with st := .owned } } else d
    | .handing =>
      if p = d.own.target ∧ nv.up < d.own.handFrom + 1000000000 then
        ownerChange nv p 1 (becomeOwner p (leaveOwner (endHandover nv stOK d)))
      else d
  else d

/-- CLAIM (R354). -/
def execClaim (p : Port) (v : Word) (s : State) : Host.Outcome State Fault Refusal :=
  .next (onDev (fun nv d => if hostWrites nv d p then claimWrite nv p v d else d) s)

/-- Port `p` is lost (R354, R449): its captured halves are gone, and ownership follows the table. -/
def portLost (nv : NonVol) (p : Port) (d : Device) : Device :=
  let d := { d with
    own := { d.own with linkUp := putBit d.own.linkUp p.val false }
    rings := { d.rings with captures := d.rings.captures.filter (·.1 ≠ p.val) } }
  match d.own.st with
  | .owned => if p = d.own.owner then { d with own := { d.own with st := .lost, lossFrom := nv.up } } else d
  | .handing =>
    if p = d.own.owner then
      endHandover nv stState { d with own := { d.own with st := .lost, lossFrom := nv.up } }
    else if p = d.own.target then endHandover nv stState { d with own := { d.own with st := .owned } }
    else d
  | .unowned | .lost => d

/-- PORT_LOST (R449). -/
def execPortLost (p : Port) (s : State) : Host.Outcome State Fault Refusal :=
  .next (onDev (fun nv d => portLost nv p d) s)

/-- HOST_LINK_UP (R449): under main power the port's link comes up. -/
def execHostLinkUp (p : Port) (s : State) : Host.Outcome State Fault Refusal :=
  .next (onDev (fun nv d =>
    if nv.mainOn then { d with own := { d.own with linkUp := putBit d.own.linkUp p.val true } } else d) s)

/-- The loss timer has reached OWN_LOSS_MS (R354). OWN_STATE.OWNER means nothing while UNOWNED (R375), so it becomes
a free value. DESIGN CHOICE (log 107), safe. -/
def lossTimeout (nv : NonVol) (d : Device) : Device :=
  if d.own.st = .lost ∧ d.own.lossFrom + d.own.lossMs * 1000000 ≤ nv.up then
    let d := leaveOwner d
    drawFresh 1 { d with own := { d.own with
      st := .unowned
      afterLoss := true
      owner := Fin.ofNat 4 (Config.freeWord d.fresh).toNat } }
  else d

/-- LOSS_TIMEOUT (R354). -/
def execLossTimeout (s : State) : Host.Outcome State Fault Refusal := .next (onDev lossTimeout s)

/-- One second in HANDING without the target's claim (R354). -/
def handoverTimeout (nv : NonVol) (d : Device) : Device :=
  if d.own.st = .handing ∧ d.own.handFrom + 1000000000 ≤ nv.up then
    endHandover nv stState { d with own := { d.own with st := .owned } }
  else d

/-- HANDOVER_TIMEOUT (R354). -/
def execHandoverTimeout (s : State) : Host.Outcome State Fault Refusal := .next (onDev handoverTimeout s)

/-- The NOT_OWNER records of the untaken entries, while released slots remain (R355). -/
def drainRecords (nv : NonVol) (ids : List Nat) (d : Device) : Device :=
  match ids with
  | [] => d
  | i :: t =>
    let r := d.rings.admin
    drainRecords nv t (if ringRoom r.log2 r.cqTail r.cqHead then adminRecord nv false stNotOwner i 0xFFFF 0 d else denied d)

/-- The drain ends once no taken admin command is left (R355, R376). -/
def drainEnd (nv : NonVol) (d : Device) : Device :=
  if d.rings.admin.draining ∧ (d.rings.taken.all fun x => x.ring.isSome) then
    let d := drainRecords nv d.rings.admin.untaken d
    { d with rings := { d.rings with admin := { d.rings.admin with untaken := [], draining := false } } }
  else d

/-- DRAIN_END (R355). -/
def execDrainEnd (s : State) : Host.Outcome State Fault Refusal := .next (onDev drainEnd s)

/-! ### Doorbells, heads, ring control, apertures (R351, R358, R359, R376) -/

/-- A write of the admin doorbell (R358). -/
def adminBell (p : Port) (v : Nat) (d : Device) : Device :=
  let r := d.rings.admin
  if !isOwner d p || !r.en || decide (2 ^ r.log2 ≤ v) then denied d
  else { d with rings := { d.rings with admin := { r with
    sqTail := v, bells := if v = r.sqTail then r.bells else r.bells ++ [(v, p)] } } }

/-- A write of context `c`'s doorbell (R358, R376). -/
def ctxBell (p : Port) (c v : Nat) (d : Device) : Device :=
  let x := ctxGet d c
  if !mayUse d p c || !ctxLive d c || !x.ringEn || decide (2 ^ x.sqLog ≤ v) then denied d
  else ctxMod c (fun x => { x with
    sqTail := v, bells := if v = x.sqTail then x.bells else x.bells ++ [(v, p)] }) d

/-- A doorbell write: TAIL is the field's 12 bits. -/
def bellWrite (p : Port) (ring : Option CtxNo) (v : Word) (d : Device) : Device :=
  match ring with
  | none => adminBell p (v.toNat % 4096) d
  | some c => ctxBell p c.val (v.toNat % 4096) d

/-- DOORBELL (R358). -/
def execDoorbell (p : Port) (ring : Option CtxNo) (v : Word) (s : State) : Host.Outcome State Fault Refusal :=
  .next (onDev (fun nv d => if hostWrites nv d p then bellWrite p ring v d else d) s)

/-- A head write: ring 0 the admin completion ring, 1 to 3 the device rings, or a context's completion ring (R359). -/
def headPut (nv : NonVol) (p : Port) (ring : CtxNo ⊕ Fin 4) (v : Word) (d : Device) : Device :=
  let h := v.toNat % 4096
  match ring with
  | .inl c =>
    if !mayUse d p c.val || decide (2 ^ (ctxGet d c.val).cqLog ≤ h) then denied d
    else ctxMod c.val (fun x => { x with cqHead := h }) d
  | .inr k =>
    if !isOwner d p then denied d
    else if k = 0 then
      if 2 ^ d.rings.admin.log2 ≤ h then denied d
      else { d with rings := { d.rings with admin := { d.rings.admin with cqHead := h } } }
    else if 2 ^ (devRing d (k.val - 1)).log2 ≤ h then denied d
    else flushAll nv (k.val - 1) (devRingMod (k.val - 1) (fun r => { r with head := h }) d)

/-- HEAD_WRITE (R359). -/
def execHeadWrite (p : Port) (ring : CtxNo ⊕ Fin 4) (v : Word) (s : State) : Host.Outcome State Fault Refusal :=
  .next (onDev (fun nv d => if hostWrites nv d p then headPut nv p ring v d else d) s)

/-- A write of RING_ADMIN_CTRL by the owner (R355, R376). -/
def adminCtrl (v : Nat) (d : Device) : Device :=
  let r := d.rings.admin
  let on := bit v 0
  let lg := fld v 4 4
  let vec := fld v 8 5
  let put (r : AdminRing) : Device := { d with rings := { d.rings with admin := r } }
  if r.draining then d
  else if r.en ∧ on then put { r with vector := vec }
  else if r.en then
    let busy := d.rings.taken.any fun x => x.ring.isNone
    put { r with en := false, vector := vec, bells := [], untaken := [], draining := busy,
                 log2 := if busy then r.log2 else lg }
  else if on then
    if 4 ≤ lg ∧ lg ≤ 12 ∧ dpaOk d.mem (r.base * 4096) (96 * 2 ^ lg) then
      put { r with en := true, vector := vec, log2 := lg, sqTail := 0, sqHead := 0, cqTail := 0, cqHead := 0,
                   phase := true, bells := [], untaken := [] }
    else d
  else put { r with vector := vec, log2 := lg }

/-- A write of RING_DEV_CTRL `k` by the owner (R376). -/
def devCtrl (nv : NonVol) (k v : Nat) (d : Device) : Device :=
  let r := devRing d k
  let on := bit v 0
  let lg := fld v 4 4
  let vec := fld v 8 5
  if r.en ∧ on then devRingMod k (fun r => { r with vector := vec }) d
  else if on then
    if 4 ≤ lg ∧ lg ≤ 12 ∧ dpaOk d.mem (r.base * 4096) (recSize k * 2 ^ lg) then
      flushAll nv k (devRingMod k (fun r => { r with
        en := true, vector := vec, log2 := lg, head := 0, tail := 0, phase := true }) d)
    else d
  else devRingMod k (fun r => { r with en := false, vector := vec, log2 := lg }) d

/-- A write of a ring CTRL register: ring 0 the admin ring, 1 to 3 the device rings (R353, R376). -/
def ringCtrlWrite (nv : NonVol) (p : Port) (ring : Fin 4) (v : Word) (d : Device) : Device :=
  if !isOwner d p then denied d
  else if ring = 0 then adminCtrl v.toNat d
  else devCtrl nv (ring.val - 1) v.toNat d

/-- RING_CTRL (R376). -/
def execRingCtrl (p : Port) (ring : Fin 4) (v : Word) (s : State) : Host.Outcome State Fault Refusal :=
  .next (onDev (fun nv d => if hostWrites nv d p then ringCtrlWrite nv p ring v d else d) s)

/-- Aperture `a` of port `q` after `f`. -/
def aperMod (q a : Nat) (f : Aperture → Aperture) (d : Device) : Device :=
  { d with rings := { d.rings with apers := smMod d.rings.apers Aperture.init (16 * q + a) f } }

/-- A write of RING_APER_HI commits both halves (R376, R474). -/
def aperHi (p q : Port) (a : Fin 16) (v : Word) (d : Device) : Device :=
  if !isOwner d p then denied d
  else aperMod q.val a.val (fun x => { x with
    base := v.toNat % 2 ^ 20 * 2 ^ 32 + x.stage.getD (x.base % 2 ^ 32), stage := none }) d

/-- RING_APER_HI (R474). -/
def execRingAperHi (p q : Port) (a : Fin 16) (v : Word) (s : State) : Host.Outcome State Fault Refusal :=
  .next (onDev (fun nv d => if hostWrites nv d p then aperHi p q a v d else d) s)

/-- The DPA pieces that an aperture access reaches, none where it is refused (R351). -/
def aperSpan (d : Device) (p : Port) (a off len : Nat) (wr : Bool) : Option (List (Nat × Nat)) :=
  let x := aperGet d p.val a
  if wr ∧ !x.write then none
  else if x.mode = 1 then
    if isOwner d p ∧ dpaOk d.mem (x.base + off) len then some [(x.base + off, len)] else none
  else if x.mode = 2 then
    if mayUse d p x.ctx ∧ ctxLive d x.ctx then
      match vSpan d.mem (ctxGet d x.ctx).root wr (x.base + off) len with
      | .ok ps => some ps
      | .error _ => none
    else none
  else none

/-- What a host reads at DPA pieces: a poisoned code word reads all ones (R239). -/
def hostRead (m : Mem) (ps : List (Nat × Nat)) : List Byte :=
  ps.flatMap fun p => (List.range p.2).map fun i =>
    match physOf m (p.1 + i) with
    | some q => if m.poison.contains (q / 64) then 0xFF else placeByte m q
    | none => 0

/-- An access of `len` bytes at offset `off` of aperture `a` (R351); what is wrong with a code word that it reads is met (R238, R239). -/
def aperAccess (nv : NonVol) (p : Port) (a off len : Nat) (data : Option (List Byte)) (d : Device) : Device :=
  let x := aperGet d p.val a
  let ctx := if x.mode = 2 then some x.ctx else none
  match aperSpan d p a off len data.isSome, data with
  | some ps, some bs => memMod (spanWrite ps bs) (meetErrors nv 3 ctx 3 (partWords d.mem ps) d)
  | some ps, none =>
    let d := meetErrors nv 3 ctx 3 (ps.flatMap fun q => touchedWords d.mem q.1 q.2) d
    { d with rings := { d.rings with
      readData := hostRead d.mem ps, readPoison := ps.any fun q => dPoisoned d.mem q.1 q.2 } }
  | none, some _ => denied d
  | none, none =>
    denied { d with rings := { d.rings with readData := List.replicate len 0, readPoison := false } }

/-- APERTURE_ACCESS (R351). -/
def execApertureAccess (p : Port) (a : Fin 16) (off len : Nat) (data : Option (List Byte)) (s : State) :
    Host.Outcome State Fault Refusal :=
  .next (onDev (fun nv d => if hostWrites nv d p then aperAccess nv p a.val off len data d else d) s)

/-! ### Taking an entry (R360, R371, R480) -/

/-- `e` with everything but the listed fields cleared. -/
def keepFields (fs : List (Nat × Nat)) (e : Nat) : Nat := pack (fs.map fun f => (f.1, f.2, fld e f.1 f.2))

/-- The fields that an opcode uses beyond OPCODE and CMD_ID, as (bit, width) (R363, R367, R368, R431); none for a
reserved opcode. -/
def opFields (e : Nat) : Option (List (Nat × Nat)) :=
  match eOpcode e with
  | 0x01 => some [(64, 44)]
  | 0x02 => some [(64, 32)]
  | 0x03 => some [(32, 8), (40, 4), (64, 44), (128, 52), (192, 52), (256, 9), (268, 12)]
  | 0x04 => some [(32, 8)]
  | 0x05 => some [(32, 8), (64, 4)]
  | 0x06 => some [(64, 16), (128, 44)]
  | 0x07 => some [(64, 16)]
  | 0x08 => some [(64, 1), (128, 44)]
  | 0x09 => some [(64, 44), (128, 2)]
  | 0x0A => some [(128, 2)]
  | 0x0B => some [(64, 2)]
  | 0x0C => some []
  | 0x10 => some [(40, 4), (64, 44), (384, 64)]
  | 0x11 => some [(40, 4), (64, 44)]
  | 0x18 => some [(64, 44)]
  | 0x19 => some []
  | 0x20 => some [(64, 5)]
  | 0x21 => some [(64, 44)]
  | 0x22 => some [(64, 44)]
  | 0x23 =>
    match fld e 64 3 with
    | 1 => some [(64, 3), (32, 8)]
    | 2 => some [(64, 3), (128, 10)]
    | 3 => some [(64, 3), (40, 4)]
    | _ => some [(64, 3)]
  | 0x40 => some [(64, 52), (320, 5), (352, 32)]
  | 0x41 => some [(64, 52)]
  | 0x42 => some [(64, 52), (128, 5)]
  | 0x43 => some []
  | _ => none

/-- Arguments in range (R354, R357, R367, R368, R378, R332, R408, R431). -/
def argsOk (d : Device) (e : Nat) : Bool :=
  let a3 := eArg e 3
  match eOpcode e with
  | 0x03 => eArg e 0 % 2 ^ 16 = 0 && eArg e 1 % 64 = 0 && eArg e 2 % 4096 = 0 && 4 ≤ fld a3 0 4 && fld a3 0 4 ≤ 12 &&
      4 ≤ fld a3 4 4 && fld a3 4 4 ≤ 12
  | 0x09 | 0x10 | 0x11 | 0x18 => eArg e 0 % 64 = 0
  | 0x0B => eArg e 0 ≠ d.own.owner.val
  | 0x23 => 1 ≤ eArg e 0 && eArg e 0 ≤ 5
  | 0x42 => eArg e 1 ≤ 16
  | _ => true

/-- Step 3 of R371: opcode of this ring, unused fields 0, arguments in range. -/
def formatOk (d : Device) (ring : Option CtxNo) (e : Nat) : Bool :=
  match opFields e with
  | some fs =>
    (if eOpcode e < 0x40 then ring.isNone else ring.isSome) && keepFields ([(0, 8), (16, 16)] ++ fs) e = e && argsOk d e
  | none => false

/-- The DPA range that an admin command names (R479): address and length; a length word in its legal range counts. -/
def dpaArg (d : Device) (e : Nat) : Option (Nat × Nat) :=
  let a := eArg e 0
  let withLength (o lo hi dflt : Nat) : Nat :=
    let n := dNat d.mem (a + o) 4
    if lo ≤ n ∧ n ≤ hi then max n dflt else dflt
  match eOpcode e with
  | 0x01 => some (a, 256)
  | 0x06 => some (eArg e 1, 64)
  | 0x08 => some (eArg e 1, 96)
  | 0x09 => some (a, withLength 8 256 131072 64)
  | 0x10 | 0x11 => some (a, 64 + 32 * (dNat d.mem a 1 % 128) + 16 * (dNat d.mem (a + 1) 1 % 128))
  | 0x18 => some (a, withLength 0x1C 4096 (32 * 2 ^ 20) 256)
  | 0x21 => some (a, 64)
  | 0x22 => some (a, withLength 0x0C 4096 (16 * 2 ^ 20) 64)
  | _ => none

/-- R479: the range lies in one valid set. -/
def dpaArgOk (d : Device) (e : Nat) : Bool :=
  match dpaArg d e with
  | some (a, n) => dpaOk d.mem a n
  | none => true

/-- Commands that removal refuses (R466). -/
def removalRefuses (op : Nat) : Bool := [0x03, 0x40, 0x41, 0x42, 0x11, 0x10, 0x0A, 0x19].contains op

/-- Contexts allocated to partition `p`, in any state but FREE (R367). -/
def ctxCount (d : Device) (p : Nat) : Nat :=
  (d.ctxs.filter fun e => decide (e.2.st ≠ .free ∧ e.2.part.val = p)).length

/-- The lowest FREE context number (R368). -/
def freeCtx (d : Device) : Option Nat := (List.range 256).find? fun c => (ctxGet d c).st = .free

/-- An ESCALATE target exists (R431). -/
def escalateTargetOk (d : Device) (e : Nat) : Bool :=
  match eArg e 0 with
  | 1 => ctxLive d (eContext e)
  | 2 => eArg e 1 < 768
  | 3 => (partGet d (ePartition e)).isSome
  | _ => true

/-- An escalation of this level is in progress for the same target (R431). -/
def escalateBusy (d : Device) (e : Nat) : Bool :=
  match eArg e 0 with
  | 2 => (cluGet d (eArg e 1)).reset.isSome
  | 3 => (schedGet d (ePartition e)).reset.isSome
  | _ => false

/-- A stack can be retired as R244 asks of the state. -/
def retireState (nv : NonVol) (d : Device) (n : Nat) : Bool :=
  bit nv.capMemory n && !(d.mem.sets.any fun s => s.valid && bit s.mask n)

/-- The "Legal when" column of R367. -/
def legalOk (nv : NonVol) (d : Device) (e : Nat) : Bool :=
  match eOpcode e with
  | 0x03 => (partGet d (ePartition e)).isSome && (bit (eArg e 3) 8 || (ctxGet d (eContext e)).st = .free)
  | 0x04 | 0x05 => ctxLive d (eContext e)
  | 0x06 => !d.link.ready || !bit (winDesc d (eArg e 0)) 0
  | 0x07 => d.link.ready && bit (winDesc d (eArg e 0)) 0
  | 0x08 | 0x21 | 0x22 => securityUp d
  | 0x0B => d.own.st = .owned && bit nv.policyMask (eArg e 0) && bit d.own.linkUp (eArg e 0)
  | 0x10 => (partGet d (ePartition e)).isSome && (schedGet d (ePartition e)).reclaim.isNone
  | 0x11 => (partGet d (ePartition e)).isSome
  | 0x20 => retireState nv d (eArg e 0)
  | 0x23 => escalateTargetOk d e && !escalateBusy d e
  | _ => true

/-- Step 6 of R371. -/
def resourceOk (nv : NonVol) (d : Device) (e : Nat) : Bool :=
  match eOpcode e with
  | 0x03 => (!bit (eArg e 3) 8 || (freeCtx d).isSome) && ctxCount d (ePartition e) < 64
  | 0x06 => d.link.ready
  | 0x20 => nv.retired.length < 4
  | _ => true

/-- Steps 5 and 6 of R371: 0 when they pass. -/
def stateStatus (nv : NonVol) (d : Device) (ring : Option CtxNo) (e : Nat) : Nat :=
  firstFail [(!(removalRefuses (eOpcode e) && (nv.removal = .quiescing || nv.removal = .quiesced)), stState),
    ((ring.map fun c => ctxLive d c.val).getD true, stState),
    (legalOk nv d e && dpaArgOk d e, stState),
    (resourceOk nv d e, stNoResource)]

/-- Commands served while the device is held (R371, R406, R407). -/
def heldServes (op : Nat) : Bool := op = 1 || op = 2 || op = 0x18 || op = 0x19

/-- Steps 1 to 6 of R371 for an entry that `port` submitted: 0 when they pass. -/
def entryStatus (nv : NonVol) (d : Device) (ring : Option CtxNo) (port : Port) (e : Nat) : Nat :=
  let right := match ring with
    | none => isOwner d port
    | some c => decide (0x40 ≤ eOpcode e) && mayUse d port c.val
  let st := firstFail [(right, stNotOwner), (d.fw.mode = .running || heldServes (eOpcode e), stVersion),
    (formatOk d ring e, stMalformed)]
  if st ≠ 0 then st else stateStatus nv d ring e

/-- Records that a taken command has reserved and not written (R360). -/
def reserved (x : Taken) : Nat :=
  if (eOpcode x.entry = 0x40 ∨ eOpcode x.entry = 0x19) ∧ !x.informed then 2 else 1

/-- Records reserved on a ring. -/
def reservedOn (d : Device) (ring : Option CtxNo) : Nat :=
  ((d.rings.taken.filter (·.ring = ring)).map reserved).sum

/-- The completion ring has room for one more command of this opcode (R360). -/
def roomFor (d : Device) (ring : Option CtxNo) (op log2 tail head : Nat) : Bool :=
  (tail + 2 ^ log2 - head) % 2 ^ log2 + reservedOn d ring + (if op = 0x40 ∨ op = 0x19 then 2 else 1) ≤ 2 ^ log2 - 1

/-- The doorbells still to be consumed once the head has reached `head`. -/
def bellsAfter (bells : List (Nat × Port)) (head : Nat) : List (Nat × Port) :=
  match bells with
  | [] => []
  | b :: t => if b.1 = head then t else b :: t

/-- An entry leaves its ring: it joins the taken commands, and a refused one completes at once (R371). -/
def takeEntry (nv : NonVol) (ring : Option CtxNo) (port : Port) (e : Nat) (d : Device) : Device :=
  let st := entryStatus nv d ring port e
  let t := d.rings.nextTag
  let d := { d with rings := { d.rings with
    taken := d.rings.taken ++ [⟨t, ring, port, e, false, false⟩], nextTag := t + 1 } }
  if st = 0 then d else complete nv t st 0xFFFF 0 d

/-- The scheduler core runs: it takes and serves commands (R404, R417). -/
def schedulerUp (d : Device) : Bool := (smGet d.fw.procs Proc.init 2).st = .running

/-- The next entry of the admin ring (R371, R480). -/
def takeAdmin (nv : NonVol) (d : Device) : Device :=
  let r := d.rings.admin
  if schedulerUp d ∧ r.en ∧ r.sqHead ≠ r.sqTail then
    let a := r.base * 4096 + 64 * r.sqHead
    let head := (r.sqHead + 1) % 2 ^ r.log2
    let port := (r.bells.head?.map (·.2)).getD d.own.owner
    let pass (d : Device) : Device := { d with rings := { d.rings with admin := { r with
      sqHead := head, bells := bellsAfter r.bells head } } }
    if dpaOk d.mem a 64 then
      let e := dNat d.mem a 64
      if roomFor d none (eOpcode e) r.log2 r.cqTail r.cqHead then takeEntry nv none port e (pass d) else d
    else denied (pass d)
  else d

/-- The first completion slot that context `c`'s taken commands and one more of opcode `op` have reserved and that cannot be written (R360, R480). -/
def slotFault (d : Device) (c : CtxNo) (op : Nat) : Option VErr :=
  let x := ctxGet d c.val
  (List.range (reservedOn d (some c) + if op = 0x40 then 2 else 1)).findSome? fun i =>
    match vSpan d.mem x.root true (x.ring + 64 * 2 ^ x.sqLog + 32 * ((x.cqTail + i) % 2 ^ x.cqLog)) 32 with
    | .ok _ => none
    | .error e => some e

/-- The next entry of context `c`'s ring (R371, R480). -/
def takeCtx (nv : NonVol) (c : CtxNo) (d : Device) : Device :=
  let x := ctxGet d c.val
  if schedulerUp d ∧ ctxLive d c.val ∧ x.ringEn ∧ x.sqHead ≠ x.sqTail then
    let head := (x.sqHead + 1) % 2 ^ x.sqLog
    let port := (x.bells.head?.map (·.2)).getD d.own.owner
    match vRead d.mem x.root (x.ring + 64 * x.sqHead) 64 with
    | .error f => faultCtx nv c.val (vFault f 6) d
    | .ok bs =>
      let e := ofBytes bs
      if roomFor d (some c) (eOpcode e) x.cqLog x.cqTail x.cqHead then
        match slotFault d c (eOpcode e) with
        | some f => faultCtx nv c.val (vFault f 6) d
        | none => takeEntry nv (some c) port e (ctxMod c.val (fun x => { x with sqHead := head, bells := bellsAfter x.bells head }) d)
      else d
  else d

/-- ENTRY_TAKE (R371). Intake of every ring stops while the module quiesces, but for commands that removal serves, which
`removalRefuses` tells apart (R465, R466). -/
def execEntryTake (ring : Option CtxNo) (s : State) : Host.Outcome State Fault Refusal :=
  .next (onDev (fun nv d =>
    match ring with
    | none => takeAdmin nv d
    | some c => takeCtx nv c d) s)

/-! ### Running a taken command -/

/-- The command that `t` names, if it has been taken, has not begun, and has this opcode; while the scheduler core is down
no command is served (R417), and while an activation runs none of a context (R414). -/
def freshTaken (d : Device) (op t : Nat) : Option Taken :=
  match takenGet d t with
  | some x =>
    if schedulerUp d ∧ (x.ring.isNone ∨ d.fw.acting.isNone) ∧ !x.begun ∧ eOpcode x.entry = op then some x else none
  | none => none

/-- Runs `f` on the taken command `t`; where the state has changed since it was taken, steps 5 and 6 of R371 apply again
(log entry 9). A command of a context in TEARING waits for the teardown, which gives it its record (R370). -/
def withTaken (op t : Nat) (f : Taken → NonVol → Device → Device) (nv : NonVol) (d : Device) : Device :=
  match freshTaken d op t with
  | some x =>
    let st := stateStatus nv d x.ring x.entry
    if st = 0 then f x nv d
    else if (x.ring.map fun c => ctxLive d c.val).getD true then complete nv t st 0xFFFF 0 d
    else d
  | none => d

/-- As `withTaken`, for a command that changes what the module keeps. -/
def withTakenNv (op t : Nat) (f : Taken → NonVol → Device → NonVol × Device) (nv : NonVol) (d : Device) :
    NonVol × Device :=
  match freshTaken d op t with
  | some x =>
    let st := stateStatus nv d x.ring x.entry
    if st = 0 then f x nv d else (nv, complete nv t st 0xFFFF 0 d)
  | none => (nv, d)

/-! ### Admin commands of this chapter -/

/-- The IDENTIFY page (R369). -/
def identifyPage (nv : NonVol) (d : Device) (p : Nat) : List Byte :=
  toBytes 256 (pack [(0, 32, 0x0C5D9600), (32, 32, nv.stepping.toNat), (64, 32, devOption nv), (128, 32, capUnits nv),
    (160, 32, nv.capMemory), (192, 32, ownState d p), (224, 32, fwState nv d), (256, 32, fwVersion d),
    (288, 32, fwIfMin d), (320, 32, fwIfMax d), (352, 32, fwRollback nv d), (384, 32, fwStaged nv)])

/-- IDENTIFY (R369). -/
def execIdentify (t : Nat) (s : State) : Host.Outcome State Fault Refusal :=
  .next (onDev (withTaken 0x01 t fun x nv d =>
    complete nv t stOK 0xFFFF 0 (memMod (dWrite (eArg x.entry 0) (identifyPage nv d x.port.val)) d)) s)

/-- The context that CTX_CREATE makes (R368). -/
def newCtx (e now : Nat) : Ctx :=
  let a3 := eArg e 3
  { Ctx.init with
    st := .bound, part := ⟨ePartition e, Nat.mod_lt _ (by decide)⟩, root := eArg e 0, ktab := eArg e 1, ring := eArg e 2
    sqLog := fld a3 0 4, cqLog := fld a3 4 4, prio := fld a3 12 4, irqPort := ⟨fld a3 16 2, Nat.mod_lt _ (by decide)⟩
    irqEn := bit a3 18, vector := fld a3 19 5, ringEn := true, phase := true, acctFrom := now }

/-- CTX_CREATE (R368). -/
def ctxCreate (t : Nat) (x : Taken) (nv : NonVol) (d : Device) : NonVol × Device :=
  let e := x.entry
  let c := if bit (eArg e 3) 8 then (freeCtx d).getD 0 else eContext e
  let g := wrapInc 16 (genOf nv c)
  let nv := { nv with gens := smPut nv.gens 0 c g }
  (nv, complete nv t stOK 0xFFFF (c + g * 2 ^ 16) (ctxMod c (fun _ => newCtx e d.time.now) d))

/-- CTX_CREATE (R368). -/
def execCtxCreate (t : Nat) (s : State) : Host.Outcome State Fault Refusal :=
  .next (onBoth (withTakenNv 0x03 t (ctxCreate t)) s)

/-- CTX_DESTROY (R370): the teardown starts; the record is written when TEARING ends. -/
def execCtxDestroy (t : Nat) (s : State) : Host.Outcome State Fault Refusal :=
  .next (onDev (withTaken 0x04 t fun x nv d => startTeardown nv (eContext x.entry) 0 none (markBegun t d)) s)

/-- CTX_GRANT (R367). -/
def execCtxGrant (t : Nat) (s : State) : Host.Outcome State Fault Refusal :=
  .next (onDev (withTaken 0x05 t fun x nv d =>
    complete nv t stOK 0xFFFF 0 (ctxMod (eContext x.entry) (fun c => { c with grant := fld (eArg x.entry 0) 0 4 }) d)) s)

/-- HANDOVER (R354). -/
def execHandover (t : Nat) (s : State) : Host.Outcome State Fault Refusal :=
  .next (onDev (withTaken 0x0B t fun x nv d =>
    markBegun t { d with own := { d.own with
      st := .handing, target := ⟨fld (eArg x.entry 0) 0 2, Nat.mod_lt _ (by decide)⟩, handFrom := nv.up
      handTag := some t } }) s)

/-- Every earlier command of the ring has completed (R372). -/
def earlierDone (d : Device) (ring : Option CtxNo) (t : Nat) : Bool :=
  d.rings.taken.all fun y => decide (y.ring ≠ ring) || decide (t ≤ y.tag)

/-- FENCE (R367, R372): it waits for every earlier admin command. -/
def execFence (t : Nat) (s : State) : Host.Outcome State Fault Refusal :=
  .next (onDev (withTaken 0x0C t fun _ nv d => if earlierDone d none t then complete nv t stOK 0xFFFF 0 d else d) s)

/-- FENCE_CONTEXT (R372): it waits for every earlier command of its ring. -/
def execFenceContext (t : Nat) (s : State) : Host.Outcome State Fault Refusal :=
  .next (onDev (withTaken 0x43 t fun x nv d => if earlierDone d x.ring t then complete nv t stOK 0xFFFF 0 d else d) s)

end Sys2Proof.Machine
end

