-- ==== Sys2Proof/Machine/Work.lean ====
section
/-! DEFINITION. What the chapters share about the work of a context: its streams and units, kept state, the abandoning of a
unit, accounting records and the departure from residency (02, 05, 07, 14). -/

namespace Sys2Proof.Machine

/-! ### Streams, units and clocks -/

/-- The half of cluster `k`: 0 West, 1 East (R20). -/
def halfOf (k : Nat) : Nat := k % 32 / 16

/-- The present clock of half `h` in MHz (PWR_CLK.MHZ). -/
def halfMhz (d : Device) (h : Nat) : Nat := smGet d.pwr.mhz 1600 h

/-- The tile budget of partition `p` in µs, 0 where it does not exist (R337). -/
def tileBudget (d : Device) (p : Nat) : Nat := ((partGet d p).map (·.tileBudget)).getD 0

/-- Core `p` of the firmware runs: 0 security, 1 power management, 2 scheduler (R404, R417). -/
def procUp (d : Device) (p : Nat) : Bool := (smGet d.fw.procs Proc.init p).st = .running

/-- Firmware-driven work goes on: the scheduler core runs and no activation is between steps 1 and 7 (R414, R417). -/
def firmwareRuns (d : Device) : Bool := procUp d 2 && d.fw.acting.isNone

/-- Context `c` may have work dealt or started (R377, R383 step 1). -/
def mayDeal (d : Device) (c : Nat) : Bool :=
  (ctxGet d c).st = .resident && (ctxGet d c).departing.isNone && firmwareRuns d

/-- The stream or SORT entry `idx` of a context's program that is active. -/
def runGet (d : Device) (c idx : Nat) : Option StreamRun :=
  (ctxGet d c).prog.bind fun g => g.runs.find? (·.idx = idx)

/-- Entry `idx` of a context's program. -/
def entryGet (d : Device) (c idx : Nat) : Option Entry := (ctxGet d c).prog.bind fun g => g.entries[idx]?

/-- The stream descriptor of entry `idx`. -/
def descGet (d : Device) (c idx : Nat) : Option StreamDesc :=
  match entryGet d c idx with
  | some (.stream x _ _ _ _ _) => some x
  | _ => none

/-- Changes the program of context `c`. -/
def progMod (c : Nat) (f : Prog → Prog) (d : Device) : Device := ctxMod c (fun x => { x with prog := x.prog.map f }) d

/-- Changes the active entry `idx` of context `c`. -/
def runMod (c idx : Nat) (f : StreamRun → StreamRun) (d : Device) : Device :=
  progMod c (fun g => { g with runs := g.runs.map (fun r => if r.idx = idx then f r else r) }) d

/-- Changes the Tally slot of entry `idx`, wherever it is held (R49, R384). -/
def slotMod (c idx : Nat) (f : TallySlot → TallySlot) (d : Device) : Device :=
  match runGet d c idx with
  | none => d
  | some r =>
    if r.saved.isSome then runMod c idx (fun r => { r with saved := r.saved.map f }) d
    else cluMod r.home (fun x => { x with slots := smMod x.slots TallySlot.init r.slot f }) d

/-- The Tally slot of an active entry. -/
def slotOf (d : Device) (r : StreamRun) : TallySlot :=
  r.saved.getD (smGet (cluGet d r.home).slots TallySlot.init r.slot)

/-- The units running on cluster `k`: place and unit. -/
def unitsOn (d : Device) (k : Nat) : List (Nat × UnitRun) :=
  (cluGet d k).units.filterMap fun e => e.2.map fun r => (e.1, r)

/-- Some unit of context `c` is in flight (R383). -/
def inFlight (d : Device) (c : Nat) : Bool := d.clus.any fun e => e.2.units.any fun u => (u.2.map (·.ctx.val)) = some c

/-- A collective stage of context `c` is in progress (R311). -/
def inStage (d : Device) (c : Nat) : Bool := d.coll.runs.any fun r => decide (r.ctx.val = c) && r.stage.isSome

/-- The device number of the cluster with index `i` in partition `p` (R337). -/
def partCluster (d : Device) (p i : Nat) : Option Nat := (partClusters d p)[i]?

/-- The index of cluster `k` in its partition (R337). -/
def clusterIndex (d : Device) (p k : Nat) : Nat := (partClusters d p).idxOf k

/-! ### Kept state (R384, R385) -/

/-- The 16 KiB granules that `size` KiB from `base` KiB touch. -/
def granules (base size : Nat) : List Nat :=
  (List.range (cdiv (base + size) 16 - base / 16)).map fun i => base / 16 + i

/-- The marker of the block that context `c` is in (R120). -/
def openMarker (d : Device) (c : Nat) : Option Marker := (ctxGet d c).prog.bind fun g => g.block.map (·.marker)

/-- PAL_KEEP of the current block (R118). -/
def palKeep (d : Device) (c : Nat) : List Nat := bitsOf 32 (((openMarker d c).map (·.palKeep)).getD 0)

/-- The context is inside a block with REBUILD = 1. -/
def inRebuild (d : Device) (c : Nat) : Bool := ((openMarker d c).map (·.rebuild)).getD false

/-- Entry `idx` of context `c` is active on cluster `k`: a unit of it runs, is claimed or has committed there. -/
def activeOn (d : Device) (c k idx : Nat) : Bool :=
  match runGet d c idx with
  | none => false
  | some r =>
    bit r.clusters k || ((unitsOn d k).any fun u => decide (u.2.ctx.val = c ∧ u.2.idx = idx)) ||
      (((cluGet d k).claimed.map fun x => decide (x.ctx.val = c ∧ x.idx = idx)).getD false)

/-- The Palette granules in the ranges of the context's streams active on cluster `k` (R184). -/
def rangeGranules (d : Device) (c k : Nat) : List Nat :=
  ((((ctxGet d c).prog.map (·.runs)).getD []).filter fun r => activeOn d c k r.idx).flatMap fun r =>
    match descGet d c r.idx with
    | some x => granules x.palBase x.palSize
    | none => []

/-- The number of distinct elements of a list of granules. -/
def distinct (l : List Nat) : Nat := popCount 32 (ofBits l)

/-- The possible kept bytes of R385 in KiB: of context `c` in cluster `k`, with the core context's share where `glaze` or
held already, and the further granules `extra`. -/
def keptSum (d : Device) (c k : Nat) (glaze : Bool) (extra : List Nat) : Nat :=
  let core := glaze || ((cluGet d k).coreCtx.map (·.val)) = some c
  let ranges := if inRebuild d c then [] else rangeGranules d c k ++ extra
  128 + (if core then 256 else 0) + 16 * distinct (palKeep d c ++ ranges)

/-- The granules that a departure keeps in cluster `k` (R384). -/
def keptGranules (d : Device) (c k : Nat) : List Nat :=
  let ranges := if inRebuild d c then [] else
    (rangeGranules d c k).filter fun g => (cluGet d k).written.contains (c, g)
  bitsOf 32 (ofBits (palKeep d c ++ ranges))

/-! ### Units that are lost (R47) -/

/-- Core `j` no longer waits at any barrier or semaphore of its cluster. -/
def unwait (j : Nat) (x : Cluster) : Cluster :=
  { x with
    bars := smMapV x.bars ⟨[], 0, 0⟩ (fun _ b => { b with arrived := without b.arrived j })
    sems := smMapV x.sems ⟨0, []⟩ (fun _ m => { m with waiters := m.waiters.filter (·.1 ≠ j) }) }

/-- The core's parcel belongs to unit `u` of entry `idx` of context `c`. -/
def coreOf (x : Core) (c idx u : Nat) : Bool :=
  (x.run.map fun r => decide (r.parcel.ctx.val = c ∧ r.parcel.idx = idx ∧ r.parcel.unit = u)).getD false

/-- The parcels of a unit on cluster `k` end without effect. -/
def dropParcels (k c idx u : Nat) (d : Device) : Device :=
  let js := (List.range 64).filter fun j => coreOf (coreGet d k j) c idx u
  let d := js.foldl (fun d j =>
    cluMod k (unwait j) (coreMod k j (fun x => { x with run := none, loads := [], fars := [], wait := .none }) d)) d
  cluMod k (fun x => { x with parcels := x.parcels.filter fun p => !decide (p.ctx.val = c ∧ p.idx = idx ∧ p.unit = u) }) d

/-- The packets of the unit at place `u` of cluster `k` belong to no unit any more. -/
def linkForget (k u : Nat) (l : Link) : Link :=
  let f (q : TxPacket) : TxPacket := if q.unit = some (k, u) then { q with unit := none } else q
  { l with
    tx := l.tx.map (fun x => { x with sent := x.sent.map f, queue := x.queue.map f })
    reads := l.reads.map (fun r => if r.unit = some (k, u) then { r with unit := none } else r) }

/-- Unit `n` of entry `idx`, or its repair unit `n`, goes onto the re-issue list and is counted (R47, R148). -/
def reissue (c idx n : Nat) (repair : Bool) (d : Device) : Device :=
  slotMod c idx (fun s => { s with reissuePending := s.reissuePending + 1, reissued := satInc 16 s.reissued })
    (runMod c idx (fun r =>
      if repair then { r with lostRepairs := insAsc n r.lostRepairs } else { r with reissue := insAsc n r.reissue }) d)

/-- The deliveries of a source in which nothing is left to do are over (R230, R231): a landed tag that no member waits for is freed, and
the delivery then takes no more members; a tag on its way that nobody waits for is dropped on landing; a delivery without members, or
with every word asked for and every tag freed, ends. -/
def sweepDeliveries (x : Cluster) : Cluster :=
  let freed := (x.tags.filter fun t => t.dlv.isSome && t.landed.isSome && t.waiting.isEmpty).map fun t => (t.ctx, t.dlv)
  let tags := (x.tags.filter fun t => !(t.dlv.isSome && t.landed.isSome && t.waiting.isEmpty)).map fun t =>
    if t.dlv.isSome ∧ t.waiting = [] then { t with dlv := none, live := false } else t
  let deliveries := x.deliveries.map fun v => if freed.contains (v.ctx, some (v.idx, v.chunk)) then { v with closed := true } else v
  { x with
    tags := tags
    deliveries := deliveries.filter fun v =>
      v.members ≠ [] && (v.words ≠ [] || tags.any fun t => decide (t.ctx = v.ctx) && t.dlv == some (v.idx, v.chunk)) }

/-- Cluster `k`'s unit of entry `idx` leaves every delivery set at source `x` (R231, R233). -/
def leaveSource (k c idx : Nat) (x : Cluster) : Cluster :=
  let mine (t : Tag) : Bool := t.ctx.val == c && (t.dlv.map (·.1)) == some idx && t.waiting.contains k
  sweepDeliveries { x with
    tags := x.tags.map fun t => if mine t then { t with waiting := without t.waiting k } else t
    deliveries := x.deliveries.map fun v =>
      if v.ctx.val = c ∧ v.idx = idx then { v with members := without v.members k } else v
    mcWait := x.mcWait.filter fun w => !decide (w.2.1 = c ∧ w.2.2.1 = idx ∧ w.2.2.2.2 = k) }

/-- Cluster `k`'s unit of entry `idx` leaves every delivery set (R233). -/
def leaveSets (k c idx : Nat) (d : Device) : Device := clusMap (fun _ x => leaveSource k c idx x) d

/-- Place `u` of cluster `k` holds no unit any more: nobody wants its reads, and its partial code words are dropped with it. -/
def unitForget (u : Nat) (x : Cluster) : Cluster :=
  let off (w : WriteReq) : WriteReq := { w with units := without w.units u }
  { x with
    tags := x.tags.map (fun t => if t.user.kind = 0 ∧ t.user.u = u then { t with live := false } else t)
    writes := (x.writes.filter fun w => w.units ≠ [u]).map off
    wtags := (x.wtags.map fun t => { t with pieces := (t.pieces.filter fun w => w.units ≠ [u]).map off }).filter fun t => t.pieces ≠ []
    combining := (x.combining.filter fun w => w.units ≠ [u]).map off }

/-- The number that a unit's parcels carry: a combined tile's numbers start at 2^24. -/
def parcelUnit (r : UnitRun) : Nat := if r.combine then r.unit + 2 ^ 24 else r.unit

/-- The unit at place `u` of cluster `k` is lost: its parcels, its waiting writes and its digest unit are dropped, its reads
in flight are discarded on landing, and a dealt unit is dealt again (R47). A combined tile is combined again. -/
def abandonUnit (k u : Nat) (d : Device) : Device :=
  match unitGet d k u with
  | none => d
  | some r =>
    let d := leaveSets k r.ctx.val r.idx (dropParcels k r.ctx.val r.idx (parcelUnit r) d)
    let d := cluMod k (fun x => { x with
      units := smDel x.units u
      digs := (match r.dig with
        | some g => smMod x.digs DigestUnit.init g.val (fun y => { y with busy := false })
        | none => x.digs) }) (cluMod k (unitForget u) d)
    let d := { d with link := linkForget k u d.link }
    if r.combine then slotMod r.ctx.val r.idx (fun s => { s with combining := false }) d else reissue r.ctx.val r.idx r.unit r.repair d

/-- The claimed unit of cluster `k` goes back at once (R383 step 2), and what was fetched for it is wanted no more. -/
def dropClaim (k : Nat) (d : Device) : Device :=
  match (cluGet d k).claimed with
  | none => d
  | some x =>
    let d := leaveSets k x.ctx.val x.idx (cluMod k (fun y => { unitForget claimPlace y with claimed := none }) d)
    reissue x.ctx.val x.idx x.unit x.repair d

/-! ### Core context (R203) -/

/-- A core context's state that is empty. -/
def CoreSave.empty : CoreSave := ⟨[], [], []⟩

/-- The keep areas of cluster `k`'s cores (R183): key core × 4,096 + byte. -/
def keepBytes (d : Device) (k : Nat) : SMap Byte :=
  (List.range 64).flatMap fun j => (coreGet d k j).store.map fun e => (j * 4096 + e.1, e.2)

/-- The keep area of each core of cluster `k` becomes `m`. -/
def keepPut (k : Nat) (m : SMap Byte) (d : Device) : Device :=
  (List.range 64).foldl (fun d j =>
    coreMod k j (fun x => { x with
      store := (m.filter fun e => e.1 / 4096 = j).map (fun e => (e.1 % 4096, e.2)) }) d) d

/-- The core context of cluster `k` is saved, and the cluster is left with none (R203, R383 step 5). -/
def saveCores (k : Nat) (d : Device) : Device :=
  match (cluGet d k).coreCtx with
  | none => d
  | some c =>
    let x := cluGet d k
    let save : CoreSave := ⟨keepBytes d k, x.bars, x.sems⟩
    let d := ctxMod c.val (fun y => { y with savedCores := smPut y.savedCores CoreSave.empty k save }) d
    keepPut k [] (cluMod k (fun x => { x with coreCtx := none, bars := [], sems := [] }) d)

/-- Context `c` becomes the core context of cluster `k`, its state restored (R203). -/
def loadCores (k : Nat) (c : CtxNo) (d : Device) : Device :=
  let save := smGet (ctxGet d c.val).savedCores CoreSave.empty k
  let d := ctxMod c.val (fun y => { y with savedCores := smDel y.savedCores k }) d
  keepPut k save.keeps (cluMod k (fun x => { x with coreCtx := some c, bars := save.bars, sems := save.sems }) d)

/-! ### Accounting (R399, R400) -/

/-- The fields of an accounting record that totals give: bytes and energy, then the KC fields. -/
def acctFields (a b : Acct) : List (Nat × Nat × Nat) :=
  let kc (x y : Nat) : Nat := x / 1024 - y / 1024
  [(192, 64, a.memRead - b.memRead), (256, 64, a.memWrite - b.memWrite), (320, 64, a.linkTx - b.linkTx),
    (384, 64, a.linkRx - b.linkRx), (448, 64, a.energy / 1000000 - b.energy / 1000000), (512, 32, kc a.fwd b.fwd), (544, 32, kc a.bwd b.bwd),
    (576, 32, kc a.dummyFwd b.dummyFwd), (608, 32, kc a.dummyBwd b.dummyBwd), (640, 32, kc a.core b.core)] ++
  ((List.range 9).map fun i => (672 + 32 * i, 32, kc (a.stalls.getD i 0) (b.stalls.getD i 0))) ++
  [(960, 32, kc a.spill b.spill), (992, 32, kc a.bank b.bank)]

/-- The accounting record of context `c` for the interval that ends now (R399): kind 0 PERIODIC, 1 FINAL, 2 SNAPSHOT. -/
def acctRec (nv : NonVol) (c kind : Nat) (d : Device) : Nat :=
  let x := ctxGet d c
  pack ([(0, 8, c), (8, 4, x.part.val), (12, 2, kind), (16, 16, genOf nv c), (32, 32, x.acctSeq), (64, 64, x.acctFrom),
    (128, 64, d.time.now)] ++ acctFields x.acct x.acctLast)

/-- Writes an accounting record of context `c` (R400). -/
def acctWrite (nv : NonVol) (c kind : Nat) (d : Device) : Device :=
  let r := acctRec nv c kind d
  pushRec nv 2 r (ctxMod c (fun x => { x with
    acctLast := x.acct, acctSeq := wrapInc 32 x.acctSeq, acctFrom := d.time.now }) d)

/-- Charges `n` events of class `cls` to context `c`: the coefficient of R402 is the firmware's own, scaled by κ. -/
def charge (cls n c : Nat) (d : Device) : Device :=
  let e := n * Config.energyPj cls
  acctMod c (fun a => { a with energy := a.energy + e * d.time.kappa / 4096 })
    { d with time := { d.time with estimate := d.time.estimate + e } }

/-- Code words moved between the ring and memory for context `c`, in bytes read and written: its counts, and the energy of hub and
stack (R399, R402). -/
def moved (c read write : Nat) (d : Device) : Device :=
  charge 10 ((read + write) / 64) c (acctMod c (fun a => { a with memRead := a.memRead + read, memWrite := a.memWrite + write }) d)

/-- Bytes into DPA pieces, charged to context `c`; a code word covered in part is a read-modify-write (R221, R238, R401). -/
def ctxStore (nv : NonVol) (c : Nat) (ps : List (Nat × Nat)) (bs : List Byte) (d : Device) : Device :=
  let part := partWords d.mem ps
  moved c (64 * part.length) (64 * (ps.flatMap fun p => touchedWords d.mem p.1 p.2).length)
    (memMod (spanWrite ps bs) (meetErrors nv 1 (some c) 3 part d))

/-- Energy of `n` events of class `cls` that belongs to no context (R402). -/
def chargeNone (cls n : Nat) (d : Device) : Device :=
  let e := n * Config.energyPj cls
  { d with time := { d.time with
      estimate := d.time.estimate + e, unattr := d.time.unattr + e * d.time.kappa / 4096 } }

/-! ### Departures (R383, R384) -/

/-- The departure of context `c` begins at `t`: claimed units go back, and nothing more of it is dealt (R383 steps 1, 2). -/
def beginDeparture (c t : Nat) (boundary : Option Nat) (d : Device) : Device :=
  if (ctxGet d c).st = .resident ∧ (ctxGet d c).departing.isNone then
    let ks := (d.clus.filter fun e => (e.2.claimed.map (·.ctx.val)) = some c).map (·.1)
    ks.foldl (fun d k => dropClaim k d) (ctxMod c (fun x => { x with departing := some t, departT := boundary }) d)
  else d

/-- Steps 2 and 3 of R383 are over for context `c`: no unit in flight, no stage in progress. -/
def departReady (d : Device) (c : Nat) : Bool := !inFlight d c && !inStage d c

/-- A test run on cluster `k` is abandoned (R436). -/
def abandonTest (k : Nat) (d : Device) : Device :=
  if (cluGet d k).test.isSome then fltCnt 9 (cluMod k (fun x => { x with test := none }) d) else d

/-- The test runs on the clusters of partition `p` are abandoned (R436). -/
def abandonTests (p : Nat) (d : Device) : Device := (partClusters d p).foldl (fun d k => abandonTest k d) d

/-- Inside a block with REBUILD = 1, the program goes back to the block's BEGIN (R123). -/
def rewindProg (g : Prog) : Prog :=
  match g.block with
  | some b =>
    if b.marker.rebuild then
      { g with
        next := b.idx + 1, runs := [], done := g.done.filter (·.idx < b.idx)
        block := some { b with restarts := wrapInc 32 b.restarts } }
    else g
  | none => g

/-- The Palette bytes of granule `g` of cluster `k`. -/
def granuleBytes (d : Device) (k g : Nat) : SMap (Option Byte) :=
  ((cluGet d k).palette.filter fun e => e.1 / 16384 = g).map fun e => (k * 2 ^ 19 + e.1, e.2)

/-- What stands for the other bytes of granule `g` of cluster `k`. -/
def granuleFrom (d : Device) (k g : Nat) : SMap Nat :=
  ((cluGet d k).palFrom.filter fun e => e.1 / 16 = g).map fun e => (k * 512 + e.1, e.2)

/-- A Tally slot leaves its cluster with its values (R384). -/
def slotSave (c : Nat) (d : Device) : Device :=
  let runs := ((ctxGet d c).prog.map (·.runs)).getD []
  runs.foldl (fun d r =>
    if r.saved.isSome then d
    else
      let s := slotOf d r
      cluMod r.home (fun x => { x with slots := smMod x.slots TallySlot.init r.slot slotFree })
        (runMod c r.idx (fun y => { y with saved := some s }) d)) d

/-- The free values of `n` bytes that the device writes with contents of its own (R380). -/
def freeBytes (from_ : Nat) : Nat → List Byte
  | 0 => []
  | n + 1 => Config.freeByte from_ :: freeBytes (from_ + 1) n

/-- The kept bytes K of R384: 16 KiB for each granule, 256 KiB for each core context, and the directory. -/
def keptBytes (granulesKept cores : Nat) : Nat := granulesKept * 16384 + cores * 262144 + 4096

/-- Writes `n` bytes of the device's own into the save area at DPA `a`, in so far as it lies in memory (R380). -/
def saveWrite (a n : Nat) (d : Device) : Device :=
  if dpaOk d.mem a n then memMod (dWrite a (freeBytes d.fresh n)) (drawFresh n d) else d

/-- The digest units of clusters `ks` that last served context `c`, key 2 × cluster + unit (R122, R384). -/
def savedDigits (d : Device) (c : Nat) (ks : List Nat) : SMap DigestUnit :=
  ks.flatMap fun k => ((cluGet d k).digs.filter fun e => e.2.ctx = c && e.1 < 2).map fun e => (2 * k + e.1, { e.2 with busy := false })

/-- Steps 4 to 6 of R383: rebuildable state is discarded, kept state written, and the context is BOUND. -/
def finishDeparture (nv : NonVol) (c : Nat) (d : Device) : Device :=
  let p := (ctxGet d c).part.val
  let ks := partClusters d p
  let gs := ks.flatMap fun k => (keptGranules d c k).map fun g => (k, g)
  let cores := ks.filter fun k => ((cluGet d k).coreCtx.map (·.val)) = some c
  let kept := keptBytes gs.length cores.length
  let pal := gs.flatMap fun e => granuleBytes d e.1 e.2
  let from_ := gs.flatMap fun e => granuleFrom d e.1 e.2
  let digs := if inRebuild d c then [] else savedDigits d c ks
  let d := slotSave c d
  let d := cores.foldl (fun d k => saveCores k d) d
  let d := clusMap (fun _ x => { x with
    written := x.written.filter (·.1 ≠ c)
    arrays := arraysDrop c x.arrays
    easel := easelDrop c x.easel
    digs := smMapV x.digs DigestUnit.init (fun _ g => if g.ctx = c then { g with busy := false } else g) }) d
  let d := match (ctxGet d c).save with
    | some a => saveWrite a kept d
    | none => d
  let d := moved c 0 kept d
  let d := ctxMod c (fun x => { x with
    st := .bound, departing := none, departT := none, kept := kept, savedGran := gs, savedDigs := digs, savedPal := pal, savedFrom := from_
    prog := x.prog.map fun g => { rewindProg g with preempts := min 65535 (g.preempts + 1) } }) d
  let d := schedMod p (fun s => { s with reclaim := s.reclaim.map (fun r =>
    if r.departing.contains c then
      { r with departing := without r.departing c, gone := r.gone + 1, kept := r.kept + kept }
    else r) }) d
  match (ctxGet d c).prog with
  | some g => inform nv g.tag stPreempted d
  | none => d

end Sys2Proof.Machine
end

