-- ==== Sys2Proof/Machine/Geometry.lean ====
section
/-! DEFINITION. The geometry of streams: classes, stored shapes, extents, units, chunks, passes, residency, footprints and issue
counts (02_tile_streams, 04_matrix_arrays, 06_conditional_compute). -/

namespace Sys2Proof.Machine

/-! ### Classes of streams -/

/-- ARRAY_OP fields (R98). -/
def opKind (x : StreamDesc) : Nat := x.arrayOp % 8
def opSparse (x : StreamDesc) : Nat := x.arrayOp / 8 % 4
def accInit (x : StreamDesc) : Bool := bit x.arrayOp 5

/-- The path names station `n` (R25). -/
def has (x : StreamDesc) (n : Nat) : Bool := x.path.contains n

/-- The path holds FWD or BWD. -/
def hasArray (x : StreamDesc) : Bool := has x 3 || has x 4

/-- A ROW stream: Glaze without ACC (R202, R204). -/
def isRow (x : StreamDesc) : Bool := has x 6 && !has x 5

/-- A move stream (R475). -/
def isMove (x : StreamDesc) : Bool := !(has x 3 || has x 4 || has x 5 || has x 6 || has x 10)

/-- The array kind that a unit occupies: 0 none, 1 FWD, 2 BWD (R48). -/
def arrayKind (x : StreamDesc) : Nat := if has x 3 then 1 else if has x 4 then 2 else 0

/-- The product is of integer class (R77). -/
def intClass (x : StreamDesc) : Bool := fmtInt x.xFmt && (!hasArray x || fmtInt x.wFmt)

/-- The source or the sink is EXCHANGE (R291). -/
def exSource (x : StreamDesc) : Bool := x.path.head? = some 9
def exSink (x : StreamDesc) : Bool := x.path.getLast? = some 9

/-! ### Experts (R169 to R172) -/

/-- G and Q of a SORT descriptor. -/
def sortQ (s : SortDesc) : Nat := s.cap * s.rounds

/-- The experts that a stream under governing descriptor `g` runs: E, or the hosted E ÷ G under a RECEIVE (R174). -/
def expertCount (g : Option SortDesc) : Nat :=
  match g with
  | none => 1
  | some s => if s.op = 3 then s.experts / s.group else s.experts

/-- Slots of one expert: Q, or G × Q under a RECEIVE (R170, R174). -/
def expertSlots (s : SortDesc) : Nat := if s.op = 3 then s.group * sortQ s else sortQ s

/-- The descriptor of one expert's product: Q stands for M, or for K under KIND 3 (R170). -/
def perExpert (x : StreamDesc) (g : Option SortDesc) : StreamDesc :=
  match g with
  | none => x
  | some s => if opKind x = 3 then { x with k := expertSlots s } else { x with m := expertSlots s }

/-! ### Shapes (R35, R100, R108) -/

/-- Stored k-block rows of a sparse W (R108). -/
def sparseRows (x : StreamDesc) : Nat := if opSparse x = 1 then 96 else 64

def xRows (x : StreamDesc) : Nat := if opKind x = 3 then x.k else x.m
def xCols (x : StreamDesc) : Nat := if opKind x = 3 then x.m else x.k
def wRows (x : StreamDesc) : Nat :=
  if isRow x then x.m else if opSparse x ≠ 0 then cdiv x.k 128 * sparseRows x else if opKind x = 2 then x.n else x.k
def wCols (x : StreamDesc) : Nat := if isRow x then x.n else if opSparse x = 0 ∧ opKind x = 2 then x.k else x.n

/-- D of R107: logical reduction positions of a pass. -/
def dOf (x : StreamDesc) : Nat := if opSparse x = 1 then 256 else if opSparse x = 2 then 512 else 128

/-- Reduction parts, k-blocks, and the k-blocks of part `p` (R45). -/
def partsOf (x : StreamDesc) : Nat := x.ksplit + 1
def kBlocks (x : StreamDesc) : Nat := cdiv x.k 128
def partLo (x : StreamDesc) (p : Nat) : Nat := p * kBlocks x / partsOf x
def partLen (x : StreamDesc) (p : Nat) : Nat := partLo x (p + 1) - partLo x p

/-- The most k-blocks that a part has. -/
def partMax (x : StreamDesc) : Nat := (List.range (partsOf x)).foldl (fun m p => max m (partLen x p)) 0

/-- Row and column tiles of one expert's output (R43, R205). -/
def mtOf (x : StreamDesc) : Nat := cdiv x.m x.tm
def ntOf (x : StreamDesc) : Nat := if isRow x then 1 else cdiv x.n x.tn

/-- Units of the stream (R43, R172, R205). -/
def unitCount (x : StreamDesc) (g : Option SortDesc) : Nat :=
  let y := perExpert x g
  expertCount g * (mtOf y * ntOf y * partsOf y)

/-- C of R50. -/
def chunkCount (x : StreamDesc) : Nat := cdiv (partMax x * 128) x.tk

/-- The m loop, or the n loop, lies outside the k loop (R38, R50). -/
def mOutside (x : StreamDesc) : Bool := x.palOrder < 3
def nOutside (x : StreamDesc) : Bool := x.palOrder = 0 || x.palOrder = 1 || x.palOrder = 3

/-- Strips that close together: the block of a block-scaled Y (R477). -/
def stripGroup (x : StreamDesc) : Nat := if fmtBlock x.yFmt then blockSize x.yFmt / 8 else 1

/-- Residency in elements (R50, R51, R477). -/
def residency (x : StreamDesc) : Nat :=
  if !has x 5 then 0
  else
    let strips := cdiv x.tn 8
    let rows := if 1 < chunkCount x ∨ !mOutside x then x.tm else x.tp
    let open_ := if 1 < chunkCount x ∨ !nOutside x then strips else stripGroup x
    rows * 8 * open_

/-- Bytes of the X chunk and of the W chunk (R39, R108). -/
def xChunk (x : StreamDesc) : Nat := if opKind x = 3 then x.tk * rowLen x.xFmt x.tm else x.tm * rowLen x.xFmt x.tk
def wChunk (x : StreamDesc) : Nat :=
  if !hasArray x then 0
  else if opSparse x ≠ 0 then x.tk / 128 * sparseRows x * rowLen x.wFmt x.tn
  else if opKind x = 2 then x.tn * rowLen x.wFmt x.tk
  else x.tk * rowLen x.wFmt x.tn

/-- Bytes of a delivered element (R204). -/
def deliveredBytes (f : Nat) : Nat := fmtBits (delivered f) / 8

/-- Rounded up to 64. -/
def up64 (n : Nat) : Nat := cdiv n 64 * 64

/-- Lx and Ly of R475. -/
def moveX (x : StreamDesc) : Nat := up64 (rowLen x.xFmt x.tn)
def moveY (x : StreamDesc) : Nat := up64 (rowLen x.yFmt x.tn)

/-- Output row bytes of a ROW parcel (R204). -/
def rowOut (x : StreamDesc) : Nat := if has x 7 then 4 * x.n else rowLen x.yFmt x.n

/-- The Palette footprint in bytes (R39, R204, R475). -/
def footprint (x : StreamDesc) : Nat :=
  if isRow x then
    2 * x.tm * (deliveredBytes x.xFmt * x.k + rowOut x + (if x.wAddr = 0 then 0 else deliveredBytes x.wFmt * x.n))
  else if isMove x then 2 * x.tm * (moveX x + moveY x)
  else 2 * (xChunk x + wChunk x)

/-! ### Passes (R95, R96) -/

/-- The line of R95 that a format takes: 0 FP32, 1 16 bits, 2 6 and 8 bits, 3 4 bits. -/
def rateLine (f : Nat) : Nat := if fmtBits f = 32 then 0 else if fmtBits f = 16 then 1 else if fmtBits f = 4 then 3 else 2

/-- The slower line of the operands (R95). -/
def rateOf (x : StreamDesc) : Nat := if hasArray x then min (rateLine x.xFmt) (rateLine x.wFmt) else rateLine x.xFmt

/-- S of R96 for `rows` streamed rows. -/
def passCycles (x : StreamDesc) (rows : Nat) : Nat :=
  let line := rateOf x
  let q := if line = 3 then 2 else 1
  let c := if line = 0 then 8 else if line = 1 then 2 else 1
  cdiv rows ((if has x 4 then 2 else 1) * q) * c

/-- The issue count of the largest unit (R40, R97, R205, R475). -/
def issueCount (x : StreamDesc) : Nat :=
  if isRow x then x.tm
  else if isMove x then
    max (max (cdiv (x.tm * moveX x) 64) (cdiv (x.tm * moveY x) 64)) (if has x 7 then cdiv (x.tm * x.tn) 32 else 0)
  else
    let rows := min x.tm x.m
    let s (n : Nat) : Nat := max 16 (passCycles x n)
    let perStrip := rows / x.tp * s x.tp + (if rows % x.tp = 0 then 0 else s (rows % x.tp))
    cdiv (min x.tn x.n) 8 * cdiv (partMax x) (dOf x / 128) * perStrip + 16

/-! ### The spill area (R45, R113, R476) -/

/-- Bytes of the whole output as the slots lay it out, over `e` experts (R45, R113, R172). -/
def slotBytes (x : StreamDesc) (e : Nat) : Nat := e * x.m * (8 * cdiv x.n 8) * 4

/-- E of R476: bytes of a cluster's spill slot. -/
def spillSlot (x : StreamDesc) : Nat :=
  up64 ((residency x - 32768) * 4 - (x.palSize * 1024 - footprint x))

/-- Where the result slots and the cluster slots start, from the area's base, and where the last region ends. -/
def resultAt (x : StreamDesc) (e : Nat) : Nat := if x.ksplit = 0 then 0 else up64 (slotBytes x e * partsOf x)
def resultEnd (x : StreamDesc) (e : Nat) : Nat :=
  if accInit x then resultAt x e + slotBytes x e else if x.ksplit = 0 then 0 else slotBytes x e * partsOf x
def clusterSlotsAt (x : StreamDesc) (e : Nat) : Nat := up64 (resultEnd x e)
def spillNeed (x : StreamDesc) (e clusters : Nat) : Nat :=
  if has x 5 ∧ spillSlot x ≠ 0 then clusterSlotsAt x e + spillSlot x * clusters else resultEnd x e

/-- The stream uses the spill area in memory (R54). -/
def usesSpill (x : StreamDesc) : Bool := x.ksplit ≠ 0 || accInit x || (has x 5 && spillSlot x ≠ 0)

/-! ### Extents (R58, R170) -/

/-- The bytes from the first to the last of `rows` rows of `cols` elements. -/
def extentLen (rows pitch f cols : Nat) : Nat := (rows - 1) * pitch * 64 + rowLen f cols

/-- The first byte of each expert's W: W_STRIDE apart under KIND 1 and 2, W's stored rows apart under KIND 3 (R170). -/
def expertW (x : StreamDesc) (g : Option SortDesc) (e : Nat) : Nat :=
  x.wAddr + (match g with
    | some s => if opKind x = 3 then e * wRows (perExpert x g) * x.wPitch * 64 else 64 * s.wStride * e
    | none => 0)

/-- The extents of the operands that the stream holds in memory, one of each operand for each expert: first byte and length. -/
def extents (x : StreamDesc) (g : Option SortDesc) : List (Nat × Nat) :=
  let y := perExpert x g
  (List.range (expertCount g)).flatMap fun e =>
    (if exSource x then [] else [(x.xAddr + e * xRows y * x.xPitch * 64, extentLen (xRows y) x.xPitch x.xFmt (xCols y))]) ++
      (if hasArray x || (isRow x && x.wAddr ≠ 0) then
        [(expertW x g e, extentLen (wRows y) x.wPitch x.wFmt (wCols y))] else []) ++
      (if exSink x then [] else [(x.yAddr + e * y.m * x.yPitch * 64, extentLen y.m x.yPitch x.yFmt y.n)])

/-- A and S of R129 for an array of rows and columns, and the bytes of its map. -/
def mapBytes (rows cols : Nat) : Nat := cdiv (cdiv rows 128 * cdiv cols 8) 8

/-- Two byte ranges overlap. -/
def extentsMeet (a b : Nat × Nat) : Bool := decide (a.1 < b.1 + b.2) && decide (b.1 < a.1 + a.2)

/-- The formats that the stream uses (R339). -/
def usedFormats (x : StreamDesc) : List Nat :=
  [x.xFmt, x.yFmt] ++ (if hasArray x || (isRow x && x.wAddr ≠ 0) then [x.wFmt] else [])

end Sys2Proof.Machine
end

