-- ==== Sys2Proof/Machine/Admit.lean ====
section
/-! DEFINITION. Admission of a stream program (R28 to R34, R55, R118, R119, R125, R126, R159, R160, R201, R202, R291, R478),
and the commands SUBMIT and SUBMIT_GATE_OPEN. -/

namespace Sys2Proof.Machine

/-! ### Entries parsed -/

/-- The entry type (R29). -/
def entryType (e : Nat) : Nat := fld e 508 4

/-- The stream descriptor of an entry (R34). -/
def streamParse (e : Nat) : StreamDesc :=
  let n := fld e 20 4
  { stream := fld e 0 10, spillOk := bit e 10, passThrough := bit e 11, xposeFetch := bit e 12, digest := bit e 13
    zmapSkip := bit e 14, speculate := bit e 15, zmapRecord := bit e 16, pathLen := n, arrayOp := fld e 24 8
    path := (List.range n).map fun i => fld e (32 + 4 * i) 4, pathWord := fld e 32 32
    wAddr := fld e 64 46 * 64, wFmt := fld e 110 4, wPitch := fld e 114 14
    xAddr := fld e 128 46 * 64, xFmt := fld e 174 4, xPitch := fld e 178 14
    yAddr := fld e 192 46 * 64, yFmt := fld e 238 4, yPitch := fld e 242 14
    m := fld e 256 24, round := fld e 280 4, ksplit := fld e 284 4, k := fld e 288 24, wTree := fld e 312 5
    n := fld e 320 24, glaze := fld e 344 8, tm := fld e 352 16, tn := fld e 368 16, tk := fld e 384 16
    tp := fld e 400 13, memOrder := fld e 416 3, palOrder := fld e 419 3, home := fld e 422 10
    depStream := fld e 432 10, depKind := fld e 442 2, palBase := fld e 448 9, palSize := fld e 457 10
    recordSlot := fld e 480 16 }

/-- Reserved fields of a stream descriptor (position, width). -/
def streamReserved : List (Nat × Nat) := [(17, 3), (317, 3), (413, 3), (444, 4), (467, 13), (496, 12)]

/-- The SORT descriptor of an entry (R159). -/
def sortParse (e : Nat) : SortDesc :=
  { stream := fld e 0 10, op := fld e 10 3, scale := bit e 13, policy := fld e 14 2, topk := fld e 16 4
    cand := fld e 20 4 + 1, experts := fld e 24 8 + 1, t := fld e 32 24, rounds := fld e 56 3
    routeAddr := fld e 64 46 * 64, srcAddr := fld e 128 46 * 64, srcFmt := fld e 174 4, srcPitch := fld e 178 14
    dstAddr := fld e 192 46 * 64, dstFmt := fld e 238 4, dstPitch := fld e 242 14, listAddr := fld e 256 46 * 64
    cap := fld e 320 16, self := fld e 336 6, rowLen := fld e 352 24, wStride := fld e 384 32, group := fld e 416 6 + 1
    home := fld e 422 10, depStream := fld e 432 10, depKind := fld e 442 2, tag := fld e 480 16 }

/-- Reserved fields of a SORT descriptor. -/
def sortReserved : List (Nat × Nat) :=
  [(59, 5), (110, 18), (302, 18), (342, 10), (376, 8), (444, 4), (448, 32), (496, 12)]

/-- The marker of an entry (R118). -/
def markerParse (e : Nat) : Marker :=
  { kind := fld e 0 2, mode := fld e 2 2, rebuild := bit e 4, halt := bit e 5, block := fld e 16 16
    palKeep := fld e 32 32, blockSlot := fld e 64 16 }

/-- Reserved fields of a marker. -/
def markerReserved : List (Nat × Nat) := [(6, 10), (80, 400), (480, 28)]

/-- Every field of the list is 0. -/
def allZero (e : Nat) (fs : List (Nat × Nat)) : Bool := fs.all fun f => fld e f.1 f.2 == 0

/-- The programmer's fields of a record slot (R126). -/
def slotParse (v : Nat) : SlotP :=
  { mapAddr := fld v 0 52, predAddr := fld v 64 52, maskAddr := fld v 128 52, maskKind := fld v 180 2, poly := fld v 182 2
    tau := fld v 192 32 }

/-- Reserved fields of a record slot. -/
def slotReserved : List (Nat × Nat) := [(52, 12), (116, 12), (184, 8), (480, 32)]

/-- Reserved fields of a block record (R128). -/
def blockReserved : List (Nat × Nat) := [(19, 13), (33, 15), (154, 6), (160, 32), (448, 64), (1280, 768)]

/-- A kernel table entry (R201). -/
def kernelParse (v : Nat) : KernelEntry :=
  { codeAddr := fld v 0 52, codeWords := fld v 64 13, kind := fld v 77 2, shipped := fld v 80 8, paramAddr := fld v 128 52
    arg0 := fld v 192 32, arg1 := fld v 224 32 }

/-- Reserved fields of a kernel table entry. -/
def kernelReserved : List (Nat × Nat) := [(52, 12), (79, 1), (88, 40), (180, 12)]

/-- A remote target record (R291). -/
def remoteParse (v : Nat) : RemoteTarget :=
  { node := fld v 0 10, window := fld v 10 16, flowSel := fld v 26 4, arrive := bit v 30, winGen := fld v 32 16
    key := fld v 64 32, arriveValue := fld v 96 32, offset := fld v 128 40, arriveOffset := fld v 192 40 }

/-- Reserved fields of a remote target record. -/
def remoteReserved : List (Nat × Nat) := [(31, 1), (48, 16), (168, 24), (232, 24), (256, 256)]

/-! ### What admission keeps while it checks -/

/-- How an admission ends without a program: a refusal with status and INDEX, or a fault of the context. -/
inductive AdmitErr where
  | refuse (status index : Nat)
  | fault (f : FaultAt)
  deriving DecidableEq, Repr

/-- What the checks of earlier entries leave for later ones. -/
structure AdmitSt where
  /-- Entries so far, in order. -/
  entries : List Entry
  /-- Stream numbers, record slots of streams, block slots with their BLOCK, BLOCK numbers of BEGINs. -/
  streams : List Nat
  records : List Nat
  blocks : List (Nat × Nat)
  begins : List Nat
  /-- The open BEGIN, and the latest SORT descriptor. -/
  open_ : Option Marker
  gov : Option SortDesc
  /-- The first entry whose named structure is unmapped (R478). -/
  hole : Option Nat
  deriving DecidableEq, Repr

/-- An uncorrectable word among data that context `c` consumes (R239, R240). -/
def poisonFault (d : Device) (c detector va len : Nat) : FaultAt :=
  let word := match vSpan d.mem (ctxGet d c).root false va len with
    | .ok ps => ((ps.flatMap fun p => touchedWords d.mem p.1 p.2).find? fun w => d.mem.poison.contains w).getD 0
    | .error _ => 0
  ⟨0x0A, stUncorrectable, detector, none, none, none, 0, synIndex d.mem word, none⟩

/-- Data that the device reads for context `c`; poison is a fault (R239). -/
def ctxRead (d : Device) (c detector va len : Nat) : Except FaultAt (List Byte) :=
  match vRead d.mem (ctxGet d c).root va len with
  | .error e => .error (vFault e detector)
  | .ok bs => if vPoisoned d.mem (ctxGet d c).root va len then .error (poisonFault d c detector va len) else .ok bs

/-- A structure read at admission: none where its page is unmapped (R478). -/
def admRead (d : Device) (c va len : Nat) : Except AdmitErr (Option Nat) :=
  match ctxRead d c 6 va len with
  | .ok bs => .ok (some (ofBytes bs))
  | .error f => if f.cause = 5 then .ok none else .error (.fault f)

/-- The stations of the canonical order between source and sink, by rank (R26). -/
def midRank (n : Nat) : Nat :=
  match n with
  | 10 => 1
  | 1 => 2
  | 11 => 3
  | 2 => 4
  | 3 => 5
  | 4 => 5
  | 5 => 6
  | 6 => 7
  | 7 => 8
  | _ => 0

/-- Ranks of the middle stations strictly rise from `lo` (R26). -/
def ranksRise (lo : Nat) (l : List Nat) : Bool :=
  match l with
  | [] => true
  | a :: t => decide (lo < midRank a) && ranksRise (midRank a) t

/-- A path follows R26 and R27. -/
def pathOk (x : StreamDesc) : Bool :=
  let mid := (x.path.drop 1).dropLast
  (x.path.head? = some 0 || exSource x) && (x.path.getLast? = some 8 || exSink x) && ranksRise 0 mid &&
    (!hasArray x || has x 5) && (!has x 5 || has x 7) && (!has x 2 || has x 4) && (!has x 11 || hasArray x)

/-- The legal combinations of R101. -/
def transposeOk (x : StreamDesc) : Bool :=
  if opKind x ≤ 1 then !has x 2 && !x.xposeFetch
  else if has x 4 then has x 2 != x.xposeFetch
  else !has x 2 && x.xposeFetch

/-- The word is a finite FP32 value. -/
def finite32 (w : Nat) : Bool := fld w 23 8 != 255

/-- The KIND that a shipped kernel is shipped as (R208): 0 ELEMENT, 1 ROW. -/
def shippedKind (n : Nat) : Nat := if n ≤ 2 then 0 else 1

/-- The kernel-table rules of R202 that the entry itself decides. -/
def kernelOk (x : StreamDesc) (kd : KernelEntry) : Bool :=
  decide (kd.kind ≤ 1 ∧ kd.shipped ≤ 6) &&
    (if kd.shipped = 0 then decide (1 ≤ kd.codeWords ∧ kd.codeWords ≤ 4096 ∧ kd.codeAddr % 64 = 0)
      else kd.kind == shippedKind kd.shipped) &&
    (if kd.kind = 0 then has x 5
      else !has x 5 && (x.path = [0, 6, 8] || x.path = [0, 6, 7, 8])) &&
    (if kd.shipped = 3 ∨ kd.shipped = 4 ∨ kd.shipped = 5 then x.n == x.k else true) &&
    (if kd.shipped = 6 then
      x.n % 128 == 0 && delivered x.xFmt == 0 && x.wAddr != 0 && delivered x.wFmt == 0 else true)

/-- Check 1 of R55 for a stream descriptor. -/
def streamCodes (e : Nat) (x : StreamDesc) (slot : Option Nat) (src dst : Option Nat) : Bool :=
  allZero e streamReserved && decide (2 ≤ x.pathLen ∧ x.pathLen ≤ 8) && x.pathWord / 2 ^ (4 * x.pathLen) == 0 &&
    decide (x.round ≤ 4 ∧ x.depKind ≠ 3 ∧ x.memOrder ≤ 5 ∧ x.palOrder ≤ 5) &&
    decide (opKind x ≤ 3 ∧ opSparse x ≠ 3 ∧ x.arrayOp / 64 = 0) && x.path.all (· ≤ 11) &&
    (slot.map fun v => allZero v slotReserved).getD true && (src.map fun v => allZero v remoteReserved).getD true &&
    (dst.map fun v => allZero v remoteReserved).getD true

/-- Check 2 of R55 for a stream descriptor. -/
def streamForm (a : AdmitSt) (x : StreamDesc) : Bool :=
  pathOk x && (!exSource x || (x.path.drop 1).dropLast.all (· = 7)) &&
    (if opKind x = 0 then x.arrayOp == 0 && !hasArray x else hasArray x) && (opSparse x == 0 || opKind x == 1) &&
    transposeOk x && (!x.passThrough || opKind x == 3) &&
    (!accInit x || !((a.open_.map (·.rebuild)).getD false)) &&
    (!has x 10 || (a.gov.isSome && !x.zmapSkip && x.ksplit == 0)) &&
    !a.streams.contains x.stream && (x.depKind ≠ 1 || a.streams.contains x.depStream) &&
    (!has x 7 || (!a.records.contains x.recordSlot && !(a.blocks.any fun b => b.1 == x.recordSlot)))

/-- Check 4 of R55 for a stream descriptor. -/
def streamAllowed (d : Device) (p : Nat) (x : StreamDesc) : Bool :=
  match partGet d p with
  | none => false
  | some s =>
    x.path.all (bit s.stations ·) && (usedFormats x).all (bit s.formats ·) && decide (x.wTree ≤ s.trees.length) &&
      decide (x.home < s.rows * s.cols) && (s.cages != 0 || !(exSource x || exSink x))

/-- The tiling of check 5 of R55. -/
def tilingOk (x : StreamDesc) : Bool :=
  decide (x.m ≠ 0 ∧ x.k ≠ 0 ∧ x.n ≠ 0 ∧ x.tm ≠ 0 ∧ 1 ≤ x.tp ∧ x.tp ≤ 4096) &&
    (if isRow x then decide (x.tk = 0 ∧ x.tn = 0 ∧ x.tp = x.tm ∧ x.ksplit = 0 ∧ x.memOrder = 0 ∧ x.palOrder = 0)
      else if isMove x then
        decide (x.tn ≠ 0 ∧ x.tn % 8 = 0 ∧ x.tk = 0 ∧ x.tp = x.tm ∧ x.ksplit = 0 ∧ x.palOrder = 0 ∧ x.memOrder ≤ 1) &&
          (has x 7 || (x.xFmt == x.yFmt && x.n == x.k))
      else
        decide (x.tn ≠ 0 ∧ x.tn % 8 = 0 ∧ x.tk ≠ 0 ∧ x.tk % 128 = 0 ∧ x.tm % x.tp = 0 ∧ x.memOrder ≤ 1) &&
          (!hasArray x || has x 1 || (x.k % 128 == 0 && x.n % 8 == 0))) &&
    (!(hasArray x || isMove x) || !fmtBlock x.yFmt || x.tn % blockSize x.yFmt == 0)

/-- A pitch holds a row of its operand (R34, R36). -/
def pitchOk (pitch f cols : Nat) : Bool := decide (1 ≤ pitch) && decide (rowLen f cols ≤ pitch * 64)

/-- Pitches and operand formats of check 5 of R55 (R36, R76 to R78, R111, R113). -/
def operandsOk (x y : StreamDesc) : Bool :=
  pitchOk x.xPitch x.xFmt (xCols y) && pitchOk x.yPitch x.yFmt y.n &&
    (!(hasArray x || (isRow x && x.wAddr ≠ 0)) || pitchOk x.wPitch x.wFmt (wCols y)) &&
    (!hasArray x || (x.xFmt != 10 && x.xFmt != 15 && x.wFmt != 10 && x.wFmt != 15 && fmtInt x.xFmt == fmtInt x.wFmt)) &&
    (opSparse x == 0 || (has x 1 && x.tk % dOf x == 0 && x.wFmt != 0 &&
      (opSparse x == 1 || [3, 4, 8, 11, 14].contains x.wFmt))) &&
    (!accInit x || x.yFmt == (if intClass x then 10 else 0))

/-- Underdrawing, map and mask rules of check 5 of R55 (R125, R132, R142, R153, R154). -/
def extrasOk (x : StreamDesc) (g : Option SortDesc) (slot : Option SlotP) : Bool :=
  let y := perExpert x g
  let e := expertCount g
  (!(x.zmapRecord || x.digest) || has x 7) && (x.speculate || !has x 11) &&
    (!x.speculate || (has x 11 && has x 6 && hasArray x && !intClass x && opSparse x == 0 && !accInit x && x.ksplit == 0 &&
      x.tp % 128 == 0 && x.tm % 128 == 0)) &&
    (!x.zmapSkip || (hasArray x && !x.speculate && !has x 10 && x.tp % 128 == 0 && x.tm % 128 == 0)) &&
    (match slot with
      | none => true
      | some s =>
        let map := (s.mapAddr, mapBytes (y.m * e) y.n)
        let pred := if s.predAddr = 0 then []
          else if x.speculate then [(s.predAddr, mapBytes (y.m * e) y.n)]
          else if x.zmapSkip then [(s.predAddr, mapBytes (xRows y) (xCols y))] else []
        (!x.speculate || finite32 s.tau) && s.mapAddr % 64 == 0 && s.maskAddr % 64 == 0 &&
          (s.maskKind == 0 || [0, 1, 2, 3, 4, 8, 10].contains x.yFmt) &&
          (!x.zmapRecord || (extents x g ++ pred).all fun r => !extentsMeet map r))

/-- Check 5 of R55 for a stream descriptor. -/
def streamValues (x : StreamDesc) (g : Option SortDesc) (slot : Option SlotP) (kern : Option Nat)
    (src dst : Option RemoteTarget) : Bool :=
  let y := perExpert x g
  let aligned (r : RemoteTarget) : Bool := r.offset % 64 == 0 && r.arriveOffset % 4 == 0
  tilingOk y && decide (unitCount x g ≤ 2 ^ 24) && (isRow x || decide (partsOf x ≤ kBlocks y)) &&
    (if isMove x then decide (x.tm * moveX x ≤ 262144 ∧ x.tm * moveY x ≤ 262144)
      else isRow x || decide (xChunk x ≤ 262144 ∧ wChunk x ≤ 262144)) &&
    decide (1 ≤ x.palSize ∧ x.palSize ≤ 512 ∧ x.palBase + x.palSize ≤ 512) && operandsOk x y && extrasOk x g slot &&
    (x.glaze != 0) == has x 6 && (kern.map fun v => allZero v kernelReserved && kernelOk y (kernelParse v)).getD true &&
    (src.map aligned).getD true && (dst.map aligned).getD true

/-- The kept sum of check 7 of R55 in KiB (R385). -/
def admitKept (x : StreamDesc) (blk : Option Marker) : Nat :=
  let keep := bitsOf 32 ((blk.map (·.palKeep)).getD 0)
  let own := if (blk.map (·.rebuild)).getD false then [] else granules x.palBase x.palSize
  128 + (if has x 6 then 256 else 0) + 16 * distinct (keep ++ own)

/-- The status that refuses a stream descriptor, 0 when every check of R55 passes. -/
def streamStatus (nv : NonVol) (d : Device) (p : Nat) (a : AdmitSt) (hdr : ProgHeader) (e : Nat) (slot kern src dst : Option Nat) :
    Nat :=
  let x := streamParse e
  let g := if has x 10 then a.gov else none
  let y := perExpert x g
  let clusters := (partClusters d p).length
  firstFail [
    (streamCodes e x slot src dst, stMalformed),
    (streamForm a x, stMalformed),
    (!nv.specN || !(has x 10 || has x 11), stAbsent),
    (streamAllowed d p x, stState),
    (streamValues x g (slot.map slotParse) kern (src.map remoteParse) (dst.map remoteParse), stMalformed),
    (x.spillOk || decide (residency y ≤ 32768), stAcc),
    (decide (footprint y ≤ x.palSize * 1024) && decide (admitKept x a.open_ ≤ ((partGet d p).map (·.keptLimit)).getD 0) &&
      decide (spillNeed y (expertCount g) clusters ≤ hdr.spillSize * 1024), stNoResource),
    (decide (issueCount y ≤ tileBudget d p * 1600), stBudget)]

/-- Row bytes of a SORT move: the larger of source and destination (R162). -/
def sortRowBytes (s : SortDesc) : Nat := max (rowLen s.srcFmt s.rowLen) (rowLen s.dstFmt s.rowLen)

/-- The cycles that check 8 of R55 compares for a SORT descriptor (R162). -/
def sortIssue (s : SortDesc) : Nat :=
  let list := if s.op = 0 then
    cdiv (s.t * s.cand) 16 + cdiv (s.t * s.topk * (s.cand - s.topk)) 16 + s.experts + 64 else 0
  max list (128 * (if s.op = 2 then s.topk else 1) * cdiv (sortRowBytes s) 64)

/-- The status that refuses a SORT descriptor (R55, R160, R177). -/
def sortStatus (nv : NonVol) (d : Device) (p : Nat) (a : AdmitSt) (e : Nat) : Nat :=
  let s := sortParse e
  let allowed := match partGet d p with
    | none => false
    | some sec => bit sec.formats s.srcFmt && bit sec.formats s.dstFmt && decide (s.home < sec.rows * sec.cols)
  firstFail [
    (allZero e sortReserved && decide (s.op ≤ 4 ∧ s.policy ≠ 3 ∧ s.depKind ≠ 3), stMalformed),
    (!a.streams.contains s.stream && (s.depKind ≠ 1 || a.streams.contains s.depStream), stMalformed),
    (!nv.specN, stAbsent),
    (allowed, stState),
    (decide (1 ≤ s.topk ∧ s.topk ≤ 8 ∧ s.topk ≤ s.cand ∧ 1 ≤ s.rounds ∧ s.rounds ≤ 4 ∧ (s.rounds = 1 ∨ s.policy = 2)) &&
      decide (s.t ≠ 0 ∧ s.cap ≠ 0 ∧ s.experts * sortQ s ≤ 2 ^ 24 ∧ s.experts % s.group = 0 ∧ s.self < s.group) &&
      (!(s.op == 0 || s.op == 4 || (s.op == 1 && !s.scale)) || s.dstFmt == s.srcFmt) &&
      pitchOk s.srcPitch s.srcFmt s.rowLen && pitchOk s.dstPitch s.dstFmt s.rowLen, stMalformed),
    (decide (sortIssue s ≤ tileBudget d p * 1600), stBudget)]

/-- A marker follows R118, R119 and R125; `ends` tells that a marker or an unread entry follows. -/
def markerOk (a : AdmitSt) (e : Nat) (ends : Bool) : Bool :=
  let m := markerParse e
  allZero e markerReserved &&
    (match a.open_ with
      | none =>
        m.kind == 1 && m.mode != 3 && !a.begins.contains m.block && ends &&
          !(a.blocks.any fun b => b.1 == m.blockSlot && b.2 != m.block) && !a.records.contains m.blockSlot
      | some b =>
        m.kind == 2 && m.block == b.block && m.blockSlot == b.blockSlot && m.mode == 0 && !m.rebuild && !m.halt &&
          m.palKeep == 0)

/-- The first of two entry numbers. -/
def holeAt (a : Option Nat) (i : Nat) (missing : Bool) : Option Nat := if a.isSome ∨ !missing then a else some i

/-- Entry `i` of the program is checked and added (R55). -/
def admitEntry (nv : NonVol) (d : Device) (c : Nat) (hdr : ProgHeader) (a : AdmitSt) (i e : Nat) (ends : Bool) :
    Except AdmitErr AdmitSt := do
  let p := (ctxGet d c).part.val
  match entryType e with
  | 0 => if a.open_.isSome then .error (.refuse stMalformed i) else .ok { a with entries := a.entries ++ [.finish] }
  | 1 =>
    let x := streamParse e
    let slot ← if has x 7 then admRead d c (hdr.recordBase + 256 * x.recordSlot) 256 else .ok none
    let kern ← if x.glaze ≠ 0 ∧ has x 6 then admRead d c ((ctxGet d c).ktab + 32 * x.glaze) 32 else .ok none
    let src ← if exSource x then admRead d c x.xAddr 64 else .ok none
    let dst ← if exSink x then admRead d c x.yAddr 64 else .ok none
    let st := streamStatus nv d p a hdr e slot kern src dst
    if st ≠ 0 then .error (.refuse st i)
    else
      let missing := (has x 7 && slot.isNone) || (has x 6 && kern.isNone) || (exSource x && src.isNone) ||
        (exSink x && dst.isNone)
      let g := if has x 10 then a.gov else none
      let en := Entry.stream x ((slot.map slotParse).getD ⟨0, 0, 0, 0, 0, 0⟩) (kern.map kernelParse) (src.map remoteParse)
        (dst.map remoteParse) g
      .ok { a with
        entries := a.entries ++ [en], streams := x.stream :: a.streams
        records := if has x 7 then x.recordSlot :: a.records else a.records, hole := holeAt a.hole i missing }
  | 2 =>
    let m := markerParse e
    if !markerOk a e ends then .error (.refuse stMalformed i)
    else
      let slot ← admRead d c (hdr.recordBase + 256 * m.blockSlot) 256
      let first := m.kind = 1
      if !((slot.map fun v => allZero v blockReserved).getD true) then .error (.refuse stMalformed i)
      else .ok { a with
        entries := a.entries ++ [.marker m], open_ := if first then some m else none
        blocks := if first then (m.blockSlot, m.block) :: a.blocks else a.blocks
        begins := if first then m.block :: a.begins else a.begins, hole := holeAt a.hole i slot.isNone }
  | 3 =>
    let s := sortParse e
    let st := sortStatus nv d p a e
    if st ≠ 0 then .error (.refuse st i)
    else .ok { a with entries := a.entries ++ [.sort s], streams := s.stream :: a.streams, gov := some s }
  | _ => .error (.refuse stMalformed i)

/-- A marker, or an entry that cannot be read, stands at or after here and before the program ends (R119, R478). A BEGIN with
no marker after it is left without its END; one with a BEGIN after it breaks the order at the second (log entry 110). -/
def endFollows (es : List (Except AdmitErr (Option Nat))) : Bool :=
  match es with
  | [] => false
  | .ok (some e) :: t => if entryType e = 0 then false else entryType e == 2 || endFollows t
  | _ :: _ => true

/-- The entries are checked in order; a program ends at its type 0 entry (R29, R55), and an entry on an unmapped page
refuses it when the checks reach it (R478). -/
def admitEntries (nv : NonVol) (d : Device) (c : Nat) (hdr : ProgHeader) (a : AdmitSt) (i : Nat)
    (es : List (Except AdmitErr (Option Nat))) : Except AdmitErr AdmitSt :=
  match es with
  | [] => .ok a
  | .error x :: _ => .error x
  | .ok none :: _ => .error (.refuse stPage i)
  | .ok (some e) :: t =>
    match admitEntry nv d c hdr a i e (endFollows t) with
    | .error x => .error x
    | .ok b => if entryType e = 0 then .ok b else admitEntries nv d c hdr b (i + 1) t

/-- The `n` entries from `va` on. -/
def readEntries (d : Device) (c va n : Nat) : List (Except AdmitErr (Option Nat)) :=
  (List.range n).map fun i => admRead d c (va + 64 * i) 64

/-- The program header (R28, R478). -/
def headerParse (v : Nat) : ProgHeader := ⟨fld v 0 16, fld v 64 52, fld v 128 32, fld v 192 52, fld v 256 52⟩

/-- The header passes R478. -/
def headerOk (v : Nat) : Bool :=
  let h := headerParse v
  allZero v [(16, 48), (116, 12), (160, 32), (244, 12), (308, 204)] && decide (1 ≤ h.entries ∧ h.entries ≤ 4096) &&
    decide (h.spillBase % 64 = 0 ∧ h.statsBase % 64 = 0 ∧ h.recordBase % 64 = 0)

/-- The program at virtual address `va` passes admission, or how it does not (R55, R478). -/
def admitProgram (nv : NonVol) (d : Device) (c va : Nat) : Except AdmitErr (ProgHeader × List Entry) :=
  match admRead d c va 64 with
  | .error e => .error e
  | .ok none => .error (.refuse stPage 0xFFFF)
  | .ok (some v) =>
    if !headerOk v then .error (.refuse stMalformed 0xFFFF)
    else
      let h := headerParse v
      match admitEntries nv d c h ⟨[], [], [], [], [], none, none, none⟩ 0 (readEntries d c (va + 64) h.entries) with
      | .error e => .error e
      | .ok a =>
        match a.hole with
        | some i => .error (.refuse stPage i)
        | none => .ok (h, a.entries)

/-! ### SUBMIT (R55, R364, R372) -/

/-- Earlier SUBMITs of the ring have completed, and no application holds the partition's intake back (R345, R372). -/
def submitTurn (d : Device) (c t : Nat) : Bool :=
  !applying d (ctxGet d c).part.val && (ctxGet d c).prog.isNone && !(d.rings.taken.any fun y =>
    decide ((y.ring.map (·.val)) = some c ∧ y.tag < t) && eOpcode y.entry == 0x40)

/-- Counter `i` of context `c` has passed `v` (R199). -/
def ctrPassed (d : Device) (c i : Nat) (v : Word) : Bool := decide ((smGet (ctxGet d c).ctrs 0 i - v).toNat < 2 ^ 31)

/-- The gate of a submission entry is open (R364). -/
def gateOpen (d : Device) (c e : Nat) : Bool := !eWaitEn e || ctrPassed d c (eWaitCtr e) (w32 (eWaitValue e))

/-- Admission of the program of a SUBMIT (R55): a refused program has no side effect. -/
def submitGo (nv : NonVol) (t : Nat) (c : Nat) (va : Nat) (d : Device) : Device :=
  match admitProgram nv d c va with
  | .error (.refuse st i) => complete nv t st i 0 d
  | .error (.fault f) => faultCtx nv c { f with tag := some t } d
  | .ok (h, es) =>
    ctxMod c (fun x => { x with
      prog := some ⟨t, h, es, 0, 0, none, [], [], none, false, false, 0⟩ })
      (markBegun t (logPoint nv 3 2 0 0x3001 (pack [(0, 8, c), (16, 16, ((takenGet d t).map cmdId).getD 0)]) h.entries d))

/-- A SUBMIT whose turn has come and whose gate is open. -/
def submit (t : Nat) (x : Taken) (nv : NonVol) (d : Device) : Device :=
  match x.ring with
  | none => d
  | some c => if submitTurn d c.val t ∧ gateOpen d c.val x.entry then submitGo nv t c.val (eArg x.entry 0 % 2 ^ 52) d else d

/-- SUBMIT (R55, R372). -/
def execSubmit (t : Nat) (s : State) : Host.Outcome State Fault Refusal := .next (onDev (withTaken 0x40 t (submit t)) s)

/-- SUBMIT_GATE_OPEN (R364): a SUBMIT that waits at its gate. -/
def submitGated (t : Nat) (x : Taken) (nv : NonVol) (d : Device) : Device := if eWaitEn x.entry then submit t x nv d else d

/-- SUBMIT_GATE_OPEN (R364). -/
def execSubmitGateOpen (t : Nat) (s : State) : Host.Outcome State Fault Refusal :=
  .next (onDev (withTaken 0x40 t (submitGated t)) s)

end Sys2Proof.Machine
end

