-- ==== Sys2Proof/Machine/Digest.lean ====
section
/-! DEFINITION. Stream digests: the polynomials of R134 and the linear contributions of R135, as arithmetic of polynomials over
two elements held in numbers (bit i is the coefficient of x^i). -/

namespace Sys2Proof.Machine

/-- Width of a digest polynomial (R134). -/
def polyWidth (p : Nat) : Nat :=
  match p with
  | 0 => 64
  | 1 => 32
  | 2 => 32
  | _ => 16

/-- A digest polynomial without its leading term (R134). -/
def polyOf (p : Nat) : Nat :=
  match p with
  | 0 => 0x42F0E1EBA9EA3693
  | 1 => 0x1EDC6F41
  | 2 => 0x04C11DB7
  | _ => 0x1021

/-- The polynomial is used reflected (R134). -/
def polyReflected (p : Nat) : Bool := p == 1 || p == 2

/-- Initial value and final XOR (R134). -/
def polyInit (p : Nat) : Nat := if p = 0 then 0 else 2 ^ polyWidth p - 1
def polyFinal (p : Nat) : Nat := if polyReflected p then 0xFFFFFFFF else 0

/-- `r` times x, reduced. -/
def gfStep (p r : Nat) : Nat :=
  let w := polyWidth p
  if bit r (w - 1) then (2 * r % 2 ^ w) ^^^ polyOf p else 2 * r % 2 ^ w

/-- `r` times x^`n`, reduced. -/
def gfShift (p n r : Nat) : Nat :=
  match n with
  | 0 => r
  | m + 1 => gfShift p m (gfStep p r)

/-- The product of two residues; `n` bits of `b` are left. -/
def gfMulGo (p n a b acc : Nat) : Nat :=
  match n with
  | 0 => acc
  | m + 1 => gfMulGo p m (gfStep p a) (b / 2) (if b % 2 = 1 then acc ^^^ a else acc)

/-- The product of two residues. -/
def gfMul (p a b : Nat) : Nat := gfMulGo p (polyWidth p) a b 0

/-- The power `b`^`n`, for `n` below 2^`fuel`. -/
def gfPow (p fuel b n acc : Nat) : Nat :=
  match fuel with
  | 0 => acc
  | f + 1 => gfPow p f (gfMul p b b) (n / 2) (if n % 2 = 1 then gfMul p acc b else acc)

/-- x^(8 `n`), reduced. -/
def gfBytes (p n : Nat) : Nat := gfPow p 64 (gfShift p 8 1) n 1

/-- The bits of `n` in `w` places, in the other order. -/
def reflectBits (w n : Nat) : Nat :=
  match w with
  | 0 => 0
  | v + 1 => n % 2 * 2 ^ v + reflectBits v (n / 2)

/-- The residue of a byte string as the message polynomial, without the factor x^width. -/
def gfMessage (p : Nat) (bs : List Nat) : Nat :=
  bs.foldl (fun r b => gfShift p 8 r ^^^ (if polyReflected p then reflectBits 8 b else b % 256)) 0

/-- A residue as a CRC value. -/
def crcOut (p r : Nat) : Nat := if polyReflected p then reflectBits (polyWidth p) r else r

/-- The linear CRC of a message of `total` bytes that holds `bs` at byte `at_` and zeros elsewhere (R135). -/
def crcPart (p total at_ : Nat) (bs : List Nat) : Nat :=
  crcOut p (gfMul p (gfShift p (polyWidth p) (gfMessage p bs)) (gfBytes p (total - at_ - bs.length)))

/-- The CRC of `total` zero bytes under the parameters of R134. -/
def crcZeros (p total : Nat) : Nat := crcOut p (gfMul p (polyInit p) (gfBytes p total)) ^^^ polyFinal p

/-- Bytes of an element's image (R133). -/
def imageLen (f : Nat) : Nat :=
  if f = 0 ∨ f = 10 then 4 else if f = 1 ∨ f = 2 then 2 else if f = 15 then 3 else if fmtBlock f then 2 else 1

/-- The image of an element code with its block's scale bytes (R133). -/
def digestImage (f code : Nat) (scales : List Nat) : List Nat :=
  if fmtBlock f then code :: scales else (List.range (imageLen f)).map fun i => code / 256 ^ i % 256

end Sys2Proof.Machine
end

