-- ==== Sys2Proof/Machine/Wire.lean ====
section
/-! DEFINITION. The bytes of Stava frames: addresses, header and tail, and the frame that a cage sends (R271, R272, R275, R303). -/

namespace Sys2Proof.Machine

/-- The MAC address of cage `g` of node `n`: the bytes 0x0A, FABRIC, 0x00, n[9:8], n[7:0], g, the first byte highest (R272). -/
def macAddr (fabric n g : Nat) : Nat := 0x0A * 2 ^ 40 + fabric % 256 * 2 ^ 32 + n % 1024 * 2 ^ 8 + g

/-- The fields of a packet's tail by bit position and width: one of the two forms of R275, or that of R303. -/
def tailFields (q : StavaPacket) : List (Nat × Nat × Nat) :=
  if q.type = 1 then [(192, 64, q.sack.toNat)]
  else
    [(192, 4, q.op.toNat), (196, 4, q.status.toNat), (200, 8, q.srcCtx.toNat), (208, 16, q.srcGen.toNat)] ++
      if q.op = 5 then (q.tail.zip (List.range 5)).map fun w => (224 + 32 * w.2, 32, w.1.toNat)
      else [(224, 16, q.window.toNat), (240, 16, q.winGen.toNat), (256, 32, q.key.toNat), (288, 12, q.tag.toNat),
        (320, 40, q.offset.toNat), (360, 13, q.length.toNat)]

/-- The fields of the Stava header by bit position and width; reserved bits are 0 (R275). -/
def headerFields (q : StavaPacket) : List (Nat × Nat × Nat) :=
  [(0, 4, q.version.toNat), (4, 2, q.type.toNat), (6, 1, b2n q.openF), (7, 1, b2n q.ordered), (8, 1, b2n q.cmark), (9, 1, b2n q.echo),
    (16, 13, q.payload.length), (32, 10, q.srcNode.toNat), (42, 10, q.dstNode.toNat), (52, 12, q.flow.toNat), (64, 24, q.seq.toNat),
    (96, 24, q.ackSeq.toNat), (128, 64, q.sendTime.toNat)] ++ tailFields q

/-- The 48 bytes of the Stava header (R275). -/
def headerBytes48 (q : StavaPacket) : List Byte := toBytes 48 (pack (headerFields q))

/-- The packet that the bytes of a frame after its EtherType hold (R275); none where they are fewer than the header and PAYLOAD_LEN say.
Reserved bits are not looked at (log entry 125). -/
def packetOf (bs : List Byte) (poison : List Nat) : Option StavaPacket :=
  let v := ofBytes (bs.take 48)
  let n := fld v 16 13
  let ack := fld v 4 2 == 1
  let coll := !ack && fld v 192 4 == 5
  let data (p w : Nat) : Nat := if ack then 0 else fld v p w
  let win (p w : Nat) : Nat := if ack || coll then 0 else fld v p w
  if bs.length < 48 + n ∨ 4096 < n then none
  else some {
    version := BitVec.ofNat 4 (fld v 0 4), type := BitVec.ofNat 2 (fld v 4 2), openF := bit v 6, ordered := bit v 7, cmark := bit v 8
    echo := bit v 9, srcNode := BitVec.ofNat 10 (fld v 32 10), dstNode := BitVec.ofNat 10 (fld v 42 10)
    flow := BitVec.ofNat 12 (fld v 52 12), seq := BitVec.ofNat 24 (fld v 64 24), ackSeq := BitVec.ofNat 24 (fld v 96 24)
    sendTime := BitVec.ofNat 64 (fld v 128 64), op := BitVec.ofNat 4 (data 192 4), status := BitVec.ofNat 4 (data 196 4)
    srcCtx := BitVec.ofNat 8 (data 200 8), srcGen := BitVec.ofNat 16 (data 208 16), window := BitVec.ofNat 16 (win 224 16)
    winGen := BitVec.ofNat 16 (win 240 16), key := BitVec.ofNat 32 (win 256 32), tag := BitVec.ofNat 12 (win 288 12)
    offset := BitVec.ofNat 40 (win 320 40), length := BitVec.ofNat 13 (win 360 13)
    sack := BitVec.ofNat 64 (if ack then fld v 192 64 else 0)
    tail := if coll then (List.range 5).map fun i => w32 (fld v (224 + 32 * i) 32) else []
    payload := (bs.drop 48).take n, poison := poison }

/-- The frame that packet `q` leaves cage `g` in (R271 to R273). -/
def wireFrame (d : Device) (g : Nat) (q : StavaPacket) : SentFrame :=
  let n := q.dstNode.toNat
  { dstMac := macAddr d.link.fabric n (fld (smGet d.link.routes 0 n) (8 + 3 * g) 3), srcMac := macAddr d.link.fabric d.link.node g
    tag := if d.link.vlan then some (pack [(0, 12, d.link.vid), (13, 3, d.link.pcp)]) else none
    etherType := d.link.etherType, pkt := q }

/-- `n` bytes of a number, the highest first. -/
def bytesHigh (n v : Nat) : List Byte := (toBytes n v).reverse

/-- The bytes of a frame up to its FCS (R271). -/
def frameBytes (f : SentFrame) : List Byte :=
  bytesHigh 6 f.dstMac ++ bytesHigh 6 f.srcMac ++ ((f.tag.map fun t => bytesHigh 2 0x8100 ++ bytesHigh 2 t).getD []) ++
    bytesHigh 2 f.etherType ++ headerBytes48 f.pkt ++ f.pkt.payload

/-- The bytes of line that a frame takes: with its FCS, its preamble and the gap after it (R274). -/
def lineBytes (f : SentFrame) : Nat := 86 + (if f.tag.isSome then 4 else 0) + f.pkt.payload.length

end Sys2Proof.Machine
end

