-- ==== Sys2Proof/Machine/LinkSend.lean ====
section
/-! DEFINITION. The sending side of the Stava links: eligible cages, flows, packets, acknowledgements sent, and the failure
of a transaction (R272 to R281, R397). -/

namespace Sys2Proof.Machine

/-- Adds one to LINK_CNT `k` (R296). -/
def linkCnt (k : Nat) (d : Device) : Device :=
  { d with link := { d.link with cnt := smMod d.link.cnt 0 k (satInc 32) } }

/-- Adds one to LINK_CAGE_CNT `k` of cage `g` (R296). -/
def cageCnt (g k : Nat) (d : Device) : Device := cageMod g (fun x => { x with cnt := smMod x.cnt 0 k (satInc 32) }) d

/-- The cage carries traffic (R293). -/
def cageUp (d : Device) (g : Nat) : Bool := (cageGet d g).st = .up || (cageGet d g).st = .upHalf

/-- The cages that packets to node `n` may use whoever sends them: route, state, suspension, and time (R273, R397). -/
def openCages (d : Device) (n : Nat) : List Nat :=
  (List.range 8).filter fun g =>
    bit (smGet d.link.routes 0 n) g && cageUp d g && !(d.link.suspended.any fun s => decide (s.1 = n ∧ s.2.1 = g)) &&
      d.time.everLocked

/-- The eligible cages for a packet of context `c` to node `n` (R273). -/
def eligible (d : Device) (c n : Nat) : List Nat :=
  (openCages d n).filter fun g => bit (((partGet d (ctxGet d c).part.val).map (·.cages)).getD 0) g

/-- A place in the transmit queue of cage `g` is free (R273). Its size is free (log entry 125). -/
def txRoom (d : Device) (g : Nat) : Bool :=
  (cageGet d g).txq.isEmpty || decide ((cageGet d g).txq.length ≤ Config.txQueueSlots)

/-- The next of `l` after cage `g`, in ascending order in turn (R273). -/
def sprayNext (l : List Nat) (g : Nat) : Option Nat :=
  match l.filter (g < ·) with
  | a :: _ => some a
  | [] => l.head?

/-- A pair on probation carries one packet in eight (R278): the cages that may carry the next packet to node
`n`; all of them where every one is on probation. -/
def onTurn (d : Device) (n : Nat) (l : List Nat) : List Nat :=
  let free := l.filter fun g => !(d.link.probation.any fun s => decide (s.1 = n ∧ s.2.1 = g ∧ s.2.2 < 7))
  if free.isEmpty then l else free

/-- A packet to node `n` has left: each pair on probation that it passed by counts it, and the one it took starts again. -/
def probationStep (n g : Nat) (l : Link) : Link :=
  { l with probation := l.probation.map (fun s => if s.1 = n then (s.1, s.2.1, if s.2.1 = g then 0 else s.2.2 + 1) else s) }

/-- Remote tags in use: packets not acknowledged, and reads whose data has not landed (R277, R289). -/
def usedTags (d : Device) : List Nat := (d.link.tx.flatMap fun x => x.sent.map (·.tag)) ++ d.link.reads.map (·.tag)

/-- The lowest free remote tag, one that no packet of late has had where there is one (R277; log entry 125). -/
def freeTag (d : Device) : Option Nat :=
  let late := d.link.past.map (·.tag)
  (((List.range 4096).find? fun t => !(usedTags d).contains t && !late.contains t)).or
    ((List.range 4096).find? fun t => !(usedTags d).contains t)

/-- The packet joins the transmit queue of cage `g` in its frame (R271, R273). -/
def frameOut (g : Nat) (q : StavaPacket) (d : Device) : Device :=
  cageMod g (fun x => { x with txq := x.txq ++ [wireFrame d g q] }) d

/-- The frames that leave in `n` bytes of line time, those that stay, and the line time that the first of these has had. -/
def lineSplit (fs : List SentFrame) (n : Nat) : List SentFrame × List SentFrame × Nat :=
  match fs with
  | [] => ([], [], 0)
  | f :: t =>
    if lineBytes f ≤ n then
      let r := lineSplit t (n - lineBytes f)
      (f :: r.1, r.2)
    else ([], f :: t, n)

/-- A nanosecond of cage `g`: 1.6 Tb/s, or 0.8 Tb/s at half width (R269, R270, R274). A frame that leaves carries the time (R275), enters the
record of outputs and is counted (R296). -/
def lineTick (g : Nat) (d : Device) : Device :=
  let x := cageGet d g
  if !cageUp d g || x.txq.isEmpty then d
  else
    let r := lineSplit x.txq (x.line + if x.st = .up then 200 else 100)
    let fs := r.1.map fun f => (g, { f with pkt := { f.pkt with sendTime := BitVec.ofNat 64 d.time.now } })
    let d := { d with link := { d.link with out := fs.reverse ++ d.link.out } }
    cageMod g (fun x => { x with txq := r.2.1, line := r.2.2, cnt := smMod x.cnt 0 2 fun n => min (2 ^ 32 - 1) (n + fs.length) }) d

/-- The first packet of the flow's queue goes to cage `g` with remote tag `t`, which it holds (R275 to R277, R289). -/
def txSend (nv : NonVol) (x : TxFlow) (p : TxPacket) (rest : List TxPacket) (g t : Nat) (d : Device) : Device :=
  let seq := if x.opened then x.nextSeq else (Config.freeWord d.fresh).toNat % 2 ^ 24
  let q := { p.pkt with
    openF := !x.opened, seq := BitVec.ofNat 24 seq, sendTime := BitVec.ofNat 64 d.time.now
    tag := if p.pkt.op = 1 ∨ p.pkt.op = 0 then BitVec.ofNat 12 t else p.pkt.tag }
  let p' := { p with seq := seq, pkt := q, cage := g, firstAt := nv.up, lastAt := nv.up, sends := 1, tag := t }
  let d := if x.opened then d else drawFresh 1 d
  let d := txPut { x with
    opened := true, nextSeq := (seq + 1) % 2 ^ 24, sent := x.sent ++ [p'], queue := rest, lastAt := nv.up
    noCageFrom := none, lastCage := g } d
  let c := q.srcCtx.toNat
  let d := ctxMod c (fun y => { y with lastTx := nv.up }) (acctMod c (fun a => { a with linkTx := a.linkTx + q.payload.length }) d)
  let d := { d with link := { probationStep x.node g d.link with
    reads := d.link.reads.map (fun r =>
      if r.flow = x.flow ∧ r.node = x.node ∧ r.tag = 4096 + p.seq then { r with tag := t, seq := seq } else r)
    past := d.link.past.filter (·.tag ≠ t) } }
  frameOut g q d

/-- A flow notes since when it has had no eligible cage (R281). -/
def cageWatch (nv : NonVol) (d : Device) (x : TxFlow) : TxFlow :=
  { x with noCageFrom := if (eligible d (x.flow / 16) x.node).isEmpty then some (x.noCageFrom.getD nv.up) else none }

/-- Every flow does. -/
def cageWatchAll (nv : NonVol) (d : Device) : Device :=
  { d with link := { d.link with tx := d.link.tx.map (cageWatch nv d) } }

/-- Sends what the flow may send now (R276 to R280). -/
def txPump (nv : NonVol) (n f : Nat) (fuel : Nat) (d : Device) : Device :=
  match fuel with
  | 0 => d
  | m + 1 =>
    let x := txGet d n f
    match x.queue with
    | [] => d
    | p :: rest =>
      let all := eligible d (f / 16) n
      let can := (decide (x.sent.length < x.win)) && (!p.pkt.ordered || x.sent.isEmpty) &&
        (x.opened || decide ((d.link.tx.filter (·.opened)).length < 4096))
      match can, sprayNext (onTurn d n (all.filter (txRoom d))) x.lastCage, freeTag d with
      | true, some g, some t => txPump nv n f m (txSend nv x p rest g t d)
      | _, _, _ => txPut (cageWatch nv d x) d

/-- Queues a packet on its flow and sends what may be sent. -/
def txPost (nv : NonVol) (n f : Nat) (p : TxPacket) (d : Device) : Device :=
  let x := txGet d n f
  let d := txPut { x with queue := x.queue ++ [p] } d
  txPump nv n f (x.queue.length + 1) d

/-- Every transmit flow sends what it may. -/
def txPumpAll (nv : NonVol) (d : Device) : Device :=
  d.link.tx.foldl (fun d x => txPump nv x.node x.flow (x.queue.length + 1) d) d

/-- The unit at place `u` of cluster `k` has a packet or a remote read that is not acknowledged (R292). -/
def unitOwes (d : Device) (k u : Nat) : Bool :=
  (d.link.tx.any fun x => (x.sent ++ x.queue).any fun p => p.unit = some (k, u)) ||
    d.link.reads.any fun r => r.unit = some (k, u)

/-- Collective `t` of context `c` has a packet that is not acknowledged. -/
def collOwes (d : Device) (c t : Nat) : Bool :=
  d.link.tx.any fun x => (x.sent ++ x.queue).any fun p => p.coll = some (c, t)

/-- The arrival word of entry `idx` is not acknowledged (R292). -/
def arriveOwes (d : Device) (c idx : Nat) : Bool :=
  d.link.tx.any fun x => (x.sent ++ x.queue).any fun p => p.arr = some (c, idx)

/-- The place of a status in the order of precedence of R312, the lowest first. -/
def collRank (st : Nat) : Nat :=
  if st = stTorn then 0 else if st = stLinkLost then 1 else if st = stStale then 2 else if st = stWindow then 3
  else if st = stNonfinite then 4 else if st = 0 then 6 else 5

/-- Collective `t` of context `c` meets status `st`: the first in the order of R312 stands. -/
def collFail (c t st : Nat) (d : Device) : Device :=
  { d with coll := { d.coll with runs := d.coll.runs.map (fun r =>
      if r.ctx.val = c ∧ r.tag = t ∧ collRank st < collRank r.bad then { r with bad := st } else r) } }

/-- Packet `a` (node, flow, sequence number) stands before packet `b` in the order of one flow (R287). -/
def seqBefore (a b : Option (Nat × Nat × Nat)) : Bool :=
  match a, b with
  | some x, some y => decide (x.1 = y.1 ∧ x.2.1 = y.2.1 ∧ x.2.2 ≠ y.2.2 ∧ (y.2.2 + 2 ^ 24 - x.2.2) % 2 ^ 24 < 2 ^ 23)
  | _, _ => false

/-- The entry of a stream whose transaction ended with `st`, at packet `a` where one was refused: the status of the first refused packet in
sequence order stands, else the first (R281, R287). -/
def remoteFail (c idx st : Nat) (a : Option (Nat × Nat × Nat)) (d : Device) : Device :=
  runMod c idx (fun r => if r.remoteStatus = 0 ∨ seqBefore a r.refusedAt then { r with remoteStatus := st, refusedAt := a } else r) d

/-- What a packet belonged to meets `st`. -/
def ownerFail (p : TxPacket) (st : Nat) (a : Option (Nat × Nat × Nat)) (d : Device) : Device :=
  let d := match p.unit with
    | some (k, u) =>
      match unitGet d k u with
      | some r => remoteFail r.ctx.val r.idx st a d
      | none => d
    | none => d
  let d := match p.coll with
    | some (c, t) => collFail c t st d
    | none => d
  match p.arr with
  | some (c, idx) => remoteFail c idx st a d
  | none => d

/-- A packet as the place at which its transaction is refused. -/
def packetPlace (p : TxPacket) : Option (Nat × Nat × Nat) := some (p.pkt.dstNode.toNat, p.pkt.flow.toNat, p.seq)

/-- An acknowledged packet of a unit belongs to the unit's entry from now on: the unit may commit. -/
def settled (d : Device) (p : TxPacket) : TxPacket :=
  match p.unit with
  | some (k, u) => { p with unit := none, arr := (unitGet d k u).map fun r => (r.ctx.val, r.idx) }
  | none => p

/-- The owner of a remote read meets `st`, and the read is over. -/
def readFail (r : RemoteRead) (st : Nat) (a : Option (Nat × Nat × Nat)) (d : Device) : Device :=
  let d := match r.unit with
    | some (k, u) =>
      match unitGet d k u with
      | some x => remoteFail x.ctx.val x.idx st a d
      | none => d
    | none => d
  { d with link := { d.link with reads := d.link.reads.filter (· ≠ r) } }

/-- The provisional tag of a read whose READ_REQ has not left; the packet carries it less 4,096 in `seq`. -/
def nextRead (d : Device) : Nat := d.link.reads.foldl (fun m r => max m (r.tag + 1)) 4096

/-- A WRITE of `bs` at `off` of a window on node `n`, from context `c` on flow `sel` (R288). -/
def writePacket (nv : NonVol) (d : Device) (c n sel window winGen key off : Nat) (bs : List Byte) : StavaPacket :=
  { dataPacket nv d c n sel 0 with
    window := BitVec.ofNat 16 window, winGen := BitVec.ofNat 16 winGen, key := BitVec.ofNat 32 key
    offset := BitVec.ofNat 40 off, payload := bs }

/-! ### Acknowledgements sent (R277) -/

/-- The receive flow from node `n` with number `f`. -/
def rxGet (d : Device) (n f : Nat) : Option RxFlow := d.link.rx.find? fun x => decide (x.node = n ∧ x.flow = f)

/-- Puts a receive flow. -/
def rxPut (x : RxFlow) (d : Device) : Device :=
  let held := d.link.rx.any fun y => decide (y.node = x.node ∧ y.flow = x.flow)
  let l := if held then d.link.rx.map (fun y => if y.node = x.node ∧ y.flow = x.flow then x else y) else d.link.rx ++ [x]
  { d with link := { d.link with rx := l } }

/-- The ACK packet of a receive flow (R275, R277, R280). -/
def ackPacket (d : Device) (x : RxFlow) : StavaPacket :=
  { version := 1, type := 1, openF := false, ordered := false, cmark := false, echo := x.mark,
    srcNode := BitVec.ofNat 10 d.link.node, dstNode := BitVec.ofNat 10 x.node, flow := BitVec.ofNat 12 x.flow, seq := 0,
    ackSeq := BitVec.ofNat 24 x.ackSeq, sendTime := BitVec.ofNat 64 d.time.now, op := 0, status := 0, srcCtx := 0,
    srcGen := 0, window := 0, winGen := 0, key := 0, tag := 0, offset := 0, length := 0,
    sack := BitVec.ofNat 64 (ofBits ((List.range 64).filter fun i => x.landed.contains ((x.ackSeq + 1 + i) % 2 ^ 24))),
    tail := [], payload := [], poison := [] }

/-- Sends the ACK of the receive flow from node `n` with number `f`; it waits where no open cage has room (R273, R277). -/
def ackSend (n f : Nat) (d : Device) : Device :=
  match rxGet d n f with
  | none => d
  | some x =>
    match sprayNext (onTurn d n ((openCages d n).filter (txRoom d))) x.lastCage with
    | none => d
    | some g => frameOut g (ackPacket d x) (rxPut { x with unacked := 0, mark := false, lastCage := g } d)

end Sys2Proof.Machine
end

