-- ==== Sys2Proof/Machine/Links.lean ====
section
/-! DEFINITION. The Stava links: frames received, windows, transactions, acknowledgements, retransmission, flow failure, and
the cages (R269 to R297). -/

namespace Sys2Proof.Machine

/-! ### Receiving (R271, R276, R277, R279, R280) -/

/-- A packet joins the receive queue of cage `g`, marked where more than 64 wait there; it is dropped where 256 do (R280). -/
def rxPush (g : Nat) (q : StavaPacket) (d : Device) : Device :=
  let n := (cageGet d g).rxq.length
  if 256 ≤ n then cageCnt g 8 d
  else
    let d := cageMod g (fun x => { x with rxq := x.rxq ++ [{ q with cmark := q.cmark || decide (64 < n) }] }) d
    if 64 < n then cageCnt g 9 d else d

/-- FRAME_RECEIVE (R270, R271): the counts of a received frame; the packet in it joins the receive queue (R280). -/
def frameReceive (g : CageNo) (f : EtherFrame) (d : Device) : Device :=
  if cageUp d g.val then
    let d := cageCnt g.val 3 d
    if !f.fcsOk then cageCnt g.val 5 d
    else if f.pause then cageCnt g.val 7 d
    else if f.etherType.toNat ≠ d.link.etherType ∨ f.dstMac.toNat ≠ macAddr d.link.fabric d.link.node g.val then cageCnt g.val 6 d
    else
      match packetOf f.body f.poison with
      | some q => rxPush g.val q d
      | none => d
  else d

/-- FRAME_RECEIVE (R271). -/
def execFrameReceive (g : CageNo) (f : EtherFrame) (s : State) : Host.Outcome State Fault Refusal :=
  .next (onDev (fun _ d => frameReceive g f d) s)

/-- Packet `q` at cage `g` (R280): one that stands first in the receive queue is taken from it and does `act`; one that arrives at an empty
queue does so at once, and any other joins the queue. -/
def cageTake (g : Nat) (q : StavaPacket) (act : Device → Device) (d : Device) : Device :=
  match (cageGet d g).rxq with
  | h :: t =>
    if h = q then act (cageMod g (fun x => { x with rxq := t }) d)
    else if cageUp d g then rxPush g q (cageCnt g 3 d)
    else d
  | [] => if cageUp d g then act (cageCnt g 3 d) else d

/-- The packet is not older than 100 µs (R279). -/
def inTime (d : Device) (q : StavaPacket) : Bool := d.time.now ≤ q.sendTime.toNat + 100000

/-- The ACK number moves up over the sequence numbers that have landed (R277). -/
def advance (fuel : Nat) (x : RxFlow) : RxFlow :=
  match fuel with
  | 0 => x
  | n + 1 =>
    if x.landed.contains x.ackSeq then
      advance n { x with landed := without x.landed x.ackSeq, ackSeq := (x.ackSeq + 1) % 2 ^ 24 }
    else x

/-- The packet has landed on its flow: the acknowledgement is due at the eighth (R277, R280). -/
def landed (nv : NonVol) (q : StavaPacket) (d : Device) : Device :=
  match rxGet d q.srcNode.toNat q.flow.toNat with
  | none => d
  | some x =>
    let late := d.link.delayMark ≠ 0 ∧ q.sendTime.toNat + d.link.delayMark * 100 < d.time.now
    let x := advance 257 { x with
      landed := x.landed ++ [q.seq.toNat], unacked := x.unacked + 1, oldest := if x.unacked = 0 then nv.up else x.oldest
      mark := x.mark || q.cmark || decide late, lastAt := nv.up }
    let d := rxPut x d
    if 8 ≤ x.unacked then ackSend x.node x.flow d else d

/-- A DATA packet on its flow: what it does where it is accepted is `land` (R276, R277, R279). -/
def flowData (nv : NonVol) (q : StavaPacket) (land : Device → Device) (d : Device) : Device :=
  let n := q.srcNode.toNat
  let f := q.flow.toNat
  if q.dstNode.toNat ≠ d.link.node then d
  else if !inTime d q then linkCnt 3 d
  else
    match rxGet d n f with
    | none =>
      if !q.openF then d
      else if 4096 ≤ d.link.rx.length then linkCnt 4 d
      else landed nv q (land (rxPut ⟨n, f, q.seq.toNat, [], 0, nv.up, false, nv.up, 7⟩ d))
    | some x =>
      let ahead := (q.seq.toNat + 2 ^ 24 - x.ackSeq) % 2 ^ 24
      let d := rxPut { x with lastAt := nv.up } d
      if x.landed.contains q.seq.toNat ∨ 2 ^ 23 ≤ ahead then ackSend n f (linkCnt 5 d)
      else if ahead < 256 then landed nv q (land d)
      else d

/-- A DATA packet at cage `g` (R276, R277, R279, R280). -/
def receiveData (nv : NonVol) (g : CageNo) (q : StavaPacket) (land : Device → Device) (d : Device) : Device :=
  cageTake g.val q (flowData nv q land) d

/-! ### Windows (R283 to R286) -/

/-- The size of a window in bytes (R283, R286). -/
def winSize (v : Nat) : Nat := if bit v 3 then fld v 74 10 * (fld v 93 10 * 1024) else fld v 128 41

/-- The Palette place that byte `o` of a Palette window reaches: cluster and Palette byte (R286). -/
def winPlace (d : Device) (v o : Nat) : Option (Nat × Nat) :=
  let size := fld v 93 10 * 1024
  (partCluster d (ctxGet d (fld v 8 8)).part.val (fld v 64 10 + o / size)).map fun k => (k, fld v 84 9 * 1024 + o % size)

/-- Context `c` holds Palette granule `g` of cluster `k` (R184). -/
def holdsGranule (d : Device) (c k g : Nat) : Bool := (palKeep d c ++ rangeGranules d c k).contains g

/-- Check 6 for a Palette window: the context is resident and not departing, and holds every granule (R286, R383). -/
def winPalOk (d : Device) (v off len : Nat) : Bool :=
  let c := fld v 8 8
  (ctxGet d c).st = .resident && (ctxGet d c).departing.isNone &&
    (List.range len).all fun i =>
      match winPlace d v (off + i) with
      | some (k, a) => decide (a < 2 ^ 19) && holdsGranule d c k (a / 16384)
      | none => false

/-- The checks of R285 for an access of `len` bytes: none = accepted, else the status, 1 WINDOW_DENIED or
2 STALE_GENERATION. -/
def winCheck (d : Device) (q : StavaPacket) (wr : Bool) (len : Nat) : Option Nat :=
  let v := winDesc d q.window.toNat
  let off := q.offset.toNat
  let c := fld v 8 8
  let mapped := if bit v 3 then winPalOk d v off len
    else match vSpan d.mem (ctxGet d c).root wr (fld v 64 52 + off) len with
      | .ok _ => true
      | .error _ => false
  if !d.link.ready then some 1
  else if q.winGen.toNat ≠ fld v 16 16 then some 2
  else if !bit v 0 || decide (q.key.toNat ≠ fld v 32 32) then some 1
  else if (!bit v 202 && decide (q.srcNode.toNat ≠ fld v 192 10)) || (!bit v 211 && decide (q.srcCtx.toNat ≠ fld v 203 8)) then
    some 1
  else if !bit v 212 && decide (q.srcGen.toNat ≠ fld v 224 16) then some 2
  else if !bit v (if wr then 2 else 1) || decide (winSize v < off + len) then some 1
  else if mapped then none
  else some 1

/-- A refusal: the count, and a RESPONSE on the window owner's flow back to the sender (R285, R289). -/
def refusePacket (nv : NonVol) (q : StavaPacket) (st : Nat) (d : Device) : Device :=
  let c := fld (winDesc d q.window.toNat) 8 8
  let sel := q.flow.toNat % 16
  let r := { dataPacket nv d c q.srcNode.toNat sel 3 with status := BitVec.ofNat 4 st, tag := q.tag }
  txPost nv q.srcNode.toNat (c * 16 + sel) (TxPacket.plain r) (linkCnt st d)

/-- Bytes that reach the window's memory or Palette (R286, R290). -/
def winLand (nv : NonVol) (v off : Nat) (bs : List Byte) (d : Device) : Device :=
  let c := fld v 8 8
  if bit v 3 then
    (bs.zip (List.range bs.length)).foldl (fun d e =>
      match winPlace d v (off + e.2) with
      | some (k, a) => cluMod k (fun x => { x with
          palette := smPut x.palette none a (some e.1)
          written := if x.written.contains (c, a / 16384) then x.written else (c, a / 16384) :: x.written }) d
      | none => d) d
  else
    match vSpan d.mem (ctxGet d c).root true (fld v 64 52 + off) bs.length with
    | .ok ps => ctxStore nv c ps bs d
    | .error _ => d

/-- A run's own window: the one that the other members write its blocks into (R300). -/
def ownsWindow (r : CollRun) (w : Nat) : Bool := ((r.group.members[r.group.self]?).map (·.window)) == some w

/-- A WRITE that lands in the block of a BROADCAST below its root is data that this member may forward (R325). -/
def blockLanded (w off len : Nat) (r : CollRun) : CollRun :=
  if r.active && decide (r.desc.op = 3 ∧ r.group.self ≠ 0 ∧ r.desc.dst ≤ off ∧ off + len ≤ r.desc.dst + r.desc.count) && ownsWindow r w then
    { r with landed := (off - r.desc.dst, len) :: r.landed }
  else r

/-- WRITE (R285). -/
def writeLand (nv : NonVol) (q : StavaPacket) (d : Device) : Device :=
  match winCheck d q true q.payload.length with
  | some st => refusePacket nv q st d
  | none =>
    let v := winDesc d q.window.toNat
    let d := acctMod (fld v 8 8) (fun a => { a with linkRx := a.linkRx + q.payload.length }) (winLand nv v q.offset.toNat q.payload d)
    { d with coll := { d.coll with runs := d.coll.runs.map (blockLanded q.window.toNat q.offset.toNat q.payload.length) } }

/-- The bytes that a window yields, and the code words, counted from that of the first byte, that are poisoned (R289). -/
def winBytes (d : Device) (v off len : Nat) : List Byte × List Nat :=
  let c := fld v 8 8
  let at_ := fld v 64 52 + off
  let bad (i : Nat) : Bool := match vSpan d.mem (ctxGet d c).root false ((at_ / 64 + i) * 64) 64 with
    | .ok ps => ps.any fun p => dPoisoned d.mem p.1 p.2
    | .error _ => false
  if bit v 3 then
    ((List.range len).map fun i =>
      match winPlace d v (off + i) with
      | some (k, a) => palByte (cluGet d k) a
      | none => 0, [])
  else
    match vSpan d.mem (ctxGet d c).root false at_ len with
    | .ok ps => (spanRead d.mem ps, (List.range (cdiv (at_ % 64 + len) 64)).filter bad)
    | .error _ => ([], [])

/-- What a read through a window moves, charged to the window's context, and the errors that it meets in memory (R238, R239, R401). -/
def winCharge (nv : NonVol) (v off len : Nat) (d : Device) : Device :=
  if bit v 3 then d
  else
    let c := fld v 8 8
    let d := moved c (64 * cdiv ((fld v 64 52 + off) % 64 + len) 64) 0 d
    match vSpan d.mem (ctxGet d c).root false (fld v 64 52 + off) len with
    | .ok ps => meetErrors nv 0 (some c) 3 (ps.flatMap fun p => touchedWords d.mem p.1 p.2) d
    | .error _ => d

/-- READ_REQ (R285, R289): READ_DATA on the owner's flow back to the requester. -/
def readLand (nv : NonVol) (q : StavaPacket) (d : Device) : Device :=
  let len := q.length.toNat
  match winCheck d q false len with
  | some st => refusePacket nv q st d
  | none =>
    let v := winDesc d q.window.toNat
    let c := fld v 8 8
    let r := winBytes d v q.offset.toNat len
    let sel := q.flow.toNat % 16
    let back := { dataPacket nv d c q.srcNode.toNat sel 2 with
      status := if r.2.isEmpty then 0 else 3, tag := q.tag, payload := r.1, poison := r.2 }
    let d := winCharge nv v q.offset.toNat len d
    txPost nv q.srcNode.toNat (c * 16 + sel) (TxPacket.plain back) d

/-- READ_REQ (R289). -/
def execReadReq (g : CageNo) (q : StavaPacket) (s : State) : Host.Outcome State Fault Refusal :=
  .next (onDev (fun nv d => receiveData nv g q (readLand nv q) d) s)

/-- The key under which byte `off` of row `row` of a remote operand lies in a unit's buffer. -/
def remoteKey (row off : Nat) : Nat := 2 ^ 52 + row * 2 ^ 20 + off

/-- Bytes put into a buffer from key `a` on. -/
def bufPut (a : Nat) (bs : List Byte) (m : SMap Byte) : SMap Byte :=
  match bs with
  | [] => m
  | b :: t => bufPut (a + 1) t (smPut m 0 a b)

/-- A part of a remote read reaches the unit's buffer, the poison of its code words with it (R289). `first` is where it starts in the packet,
counted from the start of the code word of its first byte. -/
def partLand (first : Nat) (part : Nat × Nat × Nat) (bs : List Byte) (poison : List Nat) (x : UnitRun) : UnitRun :=
  let a := remoteKey part.1 part.2.1
  let words := (List.range (cdiv (a % 64 + part.2.2) 64)).map (a / 64 + ·)
  let bad := (List.range part.2.2).filterMap fun i => if poison.contains ((first + i) / 64) then some ((a + i) / 64) else none
  { x with buf := bufPut a (bs.take part.2.2) x.buf, have_ := x.have_ ++ words, bad := x.bad ++ bad.eraseDups, idle := 0 }

/-- The parts of a remote read, one after the other. -/
def partsLand (first : Nat) (ps : List (Nat × Nat × Nat)) (bs : List Byte) (poison : List Nat) (x : UnitRun) : UnitRun :=
  match ps with
  | [] => x
  | p :: t => partsLand (first + p.2.2) t (bs.drop p.2.2) poison (partLand first p bs poison x)

/-- READ_DATA (R289): the data reaches the unit that asked for it, and its remote tag is free. -/
def readDataLand (nv : NonVol) (q : StavaPacket) (d : Device) : Device :=
  match d.link.reads.find? fun r => decide (r.tag = q.tag.toNat ∧ r.node = q.srcNode.toNat) with
  | none => d
  | some r =>
    let d := { d with link := { d.link with reads := d.link.reads.filter (· ≠ r) } }
    let d := acctMod r.ctx.val (fun a => { a with linkRx := a.linkRx + q.payload.length }) d
    let first := ((r.parts.head?).map fun p => remoteKey p.1 p.2.1 % 64).getD 0
    let d := match r.unit with
      | some (k, u) => unitMod k u (partsLand first r.parts q.payload q.poison) d
      | none => d
    txPumpAll nv d

/-- READ_DATA (R289). -/
def execReadData (g : CageNo) (q : StavaPacket) (s : State) : Host.Outcome State Fault Refusal :=
  .next (onDev (fun nv d => receiveData nv g q (readDataLand nv q) d) s)

/-- The status that RESPONSE carries (R275). -/
def responseStatus (q : StavaPacket) : Nat := if q.status = 2 then stStale else if q.status = 1 then stWindow else 0

/-- RESPONSE (R287, R288): the transaction of the remote tag meets the refusal, also when the packet has been acknowledged since. -/
def responseLand (q : StavaPacket) (d : Device) : Device :=
  let n := q.srcNode.toNat
  let st := responseStatus q
  if st = 0 then d
  else
    match d.link.reads.find? fun r => decide (r.tag = q.tag.toNat ∧ r.node = n) with
    | some r => readFail r st (some (r.node, r.flow, r.seq)) d
    | none =>
      match ((d.link.tx.flatMap (·.sent)) ++ d.link.past).find? fun p => decide (p.tag = q.tag.toNat ∧ p.pkt.dstNode = q.srcNode ∧ p.pkt.op = 0) with
      | some p => ownerFail p st (packetPlace p) d
      | none => d

/-- RESPONSE (R288). -/
def execResponse (g : CageNo) (q : StavaPacket) (s : State) : Host.Outcome State Fault Refusal :=
  .next (onDev (fun nv d => receiveData nv g q (responseLand q) d) s)

/-- REVOKE_NOTICE (R288): queued, unsent transactions to the revoked window complete with STALE_GENERATION. -/
def noticeLand (q : StavaPacket) (d : Device) : Device :=
  let hit (p : TxPacket) : Bool :=
    (p.pkt.op = 0 || p.pkt.op = 1) && p.pkt.dstNode = q.srcNode && p.pkt.window = q.window && p.pkt.winGen = q.winGen
  let gone := d.link.tx.flatMap fun x => x.queue.filter hit
  let lost := d.link.reads.filter fun r => gone.any fun p => decide (p.pkt.op = 1 ∧ r.tag = 4096 + p.seq ∧ r.node = q.srcNode.toNat)
  let d := { d with link := { d.link with tx := d.link.tx.map (fun x => { x with queue := x.queue.filter fun p => !hit p }) } }
  let place (p : TxPacket) : Option (Nat × Nat × Nat) :=
    some (p.pkt.dstNode.toNat, p.pkt.flow.toNat, (txGet d p.pkt.dstNode.toNat p.pkt.flow.toNat).nextSeq)
  lost.foldl (fun d r => readFail r stStale (some (r.node, r.flow, (txGet d r.node r.flow).nextSeq)) d)
    (gone.foldl (fun d p => ownerFail p stStale (place p) d) (linkCnt 6 d))

/-- REVOKE_NOTICE (R288). -/
def execRevokeNotice (g : CageNo) (q : StavaPacket) (s : State) : Host.Outcome State Fault Refusal :=
  .next (onDev (fun nv d => receiveData nv g q (noticeLand q) d) s)

/-- WINDOW_OPEN (R284): the image's fields, VALID set, the present generation, and the time. -/
def windowOpen (t : Nat) (x : Taken) (nv : NonVol) (d : Device) : Device :=
  let w := eArg x.entry 0
  let v := dNat d.mem (eArg x.entry 1) 64
  let c := fld v 8 8
  let mapped := match vSpan d.mem (ctxGet d c).root (bit v 2) (fld v 64 52) (winSize v) with
    | .ok _ => ctxLive d c
    | .error _ => false
  if !bit v 3 && !mapped then complete nv t stNoResource 0xFFFF 0 d
  else
    let gen := fld (winDesc d w) 16 16
    let desc := pack [(0, 1, 1), (1, 3, fld v 1 3), (8, 8, c), (16, 16, gen), (32, 32, fld v 32 32), (64, 52, fld v 64 52),
      (128, 41, fld v 128 41), (192, 21, fld v 192 21), (224, 16, fld v 224 16), (256, 64, d.time.now)]
    complete nv t stOK 0xFFFF 0 (winPut w desc d)

/-- WINDOW_OPEN (R284). -/
def execWindowOpen (t : Nat) (s : State) : Host.Outcome State Fault Refusal :=
  .next (onDev (withTaken 0x06 t (windowOpen t)) s)

/-- WINDOW_REVOKE (R284). -/
def execWindowRevoke (t : Nat) (s : State) : Host.Outcome State Fault Refusal :=
  .next (onDev (withTaken 0x07 t fun x nv d =>
    txPumpAll nv (complete nv t stOK 0xFFFF 0 (winRevoke nv (eArg x.entry 0) d))) s)

/-! ### Acknowledgement, retransmission, failure (R276 to R281) -/

/-- The packet is covered by an ACK: its number lies below ACK_SEQ, or SACK names it. -/
def covered (q : StavaPacket) (seq : Nat) : Bool :=
  let below := (q.ackSeq.toNat + 2 ^ 24 - 1 - seq) % 2 ^ 24 < 2 ^ 23
  let i := (seq + 2 ^ 24 - q.ackSeq.toNat - 1) % 2 ^ 24
  below || (decide (i < 64) && bit q.sack.toNat i)

/-- The retransmission of a packet to node `n` last sent on cage `g` falls due: the fourth within 100 µs suspends the pair
for 10 ms (R278). -/
def dueAdd (nv : NonVol) (n g : Nat) (d : Device) : Device :=
  let recent := (d.link.dues.filter fun e => decide (e.1 = n ∧ e.2.1 = g ∧ nv.up ≤ e.2.2 + 100000))
  let others := d.link.dues.filter fun e => !decide (e.1 = n ∧ e.2.1 = g)
  if 3 ≤ recent.length then
    { d with link := { d.link with
        dues := others, suspended := (d.link.suspended.filter fun e => !decide (e.1 = n ∧ e.2.1 = g)) ++ [(n, g, nv.up + 10000000)]
        probation := d.link.probation.filter fun e => !decide (e.1 = n ∧ e.2.1 = g) } }
  else { d with link := { d.link with dues := (n, g, nv.up) :: recent ++ others } }

/-- Retransmits packet `p` of flow `(n, f)` on an eligible cage (R278); where none is, or none has room, it waits. -/
def retransmit (nv : NonVol) (n f : Nat) (p : TxPacket) (d : Device) : Device :=
  if 8 ≤ p.sends then d
  else
    let d := cageWatchAll nv (dueAdd nv n p.cage d)
    let x := txGet d n f
    match sprayNext (onTurn d n ((eligible d (f / 16) n).filter (txRoom d))) x.lastCage with
    | none => d
    | some g =>
      let q := { p.pkt with sendTime := BitVec.ofNat 64 d.time.now }
      let p' := { p with pkt := q, cage := g, lastAt := nv.up, sends := p.sends + 1 }
      let d := cageCnt p.cage 4 (txPut { x with
        sent := x.sent.map (fun y => if y.seq = p.seq then p' else y), lastCage := g, lastAt := nv.up, noCageFrom := none } d)
      let d := ctxMod (f / 16) (fun y => { y with lastTx := nv.up }) { d with link := probationStep n g d.link }
      frameOut g q d

/-- W and the count towards its next step once `clean` packets have been acknowledged without ECHO since its last: each W packets raise it by
1, up to 256 (R280). -/
def windowGrow (fuel win clean : Nat) : Nat × Nat :=
  match fuel with
  | 0 => (win, clean)
  | m + 1 => if win ≤ clean then windowGrow m (min 256 (win + 1)) (clean - win) else (win, clean)

/-- The window after an ACK that frees `n` packets (R280). -/
def windowStep (nv : NonVol) (echo : Bool) (n : Nat) (x : TxFlow) : TxFlow :=
  if echo then
    if x.echoAt = 0 ∨ x.echoAt - 1 + 10000 ≤ nv.up then { x with win := max 4 (x.win / 2), echoAt := nv.up + 1 } else x
  else
    let r := windowGrow (x.ackedClean + n) x.win (x.ackedClean + n)
    { x with win := r.1, ackedClean := r.2 }

/-- ACK (R277, R278, R280). -/
def ackLand (nv : NonVol) (q : StavaPacket) (d : Device) : Device :=
  let n := q.srcNode.toNat
  let f := q.flow.toNat
  match d.link.tx.find? fun x => decide (x.node = n ∧ x.flow = f) with
  | none => d
  | some x =>
    let gone := x.sent.filter fun p => covered q p.seq
    let left := x.sent.filter fun p => !covered q p.seq
    let cages := gone.map (·.cage)
    let d := txPut { windowStep nv q.echo gone.length x with sent := left, lastAt := nv.up } d
    let kept := (gone.filter fun p => p.pkt.op = 0).map (settled d)
    let d := { d with link := { d.link with
      probation := d.link.probation.filter fun e => !(decide (e.1 = n) && cages.contains e.2.1)
      past := kept ++ d.link.past } }
    let missed := left.filter fun p =>
      3 ≤ ((List.range 64).filter fun i =>
        bit q.sack.toNat i && decide ((q.ackSeq.toNat + 1 + i + 2 ^ 24 - p.seq) % 2 ^ 24 < 2 ^ 23 ∧
          (q.ackSeq.toNat + 1 + i) % 2 ^ 24 ≠ p.seq)).length
    let d := missed.foldl (fun d p => retransmit nv n f p d) d
    txPumpAll nv d

/-- An ACK packet at cage `g`. -/
def receiveAck (nv : NonVol) (g : CageNo) (q : StavaPacket) (d : Device) : Device :=
  cageTake g.val q (fun d =>
    if q.dstNode.toNat ≠ d.link.node then d else if inTime d q then ackLand nv q d else linkCnt 3 d) d

/-- ACK (R277). -/
def execAck (g : CageNo) (q : StavaPacket) (s : State) : Host.Outcome State Fault Refusal :=
  .next (onDev (fun nv d => receiveAck nv g q d) s)

/-- ACK_TIMER (R277). -/
def ackTimer (nv : NonVol) (n f : Nat) (d : Device) : Device :=
  match rxGet d n f with
  | some x => if x.unacked ≠ 0 ∧ x.oldest + 2000 ≤ nv.up then ackSend n f d else d
  | none => d

/-- ACK_TIMER (R277). -/
def execAckTimer (node flow : Nat) (s : State) : Host.Outcome State Fault Refusal :=
  .next (onDev (fun nv d => ackTimer nv node flow d) s)

/-- RETRANSMIT_TIMEOUT (R278): 20 µs without acknowledgement. -/
def retransmitTimeout (nv : NonVol) (n f seq : Nat) (d : Device) : Device :=
  match (txGet d n f).sent.find? (·.seq = seq) with
  | some p => if p.lastAt + 20000 ≤ nv.up then retransmit nv n f p d else d
  | none => d

/-- RETRANSMIT_TIMEOUT (R278). -/
def execRetransmitTimeout (node flow seq : Nat) (s : State) : Host.Outcome State Fault Refusal :=
  .next (onDev (fun nv d => retransmitTimeout nv node flow seq d) s)

/-- SUSPEND_EXPIRY (R278): the pair goes on probation. -/
def suspendExpiry (nv : NonVol) (n g : Nat) (d : Device) : Device :=
  match d.link.suspended.find? fun e => decide (e.1 = n ∧ e.2.1 = g) with
  | some e =>
    if e.2.2 ≤ nv.up then
      txPumpAll nv (cageWatchAll nv { d with link := { d.link with
        suspended := d.link.suspended.filter (· ≠ e), probation := d.link.probation ++ [(n, g, 7)] } })
    else d
  | none => d

/-- SUSPEND_EXPIRY (R278). -/
def execSuspendExpiry (node : Nat) (g : CageNo) (s : State) : Host.Outcome State Fault Refusal :=
  .next (onDev (fun nv d => suspendExpiry nv node g.val d) s)

/-- FLOW_IDLE_FREE (R276). -/
def flowIdleFree (nv : NonVol) (n f : Nat) (rx : Bool) (d : Device) : Device :=
  if rx then
    match rxGet d n f with
    | some x => if x.lastAt + 1000000 ≤ nv.up then { d with link := { d.link with rx := d.link.rx.filter (· ≠ x) } } else d
    | none => d
  else
    let x := txGet d n f
    if x.sent.isEmpty ∧ x.queue.isEmpty ∧ x.lastAt + 1000000 ≤ nv.up then
      { d with link := { d.link with tx := d.link.tx.filter (· ≠ x) } }
    else d

/-- FLOW_IDLE_FREE (R276). -/
def execFlowIdleFree (node flow : Nat) (rx : Bool) (s : State) : Host.Outcome State Fault Refusal :=
  .next (onDev (fun nv d => flowIdleFree nv node flow rx d) s)

/-- The flow has failed (R281). -/
def flowFailed (nv : NonVol) (d : Device) (x : TxFlow) : Bool :=
  (x.sent.any fun p => (decide (8 ≤ p.sends) && decide (p.lastAt + 20000 ≤ nv.up)) || decide (p.firstAt + 1000000 ≤ nv.up)) ||
    ((eligible d (x.flow / 16) x.node).isEmpty && (x.noCageFrom.map fun u => decide (u + 1000000 ≤ nv.up)).getD false)

/-- FLOW_FAIL (R281): every transaction outstanding completes with LINK_LOST, and the flow's state is freed. -/
def flowFail (nv : NonVol) (n f : Nat) (d : Device) : Device :=
  match d.link.tx.find? fun x => decide (x.node = n ∧ x.flow = f) with
  | none => d
  | some x =>
    if !flowFailed nv d x then d
    else
      let d := (x.sent ++ x.queue).foldl (fun d p => ownerFail p stLinkLost none d) d
      let d := (d.link.reads.filter fun r => decide (r.node = n ∧ r.flow = f)).foldl (fun d r => readFail r stLinkLost none d) d
      let d := { d with link := { d.link with tx := d.link.tx.filter fun y => !decide (y.node = n ∧ y.flow = f) } }
      raiseEv nv 0x13 (some (f / 16)) (pack [(0, 10, n), (10, 12, f)]) 0 (linkCnt 0 d)

/-- FLOW_FAIL (R281). -/
def execFlowFail (node flow : Nat) (s : State) : Host.Outcome State Fault Refusal :=
  .next (onDev (fun nv d => flowFail nv node flow d) s)

/-! ### Cages (R293, R294) -/

/-- A packet that was queued for a cage that has left service moves to another eligible cage, where one has room (R294). -/
def frameShift (f : SentFrame) (d : Device) : Device :=
  let n := f.pkt.dstNode.toNat
  let fl := f.pkt.flow.toNat
  if f.pkt.type = 1 then
    match sprayNext ((openCages d n).filter (txRoom d)) 7 with
    | some g => frameOut g f.pkt d
    | none => d
  else
    let x := txGet d n fl
    match sprayNext ((eligible d (fl / 16) n).filter (txRoom d)) x.lastCage with
    | some g => frameOut g f.pkt (txPut { x with
        sent := x.sent.map (fun y => if y.seq = f.pkt.seq.toNat then { y with cage := g } else y), lastCage := g } d)
    | none => d

/-- Cage `g` has left service: what was queued for it moves to the other cages, and the packets last sent on it are retransmitted (R278,
R294). -/
def cageLeave (nv : NonVol) (g : Nat) (d : Device) : Device :=
  let fs := (cageGet d g).txq
  let d := fs.foldl (fun d f => frameShift f d) (cageMod g (fun x => { x with txq := [], line := 0 }) d)
  d.link.tx.foldl (fun d x => (x.sent.filter (·.cage = g)).foldl (fun d p => retransmit nv x.node x.flow p d) d) d

/-- Lanes that carry traffic in a state (R296). -/
def lanesOf (st : CageSt) (half : Nat) : Nat :=
  match st with
  | .up => 0xFF
  | .upHalf => if half = 0 then 0x0F else 0xF0
  | .disabled | .empty | .present | .training | .down => 0

/-- Cage `g` changes state (R293, R294, R296); `reason` 0 leaves REASON as it is. A lane out for replacement returns to
HEALTHY when its cage passes through EMPTY (R435). -/
def cageGo (nv : NonVol) (g : Nat) (st : CageSt) (half reason : Nat) (d : Device) : Device :=
  let was := cageUp d g
  let d := cageMod g (fun x => { x with
    st := st, lanes := lanesOf st half, reason := if reason = 0 then x.reason else reason
    changes := satInc 16 x.changes, since := nv.up }) d
  let d := cageWatchAll nv (if was then cageLeave nv g d else d)
  match st with
  | .empty => (List.range 8).foldl (fun d l =>
      if (healthGet d 2 (g * 8 + l)).st = .replaceMedia then
        setHealth nv 2 (g * 8 + l) .healthy (healthGet d 2 (g * 8 + l)).reason d
      else d) d
  | .up | .upHalf => txPumpAll nv d
  | .disabled | .present | .training | .down => d

/-- A write of LINK_CAGE_CTRL (R293, R296). -/
def cageCtrl (nv : NonVol) (p : Port) (g : CageNo) (v : Word) (d : Device) : Device :=
  if !isOwner d p then denied d
  else if !cageFitted nv g.val then d
  else
    let en := bit v.toNat 0
    let x := cageGet d g.val
    let d := cageMod g.val (fun x => { x with allowHalf := bit v.toNat 1, en := en }) d
    let d :=
      if en ∧ x.st = .disabled then cageGo nv g.val (if x.present then .present else .empty) 0 0 d
      else if !en ∧ x.st ≠ .disabled then cageGo nv g.val .disabled 0 1 d
      else d
    if bit v.toNat 2 ∧ cageUp d g.val then cageGo nv g.val .training 0 0 d else d

/-- CAGE_ENABLE (R293). -/
def execCageEnable (p : Port) (g : CageNo) (v : Word) (s : State) : Host.Outcome State Fault Refusal :=
  .next (onDev (fun nv d => if hostWrites nv d p then cageCtrl nv p g v d else d) s)

/-- A write of LINK_CAGE_CTRL with RETRAIN (R293). -/
def retrain (nv : NonVol) (p : Port) (g : CageNo) (v : Word) (d : Device) : Device := cageCtrl nv p g v d

/-- RETRAIN (R293). -/
def execRetrain (p : Port) (g : CageNo) (v : Word) (s : State) : Host.Outcome State Fault Refusal :=
  .next (onDev (fun nv d => if hostWrites nv d p then retrain nv p g v d else d) s)

/-- PRESENCE_HELD (R293). -/
def presenceHeld (nv : NonVol) (g : Nat) (d : Device) : Device :=
  if cageFitted nv g then
    let d := cageMod g (fun x => { x with present := true }) d
    if (cageGet d g).st = .empty then cageGo nv g .present 0 0 d else d
  else d

/-- PRESENCE_HELD (R293). -/
def execPresenceHeld (g : CageNo) (s : State) : Host.Outcome State Fault Refusal :=
  .next (onDev (fun nv d => presenceHeld nv g.val d) s)

/-- MODULE_READY (R293). -/
def moduleReady (nv : NonVol) (g : Nat) (copper : Bool) (watts : Nat) (d : Device) : Device :=
  if (cageGet d g).st = .present then
    if copper ∨ watts ≤ 25 then cageGo nv g .training 0 0 d else cageGo nv g .down 0 6 d
  else d

/-- MODULE_READY (R293). -/
def execModuleReady (g : CageNo) (copper : Bool) (watts : Nat) (s : State) : Host.Outcome State Fault Refusal :=
  .next (onDev (fun nv d => moduleReady nv g.val copper watts d) s)

/-- The cage has been in state `st` for `ns` nanoseconds. -/
def cageFor (nv : NonVol) (d : Device) (g : Nat) (st : CageSt) (ns : Nat) : Bool :=
  (cageGet d g).st = st && decide ((cageGet d g).since + ns ≤ nv.up)

/-- CMIS_TIMEOUT (R293). -/
def execCmisTimeout (g : CageNo) (s : State) : Host.Outcome State Fault Refusal :=
  .next (onDev (fun nv d => if cageFor nv d g.val .present 5000000000 then cageGo nv g.val .down 0 7 d else d) s)

/-- TRAINING_DONE (R293). -/
def execTrainingDone (g : CageNo) (s : State) : Host.Outcome State Fault Refusal :=
  .next (onDev (fun nv d => if (cageGet d g.val).st = .training then cageGo nv g.val .up 0 0 d else d) s)

/-- The 4-lane half that a cage trains on: one whose four lanes have been locked and clean for 100 ms, the lower first (R295; log entry 125). -/
def cleanHalf (lower upper : Nat) : Option Nat :=
  if 100000000 ≤ lower then some 0 else if 100000000 ≤ upper then some 1 else none

/-- TRAINING_TIMEOUT (R293, R295). -/
def trainingTimeout (nv : NonVol) (g lower upper : Nat) (d : Device) : Device :=
  if cageFor nv d g .training 2000000000 then
    match cleanHalf lower upper, (cageGet d g).allowHalf with
    | some h, true => cageGo nv g .upHalf h 0 d
    | _, _ => cageGo nv g .down 0 5 d
  else d

/-- TRAINING_TIMEOUT (R293). -/
def execTrainingTimeout (g : CageNo) (clean : CleanLanes) (s : State) : Host.Outcome State Fault Refusal :=
  .next (onDev (fun nv d => trainingTimeout nv g.val clean.lower clean.upper d) s)

/-- Cage `g` sees `n` uncorrectable FEC code words now: counted, and more than 16 in any millisecond take it from service (R295, R296). -/
def fecSeen (nv : NonVol) (g n : Nat) (d : Device) : Device :=
  let d := cageMod g (fun x => { x with
    fecs := (List.replicate (min n 17) nv.up ++ x.fecs.filter fun u => nv.up < u + 1000000).take 17
    cnt := smMod x.cnt 0 1 fun m => min (2 ^ 32 - 1) (m + n) }) d
  if cageUp d g ∧ 16 < (cageGet d g).fecs.length then
    cageGo nv g .down 0 4 (cageMod g (fun x => { x with fecs := [] }) d)
  else d

/-- LINK_LOSS (R293 to R295): reason 2 no signal, 3 alignment lost, 4 uncorrectable FEC code words. -/
def linkLoss (nv : NonVol) (g reason words : Nat) (d : Device) : Device :=
  if !cageUp d g then d
  else if reason = 4 then fecSeen nv g words d
  else if reason = 2 ∨ reason = 3 then cageGo nv g .down 0 reason d
  else d

/-- LINK_LOSS (R293, R294). -/
def execLinkLoss (g : CageNo) (loss : LossSeen) (s : State) : Host.Outcome State Fault Refusal :=
  .next (onDev (fun nv d => linkLoss nv g.val loss.reason loss.words d) s)

/-- DOWN_TIMEOUT (R293). -/
def execDownTimeout (g : CageNo) (s : State) : Host.Outcome State Fault Refusal :=
  .next (onDev (fun nv d => if cageFor nv d g.val .down 1000000000 then cageGo nv g.val .training 0 0 d else d) s)

/-- PRESENCE_LOST (R293). -/
def presenceLost (nv : NonVol) (g : Nat) (d : Device) : Device :=
  let d := cageMod g (fun x => { x with present := false }) d
  match (cageGet d g).st with
  | .disabled | .empty => d
  | .present | .training | .up | .upHalf | .down => cageGo nv g .empty 0 8 d

/-- PRESENCE_LOST (R293). -/
def execPresenceLost (g : CageNo) (s : State) : Host.Outcome State Fault Refusal :=
  .next (onDev (fun nv d => presenceLost nv g.val d) s)

/-! ### The window table (R296, R474) -/

/-- A write of LINK_WINTAB_HI commits both halves and clears every descriptor; it is refused unless the table lies in one
valid set and no window is valid. -/
def wintabHi (p : Port) (v : Word) (d : Device) : Device :=
  let a := v.toNat % 4096 * 2 ^ 32 + d.link.wintabStage.getD (d.link.wintab % 2 ^ 32)
  if isOwner d p then
    if dpaOk d.mem a (2 ^ 22) ∧ d.link.valid.isEmpty then
      memMod (dClear a (2 ^ 22)) { d with link := { d.link with wintab := a, wintabStage := none, ready := true } }
    else { d with link := { d.link with wintabStage := none } }
  else denied d

/-- LINK_WINTAB_HI (R474). -/
def execLinkWintabHi (p : Port) (v : Word) (s : State) : Host.Outcome State Fault Refusal :=
  .next (onDev (fun nv d => if hostWrites nv d p then wintabHi p v d else d) s)

end Sys2Proof.Machine
end

