-- ==== Sys2Proof/Machine/Sched.lean ====
section
/-! DEFINITION. Slice tables, boundaries, departures, arrivals and reclaims (14_scheduling_and_lending R377 to R391, R396). -/

namespace Sys2Proof.Machine

/-! ### Group records (R300) -/

/-- The header of a group record meets R300. -/
def groupHeadOk (h : Nat) : Bool :=
  let n := fld h 0 11
  decide (fld h 11 5 = 0 ∧ fld h 26 6 = 0 ∧ fld h 64 448 = 0 ∧ 1 ≤ n ∧ n ≤ 1024 ∧ fld h 16 10 < n)

/-- The group record that `rd offset length` reads; none where it breaks R300. -/
def groupParse (rd : Nat → Nat → Nat) : Option Group :=
  let h := rd 0 64
  let n := fld h 0 11
  let self := fld h 16 10
  let w (m : Nat) : Nat := rd (64 + 16 * m) 16
  let ok (m : Nat) : Bool := fld (w m) 26 6 = 0 && fld (w m) 58 6 = 0 && fld (w m) 120 8 = 0
  if groupHeadOk h ∧ (List.range n).all ok then
    some { self := self, id := fld h 32 16, gen := fld h 48 16, members := (List.range n).map fun m =>
      ⟨fld (w m) 0 10, fld (w m) 10 16, fld (w m) 32 16, fld (w m) 48 10, fld (w m) 64 32, fld (w m) 96 8, fld (w m) 104 16⟩ }
  else none

/-- The SELF member of a group. -/
def Group.me (g : Group) : Option Member := g.members[g.self]?

/-! ### Slice tables (R378 to R380) -/

/-- The bytes of a list of context numbers: `n` of them, the rest 0. -/
def ctxList (w n : Nat) : List Nat := (List.range n).map fun i => fld w (8 * i) 8

/-- The slice entry at DPA `a`; none where it breaks check 1 of R380. -/
def sliceEntry (d : Device) (a : Nat) : Option Slice :=
  let w := dNat d.mem a 32
  let r := fld w 32 4
  let b := fld w 36 4
  let res := ctxList (fld w 64 64) r
  let stby := ctxList (fld w 128 64) b
  if r ≤ 8 ∧ b ≤ 8 ∧ fld w 41 23 = 0 ∧ fld w (64 + 8 * r) (64 - 8 * r) = 0 ∧ fld w (128 + 8 * b) (64 - 8 * b) = 0 ∧
      fld w 192 64 = 0 ∧ (res ++ stby).Nodup then
    some ⟨fld w 0 32, bit w 40, res, stby⟩
  else none

/-- The context entry at DPA `a`: context and save area; none where it breaks check 1. -/
def sliceCtx (d : Device) (a : Nat) : Option (Nat × Nat) :=
  let w := dNat d.mem a 16
  if fld w 8 56 = 0 ∧ fld w 64 12 = 0 ∧ fld w 108 20 = 0 then some (fld w 0 8, fld w 64 44) else none

/-- The results of a list of checks, none where one fails. -/
def allSome {α : Type} (l : List (Option α)) : Option (List α) :=
  match l with
  | [] => some []
  | none :: _ => none
  | some a :: t => (allSome t).map (a :: ·)

/-- The lengths of the slices in µs, the wrap included (R380). -/
def sliceLengths (starts : List Nat) (period : Nat) : List Int :=
  (starts.zip (starts.drop 1 ++ [period])).map fun e => (e.2 : Int) - e.1

/-- Check 1 of R380 for the table at DPA `a`, GROUP_DPA beside it. -/
def tableParse (d : Device) (a : Nat) : Option (SliceTable × Nat) :=
  let h := dNat d.mem a 64
  let n := fld h 0 7
  let m := fld h 8 7
  let block := fld h 16 10
  let period := fld h 32 32
  let epoch := fld h 64 64
  let lead := fld h 128 10
  let notice := fld h 160 32
  let gdpa := fld h 192 44
  match allSome ((List.range n).map fun i => sliceEntry d (a + 64 + 32 * i)),
      allSome ((List.range m).map fun j => sliceCtx d (a + 64 + 32 * n + 16 * j)) with
  | some es, some cs =>
    let lens := sliceLengths (es.map (·.start)) period
    let listed := es.flatMap fun e => e.residents ++ e.standby
    let fields : Bool := decide (fld h 7 1 = 0 ∧ fld h 15 1 = 0 ∧ fld h 26 6 = 0 ∧ fld h 138 22 = 0 ∧ fld h 236 276 = 0) &&
      decide (1 ≤ n ∧ n ≤ 64 ∧ 1 ≤ m ∧ m ≤ 64 ∧ (block = 0 ∨ (5 ≤ block ∧ block ≤ 1000))) &&
      decide (epoch % 1000 = 0 ∧ lead ≤ 1000 ∧ notice % 8 = 0 ∧ gdpa % 64 = 0)
    let times : Bool := decide ((es.map (·.start)).head? = some 0) &&
      lens.all fun l => decide (50 ≤ l) && decide ((lead : Int) < l)
    let names : Bool := decide (cs.map (·.1)).Nodup && (listed.all fun c => (cs.map (·.1)).contains c) &&
      (decide (gdpa ≠ 0) || es.all fun e => !e.coord)
    if fields && times && names then
      some (⟨if block = 0 then 20 else block, period, epoch, lead, notice, es, cs, none⟩, gdpa)
    else none
  | _, _ => none

/-- The group record at DPA `a` whose SELF entry names this node (R380 check 2). -/
def groupAt (d : Device) (a : Nat) : Option Group :=
  let n := dNat d.mem a 2 % 2048
  if dpaOk d.mem a 64 ∧ dpaOk d.mem a (64 + 16 * n) then
    match groupParse fun o len => dNat d.mem (a + o) len with
    | some g => if (g.me.map (·.node)) = some d.link.node then some g else none
    | none => none
  else none

/-- Two save areas of `size` bytes do not overlap. -/
def apart (size a b : Nat) : Bool := decide (a + size ≤ b) || decide (b + size ≤ a)

/-- Every two of the list are apart. -/
def allApart (size : Nat) (l : List Nat) : Bool :=
  match l with
  | [] => true
  | a :: t => t.all (apart size a) && allApart size t

/-- Check 2 of R380 but for the group record. -/
def tableState (d : Device) (p : Nat) (t : SliceTable) : Bool :=
  let size := 4096 + (partClusters d p).length * 896 * 1024
  (t.saves.all fun e => ctxLive d e.1 && decide ((ctxGet d e.1).part.val = p) && dpaOk d.mem e.2 size) &&
    allApart size (t.saves.map (·.2))

/-- The checks of R380: the table, or the number and status of the check that fails. -/
def tableCheck (d : Device) (p a : Nat) : Except (Nat × Nat) SliceTable :=
  match tableParse d a with
  | none => .error (1, stMalformed)
  | some (t, gdpa) =>
    if !tableState d p t then .error (2, stState)
    else if gdpa = 0 then .ok t
    else
      match groupAt d gdpa with
      | some g => .ok { t with group := some g }
      | none => .error (2, stState)

/-! ### Boundaries (R379) -/

/-- The system time of boundary number `n` (k × ENTRIES + i) of a table. -/
def boundaryTime (t : SliceTable) (n : Nat) : Nat :=
  let m := t.slices.length
  t.epoch + (n / m * t.period + ((t.slices[n % m]?).map (·.start)).getD 0) * 1000

/-- The number of boundaries of a period that lie before offset `r` µs. -/
def startsBefore (t : SliceTable) (r : Nat) : Nat := (t.slices.filter (·.start < r)).length

/-- The number of the first boundary at or after system time `x`. -/
def nextBoundary (t : SliceTable) (x : Nat) : Nat :=
  if x ≤ t.epoch then 0
  else
    let o := cdiv (x - t.epoch) 1000
    o / t.period * t.slices.length + startsBefore t (o % t.period)

/-- The number of the slice that contains system time `x`, none before EPOCH. -/
def sliceAt (t : SliceTable) (x : Nat) : Option Nat :=
  if x < t.epoch then none
  else
    let o := (x - t.epoch) / 1000
    some (o / t.period * t.slices.length + startsBefore t (o % t.period + 1) - 1)

/-- The slice entry of a boundary number. -/
def sliceOf (t : SliceTable) (n : Nat) : Slice := (t.slices[n % t.slices.length]?).getD ⟨0, false, [], []⟩

/-- MAX_RESIDENT of partition `p`. -/
def maxResident (d : Device) (p : Nat) : Nat := ((partGet d p).map (·.maxResident)).getD 0

/-- The residents of a slice (R379). -/
def sliceResidents (d : Device) (p : Nat) (s : Slice) : List Nat :=
  (s.residents.filter (ctxLive d)).take (min s.residents.length (maxResident d p))

/-- The table and the boundary number of the partition's next boundary. -/
def upcoming (d : Device) (p : Nat) : Option (SliceTable × Nat) :=
  let s := schedGet d p
  match s.next with
  | some (t, _, x) => if x ≤ s.boundary then some (t, nextBoundary t x) else s.table.map fun t => (t, nextBoundary t s.boundary)
  | none => s.table.map fun t => (t, nextBoundary t s.boundary)

/-! ### SLICE_TABLE (R378, R381) -/

/-- A table that waits for its boundary completes with STATE_MISMATCH, never having acted (R381, R390). -/
def dropNext (nv : NonVol) (p : Nat) (d : Device) : Device :=
  match (schedGet d p).next with
  | some (_, tag, _) =>
    complete nv tag stState 0xFFFF 0 (schedMod p (fun s => { s with
      next := none
      boundary := match s.table with
        | some t => boundaryTime t (nextBoundary t s.boundary)
        | none => 0 }) d)
  | none => d

/-- SLICE_TABLE (R381); a reclaim of the partition in progress fails check 2 of R380. -/
def sliceTable (t : Nat) (x : Taken) (nv : NonVol) (d : Device) : Device :=
  let p := ePartition x.entry
  match tableCheck d p (eArg x.entry 0), (schedGet d p).reclaim with
  | .error (i, st), _ => complete nv t st i 0 d
  | .ok _, some _ => complete nv t stState 2 0 d
  | .ok tab, none =>
    let d := dropNext nv p d
    let at_ := boundaryTime tab (nextBoundary tab (d.time.now + (tab.lead + 200) * 1000))
    markBegun t (schedMod p (fun s => { s with
      next := some (tab, t, at_), boundary := if s.table.isSome then min s.boundary at_ else at_ }) d)

/-- SLICE_TABLE (R381). -/
def execSliceTable (t : Nat) (s : State) : Host.Outcome State Fault Refusal :=
  .next (onDev (withTaken 0x11 t (sliceTable t)) s)

/-! ### Departures (R382, R383) -/

/-- The departure of context `c` that the partition's next boundary asks for: t_s, T and the overrun it uses (R382, R387). -/
def departureDue (d : Device) (c : Nat) : Option (Nat × Nat × Nat) :=
  let x := ctxGet d c
  let p := x.part.val
  let s := schedGet d p
  if x.st = .resident ∧ x.departing.isNone ∧ s.reclaim.isNone then
    match upcoming d p with
    | some (t, n) =>
      let b := boundaryTime t n
      let began := match s.table with
        | some old => boundaryTime old s.number
        | none => 0
      let use := min x.overrun (b - began)
      if (sliceResidents d p (sliceOf t n)).contains c then none
      else if b ≤ d.time.now + t.lead * 1000 + use then some (b - t.lead * 1000 - use, b, use) else none
    | none => none
  else none

/-- DEPARTURE (R383): it begins when its time has come, and ends once nothing of the context is in flight. -/
def departure (nv : NonVol) (c : Nat) (d : Device) : Device :=
  let d := match departureDue d c with
    | some (t, b, use) =>
      if firmwareRuns d ∧ !applying d (ctxGet d c).part.val then
        ctxMod c (fun x => { x with overrun := x.overrun - use }) (beginDeparture c t (some b) d)
      else d
    | none => d
  if (ctxGet d c).departing.isSome ∧ departReady d c ∧ procUp d 2 then finishDeparture nv c d else d

/-- DEPARTURE (R383). -/
def execDeparture (c : CtxNo) (s : State) : Host.Outcome State Fault Refusal :=
  .next (onDev (fun nv d => departure nv c.val d) s)

/-- DEPARTURE_ABANDON (R383 step 2): the unit has outlived the budget of its cluster's clock. -/
def departureAbandon (k u : Nat) (d : Device) : Device :=
  match unitGet d k u with
  | none => d
  | some r =>
    let x := ctxGet d r.ctx.val
    match x.departing with
    | some t =>
      if t + cdiv (tileBudget d x.part.val * 1600000) (halfMhz d (halfOf k)) ≤ d.time.now then abandonUnit k u d else d
    | none => d

/-- DEPARTURE_ABANDON (R383). -/
def execDepartureAbandon (k : CluNo) (u : Nat) (s : State) : Host.Outcome State Fault Refusal :=
  .next (onDev (fun _ d => departureAbandon k.val u d) s)

/-! ### Boundaries and arrivals (R382, R386, R396) -/

/-- The switch notices of the leader at a coordinated boundary (R396). -/
def sendNotices (nv : NonVol) (t : SliceTable) (n : Nat) (d : Device) : Device :=
  match t.group with
  | none => d
  | some g =>
    match g.me with
    | none => d
    | some me =>
      if g.self ≠ 0 then d
      else
        (g.members.drop 1).foldl (fun d m =>
          txPost nv m.node (me.ctx * 16)
            (TxPacket.plain (writePacket nv d me.ctx m.node 0 m.window m.winGen m.key t.noticeOffset (toBytes 8 n))) d) d

/-- The boundary needs a notice here: a member that is not the leader, in fallback (R396). -/
def needsNotice (d : Device) (t : SliceTable) (s : Slice) : Bool :=
  s.coord && d.time.fallback && ((t.group.map fun g => decide (g.self ≠ 0)).getD false)

/-- SLICE_BOUNDARY (R381, R382). -/
def sliceBoundary (nv : NonVol) (p : Nat) (d : Device) : Device :=
  let s := schedGet d p
  match upcoming d p with
  | none => d
  | some (t, n) =>
    if !firmwareRuns d || s.reclaim.isSome || applying d p || decide (d.time.now < s.boundary) then d
    else
      let b := boundaryTime t n
      let sl := sliceOf t n
      let new_ := sliceResidents d p sl
      let out := (residents d p).filter fun c => !new_.contains c
      let d := out.foldl (fun d c => beginDeparture c (b - t.lead * 1000) (some b) d) d
      let incoming := new_.filter fun c => !(resident d c && (ctxGet d c).departing.isNone)
      let done := s.next.bind fun e => if e.2.2 ≤ s.boundary then some e.2.1 else none
      let after := boundaryTime t (n + 1)
      let d := schedMod p (fun s => { s with
        table := some t, next := if done.isSome then none else s.next, entry := n % t.slices.length, number := n
        incoming := incoming, evicted := [], notice := if needsNotice d t sl then some b else none
        boundary := match s.next, done with
          | some e, none => min after e.2.2
          | _, _ => after }) d
      let d := if sl.coord then sendNotices nv t n d else d
      let d := logPoint nv 3 2 0 0x3002 p n d
      match done with
      | some tag => complete nv tag stOK 0xFFFF 0 d
      | none => d

/-- SLICE_BOUNDARY (R382). -/
def execSliceBoundary (p : PartNo) (s : State) : Host.Outcome State Fault Refusal :=
  .next (onDev (fun nv d => sliceBoundary nv p.val d) s)

/-- The word at NOTICE_OFFSET of this member's own window holds the boundary number (R396). -/
def noticeSeen (d : Device) (p : Nat) : Bool :=
  let s := schedGet d p
  match s.table.bind fun t => t.group.bind fun g => g.me.map fun m => (t, m) with
  | some (t, m) => ofBytes (winBytes d (winDesc d m.window) t.noticeOffset 8).1 = s.number
  | none => false

/-- The Tally slots of context `c` return to their homes, in so far as slots are free (R33, R384). -/
def slotRestore (c : Nat) (d : Device) : Device :=
  let runs := ((ctxGet d c).prog.map (·.runs)).getD []
  runs.foldl (fun d r =>
    match r.saved, (List.range 16).find? (fun i => !(smGet (cluGet d r.home).slots TallySlot.init i).active) with
    | some v, some i =>
      cluMod r.home (fun x => { x with slots := smPut x.slots TallySlot.init i { v with active := true } })
        (runMod c r.idx (fun y => { y with saved := none, slot := i }) d)
    | _, _ => d) d

/-- The digest units that context `c` left with its kept state come back, each to its unit of the cluster, in so far as no stream holds
that unit by then (R122, R384). -/
def digRestore (c : Nat) (d : Device) : Device :=
  (ctxGet d c).savedDigs.foldl (fun d e =>
    cluMod (e.1 / 2) (fun x =>
      if (smGet x.digs DigestUnit.init (e.1 % 2)).busy then x
      else { x with digs := smPut x.digs DigestUnit.init (e.1 % 2) e.2 }) d) d

/-- The kept state of context `c` comes back, and the context is RESIDENT (R386); it ends the test runs of its partition (R436). Its time without progress (R388) counts from here
(log entry 104). -/
def arrive (nv : NonVol) (c : Nat) (d : Device) : Device :=
  let x := ctxGet d c
  let p := x.part.val
  let d := abandonTests p d
  let d := x.savedGran.foldl (fun d e =>
    cluMod e.1 (fun y => { y with
      palette := (y.palette.filter fun b => b.1 / 16384 ≠ e.2)
      palFrom := (y.palFrom.filter fun b => b.1 / 16 ≠ e.2)
      written := (c, e.2) :: y.written }) d) d
  let d := x.savedPal.foldl (fun d e => cluMod (e.1 / 2 ^ 19) (fun y => { y with
    palette := smPut y.palette none (e.1 % 2 ^ 19) e.2 }) d) d
  let d := x.savedFrom.foldl (fun d e => cluMod (e.1 / 512) (fun y => { y with
    palFrom := smPut y.palFrom 0 (e.1 % 512) e.2 }) d) d
  let save := ((schedGet d p).table.bind fun t => (t.saves.find? (·.1 = c)).map (·.2))
  let d := moved c x.kept 0 (digRestore c d)
  let d := ctxMod c (fun y => { y with
    st := .resident, kept := 0, savedGran := [], savedDigs := [], savedPal := [], savedFrom := [], progressAt := nv.up
    save := if save.isSome then save else y.save }) d
  slotRestore c (schedMod p (fun s => { s with incoming := without s.incoming c }) d)

/-- CONTEXT_ARRIVAL (R382, R386, R396): a notice is waited for while FALLBACK is 1. -/
def contextArrival (nv : NonVol) (c : Nat) (d : Device) : Device :=
  let x := ctxGet d c
  let p := x.part.val
  let s := schedGet d p
  let clear := (residents d p).all fun y => (ctxGet d y).departing.isNone
  if s.incoming.contains c ∧ x.st = .bound ∧ clear ∧ firmwareRuns d ∧ (residents d p).length < maxResident d p ∧
      (s.notice.isNone ∨ !d.time.fallback ∨ noticeSeen d p) then
    arrive nv c (schedMod p (fun s => { s with notice := none }) d)
  else d

/-- CONTEXT_ARRIVAL (R386). -/
def execContextArrival (c : CtxNo) (s : State) : Host.Outcome State Fault Refusal :=
  .next (onDev (fun nv d => contextArrival nv c.val d) s)

/-- NOTICE_TIMEOUT (R396). -/
def noticeTimeout (nv : NonVol) (p : Nat) (d : Device) : Device :=
  let s := schedGet d p
  match s.notice with
  | some t =>
    if t + 1000000 ≤ d.time.now then
      if !d.time.fallback || noticeSeen d p then schedMod p (fun s => { s with notice := none }) d
      else raiseEv nv 0x44 none p s.number (schedMod p (fun s => { s with notice := none }) d)
    else d
  | none => d

/-- NOTICE_TIMEOUT (R396). -/
def execNoticeTimeout (p : PartNo) (s : State) : Host.Outcome State Fault Refusal :=
  .next (onDev (fun nv d => noticeTimeout nv p.val d) s)

/-! ### Reclaim (R390) -/

/-- RECLAIM (R390 steps 1 and 2): it waits for an application of the partition (R347) and for an activation (R412). -/
def reclaim (t : Nat) (x : Taken) (nv : NonVol) (d : Device) : Device :=
  let p := ePartition x.entry
  if applying d p ∨ d.fw.acting.isSome then d
  else
    match tableCheck d p (eArg x.entry 0) with
    | .error (i, st) => complete nv t st i 0 d
    | .ok tab =>
      let d := abandonTests p (dropNext nv p d)
      let stay := match sliceAt tab d.time.now with
        | some n => sliceResidents d p (sliceOf tab n)
        | none => []
      let under := (residents d p).filter fun c => (ctxGet d c).departing.isSome
      let out := (residents d p).filter fun c => !stay.contains c && (ctxGet d c).departing.isNone
      let d := out.foldl (fun d c => beginDeparture c d.time.now none d) d
      markBegun t (schedMod p (fun s => { s with
        table := none, next := none, incoming := [], evicted := [], notice := none, boundary := 0
        reclaim := some ⟨t, tab, eTime x.entry, under ++ out, 0, 0⟩ }) d)

/-- RECLAIM (R390). -/
def execReclaim (t : Nat) (s : State) : Host.Outcome State Fault Refusal :=
  .next (onDev (withTaken 0x10 t (reclaim t)) s)

/-- RECLAIM_COMPLETE (R390 steps 3 and 4). -/
def reclaimComplete (nv : NonVol) (p : Nat) (d : Device) : Device :=
  match (schedGet d p).reclaim with
  | none => d
  | some r =>
    if !r.departing.isEmpty || !procUp d 2 then d
    else
      let late := r.deadline < d.time.now
      let n := sliceAt r.table d.time.now
      let now := match n with
        | some n => sliceResidents d p (sliceOf r.table n)
        | none => []
      let next := match n with
        | some n => n + 1
        | none => 0
      let d := schedMod p (fun s => { s with
        reclaim := none, table := some r.table, entry := n.getD 0 % r.table.slices.length, number := n.getD 0
        incoming := now.filter fun c => !resident d c, boundary := boundaryTime r.table next }) d
      let d := if late then raiseEv nv 0x42 none p (d.time.now - r.deadline) d else d
      let d := logPoint nv 2 2 0 0x3003 p (r.kept / 1024) d
      complete nv r.tag stOK 0xFFFF (pack [(0, 32, r.kept / 1024), (32, 8, r.gone), (40, 1, b2n (decide late))]) d

/-- RECLAIM_COMPLETE (R390). -/
def execReclaimComplete (p : PartNo) (s : State) : Host.Outcome State Fault Refusal :=
  .next (onDev (fun nv d => reclaimComplete nv p.val d) s)

/-- Partition `p` is gone: its tables go with it, and a table that waits completes with STATE_MISMATCH (R343, R344). -/
def schedDropPart (nv : NonVol) (p : Nat) (d : Device) : Device :=
  let d := dropNext nv p d
  { d with sched := smDel d.sched p }

end Sys2Proof.Machine
end

