-- ==== Sys2Proof/Machine/Frames.lean ====
section
/-! DEFINITION. Frames: key slots, staging with its checks, application, and what a crash of the security core does to them
(12_frames_and_partitions). -/

namespace Sys2Proof.Machine

/-! ### The container (R332 to R334) -/

/-- The number that `n` bytes at offset `o` of a byte string spell. -/
def bsNat (bs : List Byte) (o n : Nat) : Nat := ofBytes ((bs.drop o).take n)

/-- An entry of the section table: type, offset, length; none where it breaks R333. -/
def sectionEntry (bs : List Byte) (i : Nat) : Option (Nat × Nat × Nat) :=
  let e := bsNat bs (0x40 + 16 * i) 16
  let ty := fld e 0 8
  if fld e 8 24 = 0 ∧ fld e 96 32 = 0 ∧ (ty = 1 ∨ ty = 2 ∨ ty = 15) then some (ty, fld e 32 32, fld e 64 32) else none

/-- The sections are aligned, ascend, and overlap neither the table nor each other (R333). -/
def sectionsApart (len lo : Nat) (l : List (Nat × Nat × Nat)) : Bool :=
  match l with
  | [] => true
  | (_, o, n) :: t => decide (o % 64 = 0 ∧ lo ≤ o ∧ o + n ≤ len) && sectionsApart len (o + n) t

/-- The header of a container (R332): PARTIAL, LENGTH, number of sections, KEY_SLOT, SERIAL. -/
structure FrameHeader where
  isPartial : Bool
  length : Nat
  sections : Nat
  keySlot : Nat
  serial : Nat
  deriving DecidableEq, Repr

/-- The header where it meets R332. -/
def frameHeader (bs : List Byte) : Option FrameHeader :=
  let h := bsNat bs 0 64
  let len := fld h 64 32
  let n := fld h 96 8
  if fld h 0 32 = 0x4652594F ∧ fld h 32 16 = 1 ∧ fld h 49 15 = 0 ∧ fld h 105 23 = 0 ∧ fld h 192 320 = 0 ∧ len % 64 = 0 ∧
      256 ≤ len ∧ len ≤ 131072 ∧ 2 ≤ n ∧ n ≤ 18 ∧ len ≤ bs.length then
    some ⟨bit h 48, len, n, fld h 104 1, fld h 128 64⟩
  else none

/-- Staging check 2 (R341): the header and the sections before the SIGNATURE, whose offset is beside them. -/
def container (bs : List Byte) : Option (FrameHeader × List (Nat × Nat × Nat) × Nat) :=
  match frameHeader bs with
  | none => none
  | some h =>
    match allSome ((List.range h.sections).map (sectionEntry bs)) with
    | none => none
    | some es =>
      let body := es.dropLast
      let globals := (body.filter (·.1 = 1)).length
      let parts := (body.filter (·.1 = 2)).length
      match es.getLast? with
      | some (ty, o, n) =>
        let kinds : Bool := if h.isPartial then decide (globals = 0 ∧ parts = 1) else decide (globals = 1 ∧ parts ≤ 16)
        if ty = 15 ∧ n = 128 ∧ o + 128 = h.length ∧ (body.all fun e => e.1 ≠ 15) ∧
            sectionsApart h.length (0x40 + 16 * h.sections) es ∧ kinds then
          some (h, body, o)
        else none
      | none => none

/-! ### Contents (R336 to R338, R342) -/

/-- The GLOBAL section at `o` (R336, R342). -/
def globalParse (bs : List Byte) (o n : Nat) : Option Global :=
  let g := bsNat bs o 64
  let r := fld g 0 4
  let w := fld g 4 4
  let x := fld g 8 4
  let vcs := (List.range 5).map fun i => fld g (32 + 3 * i) 3
  if n = 64 ∧ r + w + x = 16 ∧ 1 ≤ r ∧ 1 ≤ w ∧ 1 ≤ x ∧ ([2, 3, 4, 5, 6].all fun v => vcs.contains v) then
    some ⟨r, w, x, fld g 32 15⟩
  else none

/-- The tree record at `o` in a partition of `count` clusters (R338). -/
def treeParse (bs : List Byte) (o count : Nat) : Option Tree :=
  let t := bsNat bs o 128
  let members := fld t 256 768
  let src := fld t 0 10
  let timeout := fld t 10 10
  if fld t 20 236 = 0 ∧ src < count ∧ timeout ≤ 1000 ∧ members ≠ 0 ∧ members < 2 ^ count then some ⟨src, timeout, members⟩
  else none

/-- The fields of the PARTITION section `w` but for its trees (R337). -/
def sectionFields (w : Nat) (trees : List Tree) : Section :=
  { number := fld w 0 4, remove := bit w 4, row0 := fld w 8 5, col0 := fld w 16 5, rows := fld w 32 5 + 1
    cols := fld w 40 5 + 1, stations := fld w 64 16, formats := fld w 80 16, cages := fld w 96 8
    maxResident := fld w 104 4, tileBudget := fld w 128 7, dummyFill := bit w 135, dummyGap := fld w 136 13
    powerW := fld w 160 16, keptLimit := fld w 192 10, trees := trees }

/-- The reserved fields of a PARTITION section are 0 (R337). -/
def sectionReserved (w : Nat) : Bool :=
  [(5, 3), (13, 3), (21, 11), (37, 3), (45, 3), (53, 11), (108, 20), (149, 11), (176, 16), (202, 22), (224, 800)].all
    fun f => fld w f.1 f.2 = 0

/-- The ranges of R337 and R342. -/
def sectionRanges (s : Section) : Bool :=
  decide (s.row0 + s.rows ≤ 24 ∧ s.col0 + s.cols ≤ 32 ∧ 1 ≤ s.maxResident ∧ s.maxResident ≤ 8) &&
    decide (10 ≤ s.tileBudget ∧ s.tileBudget ≤ 64 ∧ s.keptLimit ≤ 896 ∧ s.stations < 4096) &&
    (if s.dummyFill then decide (16 ≤ s.dummyGap ∧ s.dummyGap ≤ 4096) else s.dummyGap = 0)

/-- The PARTITION section at `o` of `n` bytes (R337, R342). -/
def sectionParse (bs : List Byte) (isPartial : Bool) (o n : Nat) : Option Section :=
  let w := bsNat bs o 128
  let trees := fld w 48 5
  let s := sectionFields w []
  if n ≠ 128 * (1 + trees) ∨ n < 128 ∨ !sectionReserved w then none
  else if s.remove then (if isPartial ∧ w = s.number + 16 then some s else none)
  else if sectionRanges s then
    (allSome ((List.range trees).map fun k => treeParse bs (o + 128 * (k + 1)) (s.rows * s.cols))).map fun ts =>
      { s with trees := ts }
  else none

/-- Two rectangles overlap. -/
def overlaps (a b : Section) : Bool :=
  decide (a.row0 < b.row0 + b.rows ∧ b.row0 < a.row0 + a.rows ∧ a.col0 < b.col0 + b.cols ∧ b.col0 < a.col0 + a.cols)

/-- No two sections of the list overlap. -/
def disjoint (l : List Section) : Bool :=
  match l with
  | [] => true
  | a :: t => t.all (fun b => !overlaps a b) && disjoint t

/-- The limits on the sections of one structure: residents and power (R342, R344). -/
def limitsOk (l : List Section) : Bool :=
  decide ((l.map (·.maxResident)).sum ≤ 64) && decide ((l.map (·.powerW)).sum ≤ 1150)

/-- Staging check 4 (R342): the Frame. -/
def contents (bs : List Byte) (h : FrameHeader) (body : List (Nat × Nat × Nat)) : Option Frame :=
  let globs := (body.filter (·.1 = 1)).map fun e => globalParse bs e.2.1 e.2.2
  let parts := (body.filter (·.1 = 2)).map fun e => sectionParse bs h.isPartial e.2.1 e.2.2
  match allSome globs, allSome parts with
  | some gs, some ps =>
    if h.isPartial || (decide (ps.map (·.number)).Nodup && disjoint ps && limitsOk ps) then
      some ⟨h.isPartial, h.serial, h.length, h.keySlot, gs.head?, ps⟩
    else none
  | _, _ => none

/-- Staging check 3 (R334, R340): the signature at offset `o` verifies under the key of its slot. -/
def signed (d : Device) (bs : List Byte) (h : FrameHeader) (o : Nat) : Bool :=
  match d.frames.keys.getD h.keySlot none with
  | some k => ecdsaOk (k % 2 ^ 384) (k / 2 ^ 384) (bs.take o) (bsNat bs o 48) (bsNat bs (o + 48) 48)
  | none => false

/-- Staging check 5 (R341): no station or cage that this module lacks. -/
def unitsPresent (nv : NonVol) (f : Frame) : Bool :=
  f.sections.all fun s => (!nv.specN || decide (s.stations / 1024 % 4 = 0)) && (!nv.l4 || decide (s.cages / 16 = 0))

/-- Staging checks 2 to 5 (R341): the Frame, or the check that fails and its status. -/
def stageCheck (nv : NonVol) (d : Device) (bs : List Byte) : Except (Nat × Nat) Frame :=
  match container bs with
  | none => .error (2, stMalformed)
  | some (h, body, o) =>
    if !signed d bs h o then .error (3, stSignature)
    else
      match contents bs h body with
      | none => .error (4, stMalformed)
      | some f => if unitsPresent nv f then .ok f else .error (5, stAbsent)

/-! ### Keys and staging (R335, R341) -/

/-- Staging slot `i` becomes `f`. -/
def slotPut (i : Nat) (f : Option Frame) (d : Device) : Device :=
  { d with frames := { d.frames with slots := lMod d.frames.slots i (fun _ => f) } }

/-- KEY_WRITE (R335). -/
def keyWrite (t : Nat) (x : Taken) (nv : NonVol) (d : Device) : Device :=
  let i := eArg x.entry 0
  let a := eArg x.entry 1
  let k := dNat d.mem a 48 + 2 ^ 384 * dNat d.mem (a + 48) 48
  let keep (f : Option Frame) : Option Frame := f.bind fun f => if f.keySlot = i then none else some f
  complete nv t stOK 0xFFFF 0 { d with frames := { d.frames with
    keys := lMod d.frames.keys i (fun _ => some k), slots := d.frames.slots.map keep } }

/-- KEY_WRITE (R335). -/
def execKeyWrite (t : Nat) (s : State) : Host.Outcome State Fault Refusal :=
  .next (onDev (withTaken 0x08 t (keyWrite t)) s)

/-- FRAME_STAGE (R341): check 1, and the copy of the container; one staging runs at a time. -/
def frameStage (t : Nat) (x : Taken) (nv : NonVol) (d : Device) : Device :=
  let i := eArg x.entry 1
  if !securityUp d then complete nv t stState 1 0 (slotPut i none d)
  else if d.frames.staging.isSome then d
  else
    let a := eArg x.entry 0
    let len := dNat d.mem (a + 8) 4
    let n := if 256 ≤ len ∧ len ≤ 131072 then len else 64
    markBegun t { d with frames := { d.frames with staging := some (t, i, dRead d.mem a n) } }

/-- FRAME_STAGE (R341). -/
def execFrameStage (t : Nat) (s : State) : Host.Outcome State Fault Refusal :=
  .next (onDev (withTaken 0x09 t (frameStage t)) s)

/-- FRAME_STAGE_COMPLETE (R341): the checks of the copy, and the slot. -/
def frameStageComplete (nv : NonVol) (d : Device) : Device :=
  match d.frames.staging with
  | some (t, i, bs) =>
    let d := { d with frames := { d.frames with staging := none } }
    match stageCheck nv d bs with
    | .ok f => complete nv t stOK 0xFFFF 0 (slotPut i (some f) d)
    | .error (n, st) => complete nv t st n 0 (slotPut i none d)
  | none => d

/-- FRAME_STAGE_COMPLETE (R341). -/
def execFrameStageComplete (s : State) : Host.Outcome State Fault Refusal :=
  .next (onDev (fun nv d => if securityUp d then frameStageComplete nv d else d) s)

/-! ### Application (R343 to R347) -/

/-- The contexts bound to partition `p` (R344). -/
def boundTo (d : Device) (p : Nat) : List Nat := (d.ctxs.filter fun e => decide (e.2.st ≠ .free ∧ e.2.part.val = p)).map (·.1)

/-- The running sections but for partition `p`. -/
def otherSections (d : Device) (p : Nat) : List Section :=
  (d.frames.parts.filter (·.1 ≠ p)).filterMap (·.2)

/-- The rectangle of two sections is the same. -/
def sameRect (a b : Section) : Bool := decide (a.row0 = b.row0 ∧ a.col0 = b.col0 ∧ a.rows = b.rows ∧ a.cols = b.cols)

/-- The checks of R344 for a partial Frame with section `s`. -/
def partialOk (d : Device) (s : Section) : Bool :=
  let p := s.number
  let cs := boundTo d p
  let rs := residents d p
  let old := partGet d p
  if s.remove then cs.isEmpty && old.isSome
  else
    ((otherSections d p).all fun b => !overlaps s b) &&
      (match old with
        | some o => sameRect o s || rs.isEmpty
        | none => true) &&
      (cs.all fun c => (ctxGet d c).prog.isNone) && decide (rs.length ≤ s.maxResident) &&
      (rs.all fun c => (partClusters d p).all fun k => decide (keptSum d c k false [] ≤ s.keptLimit)) &&
      limitsOk (s :: otherSections d p)

/-- Nothing forbids a full Frame (R343). -/
def fullOk (d : Device) : Bool := (d.ctxs.all fun e => e.2.st = .free) && d.coll.runs.isEmpty

/-- The application with tag `t` leaves the list. -/
def appDrop (t : Nat) (d : Device) : Device :=
  { d with frames := { d.frames with apps := d.frames.apps.filter (·.tag ≠ t) } }

/-- The waiting application whose turn it is: none while another is in progress (R347) or an activation runs (R412). -/
def nextApp (d : Device) : Option Application :=
  if (d.frames.apps.any fun a => a.frame.isSome) ∨ d.fw.acting.isSome then none else d.frames.apps.head?

/-- FRAME_APPLICATION_START (R343 to R345, R347): the checks, and from here on intake for the partition stops. A reclaim in progress comes
first: of P for a partial Frame, of any partition for a full one. -/
def applicationStart (nv : NonVol) (d : Device) : Device :=
  match nextApp d with
  | none => d
  | some a =>
    let start (f : Frame) : Device := { d with frames := { d.frames with
      apps := d.frames.apps.map fun b => if b.tag = a.tag then { b with frame := some f } else b } }
    let refuse : Device := complete nv a.tag stState 0xFFFF 0 (appDrop a.tag d)
    match d.frames.slots.getD a.slot none with
    | none => refuse
    | some f =>
      if !f.isPartial then
        if (List.range 16).any fun p => (schedGet d p).reclaim.isSome then d else if fullOk d then start f else refuse
      else
        match f.sections with
        | s :: _ =>
          if (schedGet d s.number).reclaim.isSome then d else if partialOk d s then start f else refuse
        | [] => refuse

/-- FRAME_APPLICATION_START (R344). -/
def execFrameApplicationStart (s : State) : Host.Outcome State Fault Refusal :=
  .next (onDev (fun nv d => if securityUp d then applicationStart nv d else d) s)

/-- FRAME_APPLY (R343): refused while the security core is down; otherwise it joins the applications, and begins at once
where none is before it. One taken earlier goes before it (R347). -/
def frameApply (t : Nat) (x : Taken) (nv : NonVol) (d : Device) : Device :=
  if !securityUp d then complete nv t stState 0xFFFF 0 d
  else if d.rings.taken.any fun y => y.ring.isNone && !y.begun && decide (eOpcode y.entry = 0x0A ∧ y.tag < t) then d
  else
    applicationStart nv (markBegun t { d with frames := { d.frames with
      apps := d.frames.apps ++ [⟨t, eArg x.entry 1, none, false⟩] } })

/-- FRAME_APPLY (R343). -/
def execFrameApply (t : Nat) (s : State) : Host.Outcome State Fault Refusal :=
  .next (onDev (withTaken 0x0A t (frameApply t)) s)

/-- The collectives of partition `p`'s contexts meet LINK_LOST (R346). -/
def partLinkLost (p : Nat) (d : Device) : Device :=
  (d.coll.runs.filter fun r => decide ((ctxGet d r.ctx.val).part.val = p)).foldl
    (fun d r => collFail r.ctx.val r.tag stLinkLost d) d

/-- The running section of partition `s.number` is replaced, added or removed (R345 step 4, R346, R436). -/
def sectionApply (nv : NonVol) (serial : Nat) (s : Section) (d : Device) : Device :=
  let p := s.number
  let d := abandonTests p d
  if s.remove then
    schedDropPart nv p { d with frames := { d.frames with
      parts := smDel d.frames.parts p, sectionSerial := smDel d.frames.sectionSerial p } }
  else
    let d := abandonTests p { d with frames := { d.frames with
      parts := smPut d.frames.parts none p (some s)
      sectionSerial := smPut d.frames.sectionSerial 0 p (serial % 2 ^ 32) } }
    if s.cages = 0 then partLinkLost p d else d

/-- The structure of a full Frame replaces the whole (R343). -/
def fullApply (nv : NonVol) (f : Frame) (d : Device) : Device :=
  let d := (List.range 16).foldl (fun d p => schedDropPart nv p (abandonTests p d)) d
  let d := { d with frames := { d.frames with glob := f.glob.getD d.frames.glob, parts := [], sectionSerial := [] } }
  f.sections.foldl (fun d s => sectionApply nv f.serial s d) d

/-- A remap is in progress (R264, R347). -/
def remapping (d : Device) : Bool := d.clus.any fun e => e.2.remap.isSome

/-- A unit of partition `p` is in flight (R345). -/
def unitFlies (d : Device) (p : Nat) : Bool := (partClusters d p).any fun k => !(unitsOn d k).isEmpty

/-- The application may commit: no collective stage of the partition's contexts is in progress, no unit of it is in flight, and no remap
that began before it runs (R345, R347): one that comes later waits. -/
def commitReady (d : Device) (f : Frame) : Bool :=
  !remapping d && f.sections.all fun s => !unitFlies d s.number && (boundTo d s.number).all fun c => !inStage d c

/-- The commit instant of application `a` of Frame `f` (R345 step 4, R346). -/
def commitInstant (nv : NonVol) (a : Application) (f : Frame) (d : Device) : Device :=
  let d := if f.isPartial then f.sections.foldl (fun d s => sectionApply nv f.serial s d) d else fullApply nv f d
  let d := { d with frames := { d.frames with
    serial := f.serial, seq := wrapInc 16 d.frames.seq
    apps := d.frames.apps.map fun b => if b.tag = a.tag then { b with committed := true } else b } }
  let which := if f.isPartial then (f.sections.head?.map (·.number)).getD 0 else 0xF
  txPumpAll nv (cageWatchAll nv (logPoint nv 2 0 0 0x5001 which f.serial d))

/-- The completion record of an application that has committed (R345 step 5). -/
def commitRecord (nv : NonVol) (d : Device) : Device :=
  match d.frames.apps.find? (·.committed) with
  | some a => complete nv a.tag stOK 0xFFFF 0 (appDrop a.tag d)
  | none => d

/-- APPLICATION_COMMIT (R345): the commit instant; the completion record follows it, at the next nanosecond or command of this name. -/
def applicationCommit (nv : NonVol) (d : Device) : Device :=
  match d.frames.apps.find? fun a => a.frame.isSome with
  | none => d
  | some a =>
    if a.committed then commitRecord nv d
    else
      match a.frame with
      | some f => if commitReady d f then commitInstant nv a f d else d
      | none => d

/-- APPLICATION_COMMIT (R345). -/
def execApplicationCommit (s : State) : Host.Outcome State Fault Refusal :=
  .next (onDev (fun nv d => if securityUp d then applicationCommit nv d else d) s)

/-! ### Crashes and resets (R348, R430, R431) -/

/-- The security core crashes: applications before their commit instant and a staging are abandoned, and their commands complete when it
returns; one that has committed then completes with OK (R348). -/
def frameCrash (d : Device) : Device :=
  let tags := d.frames.apps.map (fun a => (a.tag, if a.committed then stOK else stState)) ++ (d.frames.staging.map fun x => (x.1, stState)).toList
  { d with frames := { d.frames with apps := [], staging := none, owed := d.frames.owed ++ tags } }

/-- The security core is back: the commands it owes complete (R348). -/
def frameReturn (nv : NonVol) (d : Device) : Device :=
  d.frames.owed.foldl (fun d t => complete nv t.1 t.2 0xFFFF 0 d) { d with frames := { d.frames with owed := [] } }

/-- A reset of partition `p` abandons its application in progress (R348, R431). -/
def abandonApp (nv : NonVol) (p : Nat) (d : Device) : Device :=
  let mine := d.frames.apps.filter fun a => !a.committed && match a.frame with
    | some f => f.isPartial && f.sections.any fun s => s.number = p
    | none => false
  mine.foldl (fun d a => complete nv a.tag stState 0xFFFF 0 (appDrop a.tag d)) d

end Sys2Proof.Machine
end

