-- ==== Sys2Proof/WellFormed.lean ====
section
/-! DEFINITION. What makes a command well-formed: a core row carries a word of its own class (R185), a register access is
aligned and inside BAR0 (R16, R23), an aperture access lies inside its aperture (R350), a packet keeps the lengths of R275. -/

namespace Sys2Proof

/-- The payload is at most 4,096 B (R271). -/
def packetWf (q : StavaPacket) : Bool := q.payload.length ≤ 4096

/-- LENGTH of a READ_REQ is 4 to 4,096 and a multiple of 4 (R275). -/
def readLengthWf (q : StavaPacket) : Bool := q.length.toNat % 4 == 0 && 4 ≤ q.length.toNat && q.length.toNat ≤ 4096

/-- A fabric packet is 1 to 5 flits long, and 1 flit on VC0 and VC1 (R249). -/
def headerFits (h : FabricHeader) : Bool := 1 ≤ h.len.toNat && h.len.toNat ≤ 5 && (2 ≤ h.vc.toNat || h.len.toNat == 1)

/-- A COLLECTIVE message of kind `k`: its tail is the five words of R303, with the reserved fields 0. -/
def collectiveWf (k : Nat) (q : StavaPacket) : Bool :=
  let w := q.tail.getD 1 0
  packetWf q && q.type == 0 && q.op == 5 && q.tail.length == 5 && w.toNat / 4096 % 16 == k && w.toNat / 2 ^ 26 == 0 &&
    (q.tail.getD 3 0).toNat < 2048 && (q.tail.getD 4 0).toNat < 256

/-- The command is well-formed. -/
def Instr.wf : Instr → Bool
  | .identify _ => true
  | .version _ => true
  | .ctxCreate _ => true
  | .ctxDestroy _ => true
  | .ctxGrant _ => true
  | .windowOpen _ => true
  | .windowRevoke _ => true
  | .keyWrite _ => true
  | .frameStage _ => true
  | .frameApply _ => true
  | .frameApplicationStart => true
  | .handover _ => true
  | .fence _ => true
  | .fenceContext _ => true
  | .reclaim _ => true
  | .reclaimComplete _ => true
  | .sliceTable _ => true
  | .fwStage _ => true
  | .fwActivate _ => true
  | .deferredActivationStart => true
  | .stackRetire _ => true
  | .fuseWrite _ => true
  | .testPackage _ => true
  | .escalate _ => true
  | .submit _ => true
  | .submitGateOpen _ => true
  | .collective _ => true
  | .idleWindows _ => true
  | .entryTake _ => true
  | .claim _ _ => true
  | .portLost _ => true
  | .lossTimeout => true
  | .handoverTimeout => true
  | .drainEnd => true
  | .doorbell _ _ _ => true
  | .headWrite _ _ _ => true
  | .ringCtrl _ _ _ => true
  | .apertureAccess _ _ off len data => 0 < len && off + len ≤ 2 ^ 32 && (data.getD (List.replicate len 0)).length == len
  | .ringAperHi _ _ _ _ => true
  | .capture (.inl _) ⟨off, size⟩ => (size == 1 || size == 2 || size == 4) && off % size == 0 && off + size ≤ 2 ^ 26
  | .capture (.inr _) ⟨off, size⟩ =>
    size == 4 && (off == 1 || off == 2 || (decide (0x03001000 ≤ off ∧ off < 0x03001040) && off % 4 == 0))
  | .registerWrite _ off size _ => (size == 1 || size == 2 || size == 4) && off % size == 0 && off + size ≤ 2 ^ 26
  | .streamStart _ => true
  | .unitClaim _ => true
  | .unitStart _ => true
  | .pass _ _ => true
  | .boundPass _ _ => true
  | .stripDrain _ _ _ => true
  | .unitCommit _ _ => true
  | .partCombine _ _ _ => true
  | .resultCopy _ _ _ => true
  | .recordSlotWrite _ _ => true
  | .streamComplete _ _ => true
  | .checkpointBegin _ => true
  | .checkpointEnd _ => true
  | .programComplete _ => true
  | .listPhase _ _ => true
  | .moveUnit _ _ => true
  | .receive _ _ => true
  | .parcelStart _ => true
  | .kernelLoad _ => true
  | .coreContextChange _ _ => true
  | .sAlu _ _ w => coreRow w == .sAlu
  | .sImm _ _ w => coreRow w == .sImm
  | .upper _ _ w => coreRow w == .upper
  | .branch _ _ w => coreRow w == .branch
  | .jump _ _ w => coreRow w == .jump
  | .load _ _ w => coreRow w == .load
  | .store _ _ w => coreRow w == .store
  | .loadReturn _ _ => true
  | .vAlu _ _ w => coreRow w == .vAlu
  | .vld _ _ w => coreRow w == .vld
  | .vst _ _ w => coreRow w == .vst
  | .vgather _ _ w => coreRow w == .vgather
  | .vscatter _ _ w => coreRow w == .vscatter
  | .vbcast _ _ w => coreRow w == .vbcast
  | .vcvt _ _ w => coreRow w == .vcvt
  | .block _ _ w => coreRow w == .block
  | .fld _ _ w => coreRow w == .fld
  | .fst _ _ w => coreRow w == .fst
  | .fgather _ _ w => coreRow w == .fgather
  | .fscatter _ _ w => coreRow w == .fscatter
  | .semwait _ _ w => coreRow w == .semwait
  | .semwaitRelease _ _ => true
  | .sempost _ _ w => coreRow w == .sempost
  | .barrier _ _ w => coreRow w == .barrier
  | .barrierRelease _ _ => true
  | .evwait _ _ w => coreRow w == .evwait
  | .evwaitReturn _ _ => true
  | .evadd _ _ w => coreRow w == .evadd
  | .fenceCore _ _ w => coreRow w == .fenceCore
  | .fenceFar _ _ w => coreRow w == .fenceFar
  | .gdone _ _ w => coreRow w == .gdone
  | .csrr _ _ w => coreRow w == .csrr
  | .csrw _ _ w => coreRow w == .csrw
  | .tagTaken _ _ _ => true
  | .tagLanded _ _ _ => true
  | .deferredPieceIssue _ _ => true
  | .unmappedReadDue _ _ _ => true
  | .pageWalk _ _ _ _ => true
  | .writeAccept _ => true
  | .combiningWriteBack _ _ => true
  | .stackNoAnswer _ _ => true
  | .sramUncorrectable _ st off _ _ => st < 4 && off < 2 ^ 20
  | .patrolScrub _ => true
  | .validate _ _ => true
  | .invalidate _ _ => true
  | .setDrainEnd _ => true
  | .memInvalGo _ _ => true
  | .memInvalComplete => true
  | .memDumpHi _ _ => true
  | .memSynlogHi _ _ => true
  | .memBankSel _ _ => true
  | .multicastRequest _ _ => true
  | .multicastDeliveryStart _ _ => true
  | .multicastAccept _ _ => true
  | .multicastTimeout _ _ => true
  | .packetReceive h => headerFits h.head && h.payload.length + 16 == 64 * h.head.len.toNat
  | .clusterRemap _ => true
  | .frameReceive _ f => f.body.length ≤ 4144
  | .write _ q => packetWf q && q.type == 0 && q.op == 0
  | .readReq _ q => packetWf q && q.type == 0 && q.op == 1 && readLengthWf q
  | .readData _ q => packetWf q && q.type == 0 && q.op == 2
  | .response _ q => packetWf q && q.type == 0 && q.op == 3
  | .revokeNotice _ q => packetWf q && q.type == 0 && q.op == 4
  | .ack _ q => packetWf q && q.type == 1 && q.payload.isEmpty
  | .ackTimer _ _ => true
  | .retransmitTimeout _ _ _ => true
  | .suspendExpiry _ _ => true
  | .flowIdleFree _ _ _ => true
  | .flowFail _ _ => true
  | .cageEnable _ _ _ => true
  | .retrain _ _ _ => true
  | .presenceHeld _ => true
  | .moduleReady _ _ _ => true
  | .cmisTimeout _ => true
  | .trainingDone _ => true
  | .trainingTimeout _ _ => true
  | .linkLoss _ loss => 2 ≤ loss.reason && loss.reason ≤ 4
  | .downTimeout _ => true
  | .presenceLost _ => true
  | .linkWintabHi _ _ => true
  | .collectiveGateOpen _ _ => true
  | .collectiveStage _ _ => true
  | .collectiveStageEnd _ _ => true
  | .partial_ _ q => collectiveWf 0 q
  | .result _ q => collectiveWf 1 q
  | .ready _ q => collectiveWf 2 q
  | .allReady _ q => collectiveWf 3 q
  | .straggler _ q => collectiveWf 4 q
  | .record _ q => collectiveWf 5 q
  | .normTotal _ q => collectiveWf 6 q
  | .digest _ q => collectiveWf 7 q
  | .grant _ q => collectiveWf 8 q
  | .arrival _ q => collectiveWf 9 q
  | .refuse _ q => collectiveWf 10 q
  | .stragglerTimeout _ _ => true
  | .normStep _ _ => true
  | .collectiveComplete _ _ => true
  | .sliceBoundary _ => true
  | .departure _ => true
  | .departureAbandon _ _ => true
  | .contextArrival _ => true
  | .allBlocked _ => true
  | .noticeTimeout _ => true
  | .syncEdge => true
  | .referencePresent => true
  | .referenceLost => true
  | .timeArmHi _ _ => true
  | .accountingPeriod => true
  | .timeAcctSnap _ _ => true
  | .kappaCalibration _ => true
  | .teardownComplete _ => true
  | .teardownTimeout _ => true
  | .quiescenceEnd _ => true
  | .hang _ => true
  | .engineResetTimeout _ => true
  | .partitionResetTimeout _ => true
  | .chipReset _ _ => true
  | .powerCycle => true
  | .testRun _ => true
  | .testRunEnd _ _ => true
  | .testRunAbandon _ => true
  | .testStarved _ => true
  | .fltLogHi _ _ => true
  | .boot => true
  | .processorCrash _ _ _ => true
  | .processorRestart _ _ => true
  | .standbyStart _ => true
  | .mainPowerOn _ _ => true
  | .mainPowerOff _ => true
  | .standbyStop _ => true
  | .governorStep _ _ _ _ => true
  | .powerWindow _ => true
  | .emergencyFlagRaised _ => true
  | .emergencyEnd => true
  | .thermalTrip _ _ => true
  | .shortPress _ => true
  | .longPress _ => true
  | .request _ => true
  | .quiesceNow _ => true
  | .cancel _ => true
  | .graceTimeout => true
  | .quiesceComplete => true
  | .setTime _ => true
  | .getStatus => true
  | .removal code => code ≤ 2
  | .pldmFirmwareUpdate _ _ => true
  | .hostLinkUp _ => true
  | .applicationCommit => true
  | .activationComplete _ => true
  | .fwStageComplete => true
  | .frameStageComplete => true
  | .clusterRemapComplete _ => true
  | .bubbleStart _ i => i < 16
  | .linkLaneTest _ _ => true
  | .marginExhausted _ => true
  | .modulePulled => true

end Sys2Proof
end

