-- ==== Sys2Proof/Machine/Net.lean ====
section
/-! DEFINITION. The on-die fabric: packets and flits, routers and their channels, the ring ports and the seam, the copies of the binding
table, and the receipt of a packet (09_on_die_fabric R247 to R253, R256 to R258, R261, R262, R264).

Two kinds of packets pass the routers: the messages of a remap (R264), and traffic whose sender, class and moment are free. What a step of
the block needs from another site comes about inside the step (log entry 123). -/

namespace Sys2Proof.Machine

/-! ### Sites and ring ports (R247, R257) -/

/-- A site is a ring port's (R247). -/
def ringSite (s : Nat) : Bool := decide (816 ≤ s ∧ s ≤ 883)

/-- The physical column of a site or ring port. -/
def siteCol (s : Nat) : Nat := if s < 816 then s % 34 else (s - 816) % 34

/-- The one ring port of a site: the north port of its column for physical rows 0 to 11, else the south port (R257). -/
def ringPort (s : Nat) : Nat := (if s / 34 < 12 then 816 else 850) + s % 34

/-! ### Headers and flits (R249) -/

/-- The 16 bytes of a fabric header (R249). -/
def headerBytes (h : FabricHeader) : List Byte :=
  toBytes 16 (pack [(0, 3, h.vc.toNat), (3, 5, h.kind.toNat), (8, 3, h.len.toNat), (16, 10, h.srcSite.toNat), (32, 10, h.dstSite.toNat),
    (42, 10, h.srcCluster.toNat), (52, 8, h.epoch.toNat), (64, 8, h.context.toNat), (72, 1, b2n h.ctxValid)])

/-- A packet's flits: the header with 48 B of inline payload, then the data flits (R249). -/
def packetFlits (h : FabricHeader) (body : NetBody) (payload : List Byte) : List Flit :=
  (List.range h.len.toNat).map fun i => ⟨h, body, i, ((headerBytes h ++ payload).drop (64 * i)).take 64⟩

/-- A header of `vc` and `len` from `src` to `dst`, sent by cluster `k` under `epoch`, or by a ring port where `k` is 0x3FF. -/
def netHeader (vc len src dst k epoch : Nat) : FabricHeader :=
  ⟨BitVec.ofNat 3 vc, 0, BitVec.ofNat 3 len, BitVec.ofNat 10 src, BitVec.ofNat 10 dst, BitVec.ofNat 10 k, BitVec.ofNat 8 epoch, 0, false⟩

/-! ### Virtual channels (R250, R251) -/

/-- The VC of a class: 0 CONTROL, 1 REPLY, 7 BULK, and by the Frame's map 2 MEM_READ, 3 MULTICAST, 4 MEM_WRITE,
5 CLUSTER, 6 LINK. -/
def classVc (d : Device) (c : Nat) : Nat := if c ≤ 1 ∨ c = 7 then c else fld d.frames.glob.vcMap (3 * (c - 2)) 3

/-- The VC that owns slot `n` of a frame of 16 cycles (R250). -/
def slotOwner (n : Nat) : Nat := [0, 1, 2, 3, 0, 4, 1, 5, 0, 2, 3, 6, 0, 1, 4, 7].getD (n % 16) 0

/-! ### Routes (R253) -/

/-- The output of router `node` toward `dst`: 0 north, 1 east, 2 south, 3 west, 4 the local port. First along the row, then the column. -/
def netDir (node dst : Nat) : Nat :=
  if siteCol dst < node % 34 then 3
  else if node % 34 < siteCol dst then 1
  else if 850 ≤ dst then 2
  else if 816 ≤ dst then 0
  else if dst / 34 < node / 34 then 0
  else if node / 34 < dst / 34 then 2
  else 4

/-- The channel of a packet within each link (R253). -/
def netChannel (h : FabricHeader) : Nat := (h.srcSite.toNat + h.dstSite.toNat) % 4

/-- The router and the input that output `out` of `node` leads to; none where the packet leaves the mesh. Output 5 leads from the queue
before a port into its router. -/
def netNext (node out : Nat) : Option (Nat × Nat) :=
  match out with
  | 0 => if node < 34 then none else some (node - 34, 2)
  | 1 => some (node + 1, 3)
  | 2 => if 782 ≤ node then none else some (node + 34, 0)
  | 3 => some (node - 1, 1)
  | 5 => some (if node < 816 then (node, 4) else if node < 850 then (node - 816, 0) else (node - 850 + 782, 2))
  | _ => none

/-- Output `out` of router `node` crosses the seam (R258). -/
def seamOut (node out : Nat) : Bool := (out == 1 && node % 34 == 16) || (out == 3 && node % 34 == 17)

/-- Flits that input `i` of router `node` buffers for a VC on a channel: 4, or 8 behind the seam (R252, R258). -/
def inputRoom (node i : Nat) : Nat := if (i = 1 ∧ node % 34 = 16) ∨ (i = 3 ∧ node % 34 = 17) then 8 else 4

/-- The half in whose cycles an output moves: its own, or at the seam the slower (R258). -/
def outHalf (d : Device) (node out : Nat) : Nat :=
  let own := if siteCol node < 17 then 0 else 1
  if seamOut node out then
    if halfMhz d 0 < halfMhz d 1 then 0 else if halfMhz d 1 < halfMhz d 0 then 1 else own
  else own

/-! ### Offering a packet -/

/-- The key of a buffer. -/
def bufKey (node i ch vc : Nat) : Nat := ((node * 6 + i) * 4 + ch) * 8 + vc

/-- A buffer takes flits behind those it holds. -/
def bufAdd (key : Nat) (l : List Flit) (d : Device) : Device :=
  { d with fabric := { d.fabric with bufs := smMod d.fabric.bufs [] key (· ++ l) } }

/-- A packet waits before the port of the site or ring port that sends it. -/
def netOffer (h : FabricHeader) (body : NetBody) (payload : List Byte) (d : Device) : Device :=
  bufAdd (bufKey h.srcSite.toNat 5 (netChannel h) h.vc.toNat) (packetFlits h body payload) d

/-- A message of the scheduler core for the router of a site; the I/O ring brings it to the port of the site's column (R256, R257). -/
def netTell (body : NetBody) (d : Device) (site : Nat) : Device := netOffer (netHeader 0 1 (ringPort site) site 0x3FF 0) body [] d

/-! ### The receipt of a packet (R261, R262) -/

/-- The binding of cluster `k` in the copy that receiver `at_` holds (R261). -/
def copyGet (nv : NonVol) (d : Device) (at_ k : Nat) : Binding :=
  (smGet d.fabric.copies none (at_ * 768 + k)).getD (bindGet nv d k)

/-- The receiver accepts the packet by its own copy (R262). SRC_CLUSTER 0x3FF names a ring port. -/
def packetOk (nv : NonVol) (d : Device) (h : FabricHeader) : Bool :=
  if h.srcCluster.toNat = 0x3FF then ringSite h.srcSite.toNat && h.epoch.toNat = 0
  else
    let b := copyGet nv d h.dstSite.toNat h.srcCluster.toNat
    decide (h.srcCluster.toNat < 768 ∧ h.srcSite.toNat = b.site ∧ h.epoch.toNat = b.epoch) && !b.fenced

/-- There is a receiver: a ring port, or a site whose router no fence has reached (R247, R264 step 2). -/
def receives (d : Device) (site : Nat) : Bool := decide (site ≤ 883) && !d.fabric.fences.contains site

/-- A dropped packet: counted, and an event for the first in each millisecond (R262, R444). -/
def packetDrop (nv : NonVol) (h : FabricHeader) (d : Device) : Device :=
  let d := fltCnt 6 d
  let recent := (d.fabric.dropAt.map fun t => decide (nv.up / 1000000 = t / 1000000)).getD false
  if recent then d
  else
    raiseEv nv 0x22 none (pack [(0, 10, h.srcCluster.toNat), (10, 10, h.srcSite.toNat)]) (smGet d.flt.cnt 0 6)
      { d with fabric := { d.fabric with dropAt := some nv.up } }

/-- A packet reaches its receiver, which accepts it or drops it (R262). One for a fenced site is not forwarded to it. -/
def packetArrive (h : FabricHeader) (nv : NonVol) (d : Device) : Device :=
  let ok := packetOk nv d h && receives d h.dstSite.toNat
  let d := { d with fabric := { d.fabric with accepted := ok } }
  if ok || !receives d h.dstSite.toNat then d else packetDrop nv h d

/-- PACKET_RECEIVE (R249, R262): the packet that has arrived at DST_SITE. -/
def packetReceive (h : FabricHeader) (payload : List Byte) (nv : NonVol) (d : Device) : Device :=
  if headerFits h && payload.length + 16 == 64 * h.len.toNat then packetArrive h nv d else d

/-- PACKET_RECEIVE (R262). -/
def execPacketReceive (h : FabricPacket) (s : State) : Host.Outcome State Fault Refusal :=
  .next (onDev (packetReceive h.head h.payload) s)

/-! ### Messages of a remap (R264) -/

/-- A router holds the new binding of cluster `k` and acknowledges it on VC1 (R264 step 3). -/
def bindArrive (site k : Nat) (d : Device) : Device :=
  netOffer (netHeader 1 1 site (ringPort site) 0x3FF 0) (.ack k) []
    { d with fabric := { d.fabric with copies := smDel d.fabric.copies (site * 768 + k) } }

/-- An acknowledgement arrives; the last of the 816 routers' starts the wait of step 4. -/
def ackArrive (nv : NonVol) (k : Nat) (d : Device) : Device :=
  { d with fabric := { d.fabric with rebinds := smMod d.fabric.rebinds none k (Option.map fun r =>
      { acks := r.acks + 1, done := if r.acks + 1 = 816 then some nv.up else r.done }) } }

/-- The last flit of a packet has arrived: the packet takes effect. -/
def netArrive (nv : NonVol) (f : Flit) (d : Device) : Device :=
  if f.idx + 1 ≠ f.head.len.toNat then d
  else
    match f.body with
    | .fence => { d with fabric := { d.fabric with fences := insAsc f.head.dstSite.toNat d.fabric.fences } }
    | .bind k _ => bindArrive f.head.dstSite.toNat k d
    | .ack k => ackArrive nv k d
    | .traffic => packetArrive f.head nv d

/-- The binding of cluster `k` goes to every router and ring port, whose copies hold `old` until it arrives (R264 step 3). The I/O ring
brings it to the ring ports at once (log entry 123). -/
def bindTell (k : Nat) (old b : Binding) (d : Device) : Device :=
  let sites := List.range 816
  let d := { d with fabric := { d.fabric with
    rebinds := smPut d.fabric.rebinds none k (some ⟨0, none⟩)
    copies := sites.foldl (fun m s => smPut m none (s * 768 + k) (some ((smGet d.fabric.copies none (s * 768 + k)).getD old))) d.fabric.copies } }
  sites.foldl (netTell (.bind k b)) d

/-- The die-wide VC7 bound at the current clocks, ns: 5 flits over 16 hops in one half, the seam and 39 hops in the other, the slower way
round (R254, R259, R264 step 4). -/
def bulkBound (d : Device) : Nat :=
  let way (a b : Nat) : Nat :=
    let s := min a b
    cdiv (1000 * ((4 + 16 * 321) * s * b + (321 + 3 + 4 * 16) * a * b + 39 * 321 * a * s)) (a * s * b)
  max (way (halfMhz d 0) (halfMhz d 1)) (way (halfMhz d 1) (halfMhz d 0))

/-- The binding of cluster `k` is acknowledged everywhere, and the VC7 bound has passed since (R264 step 4). -/
def boundAll (nv : NonVol) (d : Device) (k : Nat) : Bool :=
  (((smGet d.fabric.rebinds none k).bind (·.done)).map fun t => decide (t + bulkBound d ≤ nv.up)).getD false

/-! ### A cycle of the routers (R252) -/

/-- A flit at the head of a buffer, and the output it asks for. -/
structure NetReq where
  node : Nat
  input : Nat
  out : Nat
  ch : Nat
  vc : Nat
  flit : Flit
  deriving DecidableEq, Repr

/-- The request of a buffer. -/
def netReq (e : Nat × List Flit) : Option NetReq :=
  e.2.head?.map fun f =>
    let node := e.1 / 192
    let i := e.1 / 32 % 6
    ⟨node, i, if i = 5 then 5 else netDir node f.head.dstSite.toNat, e.1 / 8 % 4, e.1 % 8, f⟩

/-- The receiving side has a credit (R252, R258); what leaves the mesh is always taken (R256). -/
def netCredit (d : Device) (q : NetReq) : Bool :=
  match netNext q.node q.out with
  | none => true
  | some (r, i) => decide ((smGet d.fabric.bufs [] (bufKey r i q.ch q.vc)).length < inputRoom r i)

/-- How far input `i` lies behind the one that was granted last. -/
def turnOf (d : Device) (q : NetReq) : Nat := (q.input + 6 - smGet d.fabric.grants 0 (bufKey q.node q.out q.ch q.vc)) % 6

/-- What an output channel grants in cycle `n` to the requests for it: the slot's owner, else the lowest VC with a credit; of one VC, the
inputs in turn (R252). -/
def netGrant (d : Device) (n : Nat) (qs : List NetReq) : Option NetReq :=
  let ready := qs.filter (netCredit d)
  let vc := if ready.any fun q => q.vc == slotOwner n then slotOwner n else (ready.map (·.vc)).foldl min 8
  let same := ready.filter fun q => q.vc == vc
  same.find? fun q => same.all fun p => decide (turnOf d q ≤ turnOf d p)

/-- A granted flit moves by one hop. A fenced router drops what its own cluster injects (R264 step 2). -/
def netMove (nv : NonVol) (q : NetReq) (d : Device) : Device :=
  let d := { d with fabric := { d.fabric with
    bufs := smMod d.fabric.bufs [] (bufKey q.node q.input q.ch q.vc) (·.drop 1)
    grants := smPut d.fabric.grants 0 (bufKey q.node q.out q.ch q.vc) (q.input + 1) } }
  match netNext q.node q.out with
  | some (r, i) =>
    if q.out = 5 ∧ q.flit.body = .traffic ∧ d.fabric.fences.contains q.node then d
    else bufAdd (bufKey r i q.ch q.vc) [q.flit] d
  | none => netArrive nv q.flit d

/-- Cycle `n` of the output channels of half `h`: each moves at most one flit, all at once. -/
def netCycle (nv : NonVol) (h n : Nat) (d : Device) : Device :=
  let qs := (d.fabric.bufs.filterMap netReq).filter fun q => outHalf d q.node q.out == h
  let chans := (qs.map fun q => (q.node, q.out, q.ch)).eraseDups
  let moves := chans.filterMap fun c => netGrant d n (qs.filter fun q => (q.node, q.out, q.ch) == c)
  moves.foldl (fun d q => netMove nv q d) d

/-- The cycles of half `h` that end while its counter goes from `a` to `b` thousandths. -/
def netRuns (nv : NonVol) (h a b : Nat) (d : Device) : Device :=
  if d.fabric.bufs.isEmpty then d
  else (List.range (b / 1000 - a / 1000)).foldl (fun d j => netCycle nv h (a / 1000 + j) d) d

/-! ### Traffic -/

/-- The ends of a packet of class `c` between the sites `s` and `t` of two clusters: MEM_READ comes from the ring and MEM_WRITE goes to it,
MULTICAST and CLUSTER run between sites, and the others either way, as `w` says (R250, R257). -/
def trafficEnds (c s t w : Nat) : Nat × Nat :=
  if c = 2 then (ringPort s, s)
  else if c = 4 then (s, ringPort s)
  else if c = 3 ∨ c = 5 ∨ w % 3 = 0 then (s, t)
  else if w % 3 = 1 then (ringPort s, s) else (s, ringPort s)

/-- A nanosecond in which a packet may be offered: whether one is, its class, its ends, its length and what it carries are free
(log entry 123). A cluster sends under its binding; a fenced one, or one out of service, sends nothing. -/
def trafficTick (nv : NonVol) (d : Device) : Device :=
  let w (j : Nat) : Nat := (Config.freeWord (d.fresh + j)).toNat
  let e := drawFresh 5 d
  let b := bindGet nv d (w 1 % 768)
  let b' := bindGet nv d (w 2 % 768)
  if !bit (w 0) 0 ∨ b.fenced ∨ b'.fenced ∨ (cluGet d (w 1 % 768)).remap.isSome then e
  else
    let c := w 3 % 8
    let len := if c ≤ 1 then 1 else 1 + w 4 / 8 % 5
    let p := trafficEnds c b.site b'.site (w 4)
    let h := if ringSite p.1 then netHeader (classVc d c) len p.1 p.2 0x3FF 0 else netHeader (classVc d c) len p.1 p.2 (w 1 % 768) b.epoch
    netOffer h .traffic (freeBytes (d.fresh + 5) (64 * len - 16)) (drawFresh (64 * len - 16) e)

end Sys2Proof.Machine
end

