-- ==== Sys2Proof/Machine/Fabric.lean ====
section
/-! DEFINITION. The remap of a dead cluster (09_on_die_fabric R263 to R267, 16_faults_and_recovery R437). -/

namespace Sys2Proof.Machine

/-! ### Clusters that serve -/

/-- The cluster is dead or under remap, and not yet fenced off (R264). -/
def outOfService (d : Device) (k : Nat) : Bool := (cluGet d k).dead || (cluGet d k).remap.isSome

/-- The cluster takes units (R210, R264, R266, R417, R430, R436). -/
def takesUnits (nv : NonVol) (d : Device) (k : Nat) : Bool :=
  let x := cluGet d k
  !outOfService d k && x.downFrom.isNone && !x.stopped && x.reset.isNone && x.test.isNone && !(bindGet nv d k).fenced

/-- Cluster `k` is declared dead (R437); `reason` as UNIT_STATE gives it. -/
def declareDead (nv : NonVol) (k reason : Nat) (d : Device) : Device :=
  cluMod k (fun x => { x with dead := true }) (setHealth nv 0 k .dead reason d)

/-! ### Remap (R263 to R266) -/

/-- How far the spare of row `r` lies from row `row`, the lower row first on a tie (R263). -/
def spareRank (row r : Nat) : Nat := if r ≤ row then 2 * (row - r) else 2 * (r - row) + 1

/-- The best spare of a list of free ones for physical row `row` (R263). -/
def spareBest (row : Nat) (l : List Nat) : Option Nat :=
  match l with
  | [] => none
  | a :: t =>
    match spareBest row t with
    | none => some a
    | some b => if spareRank row (a / 34) ≤ spareRank row (b / 34) then some a else some b

/-- The spare that cluster `k` goes to: a free one of its own half (R263). -/
def spareFor (nv : NonVol) (d : Device) (k : Nat) : Option Nat :=
  spareBest ((bindGet nv d k).site / 34) ((spareSites (halfOf k)).filter (spareFree nv d))

/-- A Tally slot of an active stream of context `c` lives in cluster `k`. -/
def homedAt (d : Device) (c k : Nat) : Bool :=
  (((ctxGet d c).prog.map (·.runs)).getD []).any fun r => decide (r.home = k) && r.saved.isNone

/-- Cluster `k` holds kept state of context `c` other than its units in flight (R265, R384). -/
def keptIn (d : Device) (c k : Nat) : Bool :=
  resident d c && partOf d k == some (ctxGet d c).part.val && (((cluGet d k).coreCtx.map (·.val)) = some c || !(keptGranules d c k).isEmpty ||
    (homedAt d c k && !inRebuild d c))

/-- Cluster `k` holds state of a block with REBUILD = 1 of context `c` (R265). -/
def rebuildIn (d : Device) (c k : Nat) : Bool :=
  resident d c && inRebuild d c &&
    (homedAt d c k || (rangeGranules d c k).any fun g => (cluGet d k).written.contains (c, g))

/-- The units and claims of context `c` end wherever they run, and its Tally slots are freed. -/
def stopWork (c : Nat) (d : Device) : Device :=
  let ks := d.clus.map (·.1)
  let d := ks.foldl (fun d k =>
    let d := if ((cluGet d k).claimed.map (·.ctx.val)) = some c then dropClaim k d else d
    ((unitsOn d k).filter fun u => u.2.ctx.val = c).foldl (fun d u => abandonUnit k u.1 d) d) d
  clusMap (fun _ x => { x with slots := smMapV x.slots TallySlot.init fun _ s => if s.ctx = c then slotFree s else s }) d

/-- Context `c` restarts its block from BEGIN (R123, R265). -/
def restartBlock (c : Nat) (d : Device) : Device := progMod c rewindProg (stopWork c d)

/-- What the contexts of cluster `k` meet when its state is lost (R265): old site, new site. -/
def stateLost (nv : NonVol) (k old new_ : Nat) (d : Device) : Device :=
  let cs := d.ctxs.map (·.1)
  let faulted := cs.filter fun c => keptIn d c k
  let restarted := cs.filter fun c => !keptIn d c k && rebuildIn d c k
  let f : FaultAt := ⟨0x0B, stCtxFault, 6, some k, none, none, 0, pack [(0, 10, old), (10, 10, new_)], none⟩
  let d := restarted.foldl (fun d c => restartBlock c d) d
  faulted.foldl (fun d c =>
    faultCtx nv c { f with tag := (ctxGet d c).prog.map (·.tag) } d) d

/-- The copies of staged tiles that cluster `k` has not finished are lost, and are given out again (R113). -/
def copiesLost (k : Nat) (d : Device) : Device :=
  { d with ctxs := smMapV d.ctxs Ctx.init fun _ x => { x with
      prog := x.prog.map fun g => { g with runs := g.runs.map fun r => { r with copier := r.copier.filter fun e => e.2 ≠ k + 1 } } } }

/-- Every unit, claim and copy of cluster `k` goes back (R47, R113, R264 step 1). -/
def clearUnits (k : Nat) (d : Device) : Device :=
  (unitsOn d k).foldl (fun d u => abandonUnit k u.1 d) (dropClaim k (copiesLost k d))

/-- An application that began earlier goes first, whatever its partition (R347). -/
def remapWaits (d : Device) : Bool := d.frames.apps.any fun a => a.frame.isSome

/-- The binding of cluster `k` becomes `b`. -/
def bindPut (k : Nat) (b : Binding) (d : Device) : Device :=
  { d with fabric := { d.fabric with bind := smPut d.fabric.bind none k (some b) } }

/-- The old site of cluster `k` is fenced off, and every copy of the table is told of binding `b` (R264 steps 2 and 3). -/
def rebindGo (k : Nat) (old b : Binding) (d : Device) : Device := bindTell k old b (bindPut k b (netTell .fence d old.site))

/-- CLUSTER_REMAP (R264 to R266): step 1, and the fence and the binding messages of steps 2 and 3 leave. Where no spare is left, the record
of a lost state names no new site: a free value. -/
def clusterRemap (nv : NonVol) (k : Nat) (d : Device) : Device :=
  let x := cluGet d k
  if !x.dead || x.remap.isSome || !procUp d 2 || remapWaits d then d
  else
    let b := bindGet nv d k
    let d := clearUnits k (abandonTest k d)
    let d := cluMod k (fun y => { y with dead := false, deliveries := [], mcWait := [], wtags := [], tags := y.tags.map fun t => { t with live := false } }) d
    match spareFor nv d k with
    | some site =>
      let d := stateLost nv k b.site site d
      let d := cluMod k (fun y => { y with remap := some (b.site, site, nv.up) }) d
      let d := rebindGo k b ⟨site, (b.epoch + 1) % 256, true, false⟩ d
      checkReplace nv { d with fabric := { d.fabric with quarantined := insAsc b.site d.fabric.quarantined } }
    | none =>
      let n := (Config.freeWord d.fresh).toNat % 1024
      checkReplace nv (rebindGo k b { b with fenced := true } (stateLost nv k b.site n (drawFresh 1 d)))

/-- CLUSTER_REMAP (R264). -/
def execClusterRemap (k : CluNo) (s : State) : Host.Outcome State Fault Refusal :=
  .next (onDev (fun nv d => clusterRemap nv k.val d) s)

/-- Cores `0` to `63` of cluster `k` become `x`. -/
def coresPut (k : Nat) (x : Core) (d : Device) : Device :=
  (List.range 64).foldl (fun d j => coreMod k j (fun _ => x) d) d

/-- CLUSTER_REMAP_COMPLETE (R264 steps 4 and 5): every acknowledgement has arrived and the VC7 bound has passed, the spare's SRAM is clear
and its control core runs. -/
def clusterRemapComplete (nv : NonVol) (k : Nat) (d : Device) : Device :=
  let x := cluGet d k
  if x.remap.isSome ∧ boundAll nv d k ∧ procUp d 2 then
    let d := { d with fabric := { d.fabric with rebinds := smDel d.fabric.rebinds k } }
    coresPut k Core.init (cluMod k (fun _ => { Cluster.init with
      resetTag := x.resetTag, reset := x.reset.map fun r => (r.1, r.1) }) d)
  else d

/-- CLUSTER_REMAP_COMPLETE (R264). -/
def execClusterRemapComplete (k : CluNo) (s : State) : Host.Outcome State Fault Refusal :=
  .next (onDev (fun nv d => clusterRemapComplete nv k.val d) s)

end Sys2Proof.Machine
end

