-- ==== Sys2Proof/Machine/Units.lean ====
section
/-! DEFINITION. A unit of a stream: its rows, columns and k-blocks, its passes, the code words it needs, and its writes
(R37 to R50, R58 to R60, R143 to R157, R169 to R172, R221). -/

namespace Sys2Proof.Machine

/-! ### The stream of a unit -/

/-- What admission knows of a stream: its descriptor, one expert's descriptor, slot, kernel, remote records, governing SORT. -/
structure StreamInfo where
  x : StreamDesc
  y : StreamDesc
  slot : SlotP
  kernel : Option KernelEntry
  src : Option RemoteTarget
  dst : Option RemoteTarget
  gov : Option SortDesc
  deriving DecidableEq, Repr

/-- The stream of entry `idx` of context `c`. -/
def streamInfo (d : Device) (c idx : Nat) : Option StreamInfo :=
  match entryGet d c idx with
  | some (.stream x slot kernel src dst gov) => some ⟨x, perExpert x gov, slot, kernel, src, dst, gov⟩
  | _ => none

/-- The SORT descriptor of entry `idx` of context `c`. -/
def sortInfo (d : Device) (c idx : Nat) : Option SortDesc :=
  match entryGet d c idx with
  | some (.sort s) => some s
  | _ => none

/-- Rows of the whole output: E × M (R172). -/
def allRows (i : StreamInfo) : Nat := expertCount i.gov * i.y.m

/-- A and S of the map of Y (R129), and the tile of output element (r, n). -/
def mapS (i : StreamInfo) : Nat := cdiv i.y.n 8
def tileOf (i : StreamInfo) (r n : Nat) : Nat := r / 128 * mapS i + n / 8

/-- The stream predicts with trust: it is in a RECOMPUTE block (R149). -/
def trusted (d : Device) (c idx : Nat) : Bool := ((runGet d c idx).map (·.mode)).getD 2 == 1

/-- The region of a unit: first row and rows of Y over all experts, first column and columns, first k-block and k-blocks. -/
structure Region where
  r0 : Nat
  nr : Nat
  c0 : Nat
  nc : Nat
  b0 : Nat
  nb : Nat
  deriving DecidableEq, Repr

/-- The region of output tile `t` of expert `e`, over k-blocks `b0` … (R43, R172). -/
def tileRegion (i : StreamInfo) (e t b0 nb : Nat) : Region :=
  let y := i.y
  let row := if y.memOrder = 1 then t % mtOf y else t / ntOf y
  let col := if y.memOrder = 1 then t / mtOf y else t % ntOf y
  let tn := if isRow y then y.n else y.tn
  ⟨e * y.m + row * y.tm, min y.tm (y.m - row * y.tm), col * tn, min tn (y.n - col * tn), b0, nb⟩

/-- The region of dealt unit `n`, of repair unit `n` (R148), or of combined tile `n` (R45). -/
def unitRegion (i : StreamInfo) (n : Nat) (repair combine : Bool) : Region :=
  let y := i.y
  if repair then
    let a := n / mapS i
    let s := n % mapS i
    ⟨128 * a, min 128 (allRows i - 128 * a), 8 * s, min 8 (y.n - 8 * s), 0, kBlocks y⟩
  else if combine then tileRegion i 0 n 0 0
  else
    let per := mtOf y * ntOf y * partsOf y
    let p := n % per % partsOf y
    tileRegion i (n / per) (n % per / partsOf y) (partLo y p) (partLen y p)

/-- The region of a running unit. -/
def regionOf (i : StreamInfo) (u : UnitRun) : Region := unitRegion i u.unit u.repair u.combine

/-! ### Liveness (R171) -/

/-- Position `j` of expert `e` holds a live slot. -/
def liveSlot (i : StreamInfo) (counts : List Nat) (e j : Nat) : Bool :=
  match i.gov with
  | none => true
  | some s =>
    if s.op = 3 then decide (j % sortQ s < counts.getD (e * s.group + j / sortQ s) 0) else decide (j < counts.getD e 0)

/-- Row `r` of Y is streamed: its slot is live under KIND 1 and 2. -/
def liveRow (i : StreamInfo) (counts : List Nat) (r : Nat) : Bool :=
  opKind i.y = 3 || liveSlot i counts (r / i.y.m) (r % i.y.m)

/-- Reduction position `q` of the expert of row `r` is live under KIND 3. -/
def liveK (i : StreamInfo) (counts : List Nat) (r q : Nat) : Bool :=
  opKind i.y ≠ 3 || liveSlot i counts (r / i.y.m) q

/-- K-block `b` of the expert of row `r` is issued: under KIND 3 one of its positions is live (R171). -/
def kBlockIssued (i : StreamInfo) (counts : List Nat) (r b : Nat) : Bool :=
  opKind i.y ≠ 3 || i.gov.isNone || (List.range 128).any fun q => decide (128 * b + q < i.y.k) && liveK i counts r (128 * b + q)

/-- COUNT values that the stream of entry `idx` read when it started. -/
def countsOf (d : Device) (c idx : Nat) : List Nat := ((runGet d c idx).map (·.counts)).getD []

/-! ### Skipped granules and predicted tiles (R144, R155, R156) -/

/-- Bit columns of X's map (R154). -/
def skipS (i : StreamInfo) : Nat := cdiv (xCols i.y) 8

/-- The granule of row `r` and k-block `b`: its number a × 2^24 + g (R155). -/
def granuleOf (i : StreamInfo) (r b : Nat) : Nat := if opKind i.y = 3 then b * 2 ^ 24 + r / 128 else r / 128 * 2 ^ 24 + b

/-- Row `r` skips k-block `b`. Under ZMAP_SKIP, `pred` lists the skipped granules of the unit. -/
def rowSkips (i : StreamInfo) (pred : List Nat) (r b : Nat) : Bool := i.x.zmapSkip && pred.contains (granuleOf i r b)

/-- The tile of row `r` and column `n` is predicted (R143). -/
def predicted (i : StreamInfo) (pred : List Nat) (r n : Nat) : Bool := i.x.speculate && pred.contains (tileOf i r n)

/-- Row `r` takes part in the pass over strip column `n` and k-blocks `bs`. -/
def rowRuns (i : StreamInfo) (counts pred : List Nat) (r n : Nat) (bs : List Nat) : Bool :=
  liveRow i counts r && !predicted i pred r n && bs.any fun b => kBlockIssued i counts r b && !rowSkips i pred r b

/-! ### Passes (R37 to R41, R107) -/

/-- One pass: chunk, row block, strip, and its first k-block. -/
structure PassAt where
  chunk : Nat
  mb : Nat
  strip : Nat
  b : Nat
  deriving DecidableEq, Repr

/-- Row blocks and strips of a region. -/
def rowBlocks (i : StreamInfo) (g : Region) : Nat := cdiv g.nr (if i.y.tp = 0 then 1 else i.y.tp)
def stripsOf (g : Region) : Nat := cdiv g.nc 8

/-- The k-blocks that the pass from `b` covers: one, or D ÷ 128 of them (R107). -/
def passBlocks (i : StreamInfo) (g : Region) (b : Nat) : List Nat :=
  ((List.range (dOf i.y / 128)).map (b + ·)).filter fun x => x < g.b0 + g.nb

/-- K-blocks of one chunk, and the first k-blocks of the passes of chunk `h`. -/
def chunkBlocks (i : StreamInfo) : Nat := i.y.tk / 128
def chunkStarts (i : StreamInfo) (g : Region) (h : Nat) : List Nat :=
  let step := dOf i.y / 128
  (List.range (cdiv (min (chunkBlocks i) (g.nb - h * chunkBlocks i)) step)).map fun j => g.b0 + h * chunkBlocks i + j * step

/-- Chunks of a region. -/
def chunksOf (i : StreamInfo) (g : Region) : Nat := if i.y.tk = 0 then 1 else cdiv (g.nb * 128) i.y.tk

/-- The passes of one chunk in PAL_ORDER (R38); where the n loop lies outside the k loop it steps over the groups of R477. -/
def chunkPasses (i : StreamInfo) (g : Region) (h : Nat) : List PassAt :=
  let ms := List.range (rowBlocks i g)
  let ns := List.range (stripsOf g)
  let grp := stripGroup i.y
  let gs := List.range (cdiv (stripsOf g) grp)
  let inGroup (n : Nat) : List Nat := ((List.range grp).map (n * grp + ·)).filter fun s => s < stripsOf g
  let ks := chunkStarts i g h
  match i.y.palOrder with
  | 0 => ms.flatMap fun m => gs.flatMap fun n => ks.flatMap fun k => (inGroup n).map fun s => ⟨h, m, s, k⟩
  | 1 => gs.flatMap fun n => ms.flatMap fun m => ks.flatMap fun k => (inGroup n).map fun s => ⟨h, m, s, k⟩
  | 2 => ms.flatMap fun m => ks.flatMap fun k => ns.map fun s => ⟨h, m, s, k⟩
  | 3 => gs.flatMap fun n => ks.flatMap fun k => (inGroup n).flatMap fun s => ms.map fun m => ⟨h, m, s, k⟩
  | 4 => ks.flatMap fun k => ms.flatMap fun m => ns.map fun s => ⟨h, m, s, k⟩
  | _ => ks.flatMap fun k => ns.flatMap fun s => ms.map fun m => ⟨h, m, s, k⟩

/-- The rows of row block `mb`. -/
def blockRows (i : StreamInfo) (g : Region) (mb : Nat) : List Nat :=
  (List.range (min i.y.tp (g.nr - mb * i.y.tp))).map fun j => g.r0 + mb * i.y.tp + j

/-- The rows that a pass streams (R144, R156, R171). -/
def passRows (i : StreamInfo) (g : Region) (counts pred : List Nat) (p : PassAt) : List Nat :=
  (blockRows i g p.mb).filter fun r => rowRuns i counts pred r (g.c0 + 8 * p.strip) (passBlocks i g p.b)

/-- The passes that a unit runs: those with a row left. A combined tile and a path without an array run none. -/
def unitPasses (i : StreamInfo) (u : UnitRun) (counts : List Nat) : List PassAt :=
  let g := regionOf i u
  if u.combine || !hasArray i.x then []
  else (List.range (chunksOf i g)).flatMap fun h =>
    (chunkPasses i g h).filter fun p => (passRows i g counts u.pred p) ≠ []

/-- One bound pass: chunk, tile, k-block (R145). -/
structure BoundAt where
  chunk : Nat
  tile : Nat
  b : Nat
  deriving DecidableEq, Repr

/-- The bound passes of a unit: after each chunk, by tile and then k-block (R145); none under trusted prediction (R149). -/
def unitBounds (i : StreamInfo) (u : UnitRun) (trust : Bool) : List BoundAt :=
  let g := regionOf i u
  if u.combine || trust || !i.x.speculate then []
  else (List.range (chunksOf i g)).flatMap fun h =>
    u.pred.flatMap fun t => (chunkStarts i g h).map fun b => ⟨h, t, b⟩

/-- The chunk a unit works on: of its next pass or bound pass, whichever is earlier; past the last when none is left. -/
def chunkNow (i : StreamInfo) (u : UnitRun) (ps : List PassAt) (bs : List BoundAt) : Nat :=
  match ps[u.pos]?, bs[u.bpos]? with
  | some p, some b => min p.chunk b.chunk
  | some p, none => p.chunk
  | none, some b => b.chunk
  | none, none => chunksOf i (regionOf i u)

/-! ### Code words (R58, R149, R156) -/

/-- The code words that `len` bytes from virtual address `a` touch. -/
def spanWords (a len : Nat) : List Nat := if len = 0 then [] else (List.range (cdiv (a % 64 + len) 64)).map (a / 64 + ·)

/-- The pieces (offset, length) of a stored row of `l` elements that elements `lo` to `hi` − 1 take. -/
def rowPieces (f l lo hi : Nat) : List (Nat × Nat) :=
  if hi ≤ lo then []
  else if fmtBlock f then
    let bs := blockSize f
    let j0 := lo / bs
    let j1 := cdiv hi bs
    let w := bs * fmtBits f / 8
    [(w * j0, w * (j1 - j0)), (scaleAt f l j0, scaleBytes f * (j1 - j0))]
  else
    let b := fmtBits f
    [(b * lo / 8, cdiv (b * hi) 8 - b * lo / 8)]

/-- The code words of elements `lo` to `hi` − 1 of a row stored at `base`. -/
def rowWords (f l base lo hi : Nat) : List Nat := (rowPieces f l lo hi).flatMap fun p => spanWords (base + p.1) p.2

/-- The address of stored row `r` of X, and of stored row `r` of expert `e`'s W (R170). -/
def xRow (i : StreamInfo) (r : Nat) : Nat := i.x.xAddr + r * i.x.xPitch * 64
def wBase (i : StreamInfo) (e : Nat) : Nat :=
  expertW i.x i.gov e
def wRow (i : StreamInfo) (e r : Nat) : Nat := wBase i e + r * i.x.wPitch * 64

/-- The address of output row `r`. -/
def yRow (i : StreamInfo) (r : Nat) : Nat := i.x.yAddr + r * i.x.yPitch * 64

/-- The live reduction positions of k-block `b`. -/
def kRange (i : StreamInfo) (b : Nat) : Nat × Nat := (min (128 * b) i.y.k, min (128 * b + 128) i.y.k)

/-- X words of row `r` and k-block `b`. -/
def xWords (i : StreamInfo) (counts : List Nat) (r b : Nat) : List Nat :=
  let (lo, hi) := kRange i b
  if opKind i.y = 3 then
    ((List.range (hi - lo)).filter fun q => liveK i counts r (lo + q)).flatMap fun q =>
      rowWords i.x.xFmt (xCols i.y) (xRow i (r / i.y.m * i.y.k + lo + q)) (r % i.y.m) (r % i.y.m + 1)
  else rowWords i.x.xFmt (xCols i.y) (xRow i r) lo hi

/-- W words of k-block `b` of expert `e` and columns `c0` to `c1` − 1. -/
def wWords (i : StreamInfo) (counts : List Nat) (e b c0 c1 : Nat) : List Nat :=
  let (lo, hi) := kRange i b
  if opSparse i.y ≠ 0 then
    let n := sparseRows i.y
    let vals := if opSparse i.y = 1 then 64 else 32
    let metaBits := if opSparse i.y = 1 then 4 else 2
    (List.range n).flatMap fun q =>
      let a := wRow i e (b * n + q)
      if q < vals then rowWords i.x.wFmt i.y.n a c0 c1
      else spanWords (a + metaBits * c0 / 8) (cdiv (metaBits * c1) 8 - metaBits * c0 / 8)
  else if opKind i.y = 2 then
    (List.range (c1 - c0)).flatMap fun q => rowWords i.x.wFmt (wCols i.y) (wRow i e (c0 + q)) lo hi
  else
    ((List.range (hi - lo)).filter fun q => liveK i counts (e * i.y.m) (lo + q)).flatMap fun q =>
      rowWords i.x.wFmt i.y.n (wRow i e (lo + q)) c0 c1

/-- The X words, and the W words, that a pass needs; the stationary rows of a k-block that every row skips are not read (R156). -/
def passX (i : StreamInfo) (g : Region) (counts pred : List Nat) (p : PassAt) : List Nat :=
  (passRows i g counts pred p).flatMap fun r =>
    ((passBlocks i g p.b).filter fun b => kBlockIssued i counts r b && !rowSkips i pred r b).flatMap fun b => xWords i counts r b
def passW (i : StreamInfo) (g : Region) (counts pred : List Nat) (p : PassAt) : List Nat :=
  let rows := passRows i g counts pred p
  let used (e b : Nat) : Bool := rows.any fun r => r / i.y.m == e && kBlockIssued i counts r b && !rowSkips i pred r b
  (rows.map fun r => r / i.y.m).eraseDups.flatMap fun e => ((passBlocks i g p.b).filter (used e)).flatMap fun b =>
    wWords i counts e b (g.c0 + 8 * p.strip) (min (g.c0 + 8 * p.strip + 8) (g.c0 + g.nc))

/-- The rows and columns of map tile `t` inside a region. -/
def tileRows (i : StreamInfo) (g : Region) (t : Nat) : List Nat :=
  (List.range 128).filterMap fun q =>
    let r := t / mapS i * 128 + q
    if g.r0 ≤ r ∧ r < g.r0 + g.nr then some r else none
def tileCols (i : StreamInfo) (g : Region) (t : Nat) : List Nat :=
  (List.range 8).filterMap fun q =>
    let n := t % mapS i * 8 + q
    if g.c0 ≤ n ∧ n < g.c0 + g.nc then some n else none

/-- The words that a bound pass needs of X, and of W. -/
def boundX (i : StreamInfo) (g : Region) (counts : List Nat) (p : BoundAt) : List Nat :=
  ((tileRows i g p.tile).filter (liveRow i counts)).flatMap fun r => xWords i counts r p.b
def boundW (i : StreamInfo) (g : Region) (counts : List Nat) (p : BoundAt) : List Nat :=
  (((tileRows i g p.tile).map fun r => r / i.y.m).eraseDups).flatMap fun e =>
    match (tileCols i g p.tile).head?, (tileCols i g p.tile).getLast? with
    | some a, some z => wWords i counts e p.b a (z + 1)
    | _, _ => []

/-- The words of Y that an ACC_INIT unit reads (R113). -/
def initWords (i : StreamInfo) (u : UnitRun) : List Nat :=
  let g := regionOf i u
  if accInit i.x ∧ i.x.ksplit = 0 ∧ !u.combine then
    (List.range g.nr).flatMap fun q => rowWords i.x.yFmt i.y.n (yRow i (g.r0 + q)) g.c0 (g.c0 + g.nc)
  else []

/-- The words of the write mask that FETCH reads for a unit (R153); the mask of an ACC_INIT stream is read with the copy, and parts and
combined tiles have none here (R113, R45). -/
def maskWords (i : StreamInfo) (u : UnitRun) : List Nat :=
  let g := regionOf i u
  let bits (a lo n : Nat) : List Nat := if n = 0 then [] else spanWords (a + lo / 8) ((lo + n - 1) / 8 - lo / 8 + 1)
  if accInit i.x ∨ i.x.ksplit ≠ 0 ∨ u.combine then []
  else
    match i.slot.maskKind with
    | 0 => []
    | 1 => bits i.slot.maskAddr g.r0 g.nr
    | 2 => bits i.slot.maskAddr g.c0 g.nc
    | _ => ((List.range g.nr).map (g.r0 + ·)).flatMap fun r => bits (i.slot.maskAddr + r * 64 * cdiv i.y.n 512) g.c0 g.nc

/-- The words of chunk `h` of a unit: those of its passes and bound passes, of W alone or of all operands. -/
def chunkW (i : StreamInfo) (u : UnitRun) (counts : List Nat) (ps : List PassAt) (bs : List BoundAt) (h : Nat) : List Nat :=
  let g := regionOf i u
  ((ps.filter fun p => p.chunk = h).flatMap (passW i g counts u.pred)) ++ ((bs.filter fun p => p.chunk = h).flatMap (boundW i g counts))
def chunkX (i : StreamInfo) (u : UnitRun) (counts : List Nat) (ps : List PassAt) (bs : List BoundAt) (h : Nat) : List Nat :=
  let g := regionOf i u
  ((ps.filter fun p => p.chunk = h).flatMap (passX i g counts u.pred)) ++ ((bs.filter fun p => p.chunk = h).flatMap (boundX i g counts))

/-- The X words, and W words, of row `r` of a unit without an array: a ROW unit, or a move unit whose source is FETCH. -/
def plainWords (i : StreamInfo) (u : UnitRun) (r : Nat) : List Nat :=
  let g := regionOf i u
  if exSource i.x then []
  else if isRow i.x then
    rowWords i.x.xFmt i.x.k (xRow i r) 0 i.x.k ++
      (if i.x.wAddr = 0 then [] else rowWords i.x.wFmt i.x.n (i.x.wAddr + r * i.x.wPitch * 64) 0 i.x.n)
  else rowWords i.x.xFmt i.x.k (xRow i r) g.c0 (min (g.c0 + g.nc) i.x.k)

/-- The words that FETCH may ask for now, in its order: those of the chunk at work, then those of the next (R39, R59). Under a tree
(`treed`) the W words come by delivery, but for a chunk that the unit fetches itself (R61, R232). A combined tile asks for none, nor
does a unit before its predictions are read (R143). -/
def fetchGroups (i : StreamInfo) (u : UnitRun) (counts : List Nat) (trust treed : Bool) : List Nat × List Nat :=
  if u.combine || !u.predRead then ([], [])
  else if !hasArray i.x then
    ((if has i.x 5 then [] else ((List.range (regionOf i u).nr).map ((regionOf i u).r0 + ·)).flatMap (plainWords i u)) ++ maskWords i u, [])
  else
    let ps := unitPasses i u counts
    let bs := unitBounds i u trust
    let h := chunkNow i u ps bs
    let w (h : Nat) : List Nat := if treed && !u.fell.contains h then [] else chunkW i u counts ps bs h
    ((initWords i u ++ chunkX i u counts ps bs h ++ w h ++ maskWords i u).eraseDups,
      (chunkX i u counts ps bs (h + 1) ++ w (h + 1)).eraseDups)

/-- The words of both chunks. -/
def fetchWords (i : StreamInfo) (u : UnitRun) (counts : List Nat) (trust treed : Bool) : List Nat :=
  let g := fetchGroups i u counts trust treed
  (g.1 ++ g.2).eraseDups

/-! ### Transposing FETCH (R105) -/

/-- The words of the 32 × 32 block of the transposed operand at 32 × `qb` of the reduction and 32 × `ob` of the other dimension, over
every expert that the region touches. -/
def turnWords (i : StreamInfo) (u : UnitRun) (counts : List Nat) (b : Nat × Nat) : List Nat :=
  let g := regionOf i u
  let e := g.r0 / i.y.m
  let qs := (List.range 32).filterMap fun j => if 32 * b.1 + j < i.y.k then some (32 * b.1 + j) else none
  if opKind i.y = 2 then
    ((List.range 32).filterMap fun j => if 32 * b.2 + j < wCols i.y then some (32 * b.2 + j) else none).flatMap fun n =>
      rowWords i.x.wFmt (wCols i.y) (wRow i e n) (32 * b.1) (min i.y.k (32 * b.1 + 32))
  else
    (qs.filter fun q => liveK i counts g.r0 q).flatMap fun q =>
      rowWords i.x.xFmt (xCols i.y) (xRow i (e * i.y.k + q)) (32 * b.2) (min (xCols i.y) (32 * b.2 + 32))

/-- The 32 × 32 blocks of the transposed operand that a region spans, in the order of their reading: k-blocks ascending, and within
one the other dimension, then the reduction (R103, R105). -/
def turnBlocks (i : StreamInfo) (u : UnitRun) : List (Nat × Nat) :=
  let g := regionOf i u
  let lo := if opKind i.y = 2 then g.c0 else g.r0 % i.y.m
  let n := if opKind i.y = 2 then g.nc else g.nr
  if i.x.xposeFetch then
    ((List.range g.nb).map (g.b0 + ·)).flatMap fun b => ((List.range (cdiv (lo % 32 + n) 32)).map (lo / 32 + ·)).flatMap fun o =>
      (List.range 4).map fun q => (4 * b + q, o)
  else []

/-- The blocks that FETCH has turned into the chunk buffer: all their words that the unit asks for have landed. -/
def turnedNow (i : StreamInfo) (u : UnitRun) (counts : List Nat) (trust : Bool) : List (Nat × Nat) :=
  if i.x.xposeFetch then
    let ask := fetchWords i u counts trust false
    (turnBlocks i u).filter fun b =>
      let ws := (turnWords i u counts b).filter ask.contains
      ws ≠ [] && ws.all u.have_.contains
  else []

/-- The words of the transposed operand that come before the others: FETCH reads one 32 × 32 block after another (R105). -/
def turnOrder (i : StreamInfo) (u : UnitRun) (counts : List Nat) (want : List Nat) : List Nat :=
  let bs := turnBlocks i u
  match bs.find? fun b => (turnWords i u counts b).any want.contains with
  | none => want
  | some b =>
    let here := turnWords i u counts b
    let later := (bs.filter (· ≠ b)).flatMap (turnWords i u counts)
    want.filter fun w => here.contains w || !later.contains w

/-- A byte of the unit's chunk buffers by virtual address. -/
def bufByte (u : UnitRun) (a : Nat) : Byte := smGet u.buf 0 a

/-- The unit at place `u` of cluster `k`, running or claimed, with its stream. -/
def fetchInfo (d : Device) (k u : Nat) : Option (UnitRun × StreamInfo) :=
  match unitAt d k u with
  | none => none
  | some r => (streamInfo d r.ctx.val r.idx).map fun i => (r, i)

/-- The unit running at place `u` of cluster `k` with its stream. -/
def unitInfo (d : Device) (k u : Nat) : Option (UnitRun × StreamInfo) :=
  match unitGet d k u with
  | none => none
  | some r => (streamInfo d r.ctx.val r.idx).map fun i => (r, i)

/-- Tree `t` of partition `p` (R338). -/
def treeGet (d : Device) (p t : Nat) : Option Tree := if t = 0 then none else (partGet d p).bind fun s => s.trees[t - 1]?

/-- The stream's W comes to cluster `k` by tree: W_TREE names one, and `k` is a member of it (R61, R338). -/
def onTree (d : Device) (k c : Nat) (i : StreamInfo) : Bool :=
  let p := (ctxGet d c).part.val
  hasArray i.x && ((treeGet d p i.x.wTree).map fun t => bit t.members (clusterIndex d p k)).getD false


/-! ### Translation (R219) -/

/-- The DPA of virtual address `va` for an access of context `c` from cluster `k`: by a cached translation, or by a walk
(R219). -/
def trans (d : Device) (k c va : Nat) (wr : Bool) : Except VErr Nat :=
  match (cluGet d k).xlates.find? fun x => decide (x.ctx = c ∧ x.va ≤ va ∧ va < x.va + x.size) with
  | some x => if wr && !x.write then .error (.readOnly va) else .ok (x.dpa + (va - x.va))
  | none =>
    match walk d.mem (ctxGet d c).root va wr with
    | .error e => .error e
    | .ok l => .ok (l.dpa + (va - l.va))

/-- The DPA of code word `va` / 64 for an access of context `c`, where there is memory (R215). -/
def transOk (d : Device) (k c va : Nat) (wr : Bool) : Except VErr Nat :=
  match trans d k c va wr with
  | .error e => .error e
  | .ok a => if dpaOk d.mem a 1 then .ok a else .error (.noMemory a)

/-- The code words of the page-table entries that a walk to `va` reads down to a leaf of `size` bytes (R216, R217). -/
def walkWords (m : Mem) (root va size : Nat) : List Nat :=
  let a1 := root + 8 * (va / 2 ^ 39)
  let a2 := fld (dNat m a1 8) 12 32 * 4096 + 8 * (va / 2 ^ 30 % 512)
  let a3 := fld (dNat m a2 8) 12 32 * 4096 + 8 * (va / 2 ^ 21 % 512)
  touchedWords m a1 8 ++ touchedWords m a2 8 ++ (if size = 2 ^ 21 then touchedWords m a3 8 else [])

/-- A walk from cluster `k` has found leaf `l`: its reads are charged to the context, the errors that they met are corrected, and the
translation is cached (R219, R228, R238). -/
def xlateKeep (nv : NonVol) (k c va : Nat) (l : Leaf) (d : Device) : Device :=
  let ws := walkWords d.mem (ctxGet d c).root va l.size
  cluMod k (fun x => { x with xlates := (⟨c, l.va, l.size, l.dpa, l.write⟩ :: x.xlates).take 128 })
    (meetErrors nv 4 (some c) 2 ws (moved c (64 * ws.length) 0 d))

/-- Cluster `k` holds the translation of `va` for context `c`. -/
def xlateHeld (d : Device) (k c va : Nat) : Bool :=
  (cluGet d k).xlates.any fun t => decide (t.ctx = c ∧ t.va ≤ va ∧ va < t.va + t.size)

/-- An access of cluster `k` at `va` walks where no translation is cached, and the walk's is cached (R219). -/
def xlateFill (nv : NonVol) (k c va : Nat) (wr : Bool) (d : Device) : Device :=
  if xlateHeld d k c va then d
  else
    match walk d.mem (ctxGet d c).root va wr with
    | .ok l => xlateKeep nv k c va l d
    | .error _ => d

/-! ### What a unit asks for (R60, R105, R224, R226) -/

/-- The words that the unit at place `u` waits for and has not asked for, in fetch order: the next chunk's once nothing of the chunk at
work is to be asked for or set aside (R224, R226). A claimed unit asks for its first chunk only (R59). A word whose page is not mapped is
not asked for (R60). -/
def unitWants (d : Device) (k u : Nat) : List Nat :=
  match fetchInfo d k u with
  | none => []
  | some (r, i) =>
    let c := r.ctx.val
    let counts := countsOf d c r.idx
    let flying := ((cluGet d k).tags.filter fun t => t.live && t.user.kind = 0 && t.user.u = u).flatMap (·.words)
    let mapped (w : Nat) : Bool := match trans d k c (w * 64) false with
      | .error (.unmapped _ _) => false
      | _ => true
    let due (ws : List Nat) : List Nat :=
      ws.filter fun w => !r.have_.contains w && !flying.contains w && !r.deferred.contains w && mapped w
    let (now, next) := fetchGroups i r counts (trusted d c r.idx) (onTree d k c i)
    let first := due now
    turnOrder i r counts (if first ≠ [] ∨ r.deferred ≠ [] ∨ u = claimPlace then first else due next)

/-! ### Writes of a unit (R221) -/

/-- The pieces of a write that each lie in one code word: DPA and bytes. -/
def wordPieces (n a : Nat) (bs : List Byte) : List (Nat × List Byte) :=
  match n with
  | 0 => []
  | m + 1 =>
    if bs.isEmpty then []
    else
      let l := 64 - a % 64
      (a, bs.take l) :: wordPieces m (a + l) (bs.drop l)

/-- The bytes of a code word that the pieces of a write give, later pieces last. -/
def piecesByte (ps : List WriteReq) (o : Nat) : Option Byte :=
  ps.foldl (fun acc p => if p.addr % 64 ≤ o ∧ o < p.addr % 64 + p.data.length then p.data[o - p.addr % 64]? else acc) none

/-- The combining buffer keeps at most 1,024 code words: the oldest is written back for a newer one (R221). -/
def combineCap (x : Cluster) : Cluster :=
  let words := (x.combining.map fun p => p.addr / 64).eraseDups
  match words with
  | [] => x
  | w :: _ =>
    if 1024 < words.length then
      { x with combining := x.combining.filter (fun p => p.addr / 64 ≠ w), writes := x.writes ++ x.combining.filter (fun p => p.addr / 64 = w) }
    else x

/-- One piece of STORE's output: a whole code word becomes a write; a partial one waits in the combining buffer, and leaves
it whole once complete, whichever units of the cluster gave its pieces (R221). -/
def combinePut (p : WriteReq) (x : Cluster) : Cluster :=
  if p.data.length = 64 then { x with writes := x.writes ++ [p] }
  else
    let same (q : WriteReq) : Bool := q.addr / 64 == p.addr / 64 && q.ctx == p.ctx
    let ps := x.combining.filter same ++ [p]
    let bytes := (List.range 64).filterMap fun o => piecesByte ps o
    if bytes.length = 64 then
      { x with combining := x.combining.filter (fun q => !same q)
               writes := x.writes ++ [{ p with
                 addr := p.addr / 64 * 64, data := bytes, units := (ps.flatMap (·.units)).eraseDups }] }
    else combineCap { x with combining := x.combining ++ [p] }

/-- The stream, number and repair mark of the unit at place `u`, for a fault record. -/
def unitNamed (d : Device) (k u : Nat) : Option (Nat × Nat × Bool) :=
  (fetchInfo d k u).map fun x => (x.2.x.stream, x.1.unit, x.1.repair)

/-- STORE writes `bs` at virtual address `va` for the unit at place `u` (R221); a refused page faults its context. -/
def storeOut (nv : NonVol) (k : Nat) (c : CtxNo) (u : Nat) (va : Nat) (bs : List Byte) (d : Device) : Device :=
  let ws := wordPieces (bs.length / 64 + 2) va bs
  let d := ws.foldl (fun d p => xlateFill nv k c.val p.1 true d) d
  let ps := ws.map fun p => (transOk d k c.val p.1 true, p.2)
  match ps.findSome? fun p => match p.1 with
    | .error e => some e
    | .ok _ => none with
  | some e => faultCtx nv c.val { vFault e 2 with clu := some k, stream := unitNamed d k u } d
  | none => ps.foldl (fun d p => match p.1 with
    | .ok a => cluMod k (combinePut ⟨c, [u], none, a, p.2⟩) d
    | .error _ => d) d

/-- The writes of a cluster that no hub has accepted, oldest first: those on memory tags, then those that wait for one (R223). -/
def outWrites (x : Cluster) : List WriteReq := x.wtags.flatMap (·.pieces) ++ x.writes

/-- The unit has writes that no hub has accepted (R46). -/
def unitWrites (x : Cluster) (u : Nat) : Bool := (outWrites x ++ x.combining).any fun w => w.units.contains u

end Sys2Proof.Machine
end

