-- ==== Sys2Proof/Machine/Mem.lean ====
section
/-! DEFINITION. The memory commands of 08_memory: memory tags, translations, hub writes, multicast trees, error correction, stripe
sets and the MEM registers that act when written. -/

namespace Sys2Proof.Machine

/-! ### Tag users (R223 to R226) -/

/-- Code words that the cores of cluster `k` wait for in far loads, one for each lane (R193). -/
def farNeeds (d : Device) (k : Nat) : List Nat :=
  (List.range 64).flatMap fun j => (coreGet d k j).fars.flatMap fun f => f.2.map fun l => l.2.1 / 64

/-- Words in flight on tags of a user. -/
def flying (x : Cluster) (user : TagUser) : List Nat :=
  (x.tags.filter fun t => decide (t.user = user) && t.live && t.landed.isNone).flatMap (·.words)

/-- `l` less one occurrence for each member of `m`. -/
def lessEach (l m : List Nat) : List Nat := m.foldl (fun l a => l.erase a) l

/-- The words that a tag user may ask for now. -/
def userWants (d : Device) (k : Nat) (user : TagUser) : List Nat :=
  let x := cluGet d k
  if user.kind = 0 then unitWants d k user.u
  else if user.kind = 1 then if user.u = 0 then lessEach (farNeeds d k) (flying x user) else []
  else
    ((x.deliveries.find? fun v => decide (v.tree = user.u) && v.words ≠ []).map (·.words)).getD []

/-- Pieces of the user set aside at quota (R226). -/
def userDeferred (d : Device) (k : Nat) (user : TagUser) : List Nat :=
  if user.kind = 0 then ((unitAt d k user.u).map (·.deferred)).getD [] else []

/-- The unit works on its last chunk (R44). -/
def inLastChunk (d : Device) (k : Nat) (u : Nat × UnitRun) : Bool :=
  match unitInfo d k u.1 with
  | none => true
  | some (r, i) =>
    if !hasArray i.x then true
    else
      let h := chunkNow i r (unitPasses i r (countsOf d r.ctx.val r.idx)) (unitBounds i r (trusted d r.ctx.val r.idx))
      decide (chunksOf i (regionOf i r) ≤ h + 1)

/-- The user that a user counts as (R224): the claimed unit's run-ahead reads count as those of the running unit whose last chunk let it
be claimed, and while the cluster runs none as a unit's of their own (log entry 84). -/
def hostOf (d : Device) (k : Nat) (user : TagUser) : TagUser :=
  if user = ⟨0, claimPlace⟩ then
    match (unitsOn d k).find? fun u => !u.2.combine && inLastChunk d k u with
    | some u => ⟨0, u.1⟩
    | none => user
  else user

/-- The user that a write counts as (R223): its unit, or the far accesses of the core context; a write of two units, and one of none,
goes on a shared tag. -/
def writeUser (w : WriteReq) : Option TagUser :=
  match w.units with
  | [u] => some ⟨0, u⟩
  | _ => w.core.map fun _ => ⟨1, 0⟩

/-- Tags that a user holds, of reads and of writes (R223, R224). -/
def tagsHeld (d : Device) (k : Nat) (user : TagUser) : Nat :=
  let x := cluGet d k
  (x.tags.filter fun t => hostOf d k t.user = user).length +
    (x.wtags.filter fun t => t.user.map (hostOf d k) = some user).length

/-- The user has a piece to send and no tag for it: a word to ask for, a piece set aside, or a write (R224, R226). -/
def userWaits (d : Device) (k : Nat) (user : TagUser) : Bool :=
  userWants d k user ≠ [] || userDeferred d k user ≠ [] || ((cluGet d k).writes.any fun w => writeUser w == some user)

/-- The users of cluster `k` that hold a tag or wait for one (R224). -/
def tagUsers (d : Device) (k : Nat) : List TagUser :=
  let x := cluGet d k
  let all := ((unitsOn d k).map fun u => (⟨0, u.1⟩ : TagUser)) ++ [⟨0, claimPlace⟩, ⟨1, 0⟩] ++
    (x.deliveries.map fun v => (⟨2, v.tree⟩ : TagUser)) ++ x.tags.map (·.user) ++ x.wtags.filterMap (·.user)
  ((all.eraseDups.filter fun u => decide (tagsHeld d k u ≠ 0) || userWaits d k u).map (hostOf d k)).eraseDups

/-- A waiting user may take a free tag of cluster `k` (R224). -/
def mayTake (d : Device) (k : Nat) (user : TagUser) : Bool :=
  let user := hostOf d k user
  let us := tagUsers d k
  let g := 21 / (if us.isEmpty then 1 else us.length)
  let used := (us.map (tagsHeld d k)).foldl (· + ·) 0
  let lack := (us.filter fun u => decide (u ≠ user) && userWaits d k u).foldl (fun n u => n + (g - tagsHeld d k u)) 0
  decide (used < 21) && (decide (tagsHeld d k user < g) || decide (lack < 21 - used))

/-- Shared tags in use by writes, of all clusters (R223). -/
def sharedHeld (d : Device) : Nat := (d.clus.map fun e => (e.2.wtags.filter (·.user.isNone)).length).foldl (· + ·) 0

/-- The pseudo-channel of a place / 64: stack × 64 + its number there (R220). -/
def channelOf (w : Nat) : Nat := w * 64 / 2 ^ 36 * 64 + pseudoChannel (w * 64 % 2 ^ 36)

/-- The quota of a user: QPC when its unit started, or now (R226, R245). -/
def quotaOf (d : Device) (k : Nat) (user : TagUser) : Nat :=
  if user.kind = 0 then ((unitGet d k user.u).map (·.qpc)).getD d.mem.quota else d.mem.quota

/-- The place / 64 that a write goes to. -/
def writePlace (d : Device) (w : WriteReq) : Nat := ((physOf d.mem w.addr).getD 0) / 64

/-- The user is at quota on a pseudo-channel: so many of its tags have a piece outstanding on it (R226). -/
def atQuota (d : Device) (k : Nat) (user : TagUser) (ch : Nat) : Bool :=
  let user := hostOf d k user
  let reads := (cluGet d k).tags.filter fun t =>
    decide (hostOf d k t.user = user) && t.landed.isNone && t.dwords.any fun w => channelOf w == ch
  let writes := (cluGet d k).wtags.filter fun t =>
    decide (t.user.map (hostOf d k) = some user) && t.pieces.any fun w => channelOf (writePlace d w) == ch
  decide (quotaOf d k user ≤ reads.length + writes.length)

/-- The pieces that a write tag takes: of the user of the oldest waiting write that may go, up to 32 in order, none of them on a
pseudo-channel at quota (R223, R226). -/
def writeBatch (d : Device) (k : Nat) (user : Option TagUser) : List WriteReq :=
  let may (w : WriteReq) : Bool := match user with
    | some u => !atQuota d k u (channelOf (writePlace d w))
    | none => true
  (((cluGet d k).writes.filter fun w => writeUser w == user).takeWhile may).take 32

/-- The waiting writes of cluster `k` take memory tags as far as they may (R223, R224, R226): a unit's and the cores' those of the cluster,
the others shared ones, of which there are 256. -/
def writeFlow (nv : NonVol) (k fuel : Nat) (d : Device) : Device :=
  match fuel with
  | 0 => d
  | f + 1 =>
    let users := ((cluGet d k).writes.map writeUser).eraseDups
    let can (u : Option TagUser) : Bool :=
      (match u with
        | some t => mayTake d k t
        | none => decide (sharedHeld d < 256)) && writeBatch d k u ≠ []
    match users.find? can with
    | none => d
    | some u =>
      let ps := writeBatch d k u
      writeFlow nv k f (cluMod k (fun x => { x with
        writes := ps.foldl (fun l w => l.erase w) x.writes, wtags := x.wtags ++ [⟨u, nv.up, ps⟩] }) d)

/-- The waiting writes of cluster `k` take tags now. -/
def writesTake (nv : NonVol) (k : Nat) (d : Device) : Device :=
  if (cluGet d k).writes = [] then d else writeFlow nv k (cluGet d k).writes.length d

/-- The context of a tag user of cluster `k`. -/
def userCtx (d : Device) (k : Nat) (user : TagUser) : Option CtxNo :=
  let x := cluGet d k
  if user.kind = 0 then (unitAt d k user.u).map (·.ctx)
  else if user.kind = 1 then x.coreCtx
  else (x.deliveries.find? fun v => decide (v.tree = user.u) && v.words ≠ []).map (·.ctx)

/-- The places / 64 of virtual code words, with their DPAs / 64; none when one is not mapped (R60, R215). -/
def placesOf (d : Device) (k c : Nat) (ws : List Nat) : Except VErr (List (Nat × Nat × Nat)) :=
  match ws with
  | [] => .ok []
  | w :: t =>
    match transOk d k c (w * 64) false with
    | .error e => .error e
    | .ok a =>
      match placesOf d k c t with
      | .error e => .error e
      | .ok l => .ok ((w, a / 64, ((physOf d.mem a).getD 0) / 64) :: l)

/-- A tag is taken for the pieces `ps` (word, DPA / 64, place / 64). -/
def tagTake (nv : NonVol) (k : Nat) (user : TagUser) (c : CtxNo) (ps : List (Nat × Nat × Nat)) (d : Device) : Device :=
  let v := (cluGet d k).deliveries.find? fun v => decide (user.kind = 2 ∧ v.tree = user.u) && v.words ≠ []
  let t : Tag := {
    user := user, ctx := c, words := ps.map (·.1), dpas := ps.map (·.2.1), dwords := ps.map (·.2.2), at_ := nv.up
    dlv := v.map fun v => (v.idx, v.chunk), lost := [], waiting := (v.map (·.members)).getD [], landed := none, data := [], bad := []
    live := true }
  cluMod k (fun x => { x with
    tags := x.tags ++ [t]
    deliveries := x.deliveries.map (fun w => if some w = v then { w with words := lessEach w.words t.words } else w) }) d

/-- TAG_TAKEN (R224, R226): a waiting user takes a free tag for up to 32 of its pieces; pieces at quota go to the deferred
list. A run-ahead read of an unmapped page is not issued (R60); a refused translation faults the context (R215, R218). -/
def tagTaken (nv : NonVol) (k : Nat) (user : TagUser) (words : List Nat) (d : Device) : Device :=
  match userCtx d k user with
  | none => d
  | some c =>
    if words = [] ∨ 32 < words.length ∨ lessEach words (userWants d k user) ≠ [] ∨ !mayTake d k user ∨ outOfService d k then d
    else
      let d := words.foldl (fun d w => xlateFill nv k c.val (w * 64) false d) d
      match placesOf d k c.val words with
      | .error (.unmapped _ _) => d
      | .error e => faultCtx nv c.val { vFault e (if user.kind = 1 then 0 else 1) with
          clu := some k, stream := if user.kind = 0 then unitNamed d k user.u else none } d
      | .ok ps =>
        let now := ps.filter fun p => !atQuota d k user (channelOf p.2.2)
        let late := (ps.filter fun p => atQuota d k user (channelOf p.2.2)).map (·.1)
        if now = [] ∨ 64 < (userDeferred d k user).length + late.length ∨ (late ≠ [] ∧ user.kind ≠ 0) then d
        else
          let d := if late = [] then d else unitMod k user.u (fun r => { r with deferred := r.deferred ++ late }) d
          tagTake nv k user c now d

/-- TAG_TAKEN (R224). -/
def execTagTaken (k : CluNo) (user : TagUser) (words : List Nat) (s : State) : Host.Outcome State Fault Refusal :=
  .next (onDev (fun nv d => tagTaken nv k.val user words d) s)

/-- DEFERRED_PIECE_ISSUE (R226): the oldest deferred pieces whose pseudo-channel is below quota issue on a tag. -/
def deferredIssue (nv : NonVol) (k : Nat) (user : TagUser) (d : Device) : Device :=
  match userCtx d k user with
  | none => d
  | some c =>
    match placesOf d k c.val (userDeferred d k user) with
    | .error (.unmapped _ _) => d
    | .error e => faultCtx nv c.val { vFault e 1 with
        clu := some k, stream := if user.kind = 0 then unitNamed d k user.u else none } d
    | .ok ps =>
      let now := (ps.filter fun p => !atQuota d k user (channelOf p.2.2)).take 32
      if now = [] ∨ !mayTake d k user then d
      else
        tagTake nv k user c now
          (unitMod k user.u (fun r => { r with deferred := lessEach r.deferred (now.map (·.1)) }) d)

/-- DEFERRED_PIECE_ISSUE (R226). -/
def execDeferredPieceIssue (k : CluNo) (user : TagUser) (s : State) : Host.Outcome State Fault Refusal :=
  .next (onDev (fun nv d => deferredIssue nv k.val user d) s)

/-! ### Landing (R223, R231, R238, R239) -/

/-- The 64 bytes at place `w` × 64. -/
def wordBytes (m : Mem) (w : Nat) : List Byte := (List.range 64).map fun o => placeByte m (w * 64 + o)

/-- The bytes of a tag's pieces by virtual address. -/
def tagData (m : Mem) (t : Tag) : SMap Byte :=
  (t.words.zip t.dwords).foldl (fun b p =>
    ((wordBytes m p.2).zip (List.range 64)).foldl (fun b e => smPut b 0 (p.1 * 64 + e.2) e.1) b) []

/-- Bytes over a buffer: every byte of `ws` takes the value of `data`. -/
def overlay (ws : List Nat) (data buf : SMap Byte) : SMap Byte :=
  ws.foldl (fun b w => (List.range 64).foldl (fun b o => smPut b 0 (w * 64 + o) (smGet data 0 (w * 64 + o))) b) buf

/-- Landed words go into the unit's chunk buffers. -/
def unitLand (ws bad : List Nat) (data : SMap Byte) (u : UnitRun) : UnitRun :=
  { u with buf := overlay ws data u.buf, have_ := u.have_ ++ ws, bad := u.bad ++ bad }

/-- The unit at place `u` of cluster `k` takes landed words; the blocks of a transposed operand that are then whole are turned (R105). -/
def unitTakes (k u : Nat) (ws bad : List Nat) (data : SMap Byte) (d : Device) : Device :=
  let d := unitMod k u (unitLand ws bad data) d
  match fetchInfo d k u with
  | some (r, i) =>
    if i.x.xposeFetch then
      let l := turnedNow i r (countsOf d r.ctx.val r.idx) (trusted d r.ctx.val r.idx)
      unitMod k u (fun r => { r with turned := l }) d
    else d
  | none => d

/-- The number that `w` bytes from virtual address `a` of landed data spell. -/
def dataNat (data : SMap Byte) (a w : Nat) : Nat := ofBytes ((List.range w).map fun o => smGet data 0 (a + o))

/-- The lanes of register `r` that landed data fills: one lane, or for FLD (64 bytes) the lanes of the mask that stands above
16 in the lane's number (R193). -/
def farPut (r : Nat) (l : Nat × Nat × Nat) (data : SMap Byte) (v : SMap Word) : SMap Word :=
  if l.2.2 = 64 then
    (bitsOf 16 (l.1 - 16)).foldl (fun v i => smPut v 0 (16 * r + i) (w32 (dataNat data (l.2.1 + 4 * i) 4))) v
  else smPut v 0 (16 * r + l.1) (w32 (dataNat data l.2.1 l.2.2))

/-- A landed word serves the first lane of the cores of cluster `k` that waits for it (R193). -/
def farLand (k w : Nat) (data : SMap Byte) (d : Device) : Device :=
  let hit (f : Nat × List (Nat × Nat × Nat)) : Bool := f.2.any fun l => l.2.1 / 64 == w
  match (List.range 64).find? fun j => (coreGet d k j).fars.any hit with
  | none => d
  | some j =>
    match (coreGet d k j).fars.find? hit with
    | none => d
    | some f =>
      match f.2.find? fun l => l.2.1 / 64 == w with
      | none => d
      | some l =>
        coreMod k j (fun x => { x with
          v := if f.1 = 0 then x.v else farPut f.1 l data x.v
          fars := (x.fars.map fun g => if g = f then (g.1, g.2.erase l) else g).filter (·.2 ≠ []) }) d

/-- The core of cluster `k` that waits for word `w`, with its pc, for a fault record. -/
def farCore (d : Device) (k w : Nat) : Option (Nat × Nat) :=
  ((List.range 64).find? fun j => (coreGet d k j).fars.any fun f => f.2.any fun l => l.2.1 / 64 == w).map fun j =>
    (j, (coreGet d k j).pc.toNat)

/-- The place / 64 of virtual word `w` of tag `t`. -/
def wordPlace (t : Tag) (w : Nat) : Nat := (((t.words.zip t.dwords).find? fun p => p.1 = w).map (·.2)).getD 0

/-- The data of tag `t` reaches its user; tag number `n` of cluster `k` has left the list. `lost` are poisoned words. -/
def tagDeliver (nv : NonVol) (k : Nat) (t : Tag) (lost : List Nat) (d : Device) : Device :=
  let data := tagData d.mem t
  let d := moved t.ctx.val (64 * (t.words.length - t.lost.length)) 0 d
  if t.user.kind = 0 then unitTakes k t.user.u t.words lost data d
  else if t.user.kind = 1 then
    match lost with
    | w :: _ =>
      faultCtx nv t.ctx.val ⟨0x0A, stUncorrectable, 0, some k, farCore d k w, none, 0, synIndex d.mem (wordPlace t w), none⟩ d
    | [] => t.words.foldl (fun d w => farLand k w data d) d
  else d

/-- Tag `i` of cluster `k` has landed: a tree's data stays staged until its members have accepted it (R231); any other tag is
freed. A tag whose user wants the data no more is freed (R425). -/
def tagLand (nv : NonVol) (k i : Nat) (t : Tag) (lost : List Nat) (d : Device) : Device :=
  let free (d : Device) : Device := cluMod k (fun x => { x with tags := x.tags.eraseIdx i }) d
  if !t.live then cluMod k sweepDeliveries (free d)
  else if t.user.kind = 2 then
    let d := moved t.ctx.val (64 * (t.words.length - t.lost.length)) 0 d
    if t.waiting = [] then cluMod k sweepDeliveries (free d)
    else
      let t' := { t with landed := some d.time.now, data := tagData d.mem t, bad := lost }
      cluMod k (fun x => { x with tags := lMod x.tags i (fun _ => t') }) d
  else tagDeliver nv k t lost (free d)

/-- The virtual words of tag `t` that land poisoned, or that no stack has answered (R222, R239). -/
def tagPoison (m : Mem) (t : Tag) : List Nat :=
  ((t.words.zip t.dwords).filter fun p => m.poison.contains p.2 || t.lost.contains p.1).map (·.1)

/-- ACTION of the record of an uncorrectable error on a tag (R243): the data of a core's tag is consumed as it lands, and faults the
context; other data is poisoned and faults nothing yet. -/
def tagAction (d : Device) (t : Tag) : Nat := if t.user.kind = 1 && t.live && ctxLive d t.ctx.val then 2 else 3

/-- TAG_LANDED (R223): the errors that the hubs met are counted and recorded (R238, R239), then the data lands. -/
def tagLanded (nv : NonVol) (k i : Nat) (ecc : List EccNote) (d : Device) : Device :=
  match (cluGet d k).tags[i]? with
  | none => d
  | some t =>
    if t.landed.isSome then d
    else
      let ws := ((t.words.zip t.dwords).filter fun p => !t.lost.contains p.1).map (·.2)
      let action := tagAction d t
      let d := meetErrors nv 0 (some t.ctx.val) action ws d
      let d := (ecc.filter fun e => ws.contains e.word).foldl (fun d e => hbmError nv 0 (some t.ctx.val) (if e.fatal then action else 0) e d) d
      tagLand nv k i t (tagPoison d.mem t) d

/-- TAG_LANDED (R223). -/
def execTagLanded (k : CluNo) (i : Nat) (ecc : List EccNote) (s : State) : Host.Outcome State Fault Refusal :=
  .next (onDev (fun nv d => tagLanded nv k.val i ecc d) s)

/-- An access to the code word at place `w` × 64 is uncorrectable for want of an answer: it is counted and recorded (R222, R239). -/
def noAnswer (nv : NonVol) (source c action w : Nat) (d : Device) : Device :=
  let stack := w * 64 / 2 ^ 36
  let n := d.mem.synHead
  let d := memMod (fun m => { m with
    ue := smMod m.ue 0 stack (satInc 32), synAt := (w, nv.up, n) :: m.synAt.filter (·.1 ≠ w) }) d
  suspect nv 3 stack 8 (synRecord 2 source (some c) action 0 (hbmWhere (w * 64)) 0xFF 0 d)

/-- The pieces of read tag `i` that stack `stack` has not answered are lost (R222). The tag lands with them when its other pieces do, at
once where it has none. -/
def readLost (nv : NonVol) (k i stack : Nat) (t : Tag) (d : Device) : Device :=
  let ps := (t.words.zip t.dwords).filter fun p => decide (p.2 * 64 / 2 ^ 36 = stack) && !t.lost.contains p.1
  if t.landed.isSome ∨ nv.up < t.at_ + 100000 ∨ ps = [] then d
  else
    let d := ps.foldl (fun d p => noAnswer nv 0 t.ctx.val (tagAction d t) p.2 d) d
    let t' := { t with lost := t.lost ++ ps.map (·.1) }
    let d := cluMod k (fun x => { x with tags := lMod x.tags i fun _ => t' }) d
    if t'.lost.length < t'.words.length then d else tagLand nv k i t' t'.words d

/-- The writes of write tag `j` that stack `stack` has not answered are over: what the code word then holds is not known, so it is
poisoned (R222; log entry 113). -/
def writeLost (nv : NonVol) (k j stack : Nat) (t : WriteTag) (d : Device) : Device :=
  let hit (w : WriteReq) : Bool := decide (writePlace d w * 64 / 2 ^ 36 = stack)
  let ps := t.pieces.filter hit
  if nv.up < t.at_ + 100000 ∨ ps = [] then d
  else
    let left := t.pieces.filter fun w => !hit w
    let d := ps.foldl (fun d w =>
      let p := writePlace d w
      memMod (fun m => { m with poison := insAsc p m.poison })
        (noAnswer nv (if w.data.length = 64 then 0 else 1) w.ctx.val 3 p d)) d
    cluMod k (fun x => { x with
      wtags := if left = [] then x.wtags.eraseIdx j else lMod x.wtags j fun t => { t with pieces := left } }) d

/-- STACK_NO_ANSWER (R222): the pieces that memory tag `i` of cluster `k` has on stack `stack` complete as uncorrectable 100 µs after
issue, with their records. The tags of writes are numbered after those of reads. -/
def stackNoAnswer (nv : NonVol) (k i stack : Nat) (d : Device) : Device :=
  match (cluGet d k).tags[i]? with
  | some t => readLost nv k i stack t d
  | none =>
    match (cluGet d k).wtags[i - (cluGet d k).tags.length]? with
    | some t => writeLost nv k (i - (cluGet d k).tags.length) stack t d
    | none => d

/-- STACK_NO_ANSWER (R222). -/
def execStackNoAnswer (k : CluNo) (i : NoAnswer) (s : State) : Host.Outcome State Fault Refusal :=
  .next (onDev (fun nv d => stackNoAnswer nv k.val i.tag i.stack.val d) s)

/-! ### Translations (R60, R218, R219) -/

/-- PAGE_WALK (R219): the walk's translation is cached. A malformed entry faults the context at once; an unmapped or read-only
page faults it when the access is needed, as every write is (R60, R218). -/
def pageWalk (nv : NonVol) (k c va : Nat) (wr : Bool) (d : Device) : Device :=
  let x := cluGet d k
  let uses := ctxLive d c && ((unitsOn d k).any (fun u => u.2.ctx.val = c) || (x.coreCtx.map (·.val)) == some c ||
    (x.claimed.map (·.ctx.val)) == some c)
  if !uses ∨ xlateHeld d k c va then d
  else
    match walk d.mem (ctxGet d c).root va wr with
    | .ok l => xlateKeep nv k c va l d
    | .error (.unmapped a false) => if wr then faultCtx nv c { vFault (.unmapped a false) 3 with clu := some k } d else d
    | .error e => faultCtx nv c { vFault e 3 with clu := some k } d

/-- PAGE_WALK (R219). -/
def execPageWalk (k : CluNo) (c : CtxNo) (va : Nat) (wr : Bool) (s : State) : Host.Outcome State Fault Refusal :=
  .next (onDev (fun nv d => pageWalk nv k.val c.val va wr d) s)

/-- The words that the next pass, bound pass or row of a unit needs; with `all`, those of W that a tree delivers too (R230). -/
def needsNext (all : Bool) (d : Device) (k : Nat) (r : UnitRun) (i : StreamInfo) : List Nat :=
  let c := r.ctx.val
  let counts := countsOf d c r.idx
  let g := regionOf i r
  if hasArray i.x then
    let ps := unitPasses i r counts
    let bs := unitBounds i r (trusted d c r.idx)
    let treed := onTree d k c i
    let own (h : Nat) (w : List Nat) : List Nat := if treed && !all && !r.fell.contains h then [] else w
    (if r.pos = 0 then initWords i r else []) ++
      (match ps[r.pos]?, bs[r.bpos]? with
        | some p, some b =>
          if p.chunk ≤ b.chunk then passX i g counts r.pred p ++ own p.chunk (passW i g counts r.pred p)
          else boundX i g counts b ++ own b.chunk (boundW i g counts b)
        | some p, none => passX i g counts r.pred p ++ own p.chunk (passW i g counts r.pred p)
        | none, some b => boundX i g counts b ++ own b.chunk (boundW i g counts b)
        | none, none => [])
  else
    match (List.range g.nr).find? fun q => !r.sent.contains q && !r.drained.contains q with
    | some q => plainWords i r (g.r0 + q)
    | none => []

/-- The words that a unit fetches itself and needs next. -/
def nextNeeds (d : Device) (k : Nat) (r : UnitRun) (i : StreamInfo) : List Nat := needsNext false d k r i

/-! ### Writes (R221) -/

/-- A hub takes write `w`: it is visible; part of a code word is a read-modify-write, which meets what is wrong with the word and keeps its
poison (R221, R238, R239). An address without memory faults the context (R215). -/
def writeVisible (nv : NonVol) (k : Nat) (w : WriteReq) (d : Device) : Device :=
  let d := w.units.foldl (fun d u => unitMod k u (fun r => { r with idle := 0 }) d) d
  if dpaOk d.mem w.addr w.data.length then
    if w.data.length = 64 then moved w.ctx.val 0 64 (memMod (dWrite w.addr w.data) d)
    else
      moved w.ctx.val 64 64 (memMod (dWrite w.addr w.data)
        (meetErrors nv 1 (some w.ctx.val) 3 (touchedWords d.mem w.addr w.data.length) d))
  else faultCtx nv w.ctx.val { vFault (.noMemory w.addr) 4 with clu := some k, stream := w.units.head?.bind (unitNamed d k) } d

/-- WRITE_ACCEPT (R221, R223): the oldest write of cluster `k` that a tag holds becomes visible, and its tag is freed with its last. -/
def writeAccept (nv : NonVol) (k : Nat) (d : Device) : Device :=
  let d := writesTake nv k d
  match (cluGet d k).wtags with
  | [] => d
  | t :: rest =>
    match t.pieces with
    | [] => cluMod k (fun x => { x with wtags := rest }) d
    | w :: ps =>
      writeVisible nv k w (cluMod k (fun x => { x with wtags := if ps = [] then rest else { t with pieces := ps } :: rest }) d)

/-- WRITE_ACCEPT (R221). -/
def execWriteAccept (k : CluNo) (s : State) : Host.Outcome State Fault Refusal :=
  .next (onDev (fun nv d => writeAccept nv k.val d) s)

/-- COMBINING_WRITE_BACK (R221): the partial code word at DPA `word` × 64 leaves the combining buffer. -/
def combiningBack (k word : Nat) (d : Device) : Device :=
  cluMod k (fun x => { x with
    combining := x.combining.filter (fun p => p.addr / 64 ≠ word)
    writes := x.writes ++ x.combining.filter (fun p => p.addr / 64 = word) }) d

/-- COMBINING_WRITE_BACK (R221). -/
def execCombiningWriteBack (k : CluNo) (word : Nat) (s : State) : Host.Outcome State Fault Refusal :=
  .next (onDev (fun _ d => combiningBack k.val word d) s)

/-! ### Error correction (R241, R242) -/

/-- WHERE of a syndrome record for on-die SRAM (R243). -/
def sramWhere (k structure_ off : Nat) : Nat := pack [(0, 10, k), (10, 2, structure_), (12, 20, off)]

/-- The code word of 32 B of an SRAM byte (R237), apart from the words of external memory. -/
def sramWord (k structure_ off : Nat) : Nat := 2 ^ 41 + sramWhere k structure_ (off / 32 * 32)

/-- A corrected error in an SRAM of cluster `k` (R238, R243, R435): no data change. -/
def sramCorrected (nv : NonVol) (k structure_ off : Nat) (ctx : Option Nat) (syndrome symbol pattern : Nat) (d : Device) : Device :=
  let w := sramWord k structure_ off
  let recent := d.mem.synAt.any fun s => s.1 = w ∧ nv.up < s.2.1 + 1000000
  let d := cluMod k (fun x => { x with sramCeHour := lastHour nv.up 17 x.sramCeHour })
    (memMod (fun m => { m with sramCe := satInc 32 m.sramCe }) d)
  let d :=
    if recent then d
    else
      let n := d.mem.synHead
      synRecord 3 0 ctx 0 syndrome (sramWhere k structure_ off) symbol pattern
        (memMod (fun m => { m with synAt := (w, nv.up, n) :: m.synAt.filter (·.1 ≠ w) }) d)
  if 16 < (cluGet d k).sramCeHour.length then suspect nv 0 k 2 d else d

/-- The size of an SRAM structure (R234, R236): the core stores, the Palette, the accumulator; another is taken as 1 MiB. -/
def sramSize (structure_ : Nat) : Nat :=
  if structure_ = 1 then 512 * 1024 else if structure_ = 2 then 128 * 1024 else 1024 * 1024

/-- A nanosecond in which an SRAM may correct an error: whether it does, where, for which live context, and which symbol are free
(R238; log entry 75). -/
def sramTick (nv : NonVol) (d : Device) : Device :=
  let w (j : Nat) : Nat := (Config.freeWord (d.fresh + j)).toNat
  let k := w 1 % 768
  let c := w 4 / 2 % 256
  let ctx := if bit (w 4) 0 ∧ ctxLive d c then some c else none
  let e := drawFresh 7 d
  if bit (w 0) 0 ∧ !outOfService d k then
    sramCorrected nv k (w 2 % 4) (w 3 % sramSize (w 2 % 4)) ctx (w 5) (w 6 % 68) (w 6 / 2 ^ 8 % 16) e
  else e

/-- A nanosecond in which a code word of memory may go wrong: whether one does, which one, whether it can be corrected, and what its record
shows are free (R238, R239; log entry 75). The next read of the word meets it. -/
def hbmTick (d : Device) : Device :=
  let w (j : Nat) : Nat := (Config.freeWord (d.fresh + j)).toNat
  let word := (w 1 + 2 ^ 32 * w 2) % 2 ^ 35
  let e := drawFresh 5 d
  if bit (w 0) 0 ∧ !(d.mem.latent.any fun x => x.word == word) then
    memMod (fun m => { m with
      latent := m.latent ++ [⟨word, bit (w 0) 1, w32 (w 3), BitVec.ofNat 8 (if bit (w 0) 1 then 0xFF else w 4 % 136),
        BitVec.ofNat 4 (w 4 / 2 ^ 8)⟩] }) e
  else e

/-- The running unit of context `c` whose own accumulator granules or chunk buffers hold the error (R241): by its stream's
Palette range, or for the accumulator a unit with ACC, a free choice between two (log entry 24). -/
def sramUnit (d : Device) (k structure_ off c : Nat) : Option Nat :=
  let us := (unitsOn d k).filter fun u => u.2.ctx.val = c
  let desc (u : Nat × UnitRun) : Option StreamDesc := descGet d c u.2.idx
  if structure_ = 2 then
    let acc := us.filter fun u => ((desc u).map fun x => has x 5).getD false
    acc[(Config.freeWord d.fresh).toNat % (if acc.isEmpty then 1 else acc.length)]?.map (·.1)
  else if structure_ = 1 ∧ !(palKeep d c).contains (off / 16384) then
    (us.find? fun u => ((desc u).map fun x => decide (x.palBase * 1024 ≤ off ∧ off < (x.palBase + x.palSize) * 1024)).getD false).map (·.1)
  else none

/-- SRAM_UNCORRECTABLE (R241): the unit is re-issued, or the context faulted, or the error recorded only; the cluster becomes
suspect in every case. -/
def sramUncorrectable (nv : NonVol) (k structure_ off : Nat) (owner : Option CtxNo) (syndrome : Nat) (d : Device) : Device :=
  let live := owner.filter fun c => ctxLive d c.val
  let unit := live.bind fun c => sramUnit d k structure_ off c.val
  let action := if live.isNone then 4 else if unit.isSome then 1 else 2
  let n := d.mem.synHead
  let d := synRecord 4 0 (owner.map (·.val)) action syndrome (sramWhere k structure_ off) 0xFF 0
    (drawFresh 1 (memMod (fun m => { m with
      sramUe := satInc 32 m.sramUe
      synAt := (sramWord k structure_ off, nv.up, n) :: m.synAt.filter (·.1 ≠ sramWord k structure_ off) }) d))
  let d := match live, unit with
    | some _, some u => abandonUnit k u d
    | some c, none => faultCtx nv c.val ⟨0x0A, stUncorrectable, 1, some k, none, none, 0, n, none⟩ d
    | none, _ => d
  suspect nv 0 k 1 d

/-- SRAM_UNCORRECTABLE (R241). -/
def execSramUncorrectable (k : CluNo) (structure_ off : Nat) (owner : Option CtxNo) (syndrome : Nat) (s : State) :
    Host.Outcome State Fault Refusal :=
  .next (onDev (fun nv d => sramUncorrectable nv k.val structure_ off owner syndrome d) s)

/-- PATROL_SCRUB (R242): a full pass over the stacks in service ends, 8 hours after the last. -/
def patrolScrub (nv : NonVol) (ecc : List EccNote) (d : Device) : Device :=
  if nv.up < d.mem.scrubAt + 8 * 3600 * 10 ^ 9 then d
  else
    let d := (ecc.filter fun e => bit nv.capMemory (e.word * 64 / 2 ^ 36)).foldl (fun d e =>
      hbmError nv 2 none (if e.fatal then 3 else 0) e d)
      (meetErrors nv 2 none 3 (d.mem.latent.map (·.word)) d)
    memMod (fun m => { m with scrubPasses := satInc 16 m.scrubPasses, scrubAt := nv.up }) d

/-- PATROL_SCRUB (R242). -/
def execPatrolScrub (ecc : List EccNote) (s : State) : Host.Outcome State Fault Refusal :=
  .next (onDev (fun nv d => patrolScrub nv ecc d) s)

/-! ### Stripe sets (R214, R246) -/

/-- Changes stripe set `i`. -/
def setMod (i : Nat) (f : StripeSet → StripeSet) (d : Device) : Device := memMod (fun m => { m with sets := lMod m.sets i f }) d

/-- The ERROR that a VALIDATE of set `i` reports (R214, R246): 2, then 3, then 4. -/
def validateError (nv : NonVol) (m : Mem) (i : Nat) : Nat :=
  let s := setGet m i
  let others := (List.range 8).filter fun j => j ≠ i && (setGet m j).valid
  let hits := others.any fun j =>
    let t := setGet m j
    (bitsOf 32 s.mask).any fun n => bit t.mask n && decide (s.base < t.base + t.size) && decide (t.base < s.base + s.size)
  if s.mask % 2 ^ 32 = 0 ∨ (bitsOf 32 s.mask).any (fun n => !bit nv.capMemory n) then 2
  else if s.size = 0 ∨ 24576 < s.base + s.size then 3
  else if hits then 4
  else 0

/-- A write of MEM_SET_CTRL of set `i` (R246). -/
def setCtrl (nv : NonVol) (i v : Nat) (d : Device) : Device :=
  let s := setGet d.mem i
  let err (e : Nat) : Device := setMod i (fun s => { s with error := e }) d
  if bit v 8 ∧ bit v 9 then err 6
  else if bit v 8 then
    if s.valid then err 0
    else
      let e := validateError nv d.mem i
      if e ≠ 0 then err e else setMod i (fun s => { s with valid := true, error := 0 }) d
  else if bit v 9 then
    if !s.valid then err 0
    else if d.mem.dump / 2 ^ 41 = i ∨ d.mem.synlog / 2 ^ 41 = i then err 5
    else setMod i (fun s => { s with valid := false, draining := true, error := 0 }) d
  else err 0

/-- A host write of an owner's MEM register; from any other port it is discarded and counted (R245, R353). -/
def ownerWrite (p : Port) (f : NonVol → Device → Device) (nv : NonVol) (d : Device) : Device :=
  if !hostWrites nv d p then d else if isOwner d p then f nv d else denied d

/-- VALIDATE (R246). -/
def execValidate (p : Port) (i : Fin 8) (s : State) : Host.Outcome State Fault Refusal :=
  .next (onDev (ownerWrite p fun nv d => setCtrl nv i.val 0x100 d) s)

/-- INVALIDATE (R246). -/
def execInvalidate (p : Port) (i : Fin 8) (s : State) : Host.Outcome State Fault Refusal :=
  .next (onDev (ownerWrite p fun nv d => setCtrl nv i.val 0x200 d) s)

/-- SET_DRAIN_END (R246): the accesses accepted before INVALIDATE have completed. -/
def setDrainEnd (i : Nat) (d : Device) : Device :=
  let busy := d.clus.any fun e => e.2.tags.any fun t => t.landed.isNone && t.dpas.any fun a => a * 64 / 2 ^ 41 == i
  if (setGet d.mem i).draining ∧ !busy then setMod i (fun s => { s with draining := false }) d else d

/-- SET_DRAIN_END (R246). -/
def execSetDrainEnd (i : Fin 8) (s : State) : Host.Outcome State Fault Refusal :=
  .next (onDev (fun _ d => setDrainEnd i.val d) s)

/-! ### Invalidation (R219, R245) -/

/-- A write of MEM_INVAL_GO. -/
def invalGo (v : Nat) (d : Device) : Device :=
  let m := d.mem
  if !bit v 0 then d
  else if m.inval.isSome then memMod (fun m => { m with invRefused := true }) d
  else memMod (fun m => { m with inval := some (m.invAll, m.invCtx, m.invVa, m.invCount) }) d

/-- MEM_INVAL_GO (R219). -/
def execMemInvalGo (p : Port) (v : Word) (s : State) : Host.Outcome State Fault Refusal :=
  .next (onDev (ownerWrite p fun _ d => invalGo v.toNat d) s)

/-- The bytes from `va` of `size` lie in an invalidation's range (R245): 0 pages is the whole address space. -/
def invalHits (q : Bool × Nat × Nat × Nat) (c va size : Nat) : Bool :=
  (q.1 || q.2.1 == c) &&
    (q.2.2.2 == 0 || (decide (va < q.2.2.1 + q.2.2.2 * 2 ^ 21) && decide (q.2.2.1 < va + size)))

/-- MEM_INVAL_COMPLETE (R219): reads of the range have landed, its writes are visible, and no cache holds its translations. -/
def invalComplete (d : Device) : Device :=
  match d.mem.inval with
  | none => d
  | some q =>
    let busy := d.clus.any fun e =>
      (e.2.tags.any fun t => t.landed.isNone && t.words.any fun w => invalHits q t.ctx.val (w * 64) 64) ||
        ((outWrites e.2 ++ e.2.combining).any fun w => q.1 || q.2.1 == w.ctx.val)
    if busy then d
    else
      memMod (fun m => { m with inval := none, invSeq := wrapInc 16 m.invSeq })
        (clusMap (fun _ x => { x with xlates := x.xlates.filter fun t => !invalHits q t.ctx t.va t.size }) d)

/-- MEM_INVAL_COMPLETE (R219). -/
def execMemInvalComplete (s : State) : Host.Outcome State Fault Refusal := .next (onDev (fun _ d => invalComplete d) s)

/-! ### Registers that act (R235, R245, R474) -/

/-- MEM_DUMP_HI commits both halves when the whole region lies in one valid set; a refusal discards the stage (R474). -/
def dumpHi (v : Nat) (d : Device) : Device :=
  let lo := d.mem.dumpStage.getD (d.mem.dump % 2 ^ 32)
  let a := v % 2 ^ 12 * 2 ^ 32 + lo
  memMod (fun m => { m with dump := if dpaOk m a (64 * 2 ^ 20) then a else m.dump, dumpStage := none }) d

/-- MEM_DUMP_HI (R474). -/
def execMemDumpHi (p : Port) (v : Word) (s : State) : Host.Outcome State Fault Refusal :=
  .next (onDev (ownerWrite p fun _ d => dumpHi v.toNat d) s)

/-- MEM_SYNLOG_HI, under the rule of MEM_DUMP_HI. -/
def synlogHi (v : Nat) (d : Device) : Device :=
  let lo := d.mem.synStage.getD (d.mem.synlog % 2 ^ 32)
  let a := v % 2 ^ 12 * 2 ^ 32 + lo
  memMod (fun m => { m with synlog := if dpaOk m a (128 * 2 ^ 10) then a else m.synlog, synStage := none }) d

/-- MEM_SYNLOG_HI (R474). -/
def execMemSynlogHi (p : Port) (v : Word) (s : State) : Host.Outcome State Fault Refusal :=
  .next (onDev (ownerWrite p fun _ d => synlogHi v.toNat d) s)

/-- A write of MEM_BANK_SEL (R235, R245). -/
def bankSel (v : Nat) (d : Device) : Device :=
  if 768 ≤ fld v 0 10 then d
  else memMod (fun m => { m with bankEn := bit v 31, bankCtx := fld v 10 8, bankClu := fld v 0 10, bankCnt := [] }) d

/-- MEM_BANK_SEL (R235). -/
def execMemBankSel (p : Port) (v : Word) (s : State) : Host.Outcome State Fault Refusal :=
  .next (onDev (ownerWrite p fun _ d => bankSel v.toNat d) s)

/-! ### Multicast trees (R229 to R233) -/

/-- The number of the chunk `h` of a unit's W: its expert, column tile and part, and `h` (R230). -/
def chunkKey (i : StreamInfo) (u : UnitRun) (h : Nat) : Nat :=
  let g := regionOf i u
  let e := g.r0 / i.y.m
  ((e * ntOf i.y + g.c0 / i.y.tn) * (kBlocks i.y + 1) + g.b0) * 2 ^ 24 + h

/-- All W words of chunk `h` of a unit. -/
def fullW (i : StreamInfo) (u : UnitRun) (counts : List Nat) (h : Nat) : List Nat :=
  let g := regionOf i u
  ((chunkStarts i g h).flatMap fun b => (passBlocks i g b).flatMap fun q =>
    wWords i counts (g.r0 / i.y.m) q g.c0 (g.c0 + g.nc)).eraseDups

/-- The source cluster of tree `t` of partition `p` (R338). -/
def treeSource (d : Device) (p t : Nat) : Option Nat := (treeGet d p t).bind fun r => partCluster d p r.source

/-- The chunk that a unit on a tree needs next and neither has nor fetches itself; of a claimed unit, its first. -/
def chunkDue (i : StreamInfo) (r : UnitRun) (counts : List Nat) (trust claimed : Bool) : Option Nat :=
  let ps := unitPasses i r counts
  let bs := unitBounds i r trust
  let h := chunkNow i r ps bs
  if !r.predRead then none
  else (if claimed then [h] else [h, h + 1]).find? fun q => !r.fell.contains q && (chunkW i r counts ps bs q).any fun w => !r.have_.contains w

/-- A delivery of a chunk starts at source `s` for `members` (R230). -/
def deliveryStart (s : Nat) (v : Delivery) (d : Device) : Device :=
  cluMod s (fun x => { x with deliveries := x.deliveries ++ [v] }) d

/-- Deliveries of a tree in progress at a source. -/
def treeDeliveries (x : Cluster) (t : Nat) : List Delivery := x.deliveries.filter fun v => v.tree = t

/-- MULTICAST_REQUEST (R230): the member joins a delivery whose first tag is held still, starts one, or waits. -/
def multicastRequest (nv : NonVol) (k u : Nat) (d : Device) : Device :=
  match fetchInfo d k u with
  | none => d
  | some (r, i) =>
    let c := r.ctx.val
    let p := (ctxGet d c).part.val
    let t := i.x.wTree
    let counts := countsOf d c r.idx
    match treeSource d p t, chunkDue i r counts (trusted d c r.idx) (u == claimPlace) with
    | some s, some h =>
      if !onTree d k c i ∨ r.mcast.isSome ∨ !takesUnits nv d s then d
      else
        let key := chunkKey i r h
        let same (v : Delivery) : Bool := decide (v.tree = t ∧ v.ctx = r.ctx ∧ v.idx = r.idx ∧ v.chunk = key)
        let d := unitMod k u (fun r => { r with mcast := some h }) d
        let x := cluGet d s
        if x.deliveries.any fun v => same v && !v.closed then
          cluMod s (fun x => { x with
            deliveries := x.deliveries.map (fun v => if same v then { v with members := insAsc k v.members } else v)
            tags := x.tags.map (fun g =>
              if g.ctx = r.ctx ∧ g.dlv = some (r.idx, key) then { g with waiting := insAsc k g.waiting } else g) }) d
        else if !(x.deliveries.any same) && decide ((treeDeliveries x t).length < 2) then
          deliveryStart s ⟨(ctxGet d c).part, t, r.ctx, r.idx, key, [k], fullW i r counts h, false⟩ d
        else cluMod s (fun x => { x with mcWait := x.mcWait ++ [(t, c, r.idx, key, k)] }) d
    | _, _ => d

/-- MULTICAST_REQUEST (R230). -/
def execMulticastRequest (k : CluNo) (u : Nat) (s : State) : Host.Outcome State Fault Refusal :=
  .next (onDev (fun nv d => multicastRequest nv k.val u d) s)

/-- The unit of entry `idx` of context `c` on cluster `k`, running or claimed, with its stream. -/
def unitOf (d : Device) (k c idx : Nat) : Option (UnitRun × StreamInfo) :=
  let claimed := (cluGet d k).claimed.toList.map fun r => (claimPlace, r)
  ((unitsOn d k ++ claimed).find? fun u => decide (u.2.ctx.val = c ∧ u.2.idx = idx)).bind fun u => fetchInfo d k u.1

/-- MULTICAST_DELIVERY_START (R230): the oldest waiting request whose chunk has no delivery starts one, with every other
request for the chunk. -/
def multicastStart (p t : Nat) (d : Device) : Device :=
  match treeSource d p t with
  | none => d
  | some s =>
    let x := cluGet d s
    let busy (w : Nat × Nat × Nat × Nat × Nat) : Bool :=
      x.deliveries.any fun v => decide (v.tree = t ∧ v.ctx.val = w.2.1 ∧ v.idx = w.2.2.1 ∧ v.chunk = w.2.2.2.1)
    match x.mcWait.find? fun w => decide (w.1 = t) && !busy w with
    | none => d
    | some w =>
      let same (q : Nat × Nat × Nat × Nat × Nat) : Bool := decide (q.1 = t ∧ q.2.1 = w.2.1 ∧ q.2.2.1 = w.2.2.1 ∧ q.2.2.2.1 = w.2.2.2.1)
      if 2 ≤ (treeDeliveries x t).length then d
      else
        match unitOf d w.2.2.2.2 w.2.1 w.2.2.1 with
        | none => cluMod s (fun x => { x with mcWait := x.mcWait.erase w }) d
        | some (r, i) =>
          let ks := ofBits ((x.mcWait.filter same).map (·.2.2.2.2))
          deliveryStart s ⟨(ctxGet d w.2.1).part, t, r.ctx, r.idx, w.2.2.2.1, bitsOf 768 ks,
            fullW i r (countsOf d w.2.1 r.idx) (w.2.2.2.1 % 2 ^ 24), false⟩
            (cluMod s (fun x => { x with mcWait := x.mcWait.filter (fun q => !same q) }) d)

/-- MULTICAST_DELIVERY_START (R230). -/
def execMulticastDeliveryStart (p : PartNo) (tree : Nat) (s : State) : Host.Outcome State Fault Refusal :=
  .next (onDev (fun _ d => multicastStart p.val tree d) s)

/-- The first landed tag of a delivery that cluster `k` has not accepted, in delivery order (R231). -/
def tagFor (x : Cluster) (c : CtxNo) (idx key k : Nat) : Option (Nat × Tag) :=
  ((List.range x.tags.length).filterMap fun n => (x.tags[n]?).map fun t => (n, t)).find? fun e =>
    e.2.ctx = c && e.2.dlv == some (idx, key) && e.2.waiting.contains k

/-- MULTICAST_ACCEPT (R231): the member takes the next tag's data; the source frees the tag after the last member. -/
def multicastAccept (k u : Nat) (d : Device) : Device :=
  match fetchInfo d k u with
  | none => d
  | some (r, i) =>
    match treeSource d (ctxGet d r.ctx.val).part.val i.x.wTree, r.mcast with
    | some s, some h =>
      let key := chunkKey i r h
      match tagFor (cluGet d s) r.ctx r.idx key k with
      | none => d
      | some (n, t) =>
        if t.landed.isNone then d
        else
          let left := without t.waiting k
          let d := unitTakes k u t.words t.bad t.data d
          let d := cluMod s (fun x => sweepDeliveries { x with tags := lMod x.tags n (fun t => { t with waiting := left }) }) d
          let x := cluGet d s
          let more := (x.tags.any fun t => t.ctx = r.ctx && t.dlv == some (r.idx, key) && t.waiting.contains k) ||
            x.deliveries.any fun v => decide (v.ctx = r.ctx ∧ v.idx = r.idx ∧ v.chunk = key) && v.words ≠ []
          if more then d else unitMod k u (fun r => { r with mcast := none }) d
    | _, _ => d

/-- MULTICAST_ACCEPT (R231). -/
def execMulticastAccept (k : CluNo) (u : Nat) (s : State) : Host.Outcome State Fault Refusal :=
  .next (onDev (fun _ d => multicastAccept k.val u d) s)

/-- TIMEOUT of a tree in ns of system time: 0 stands for 20 µs (R229, R338). -/
def treeTimeout (t : Tree) : Nat := (if t.timeout = 0 then 20 else t.timeout) * 1000

/-- MULTICAST_TIMEOUT (R232, R233): a landed tag has waited for the member beyond the timeout, or the delivery was lost; the
member leaves the set and fetches the chunk itself. -/
def multicastTimeout (k u : Nat) (d : Device) : Device :=
  match fetchInfo d k u with
  | none => d
  | some (r, i) =>
    let p := (ctxGet d r.ctx.val).part.val
    match treeGet d p i.x.wTree, treeSource d p i.x.wTree, r.mcast with
    | some tr, some s, some h =>
      let key := chunkKey i r h
      let x := cluGet d s
      let late := x.tags.any fun t => t.ctx = r.ctx && t.dlv == some (r.idx, key) && t.waiting.contains k &&
        (t.landed.map fun l => decide (l + treeTimeout tr ≤ d.time.now)).getD false
      let held := (x.deliveries.any fun v => decide (v.ctx = r.ctx ∧ v.idx = r.idx ∧ v.chunk = key) && v.members.contains k) ||
        x.mcWait.any fun w => decide (w.2.1 = r.ctx.val ∧ w.2.2.1 = r.idx ∧ w.2.2.2.1 = key ∧ w.2.2.2.2 = k)
      if late ∨ !held then
        let d := leaveSets k r.ctx.val r.idx d
        let d := unitMod k u (fun r => { r with mcast := none, fell := insAsc h r.fell }) d
        runMod r.ctx.val r.idx (fun q => { q with fallback := q.fallback + 1 }) d
      else d
    | _, _, _ => d

/-- MULTICAST_TIMEOUT (R232). -/
def execMulticastTimeout (k : CluNo) (u : Nat) (s : State) : Host.Outcome State Fault Refusal :=
  .next (onDev (fun _ d => multicastTimeout k.val u d) s)

end Sys2Proof.Machine
end

