-- ==== Sys2Proof/Machine/Streams.lean ====
section
/-! DEFINITION. Stream programs at work: the start of streams and SORT entries, record slots, statistics records, checkpoint
blocks and the end of a program (R30 to R33, R54, R63, R112, R118 to R131, R137 to R139, R161, R168, R366). -/

namespace Sys2Proof.Machine

/-! ### Records that the device writes for a context -/

/-- Code words that `len` bytes at `va` touch, in bytes (R401). -/
def wordsLen (va len : Nat) : Nat := 64 * cdiv (va % 64 + len) 64

/-- The device writes `bs` at `va` for context `c`; a refused page faults the context, with what `who` adds to the record. -/
def ctxWriteAs (nv : NonVol) (who : FaultAt → FaultAt) (c detector va : Nat) (bs : List Byte) (d : Device) : Device :=
  if ctxLive d c then
    match vSpan d.mem (ctxGet d c).root true va bs.length with
    | .ok ps => ctxStore nv c ps bs d
    | .error e => faultCtx nv c (who (vFault e detector)) d
  else d

/-- A write of no one stream. -/
def ctxWrite (nv : NonVol) (c detector va : Nat) (bs : List Byte) (d : Device) : Device := ctxWriteAs nv id c detector va bs d

/-- A fault that concerns a stream at a cluster; no unit of it is concerned. -/
def forStream (k : Option Nat) (stream : Nat) (f : FaultAt) : FaultAt := { f with clu := k, stream := some (stream, 0, false) }

/-- Bytes that the device has read for context `c` are charged to it, and the errors that the read met are corrected (R238, R401). -/
def readCharge (nv : NonVol) (c va len : Nat) (d : Device) : Device :=
  let d := moved c (wordsLen va len) 0 d
  match vSpan d.mem (ctxGet d c).root false va len with
  | .ok ps => meetErrors nv 0 (some c) 2 (ps.flatMap fun p => touchedWords d.mem p.1 p.2) d
  | .error _ => d

/-- The address of record slot `s` of a program. -/
def recordAt (g : Prog) (s : Nat) : Nat := g.header.recordBase + 256 * s

/-- The stream number of entry `idx` of a program (R32, R161). -/
def entryStream (g : Prog) (idx : Nat) : Option Nat :=
  match g.entries[idx]? with
  | some (.stream x _ _ _ _ _) => some x.stream
  | some (.sort s) => some s.stream
  | _ => none

/-- The stream with number `n` has completed. -/
def streamDone (g : Prog) (n : Nat) : Bool := g.done.any fun e => entryStream g e.idx == some n

/-- The dependency of an entry is met (R30, R34). -/
def depMet (g : Prog) (kind stream : Nat) : Bool :=
  if kind = 1 then streamDone g stream else if kind = 2 then g.runs.isEmpty else true

/-- The governing SORT entry has completed (R169). -/
def govDone (g : Prog) (gov : Option SortDesc) : Bool := (gov.map fun s => streamDone g s.stream).getD true

/-- A stream of the program that uses the spill area in memory is active (R54). -/
def spillBusy (g : Prog) : Bool :=
  g.runs.any fun r => match g.entries[r.idx]? with
    | some (.stream x _ _ _ _ _) => usesSpill x
    | _ => false

/-! ### Token lists (R164, R168, R173) -/

/-- Where the count table, the slot table and the token table start. -/
def countTable (s : SortDesc) : Nat := s.listAddr + 0x140
def slotTable (s : SortDesc) : Nat := countTable s + up64 (4 * s.experts)
def tokenTable (s : SortDesc) : Nat := slotTable s + 8 * s.experts * sortQ s

/-- GEOMETRY of the list header (R164). -/
def listGeometry (s : SortDesc) : Nat :=
  pack [(0, 8, s.experts - 1), (8, 4, s.topk), (12, 3, s.rounds), (16, 16, s.cap)]

/-- The list header of 64 bytes `v` is valid for the descriptor (R168). -/
def listOk (s : SortDesc) (v : Nat) : Bool := bit v 0 && fld v 32 32 == listGeometry s && fld v 64 24 == s.t

/-- The numbers of `n` entries of 4 bytes. -/
def words4 (n : Nat) (bs : List Byte) : List Nat := (List.range n).map fun i => ofBytes ((bs.drop (4 * i)).take 4)

/-- Hosted experts of a module (R173). -/
def hosted (s : SortDesc) : Nat := s.experts / s.group

/-- The live counts that the lists of descriptor `s` give, or LIST_INVALID: COUNT of each expert, or under a RECEIVE of each
hosted expert and source (R164, R168, R171, R173). -/
def listCounts (d : Device) (c : Nat) (s : SortDesc) : Except FaultAt (List Nat × Nat) :=
  match ctxRead d c 1 s.listAddr 64 with
  | .error f => .error f
  | .ok h =>
    if !listOk s (ofBytes h) then .ok ([], stList)
    else
      let at_ := if s.op = 3 then s.srcAddr + 0x100 else countTable s
      let n := if s.op = 3 then hosted s * s.group else s.experts
      match ctxRead d c 1 at_ (4 * n) with
      | .error f => .error f
      | .ok bs => .ok ((words4 n bs).map (· % 2 ^ 24), 0)

/-- The counts that a stream reads when it starts. -/
def govCounts (d : Device) (c : Nat) (gov : Option SortDesc) : Except FaultAt (List Nat × Nat) :=
  match gov with
  | none => .ok ([], 0)
  | some s => listCounts d c s

/-! ### STREAM_START (R30) -/

/-- The lowest free Tally slot of cluster `k` (R33). -/
def freeSlot (d : Device) (k : Nat) : Option Nat :=
  if outOfService d k then none
  else (List.range 16).find? fun i => !(smGet (cluGet d k).slots TallySlot.init i).active

/-- An entry that has just started. A stream that commits no unit keeps its start as its END_TIME, which the spec does not give (R63; log
entry 114). -/
def StreamRun.new (idx home slot mode now : Nat) (counts : List Nat) (ready : Bool) (status : Nat) : StreamRun :=
  { idx := idx, home := home, slot := slot, mode := mode, startTime := now, lastTime := now, reissue := [], repairs := [],
    lostRepairs := [], repairsOpen := 0, openTiles := [], openVals := [], committed := [], combined := [], staged := [], copied := [], copier := [], merge := 0, clusters := 0,
    nonfinite := false, skipped := 0, mispredicts := 0, issue := 0, spill := 0, stalls := List.replicate 9 0, fallback := 0,
    recorded := false, mismatch := false, noref := false, compared := false, ready := ready, counts := counts,
    arriveSent := false, remoteStatus := status, refusedAt := none, saved := none, idle := 0 }

/-- Move units of a SORT entry (R161). A RECEIVE has those of its E × Q slots: G × Q of each of its E ÷ G experts. -/
def moveUnits (s : SortDesc) : Nat :=
  if s.op = 2 then cdiv s.t 128 else cdiv (s.experts * sortQ s) 128

/-- The entry writes rows into the windows of the members, and then its arrival words: a DISPATCH or REDISPATCH of several modules, and
every RETURN (R167, R174). -/
def sendsRows (s : SortDesc) : Bool := s.op == 4 || (s.group != 1 && (s.op == 0 || s.op == 1))

/-- The entry waits for the arrival words of its source window: a RECEIVE, and a COMBINE of several modules (R174). -/
def awaitsRows (s : SortDesc) : Bool := s.op == 3 || (s.op == 2 && s.group != 1)

/-- The cycles that the next entry has waited to start are its own: sync wait (R31, R33, R54). -/
def runWaited (g : Prog) (r : StreamRun) : StreamRun := { r with stalls := lMod r.stalls 5 (· + g.waited) }

/-- The entry takes Tally slot `n` of cluster `k` and becomes active (R30, R49). -/
def entryStart (c k n stream total : Nat) (r : StreamRun) (d : Device) : Device :=
  let slot : TallySlot := ⟨stream, c, true, false, 0, total, 0, 0, 0⟩
  progMod c (fun g => { g with next := g.next + 1, waited := 0, runs := g.runs ++ [runWaited g r] })
    (cluMod k (fun x => { x with slots := smPut x.slots TallySlot.init n slot }) d)

/-- STATUS of a record slot as a stream that starts leaves it (R127). -/
def statusStart (v : Nat) : Nat := pack [(1, 1, fld v 1 1), (16, 16, fld v 16 16)]

/-- The map of R131 with 1 in every tile bit and 0 in the pad bits. -/
def mapOnes (n : Nat) : List Byte := toBytes (cdiv n 8) (2 ^ n - 1)

/-- What a stream writes before its first unit is dealt: its record status and its map (R127, R131). -/
def streamInit (nv : NonVol) (c k : Nat) (g : Prog) (i : StreamInfo) (d : Device) : Device :=
  let who := forStream (some k) i.x.stream
  let d :=
    if has i.x 7 then
      let a := recordAt g i.x.recordSlot + 0x1C
      match ctxRead d c 1 a 4 with
      | .error f => faultCtx nv c (who f) d
      | .ok bs => ctxWriteAs nv who c 1 a (toBytes 4 (statusStart (ofBytes bs))) (readCharge nv c a 4 d)
    else d
  if i.x.zmapRecord then ctxWriteAs nv who c 1 i.slot.mapAddr (mapOnes (cdiv (allRows i) 128 * mapS i)) d else d

/-- A statistics record (R63). -/
def statsRec (c stream status units reissued : Nat) (r : StreamRun) (endTime : Nat) : Nat :=
  pack ([(0, 10, stream), (10, 8, c), (24, 8, status), (32, 24, units), (64, 16, min 65535 reissued),
    (80, 16, min 65535 r.fallback), (128, 64, r.issue), (192, 64, r.spill)] ++
    ((List.range 9).map fun i => (256 + 64 * i, 64, r.stalls.getD i 0)) ++ [(896, 64, r.startTime), (960, 64, endTime)])

/-- Writes the statistics record of a stream (R63). -/
def statsWrite (nv : NonVol) (c : Nat) (g : Prog) (stream v : Nat) (d : Device) : Device :=
  ctxWriteAs nv (forStream none stream) c 1 (g.header.statsBase + 128 * stream) (toBytes 128 v) d

/-- MODE of the block that an entry of the program starts in (R121). -/
def modeNow (g : Prog) : Nat := (g.block.map (·.marker.mode)).getD 2

/-- A pass-through stream completes at once (R112). -/
def passThrough (nv : NonVol) (c : Nat) (g : Prog) (x : StreamDesc) (d : Device) : Device :=
  let r := runWaited g (StreamRun.new g.next 0 0 (modeNow g) d.time.now [] false 0)
  statsWrite nv c g x.stream (statsRec c x.stream 0 0 0 r d.time.now)
    (progMod c (fun g => { g with next := g.next + 1, waited := 0, done := g.done ++ [⟨g.next, 0, false, false, false, 0, 0⟩] }) d)

/-- A stream descriptor starts (R30, R127, R131, R169). -/
def streamGo (nv : NonVol) (c : Nat) (g : Prog) (i : StreamInfo) (d : Device) : Device :=
  match partCluster d (ctxGet d c).part.val i.x.home with
  | none => d
  | some k =>
    match freeSlot d k, govCounts d c i.gov with
    | some n, .ok (counts, st) =>
      if usesSpill i.x && spillBusy g then d
      else
        let d := entryStart c k n i.x.stream (unitCount i.x i.gov)
          (StreamRun.new g.next k n (modeNow g) d.time.now counts true st) d
        streamInit nv c k g i d
    | some _, .error f => faultCtx nv c { f with clu := some k, stream := some (i.x.stream, 0, false) } d
    | none, _ => d

/-- A SORT descriptor starts (R161, R174). -/
def sortGo (c : Nat) (g : Prog) (s : SortDesc) (d : Device) : Device :=
  match partCluster d (ctxGet d c).part.val s.home with
  | none => d
  | some k =>
    match freeSlot d k with
    | none => d
    | some n =>
      let ready := s.op ≠ 0 && !awaitsRows s
      entryStart c k n s.stream (moveUnits s) (StreamRun.new g.next k n (modeNow g) d.time.now [] ready 0) d

/-- The home of the next entry when that entry waits for one of the 8 active streams, for a Tally slot, or for the spill area (R31, R33,
R54). -/
def startWaits (d : Device) (c : Nat) : Option Nat :=
  match (ctxGet d c).prog with
  | none => none
  | some g =>
    let full := decide (8 ≤ g.runs.length)
    let home (i : Nat) (spill : Bool) : Option Nat :=
      match partCluster d (ctxGet d c).part.val i with
      | some k => if full || spill || (!outOfService d k && (freeSlot d k).isNone) then some k else none
      | none => none
    if !mayDeal d c || g.stop.isSome then none
    else
      match g.entries[g.next]? with
      | some (.stream x _ _ _ _ gov) =>
        if depMet g x.depKind x.depStream && govDone g gov && (full || !x.passThrough) then home x.home (usesSpill x && spillBusy g) else none
      | some (.sort s) => if depMet g s.depKind s.depStream then home s.home false else none
      | _ => none

/-- STREAM_START (R30 to R33, R54, R112, R169): the next entry of the program starts. -/
def streamStart (nv : NonVol) (c : Nat) (d : Device) : Device :=
  match (ctxGet d c).prog with
  | none => d
  | some g =>
    if !mayDeal d c || g.stop.isSome || decide (8 ≤ g.runs.length) then d
    else
      match g.entries[g.next]? with
      | some (.stream x slot kernel src dst gov) =>
        if !depMet g x.depKind x.depStream || !govDone g gov then d
        else if x.passThrough then passThrough nv c g x d
        else streamGo nv c g ⟨x, perExpert x gov, slot, kernel, src, dst, gov⟩ d
      | some (.sort s) => if depMet g s.depKind s.depStream then sortGo c g s d else d
      | _ => d

/-- STREAM_START (R30). -/
def execStreamStart (c : CtxNo) (s : State) : Host.Outcome State Fault Refusal :=
  .next (onDev (fun nv d => streamStart nv c.val d) s)

/-! ### RECORD_SLOT_WRITE (R137) -/

/-- Every unit and repair unit of an entry has committed, and every tile of a split reduction is combined (R45, R148). -/
def allCommitted (d : Device) (c : Nat) (r : StreamRun) : Bool :=
  let s := slotOf d r
  let tiles := match descGet d c r.idx with
    | some x => if x.ksplit = 0 then 0 else mtOf x * ntOf x
    | none => 0
  s.done == s.total && r.repairsOpen == 0 && r.repairs.isEmpty && r.combined.length == tiles

/-- L of R135: the length of the digest's message. -/
def digestLen (i : StreamInfo) : Nat := allRows i * i.y.n * imageLen i.y.yFmt

/-- The digest of a stream whose units have all committed (R135). -/
def digestOf (i : StreamInfo) (r : StreamRun) : Nat :=
  if i.x.digest then r.merge ^^^ crcZeros i.slot.poly (digestLen i) else 0

/-- Bits set in a byte string. -/
def onesOf (bs : List Byte) : Nat := (bs.map fun b => popCount 8 b.toNat).foldl (· + ·) 0

/-- Bits set in the recorded map, 0 without one (R126, R137). -/
def zeroTiles (d : Device) (c : Nat) (i : StreamInfo) : Except FaultAt Nat :=
  if i.x.zmapRecord then
    match ctxRead d c 1 i.slot.mapAddr (mapBytes (allRows i) i.y.n) with
    | .ok bs => .ok (onesOf bs)
    | .error f => .error f
  else .ok 0

/-- The comparison that a RECOMPUTE run makes of slot contents `v` (R137 step 3): compared, mismatch, noref. -/
def compareRef (i : StreamInfo) (r : StreamRun) (v : Nat) : Bool × Bool × Bool :=
  if r.mode = 1 && i.x.digest then
    if bit v (0x1C * 8 + 1) then (true, decide (digestOf i r ≠ fld v (0x20 * 8) 64), false) else (false, false, true)
  else (false, false, false)

/-- STATUS after a complete run (R127, R137). -/
def statusEnd (i : StreamInfo) (r : StreamRun) (v : Nat) : Nat :=
  let x := compareRef i r v
  let refValid := bit v (0x1C * 8 + 1) || (decide (r.mode = 0) && i.x.digest)
  pack [(0, 1, 1), (1, 1, b2n refValid), (2, 1, b2n x.1), (3, 1, b2n x.2.1), (4, 1, b2n x.2.2),
    (16, 16, fld v (0x1C * 8 + 16) 16 + 1)]

/-- The slot's 256 bytes after the run, from those before it (R126, R137). -/
def slotEnd (i : StreamInfo) (r : StreamRun) (zeros v : Nat) : Nat :=
  let sat (n : Nat) : Nat := min (2 ^ 32 - 1) n
  let v := putFld (putFld v (0x28 * 8) 64 (digestOf i r)) (0xA0 * 8) 768 r.clusters
  let v := putFld (putFld (putFld v (0x30 * 8) 32 (sat r.skipped)) (0x34 * 8) 32 (sat r.mispredicts)) (0x38 * 8) 32 zeros
  if r.mode = 0 && i.x.digest then putFld (putFld v (0x20 * 8) 64 (digestOf i r)) (0x40 * 8) 768 r.clusters else v

/-- A mismatch is an event, and the clusters of its set become suspect (R138, R435). -/
def mismatchEvent (nv : NonVol) (c : Nat) (g : Prog) (i : StreamInfo) (v : Nat) (d : Device) : Device :=
  let block := (g.block.map (·.marker.block)).getD 0
  let d := raiseEv nv 0x10 (some c) (pack [(0, 16, block), (16, 10, i.x.stream)]) (recordAt g i.x.recordSlot) d
  (bitsOf 768 (fld v (0x40 * 8) 768 ||| fld v (0xA0 * 8) 768)).foldl (fun d k => suspect nv 0 k 0 d) d

/-- RECORD_SLOT_WRITE (R137, R138). -/
def recordSlotWrite (nv : NonVol) (c idx : Nat) (d : Device) : Device :=
  match (ctxGet d c).prog, runGet d c idx, streamInfo d c idx with
  | some g, some r, some i =>
    if !resident d c || !has i.x 7 || r.recorded || !allCommitted d c r || decide (r.remoteStatus ≠ 0) then d
    else
      let a := recordAt g i.x.recordSlot
      match ctxRead d c 1 a 256, zeroTiles d c i with
      | .ok bs, .ok zeros =>
        let v := ofBytes bs
        let x := compareRef i r v
        let w := slotEnd i r zeros (putFld v (0x1C * 8) 32 (statusEnd i r v))
        let d := runMod c idx (fun r => { r with recorded := true, compared := x.1, mismatch := x.2.1, noref := x.2.2 })
          (ctxWriteAs nv (forStream (some r.home) i.x.stream) c 1 a (toBytes 256 w) (readCharge nv c a 256 d))
        if x.2.1 then mismatchEvent nv c g i w d else d
      | .error f, _ => faultCtx nv c { f with clu := some r.home, stream := some (i.x.stream, 0, false) } d
      | _, .error f => faultCtx nv c { f with clu := some r.home, stream := some (i.x.stream, 0, false) } d
  | _, _, _ => d

/-- RECORD_SLOT_WRITE (R137). -/
def execRecordSlotWrite (c : CtxNo) (idx : Nat) (s : State) : Host.Outcome State Fault Refusal :=
  .next (onDev (fun nv d => recordSlotWrite nv c.val idx d) s)

/-! ### STREAM_COMPLETE (R63) -/

/-- Everything that the completion of an entry waits for has happened: its units, its copies (R113), its record slot (R137),
its arrival word (R174, R292) and, for a RECEIVE, the arrivals. -/
def entryOver (d : Device) (c : Nat) (r : StreamRun) : Bool :=
  allCommitted d c r && !(arriveOwes d c r.idx) &&
    (match entryGet d c r.idx with
      | some (.stream x _ _ src dst _) =>
        (!has x 7 || r.recorded) && (!accInit x || r.copied.length == (slotOf d r).total / partsOf x) &&
          (r.arriveSent || (src.toList ++ dst.toList).all fun t => !t.arrive)
      | some (.sort s) => r.ready && (r.arriveSent || !sendsRows s)
      | _ => false)

/-- Completion status of an entry (R63, R138). -/
def runStatus (r : StreamRun) : Nat :=
  if r.remoteStatus ≠ 0 then r.remoteStatus else if r.mismatch then stMismatch else if r.nonfinite then stNonfinite else 0

/-- The units and claims of entry `idx` of context `c` end with it. -/
def dropUnits (c idx : Nat) (d : Device) : Device :=
  let claims := (d.clus.filter fun e => (e.2.claimed.map fun x => (x.ctx.val, x.idx)) == some (c, idx)).map (·.1)
  let units := d.clus.flatMap fun e => (unitsOn d e.1).filterMap fun u =>
    if u.2.ctx.val = c ∧ u.2.idx = idx then some (e.1, u.1) else none
  units.foldl (fun d u => abandonUnit u.1 u.2 d) (claims.foldl (fun d k => dropClaim k d) d)

/-- A refused entry still has packets or remote reads that have not landed: its transaction is not complete (R287). -/
def refusalOpen (d : Device) (c : Nat) (r : StreamRun) : Bool :=
  r.refusedAt.isSome && ((d.clus.flatMap fun e => (unitsOn d e.1).filterMap fun u =>
    if u.2.ctx.val = c ∧ u.2.idx = r.idx then some (e.1, u.1) else none).any (fun u => unitOwes d u.1 u.2) || arriveOwes d c r.idx)

/-- STREAM_COMPLETE (R31, R33, R63, R92, R168, R175, R281): the statistics record is written, the Tally slot freed; a refused
or lost transaction, or invalid lists, stop the program. -/
def streamComplete (nv : NonVol) (c idx : Nat) (d : Device) : Device :=
  match (ctxGet d c).prog, runGet d c idx with
  | some g, some r =>
    if !resident d c || r.saved.isSome || !(decide (r.remoteStatus ≠ 0) || entryOver d c r) || refusalOpen d c r then d
    else
      let s := slotOf d r
      let st := runStatus r
      let stream := (entryStream g idx).getD 0
      let d := statsWrite nv c g stream (statsRec c stream st s.done s.reissued r r.lastTime) d
      let d := cluMod r.home (fun x => { x with slots := smMod x.slots TallySlot.init r.slot slotFree }) d
      dropUnits c idx (progMod c (fun g => { g with
        runs := g.runs.filter (·.idx ≠ idx)
        done := g.done ++ [⟨idx, st, r.mismatch, r.noref, r.compared, r.skipped, r.mispredicts⟩]
        mismatch := g.mismatch || r.mismatch
        nonfinite := g.nonfinite || st == stNonfinite
        stop := if g.stop.isNone ∧ r.remoteStatus ≠ 0 then some (r.remoteStatus, idx) else g.stop }) d)
  | _, _ => d

/-- STREAM_COMPLETE (R63). -/
def execStreamComplete (c : CtxNo) (idx : Nat) (s : State) : Host.Outcome State Fault Refusal :=
  .next (onDev (fun nv d => streamComplete nv c.val idx d) s)

/-! ### Checkpoint blocks (R120, R128, R139) -/

/-- CHECKPOINT_BEGIN (R120). -/
def checkpointBegin (c : Nat) (d : Device) : Device :=
  match (ctxGet d c).prog with
  | none => d
  | some g =>
    match g.entries[g.next]? with
    | some (.marker m) =>
      if m.kind = 1 ∧ g.runs = [] ∧ g.stop = none ∧ mayDeal d c then
        progMod c (fun g => { g with next := g.next + 1, block := some ⟨g.next, m, d.time.now, 0⟩ }) d
      else d
    | _ => d

/-- CHECKPOINT_BEGIN (R120). -/
def execCheckpointBegin (c : CtxNo) (s : State) : Host.Outcome State Fault Refusal :=
  .next (onDev (fun _ d => checkpointBegin c.val d) s)

/-- The streams of a block that have completed, in program order, with their descriptors. -/
def blockStreams (g : Prog) (from_ : Nat) : List (DoneRun × StreamDesc) :=
  (List.range g.entries.length).filterMap fun j =>
    if j ≤ from_ then none
    else
      match g.done.find? (·.idx = j), g.entries[j]? with
      | some r, some (.stream x _ _ _ _ _) => some (r, x)
      | _, _ => none

/-- The cluster sets in the record slots of `xs`, united (R128). -/
def slotClusters (d : Device) (c : Nat) (g : Prog) (xs : List StreamDesc) : Except FaultAt Nat :=
  match xs with
  | [] => .ok 0
  | x :: t =>
    match ctxRead d c 1 (recordAt g x.recordSlot + 0x40) 192, slotClusters d c g t with
    | .ok bs, .ok n => .ok ((ofBytes bs % 2 ^ 768 ||| ofBytes bs / 2 ^ 768) ||| n)
    | .error f, _ => .error f
    | _, .error f => .error f

/-- The block record (R128), with SEQ as given. -/
def blockRec (b : OpenBlock) (l : List (DoneRun × StreamDesc)) (clusters seq now : Nat) : Nat :=
  let bad := l.filter (·.1.mismatch)
  let m := b.marker
  pack [(0, 16, m.block), (16, 2, m.mode), (18, 1, b2n m.rebuild), (32, 1, 1), (48, 16, seq),
    (64, 16, (l.filter (·.2.digest)).length), (80, 16, (l.filter (·.1.compared)).length), (96, 16, bad.length),
    (112, 16, (l.filter (·.1.noref)).length), (128, 16, b.restarts), (144, 10, (bad.head?.map (·.2.stream)).getD 0),
    (192, 64, (l.map (·.1.skipped)).foldl (· + ·) 0), (256, 64, (l.map (·.1.mispredicts)).foldl (· + ·) 0),
    (320, 64, b.beginTime), (384, 64, now), (512, 768, clusters)]

/-- CHECKPOINT_END (R120, R128, R139). -/
def checkpointEnd (nv : NonVol) (c : Nat) (d : Device) : Device :=
  match (ctxGet d c).prog with
  | none => d
  | some g =>
    match g.entries[g.next]?, g.block with
    | some (.marker m), some b =>
      if m.kind = 2 ∧ g.runs = [] ∧ g.stop = none ∧ mayDeal d c then
        let l := blockStreams g b.idx
        let bad := l.filter (·.1.mismatch)
        let a := recordAt g m.blockSlot
        match ctxRead d c 1 (a + 4) 4, slotClusters d c g (bad.map (·.2)) with
        | .ok bs, .ok n =>
          let d := ctxWrite nv c 1 a (toBytes 256 (blockRec b l n (ofBytes bs / 65536 + 1) d.time.now)) (readCharge nv c a 4 d)
          progMod c (fun g => { g with
            next := g.next + 1, block := none
            stop := if b.marker.halt && !bad.isEmpty then some (stMismatch, g.next) else g.stop }) d
        | .error f, _ => faultCtx nv c f d
        | _, .error f => faultCtx nv c f d
      else d
    | _, _ => d

/-- CHECKPOINT_END (R120). -/
def execCheckpointEnd (c : CtxNo) (s : State) : Host.Outcome State Fault Refusal :=
  .next (onDev (fun nv d => checkpointEnd nv c.val d) s)

/-! ### PROGRAM_COMPLETE (R366) -/

/-- The program has no entry left to start. -/
def progEnded (g : Prog) : Bool :=
  g.runs.isEmpty &&
    (g.stop.isSome || (match g.entries[g.next]? with
      | none => true
      | some .finish => true
      | _ => false))

/-- STATUS and INDEX of the program's final record (R366). -/
def progStatus (g : Prog) : Nat × Nat :=
  match g.stop with
  | some s => s
  | none => (if g.mismatch then stMismatch else if g.nonfinite then stNonfinite else stOK, 0xFFFF)

/-- PROGRAM_COMPLETE (R366). -/
def programComplete (nv : NonVol) (c : Nat) (d : Device) : Device :=
  match (ctxGet d c).prog with
  | none => d
  | some g =>
    if progEnded g && ctxLive d c && procUp d 2 then
      complete nv g.tag (progStatus g).1 (progStatus g).2
        (pack [(0, 16, g.preempts), (16, 1, b2n g.mismatch), (17, 1, b2n g.nonfinite)]) (ctxMod c (fun x => { x with prog := none }) d)
    else d

/-- PROGRAM_COMPLETE (R366). -/
def execProgramComplete (c : CtxNo) (s : State) : Host.Outcome State Fault Refusal :=
  .next (onDev (fun nv d => programComplete nv c.val d) s)

end Sys2Proof.Machine
end

