-- ==== Sys2Proof/Machine/Claim.lean ====
section
/-! DEFINITION. The dealing of units: which unit a cluster claims, the predictions it reads, bubbles, the conditions under which
a claimed unit starts, and the change of the core context (R43 to R48, R136, R141 to R149, R154 to R156, R203, R328, R385). -/

namespace Sys2Proof.Machine

/-! ### Bubbles (R327, R328) -/

/-- The start and the end of bubble `n` of a record. -/
def bubbleSpan (b : Bubble) (n : Nat) : Nat × Nat := (b.start + n * b.period, b.start + n * b.period + b.length)

/-- The bubble `n` of context `c`'s record can be filled, its end being at `stop` (R328): it is long enough, it has not ended, and its
filler is resident in the partition. -/
def bubbleFills (d : Device) (c : Nat) (b : Bubble) (n : Nat) : Bool :=
  let p := (ctxGet d c).part.val
  let stop := (bubbleSpan b n).2
  decide (50000 + 2 * 1000 * tileBudget d p ≤ b.length) && decide (d.time.now < stop) &&
    (residents d p).any fun f => decide (f ≠ c) && (b.any || f == b.filler)

/-- BUBBLE_START (R328): bubble record `i` of context `c` begins its next bubble, which is counted when it is not filled. -/
def bubbleStart (c i : Nat) (d : Device) : Device :=
  match (ctxGet d c).bubbles[i]? with
  | none => d
  | some b =>
    if b.next < b.count ∧ (bubbleSpan b b.next).1 ≤ d.time.now then
      let fills := bubbleFills d c b b.next
      let d := ctxMod c (fun x => { x with
        bubbles := lMod x.bubbles i (fun b => { b with next := if b.period = 0 then b.count else b.next + 1 }) }) d
      if fills then d else { d with coll := { d.coll with cnt := smMod d.coll.cnt 0 7 (satInc 32) } }
    else d

/-- BUBBLE_START (R328). -/
def execBubbleStart (c : CtxNo) (i : Nat) (s : State) : Host.Outcome State Fault Refusal :=
  .next (onDev (fun _ d => bubbleStart c.val i d) s)

/-- The bubble of a record that runs now: it has begun and has not ended. -/
def bubbleNow (d : Device) (b : Bubble) : Option Nat :=
  let n := if b.period = 0 then 0 else b.next - 1
  if b.next ≠ 0 ∧ (bubbleSpan b n).1 ≤ d.time.now ∧ d.time.now < (bubbleSpan b n).2 then some n else none

/-- The bubbles of the partition that are being filled: each its declaring context, its record and its end. -/
def openBubbles (d : Device) (p : Nat) : List (Nat × Bubble × Nat) :=
  (residents d p).flatMap fun c => (ctxGet d c).bubbles.filterMap fun b =>
    (bubbleNow d b).bind fun n => if bubbleFills d c b n then some (c, b, (bubbleSpan b n).2) else none

/-- A unit of context `c` runs on cluster `k`, or is claimed by it. -/
def holdsUnit (d : Device) (k c : Nat) : Bool :=
  ((unitsOn d k).any fun u => u.2.ctx.val = c) || ((cluGet d k).claimed.map (·.ctx.val)) == some c

/-- During bubble `x`, cluster `k` may be dealt a unit of context `c` (R328): of the filler, only where the declaring context has no
unit, and not after the bubble's end minus b × 1.6 GHz ÷ f. -/
def bubbleAllows (d : Device) (k c : Nat) (x : Nat × Bubble × Nat) : Bool :=
  if c = x.1 ∨ !(x.2.1.any || c == x.2.1.filler) then true
  else
    let b := tileBudget d (ctxGet d c).part.val
    !holdsUnit d k x.1 && decide (d.time.now + cdiv (b * 1000 * 1600) (halfMhz d (halfOf k)) ≤ x.2.2)

/-! ### Resources (R48, R51) -/

/-- What a unit of an entry takes of a cluster: array kind, residency, Palette range in KiB, and whether it spills. -/
structure UnitNeeds where
  kind : Nat
  residency : Nat
  palBase : Nat
  palSize : Nat
  deriving DecidableEq, Repr

/-- The needs of a unit of entry `idx` of context `c`; a SORT move unit uses no array, accumulator or Palette (R162). -/
def needsOf (d : Device) (c idx : Nat) : UnitNeeds :=
  match descGet d c idx with
  | some x => ⟨arrayKind x, residency x, x.palBase, x.palSize⟩
  | none => ⟨0, 0, 0, 0⟩

/-- A unit with needs `a` may start beside a running unit with needs `b` (R48). -/
def fitsBeside (a b : UnitNeeds) : Bool :=
  (a.kind == 0 || a.kind != b.kind) && decide (a.residency + b.residency ≤ 32768) &&
    !(decide (0 < a.palSize ∧ 0 < b.palSize) && extentsMeet (a.palBase, a.palSize) (b.palBase, b.palSize))

/-- The dealt units running on cluster `k` (R48). -/
def dealtOn (d : Device) (k : Nat) : List (Nat × UnitRun) := (unitsOn d k).filter fun u => !u.2.combine

/-- The unit has run its last pass, and only drains: the next unit's first pass begins at once (worked example after R63), so it takes no
array and none of the places of R48 any more (log entry 115). A unit that spills keeps them until it commits. -/
def passesOver (d : Device) (r : UnitRun) : Bool :=
  match streamInfo d r.ctx.val r.idx with
  | none => false
  | some i =>
    hasArray i.x && decide (residency i.x ≤ 32768) && r.predRead &&
      decide ((unitPasses i r (countsOf d r.ctx.val r.idx)).length ≤ r.pos) &&
      decide ((unitBounds i r (trusted d r.ctx.val r.idx)).length ≤ r.bpos)

/-- The dealt units that take part in the limits of R48. -/
def occupying (d : Device) (k : Nat) : List (Nat × UnitRun) := (dealtOn d k).filter fun u => !passesOver d u.2

/-- A unit of entry `idx` of context `c` could run beside the units `us` (R48). -/
def fitsWith (d : Device) (us : List (Nat × UnitRun)) (c idx : Nat) : Bool :=
  decide (us.length < 2) &&
    us.all fun u => !decide (u.2.ctx.val = c ∧ u.2.idx = idx) && fitsBeside (needsOf d c idx) (needsOf d u.2.ctx.val u.2.idx)

/-- A unit of entry `idx` of context `c` could start on cluster `k` beside those that run (R48). -/
def fitsOn (d : Device) (k c idx : Nat) : Bool := fitsWith d (occupying d k) c idx

/-- It could once a running unit that works on its last chunk has made room (R44). -/
def fitsAhead (d : Device) (k c idx : Nat) : Bool :=
  let us := occupying d k
  us.any fun u => inLastChunk d k u && fitsWith d (us.filter (·.1 ≠ u.1)) c idx

/-! ### UNIT_CLAIM (R44) -/

/-- The entry has a unit to deal: on the re-issue list, never dealt, or a repair unit once every normal unit has been dealt
(R44, R47, R148). -/
def hasUnit (d : Device) (r : StreamRun) : Bool :=
  let s := slotOf d r
  r.saved.isNone && r.ready && r.remoteStatus == 0 && !outOfService d r.home &&
    (!r.reissue.isEmpty || decide (s.next < s.total) || !r.lostRepairs.isEmpty || !r.repairs.isEmpty)

/-- The earliest entry of context `c` with a unit that cluster `k` can take now: one it could start, or could start once the last chunk of a
running unit is done (R44). -/
def earliest (d : Device) (k c : Nat) : Option StreamRun :=
  match (ctxGet d c).prog with
  | none => none
  | some g =>
    let can := g.runs.filter fun r => hasUnit d r && (fitsOn d k c r.idx || fitsAhead d k c r.idx)
    can.find? fun r => can.all fun q => decide (r.idx ≤ q.idx)

/-- How long ago cluster `k` claimed from context `c`: the larger, the longer (R44 step 2). -/
def claimAge (d : Device) (k c : Nat) : Nat :=
  let l := (cluGet d k).claimOrder
  if l.contains c then l.idxOf c else l.length

/-- Context `a` goes before context `b` (R44 steps 1 to 3). -/
def goesBefore (d : Device) (k a b : Nat) : Bool :=
  let x := ctxGet d a
  let y := ctxGet d b
  if x.prio ≠ y.prio then decide (y.prio < x.prio)
  else if claimAge d k a ≠ claimAge d k b then decide (claimAge d k b < claimAge d k a)
  else decide (a ≤ b)

/-- The entry that cluster `k` claims from (R44, R328). -/
def claimFrom (d : Device) (k : Nat) : Option (Nat × StreamRun) :=
  match partOf d k with
  | none => none
  | some p =>
    let bubbles := openBubbles d p
    let declares (c : Nat) : Bool := bubbles.any fun x => x.1 == c
    let cs := (residents d p).filter fun c =>
      mayDeal d c && (earliest d k c).isSome && bubbles.all (bubbleAllows d k c)
    let first := cs.filter declares
    let cs := if first.isEmpty then cs else first
    let pick := cs.find? fun a => cs.all fun b => goesBefore d k a b
    pick.bind fun c => (earliest d k c).map fun r => (c, r)

/-- The set bits `lo` to `lo` + `n` − 1 of a map at `va`. -/
def mapBits (d : Device) (c va lo n : Nat) : Except FaultAt (List Nat) :=
  if n = 0 then .ok []
  else
    match ctxRead d c 1 (va + lo / 8) ((lo + n - 1) / 8 - lo / 8 + 1) with
    | .error f => .error f
    | .ok bs =>
      let v := ofBytes bs
      .ok (((List.range n).filter fun j => bit v (lo % 8 + j)).map (lo + ·))

/-- The set bits of the map rows `as`, from column `s0` on, `ns` of them, of a map of `w` columns. -/
def mapRows (d : Device) (c va w s0 ns : Nat) (as : List Nat) : Except FaultAt (List Nat) :=
  match as with
  | [] => .ok []
  | a :: t =>
    match mapBits d c va (a * w + s0) ns, mapRows d c va w s0 ns t with
    | .ok l, .ok m => .ok (l ++ m)
    | .error f, _ => .error f
    | _, .error f => .error f

/-- `a`, …, up to the last that `n` items from `lo` in blocks of `q` touch. -/
def blocksOf (lo n q : Nat) : List Nat := if n = 0 then [] else (List.range ((lo + n - 1) / q - lo / q + 1)).map (lo / q + ·)

/-- The skipped granules of a unit, from the set bits of X's map (R155). -/
def skippedOf (i : StreamInfo) (as gs set : List Nat) : List Nat :=
  as.flatMap fun a => (gs.filter fun g =>
    let n := min 16 (skipS i - 16 * g)
    decide (16 * g < skipS i) && (List.range n).all fun j => set.contains (a * skipS i + 16 * g + j)).map (a * 2 ^ 24 + ·)

/-- The rows of the map that a unit's predictions or granules lie in, the first of its columns there, and their number (R143, R154). -/
def predRange (i : StreamInfo) (g : Region) : List Nat × Nat × Nat × Nat :=
  if i.slot.predAddr = 0 then ([], 0, 0, 0)
  else if i.x.speculate then (blocksOf g.r0 g.nr 128, mapS i, g.c0 / 8, cdiv g.nc 8)
  else if i.x.zmapSkip then
    let ks := (List.range g.nb).map (g.b0 + ·)
    let rs := blocksOf g.r0 g.nr 128
    let gs := if opKind i.y = 3 then rs else ks
    let lo := 16 * gs.headD 0
    (if opKind i.y = 3 then ks else rs, skipS i, lo, min (16 * gs.length) (skipS i - lo))
  else ([], 0, 0, 0)

/-- What SKETCH or FETCH reads of a prediction map for a claimed unit (R143, R154): its predicted tiles, or its skipped granules. -/
def readPredictions (d : Device) (c : Nat) (i : StreamInfo) (g : Region) : Except FaultAt (List Nat) :=
  let (as, w, lo, n) := predRange i g
  match mapRows d c i.slot.predAddr w lo n as with
  | .error f => .error f
  | .ok set =>
    if i.x.speculate then .ok set
    else
      let ks := (List.range g.nb).map (g.b0 + ·)
      .ok (skippedOf i as (if opKind i.y = 3 then blocksOf g.r0 g.nr 128 else ks) set)

/-- The reads of the map are charged to the context (R228, R401). -/
def predCharge (nv : NonVol) (c : Nat) (i : StreamInfo) (g : Region) (d : Device) : Device :=
  let (as, w, lo, n) := predRange i g
  if n = 0 then d
  else as.foldl (fun d a => readCharge nv c (i.slot.predAddr + (a * w + lo) / 8) ((a * w + lo + n - 1) / 8 - (a * w + lo) / 8 + 1) d) d

/-- The unit that an entry deals next, and whether it is a repair unit: the re-issue list in ascending number, then new numbers, then
the repair units, those that were lost first (R44, R47, R148). -/
def nextUnit (d : Device) (r : StreamRun) : Nat × Bool :=
  let s := slotOf d r
  match r.reissue with
  | n :: _ => (n, false)
  | [] =>
    if s.next < s.total then (s.next, false)
    else
      match r.lostRepairs ++ r.repairs with
      | n :: _ => (n, true)
      | [] => (s.next, false)

/-- The entry's lists and its Tally slot after dealing a unit (R43, R47, R49, R148). -/
def dealt (c : Nat) (r : StreamRun) (n : Nat) (repair : Bool) (d : Device) : Device :=
  let again := slotMod c r.idx (fun s => { s with reissuePending := s.reissuePending - 1 })
  if repair then
    if r.lostRepairs.contains n then again (runMod c r.idx (fun r => { r with lostRepairs := without r.lostRepairs n }) d)
    else runMod c r.idx (fun r => { r with repairs := without r.repairs n }) d
  else if r.reissue.contains n then again (runMod c r.idx (fun r => { r with reissue := without r.reissue n }) d)
  else slotMod c r.idx (fun s => { s with next := s.next + 1 }) d

/-- A context number. -/
def claimCtx (c : Nat) : CtxNo := ⟨c % 256, Nat.mod_lt _ (by decide)⟩

/-- A unit before its first pass. -/
def UnitRun.new (c : CtxNo) (idx unit : Nat) (repair combine : Bool) (kind qpc : Nat) (pred : List Nat) (dig : Option (Fin 2)) :
    UnitRun :=
  { ctx := c, idx := idx, unit := unit, repair := repair, combine := combine, kind := kind, pos := 0, bpos := 0, acc := [],
    buf := [], have_ := [], bad := [], turned := [], deferred := [], sent := [], drained := [], outs := [], parcelsLeft := 0,
    predRead := true, pred := pred, missed := [], bound := [], dig := dig, contrib := 0, nonzero := [], nonfinite := false,
    mcast := none, fell := [], qpc := qpc, xout := [], moved := false, idle := 0, busy := 0 }

/-- The predictions of the unit at place `u` of cluster `k` are read, if they have not been (R143). A page that is not mapped leaves them
unread, and the unit waits (R60); any other refusal faults the context. -/
def predTry (nv : NonVol) (k u : Nat) (d : Device) : Device :=
  match fetchInfo d k u with
  | none => d
  | some (r, i) =>
    if r.predRead then d
    else
      let g := regionOf i r
      match readPredictions d r.ctx.val i g with
      | .ok l => predCharge nv r.ctx.val i g (unitMod k u (fun r => { r with pred := l, predRead := true }) d)
      | .error f =>
        if f.cause = 5 then d
        else faultCtx nv r.ctx.val { f with clu := some k, stream := some (i.x.stream, r.unit, r.repair) } d

/-- A lost copy of a resident context of partition `p`: context, entry, tile (R113). -/
def lostCopy (d : Device) (p : Nat) : Option (Nat × Nat × Nat) :=
  (((residents d p).filter (mayDeal d)).flatMap fun c => (((ctxGet d c).prog.map (·.runs)).getD []).flatMap fun r =>
    (r.staged.filter fun t => !r.copied.contains t && smGet r.copier 0 t == 0).map fun t => (c, r.idx, t)).head?

/-- UNIT_CLAIM (R44): cluster `k` claims a unit, and its predictions are read (R143). A copy that was lost goes before any new unit
(R113). -/
def unitClaim (nv : NonVol) (k : Nat) (d : Device) : Device :=
  if (cluGet d k).claimed.isSome || !takesUnits nv d k then d
  else
    match (partOf d k).bind (lostCopy d) with
    | some (c, idx, t) => runMod c idx (fun r => { r with copier := smPut r.copier 0 t (k + 1) }) d
    | none =>
      match claimFrom d k with
      | none => d
      | some (c, r) =>
        let (n, repair) := nextUnit d r
        let reads := !repair && ((streamInfo d c r.idx).map fun i => decide (i.slot.predAddr ≠ 0) && (i.x.speculate || i.x.zmapSkip)).getD false
        let kind := ((descGet d c r.idx).map arrayKind).getD 0
        let u := { UnitRun.new (claimCtx c) r.idx n repair false kind d.mem.quota [] none with predRead := !reads }
        predTry nv k claimPlace
          (cluMod k (fun x => { x with claimed := some u, claimOrder := c :: without x.claimOrder c }) (dealt c r n repair d))

/-- UNIT_CLAIM (R44). -/
def execUnitClaim (k : CluNo) (s : State) : Host.Outcome State Fault Refusal :=
  .next (onDev (fun nv d => unitClaim nv k.val d) s)

/-! ### Waiting reads (R60) -/

/-- Byte `va` lies in the part of the prediction map that the unit's predictions come from. -/
def predHolds (i : StreamInfo) (r : UnitRun) (va : Nat) : Bool :=
  let (as, w, lo, n) := predRange i (regionOf i r)
  n ≠ 0 && as.any fun a =>
    decide (i.slot.predAddr + (a * w + lo) / 8 ≤ va ∧ va ≤ i.slot.predAddr + (a * w + lo + n - 1) / 8)

/-- UNMAPPED_READ_DUE (R60, R143): a waiting read of a running unit is needed next and its page is still unmapped. -/
def unmappedDue (nv : NonVol) (k u va : Nat) (d : Device) : Device :=
  match unitInfo d k u with
  | none => d
  | some (r, i) =>
    let due := if r.predRead then (needsNext true d k r i).contains (va / 64) && !r.have_.contains (va / 64) else predHolds i r va
    if !due then d
    else
      match trans d k r.ctx.val va false with
      | .error (.unmapped a w) =>
        faultCtx nv r.ctx.val { vFault (.unmapped a w) 1 with clu := some k, stream := some (i.x.stream, r.unit, r.repair) } d
      | _ => d

/-- UNMAPPED_READ_DUE (R60). -/
def execUnmappedReadDue (k : CluNo) (u va : Nat) (s : State) : Host.Outcome State Fault Refusal :=
  .next (onDev (fun nv d => unmappedDue nv k.val u va d) s)

/-! ### The core context (R203) -/

/-- A parcel of a context other than `c` is pending or running on cluster `k` (R203). -/
def otherParcels (d : Device) (k c : Nat) : Bool :=
  ((cluGet d k).parcels.any fun p => p.ctx.val ≠ c) ||
    (List.range 64).any fun j => ((coreGet d k j).run.map fun r => decide (r.parcel.ctx.val ≠ c)).getD false

/-- The cores of cluster `k` serve context `c`, changing to it if need be (R203). -/
def coreChange (k : Nat) (c : CtxNo) (d : Device) : Device :=
  if (cluGet d k).coreCtx = some c then d else loadCores k c (saveCores k d)

/-- The core context of cluster `k` is `c`, or can become so now (R203). -/
def coresServe (d : Device) (k : Nat) (c : CtxNo) : Bool := (cluGet d k).coreCtx = some c || !otherParcels d k c.val

/-- A claimed or running unit of context `c` on cluster `k` has Glaze in its path. -/
def wantsCores (d : Device) (k c : Nat) : Bool :=
  let glaze (idx : Nat) : Bool := ((descGet d c idx).map fun x => has x 6).getD false
  ((unitsOn d k).any fun u => decide (u.2.ctx.val = c) && glaze u.2.idx) ||
    (((cluGet d k).claimed.map fun x => decide (x.ctx.val = c) && glaze x.idx).getD false)

/-- CORE_CONTEXT_CHANGE (R203). -/
def coreContextChange (nv : NonVol) (k : Nat) (c : CtxNo) (d : Device) : Device :=
  if takesUnits nv d k && resident d c.val && wantsCores d k c.val && !otherParcels d k c.val then coreChange k c d else d

/-- CORE_CONTEXT_CHANGE (R203). -/
def execCoreContextChange (k : CluNo) (c : CtxNo) (s : State) : Host.Outcome State Fault Refusal :=
  .next (onDev (fun nv d => coreContextChange nv k.val c d) s)

/-! ### UNIT_START (R48) -/

/-- The lowest free digest unit of cluster `k` (R136). -/
def freeDigest (d : Device) (k : Nat) : Option (Fin 2) :=
  if !(smGet (cluGet d k).digs DigestUnit.init 0).busy then some 0
  else if !(smGet (cluGet d k).digs DigestUnit.init 1).busy then some 1 else none

/-- A digest unit starts on a unit (R141). -/
def digestStart (k : Nat) (g : Fin 2) (c poly stream unit : Nat) (repair : Bool) (d : Device) : Device :=
  cluMod k (fun x => { x with digs := smMod x.digs DigestUnit.init g.val (fun y =>
    { y with ctx := c, busy := true, valid := false, poly := poly, stream := stream, repair := repair, unit := unit, result := 0 }) }) d

/-- The bytes from `base` KiB on, `size` bytes of them, become the stations' own: what they hold is free (log entry 25). -/
def palTake (k base size : Nat) (d : Device) : Device :=
  let n := cdiv size 1024
  let from_ := d.fresh + 1
  drawFresh (1024 * n) (cluMod k (fun x => { x with
    palette := x.palette.filter fun e => !decide (base ≤ e.1 / 1024 ∧ e.1 / 1024 < base + n)
    palFrom := (List.range n).foldl (fun m j => smPut m 0 (base + j) (from_ + 1024 * j)) x.palFrom }) d)

/-- The bytes of its Palette range that a unit's stations use: the footprint, and the spill room when the stream spills. -/
def palUsed (x : StreamDesc) (y : StreamDesc) : Nat := if 32768 < residency x then x.palSize * 1024 else footprint y

/-- The cluster spill slot of a stream that spills to memory is the device's own to write (R476, log entry 26). -/
def spillTake (nv : NonVol) (k : Nat) (c : Nat) (i : StreamInfo) (unit : Nat × Bool) (d : Device) : Device :=
  let x := i.y
  if has x 5 ∧ spillSlot x ≠ 0 then
    let base := (((ctxGet d c).prog).map (·.header.spillBase)).getD 0
    let a := base + clusterSlotsAt x (expertCount i.gov) + clusterIndex d (ctxGet d c).part.val k * spillSlot x
    ctxWriteAs nv (fun f => { f with clu := some k, stream := some (i.x.stream, unit.1, unit.2) }) c 2 a
      (freeBytes d.fresh (spillSlot x)) (drawFresh (spillSlot x) d)
  else d

/-- The kept sum of R385 allows the unit. -/
def keptAllows (d : Device) (k c : Nat) (x : StreamDesc) : Bool :=
  decide (keptSum d c k (has x 6) (granules x.palBase x.palSize) ≤
    ((partGet d (ctxGet d c).part.val).map (·.keptLimit)).getD 0)

/-- The stream's Palette range on cluster `k` overlaps the staging range of a PERMUTE of the context in progress, for which its units
wait (R326). -/
def stagingMeets (d : Device) (k c : Nat) (x : StreamDesc) : Bool :=
  d.coll.runs.any fun r =>
    let v := r.desc.postscale
    r.active && decide (r.ctx.val = c ∧ r.desc.op = 5 ∧ 0 < x.palSize) &&
      decide (partCluster d (ctxGet d c).part.val (fld v 0 10) = some k) && extentsMeet (fld v 10 9, fld v 19 10) (x.palBase, x.palSize)

/-- A dealt unit of the stream holds a digest unit: DIGEST = 1, and its reduction is not split (R135, R136). -/
def holdsDigest (x : StreamDesc) : Bool := x.digest && x.ksplit == 0

end Sys2Proof.Machine
end

