-- ==== Sys2Proof/Machine/Flags.lean ====
section
/-! DEFINITION. FLAGS of a core and what sets its bits (R179): INVALID, OVERFLOW, NARROWED, SATURATED. -/

namespace Sys2Proof.Machine

/-- The bits that one operation sets: [0] INVALID, [1] OVERFLOW, [2] NARROWED, [3] SATURATED. -/
structure FlagSet where
  invalid : Bool
  overflow : Bool
  narrowed : Bool
  saturated : Bool
  deriving DecidableEq, Repr

/-- No bit set. -/
def FlagSet.none : FlagSet := ⟨false, false, false, false⟩

/-- The bits of two operations. -/
def FlagSet.or (a b : FlagSet) : FlagSet :=
  ⟨a.invalid || b.invalid, a.overflow || b.overflow, a.narrowed || b.narrowed, a.saturated || b.saturated⟩

/-- The bits as FLAGS holds them. -/
def FlagSet.bits (a : FlagSet) : BitVec 4 :=
  BitVec.ofNat 4 (b2n a.invalid + 2 * b2n a.overflow + 4 * b2n a.narrowed + 8 * b2n a.saturated)

/-- FLAGS after an operation: bits are set and stay until software clears them (R179). -/
def flagsAfter (old : BitVec 4) (a : FlagSet) : BitVec 4 := old ||| a.bits

/-- FLAGS after a write of `v` (W1C). -/
def flagsWrite (old : BitVec 4) (v : Word) : BitVec 4 := old &&& ~~~(BitVec.ofNat 4 v.toNat)

/-- Some operand is a NaN. -/
def anyNan (xs : List Num) : Bool := xs.any fun x => x == .nan

/-- The bits of a float operation with operands `xs`, exact result `y` and written code `c` in format `f`: INVALID for a NaN from
operands that are none, OVERFLOW for a finite result written as an infinity (R179). -/
def floatFlags (f : Nat) (xs : List Num) (y : Num) (c : Nat) : FlagSet :=
  ⟨y == .nan && !anyNan xs, overflowsTo f c y, false, false⟩

/-- The bits of a conversion of `x` to format `f` that wrote code `c` (R179). -/
def convertFlags (f mode r : Nat) (x : Num) (c : Nat) : FlagSet := ⟨false, overflowsTo f c x, narrowed f x, saturatesInt f mode r x⟩

end Sys2Proof.Machine
end

