-- ==== Sys2Proof/Machine/Operands.lean ====
section
/-! DEFINITION. The operands of core instructions: scalar, vector and predicate registers, the core address map, and the registers
that wait for data (R178, R181 to R184, R189, R190). -/

namespace Sys2Proof.Machine

/-! ### Registers (R178) -/

/-- Scalar register `r`; s0 reads 0. -/
def sReg (x : Core) (r : BitVec 5) : Word := if r = 0 then 0 else smGet x.s 0 r.toNat

/-- Writes scalar register `r`; a write to s0 is discarded. -/
def sPut (r : BitVec 5) (v : Word) (x : Core) : Core := if r = 0 then x else { x with s := smPut x.s 0 r.toNat v }

/-- Lane `i` of vector register `r`; v0 reads 0. -/
def vLane (x : Core) (r : BitVec 4) (i : Nat) : Word := if r = 0 then 0 else smGet x.v 0 (16 * r.toNat + i)

/-- Writes lane `i` of vector register `r`; a write to v0 is discarded. -/
def vPut (r : BitVec 4) (i : Nat) (v : Word) (x : Core) : Core :=
  if r = 0 then x else { x with v := smPut x.v 0 (16 * r.toNat + i) v }

/-- Predicate `p`; p0 reads all ones. -/
def pMask (x : Core) (p : BitVec 2) : BitVec 16 := if p = 0 then 0xFFFF else smGet x.p 0 p.toNat

/-- The predicate's bit of lane `i`. -/
def pOn (x : Core) (p : BitVec 2) (i : Nat) : Bool := (pMask x p).getLsbD i

/-- Writes predicate `p`. -/
def pPut (p : BitVec 2) (v : BitVec 16) (x : Core) : Core := if p = 0 then x else { x with p := smPut x.p 0 p.toNat v }

/-- The 16 lanes. -/
def lanes : List Nat := List.range 16

/-- Vector register `r` after the lanes whose predicate bit is 1 take the values of `f`; the others keep theirs (R187). -/
def vLanes (r : BitVec 4) (p : BitVec 2) (f : Nat → Word) (x : Core) : Core :=
  (lanes.filter (pOn x p)).foldl (fun y i => vPut r i (f i) y) x

/-! ### The core store (R181) -/

/-- Byte `o` of a core's own store: the keep area, or the scratch, of which a byte that its parcel has not written is undefined
(R179, log entry 6). -/
def storeGet (x : Core) (o : Nat) : Byte :=
  if o < 0x1000 then smGet x.store 0 o
  else
    match smGet x.scratch none o with
    | some b => b
    | none => if x.scratchFrom = 0 then 0 else Config.freeByte (x.scratchFrom - 1 + o)

/-- Writes byte `o` of a core's own store. -/
def storePut (o : Nat) (b : Byte) (x : Core) : Core :=
  if o < 0x1000 then { x with store := smPut x.store 0 o b } else { x with scratch := smPut x.scratch none o (some b) }

/-! ### The core address map (R181, R184) -/

/-- The regions of the map that loads and stores reach: its rows, but for the code store. -/
inductive CoreRegion where
  | keep | scratch | stores | palette | tally | digest
  deriving DecidableEq, Repr

/-- The region of a core address; none outside the map and in the code store, which is executed only. -/
def coreRegion (a : Nat) : Option CoreRegion :=
  if a < 0x1000 then some .keep
  else if a < 0x4000 then some .scratch
  else if 0x01000000 ≤ a ∧ a < 0x01100000 then some .stores
  else if 0x02000000 ≤ a ∧ a < 0x02080000 then some .palette
  else if 0x03000000 ≤ a ∧ a < 0x03000400 then some .tally
  else if 0x03001000 ≤ a ∧ a < 0x03001040 then some .digest
  else none

/-- The windows of the sequencer and of the digest units are read only. -/
def CoreRegion.writable : CoreRegion → Bool
  | .tally | .digest => false
  | _ => true

/-- The word at offset `o` of a Tally slot (R49). DESIGN CHOICE: of a stream of 2^24 units, which R43 admits, NEXT, TOTAL and DONE hold
the low 24 bits, so that TOTAL reads 0 (log entry 121). -/
def tallyWord (s : TallySlot) (o : Nat) : Nat :=
  if o = 0 then pack [(0, 10, s.stream), (10, 8, s.ctx), (18, 1, b2n s.active), (19, 1, b2n s.combining)]
  else if o = 4 then s.next % 2 ^ 24
  else if o = 8 then s.total % 2 ^ 24
  else if o = 12 then s.done % 2 ^ 24
  else if o = 16 then pack [(0, 16, s.reissued), (16, 16, s.reissuePending)]
  else 0

/-- The word at offset `o` of a digest unit, 0 for a core of another context than the unit's (R140, R141). -/
def digestWord (x : Cluster) (g : DigestUnit) (o : Nat) : Nat :=
  if (x.coreCtx.map (·.val)) ≠ some g.ctx then 0
  else if o = 0 then pack [(0, 1, b2n g.valid), (1, 1, b2n g.busy), (8, 8, g.ctx), (16, 16, g.seq)]
  else if o = 4 then pack [(0, 10, g.stream), (10, 2, g.poly)]
  else if o = 8 then pack [(0, 24, g.unit), (24, 1, b2n g.repair)]
  else if o = 0x10 then g.result % 2 ^ 32
  else if o = 0x14 then g.result / 2 ^ 32 % 2 ^ 32
  else 0

/-- The context of cluster `k`'s cores holds the Palette granule of byte `a` (R184). -/
def coreHolds (d : Device) (k a : Nat) : Bool := ((cluGet d k).coreCtx.map fun c => holdsGranule d c.val k (a / 16384)).getD false

/-- Core `j` of cluster `k` may reach the byte at core address `a` (R181, R184, R207). -/
def coreMay (d : Device) (k a : Nat) (wr : Bool) : Bool :=
  match coreRegion a with
  | none => false
  | some g => (!wr || g.writable) && (g ≠ .palette || coreHolds d k (a - 0x02000000))

/-- The byte at core address `a`. -/
def coreByte (d : Device) (k j a : Nat) : Byte :=
  match coreRegion a with
  | some .keep | some .scratch => storeGet (coreGet d k j) a
  | some .stores => storeGet (coreGet d k ((a - 0x01000000) / 0x4000)) ((a - 0x01000000) % 0x4000)
  | some .palette => palByte (cluGet d k) (a - 0x02000000)
  | some .tally =>
    let o := a - 0x03000000
    BitVec.ofNat 8 (fld (tallyWord (smGet (cluGet d k).slots TallySlot.init (o / 0x40)) (o % 0x40 / 4 * 4)) (8 * (o % 4)) 8)
  | some .digest =>
    let o := a - 0x03001000
    BitVec.ofNat 8
      (fld (digestWord (cluGet d k) (smGet (cluGet d k).digs DigestUnit.init (o / 0x20)) (o % 0x20 / 4 * 4)) (8 * (o % 4)) 8)
  | none => 0

/-- The `n` bytes from core address `a`. -/
def coreBytes (d : Device) (k j a n : Nat) : List Byte := (List.range n).map fun o => coreByte d k j (a + o)

/-- A byte of a granule that context `c` has written is kept state (R384). -/
def markWritten (c : Option CtxNo) (g : Nat) (x : Cluster) : Cluster :=
  match c with
  | some c => { x with written := if x.written.contains (c.val, g) then x.written else (c.val, g) :: x.written }
  | none => x

/-- Writes the byte at core address `a`. -/
def coreBytePut (k j a : Nat) (b : Byte) (d : Device) : Device :=
  match coreRegion a with
  | some .keep | some .scratch => coreMod k j (storePut a b) d
  | some .stores => coreMod k ((a - 0x01000000) / 0x4000) (storePut ((a - 0x01000000) % 0x4000) b) d
  | some .palette =>
    let o := a - 0x02000000
    cluMod k (fun x => markWritten x.coreCtx (o / 16384) (palPut o b x)) d
  | _ => d

/-- Writes bytes from core address `a` on. -/
def coreBytesPut (k j a : Nat) (bs : List Byte) (d : Device) : Device :=
  match bs with
  | [] => d
  | b :: t => coreBytesPut k j (a + 1) t (coreBytePut k j a b d)

/-- Why a core access cannot be made: CAUSE, ADDRESS and DETAIL of R424. -/
structure CoreErr where
  cause : Nat
  address : Nat
  detail : Nat
  deriving DecidableEq, Repr

/-- The access of `size` bytes at `a`, aligned to `align` (R181, R182, R184, R207). -/
def coreCheck (d : Device) (k a size align : Nat) (wr : Bool) : Option CoreErr :=
  if a % align ≠ 0 then some ⟨2, a, align⟩
  else if (List.range size).all fun o => coreMay d k (a + o) wr then none
  else some ⟨3, a, 0⟩

/-! ### Addresses -/

/-- RS + a signed offset, modulo 2^32. -/
def addrOf (b : Word) (off : Int) : Nat := (b + BitVec.ofInt 32 off).toNat

/-- A vector address A of R190. -/
def vecAddr (x : Core) (base : BitVec 5) (w : VWidth) (off : BitVec 8) : Nat :=
  addrOf (sReg x base) (off.toInt * (16 * w.bytes : Nat))

/-- The address of element `i` of a VGATHER or VSCATTER (R194). -/
def gatherAddr (x : Core) (base : BitVec 5) (vidx : BitVec 4) (w : VWidth) (i : Nat) : Nat :=
  (sReg x base + vLane x vidx i * BitVec.ofNat 32 w.bytes).toNat

/-- The far address in a register pair (R193): bits [31:20] of the odd register are not part of it. -/
def farAddr (x : Core) (base : BitVec 5) : Nat := (sReg x base).toNat + fld (sReg x (base + 1)).toNat 0 20 * 2 ^ 32

/-- The far address of element `i` (R193). -/
def farElem (x : Core) (base : BitVec 5) (vidx : BitVec 4) (w : VWidth) (i : Nat) : Nat :=
  farAddr x base + (vLane x vidx i).toNat * w.bytes

/-! ### Registers that an instruction names (R189) -/

/-- The scalar registers an instruction reads or writes. -/
def scalarsOf : CoreInstr → List (BitVec 5)
  | .alu _ rd rs1 rs2 => [rd, rs1, rs2]
  | .imm _ rd rs1 _ => [rd, rs1]
  | .upper rd _ => [rd]
  | .branch _ rs1 rs2 _ => [rs1, rs2]
  | .jump rd rs _ => [rd, rs]
  | .load _ r base _ | .store _ r base _ => [r, base]
  | .valu _ _ _ _ _ _ _ => []
  | .vld _ _ base _ _ | .vst _ _ base _ _ | .vgather _ _ base _ _ | .vscatter _ _ base _ _ | .vbcast _ _ base _ => [base]
  | .vcvt _ _ _ _ _ seed _ => [seed]
  | .block _ _ src dst seed _ _ => [src, dst, seed]
  | .fld _ _ base _ _ | .fst _ _ base _ _ | .fgather _ _ base _ _ | .fscatter _ _ base _ _ => [base, base + 1]
  | .semwait _ r | .sempost _ r | .barrier _ r | .evwait _ r | .evadd _ r => [r]
  | .fence _ _ | .fenceFar _ _ | .gdone _ _ => []
  | .csrr r _ | .csrw r _ => [r]

/-- The vector registers an instruction reads or writes. -/
def vectorsOf : CoreInstr → List (BitVec 4)
  | .valu _ _ _ vd va vb vc => [vd, va, vb, vc]
  | .vld _ v _ _ _ | .vst _ v _ _ _ | .vbcast _ v _ _ => [v]
  | .vgather _ v _ x _ | .vscatter _ v _ x _ | .fgather _ v _ x _ | .fscatter _ v _ x _ => [v, x]
  | .fld _ v _ _ _ | .fst _ v _ _ _ => [v]
  | .vcvt _ _ _ vd va _ _ => [vd, va]
  | _ => []

/-- The operands are ready: no load into a register that the instruction names is on its way (R189). -/
def operandsReady (x : Core) (i : CoreInstr) : Bool :=
  ((scalarsOf i).all fun r => x.loads.all fun l => l.1 ≠ r.toNat) && (vectorsOf i).all fun r => x.fars.all fun f => f.1 ≠ r.toNat

end Sys2Proof.Machine
end

