-- ==== Sys2Proof/Machine/Vector.lean ====
section
/-! DEFINITION. Lane arithmetic of the vector unit (R187, R188): exact operations rounded once, integer operations that wrap, and
the three functions that the spec bounds to 2 units in the last place. -/

namespace Sys2Proof.Machine

/-! ### Quotients and square roots -/

/-- The largest r with r² ≤ n, `r` being right above bit `k`. -/
def isqrtGo (k n r : Nat) : Nat :=
  match k with
  | 0 => r
  | k + 1 => if (r + 2 ^ k) * (r + 2 ^ k) ≤ n then isqrtGo k n (r + 2 ^ k) else isqrtGo k n r

/-- The integer square root. -/
def isqrt (n : Nat) : Nat := isqrtGo (Nat.log2 n / 2 + 1) n 0

/-- A quotient that rounds to FP32 as the exact one does: the last bit says whether there is a remainder (VDIV, R187). -/
def Num.div (x y : Num) : Num :=
  match x, y with
  | .nan, _ => .nan
  | _, .nan => .nan
  | .inf _, .inf _ => .nan
  | .inf a, .fin b _ _ => .inf (a != b)
  | .fin a _ _, .inf b => .fin (a != b) 0 0
  | .fin a m e, .fin b n g =>
    if n = 0 then (if m = 0 then .nan else .inf (a != b))
    else
      let k := 64 + Nat.log2 n
      let q := m * 2 ^ k / n
      .fin (a != b) (2 * q + (if m * 2 ^ k % n = 0 then 0 else 1)) (e - g - k - 1)

/-- A square root that rounds to FP32 as the exact one does (VSQRT, R187). -/
def Num.sqrt (x : Num) : Num :=
  match x with
  | .nan => .nan
  | .inf a => if a then .nan else .inf false
  | .fin a m e =>
    if m = 0 then .fin a m e
    else if a then .nan
    else
      let s := 100 + (e % 2).toNat
      let q := isqrt (m * 2 ^ s)
      .fin false (2 * q + (if q * q = m * 2 ^ s then 0 else 1)) ((e - s) / 2 - 1)

/-! ### VEXP, VLOG, VRSQRT: within 2 units in the last place (R187) -/

/-- The fixed point of the enclosures: values are in units of 2^−256. -/
def fixP : Nat := 256

/-- Σ y^i ÷ i! from term `t` of index `i` on, `n` terms. -/
def expTerms (n i t y : Nat) : Nat :=
  match n with
  | 0 => 0
  | n + 1 => t + expTerms n (i + 1) (t * y / 2 ^ fixP / (i + 1)) y

/-- `s` squared `n` times, in fixed point. -/
def squareTimes (n s : Nat) : Nat :=
  match n with
  | 0 => s
  | n + 1 => squareTimes n (s * s / 2 ^ fixP)

/-- m × 2^e × 2^256, rounded down. -/
def fixOf (m : Nat) (e : Int) : Nat := if 0 ≤ e + fixP then m * 2 ^ (e + fixP).toNat else m / 2 ^ (-(e + fixP)).toNat

/-- exp(±m × 2^e) in fixed point. -/
def expFix (neg : Bool) (m : Nat) (e : Int) : Nat :=
  if 7 ≤ log2Of m e then (if neg then 1 else 2 ^ (fixP + 200))
  else
    let v := squareTimes 7 (expTerms 64 0 (2 ^ fixP) (fixOf m e / 128))
    if neg then 2 ^ (2 * fixP) / v else v

/-- Σ t^(2i+1) ÷ (2i+1) from the power `p` of index `i` on, `n` terms; `q` is t². -/
def atanhTerms (n i p q : Nat) : Nat :=
  match n with
  | 0 => 0
  | n + 1 => p / (2 * i + 1) + atanhTerms n (i + 1) (p * q / 2 ^ fixP) q

/-- atanh(a ÷ b) in fixed point. -/
def atanhFix (a b : Nat) : Nat :=
  let t := a * 2 ^ fixP / b
  atanhTerms 90 0 t (t * t / 2 ^ fixP)

/-- ln(m × 2^e) in fixed point. -/
def logFix (m : Nat) (e : Int) : Int :=
  let l := Nat.log2 m
  2 * (atanhFix (m - 2 ^ l) (m + 2 ^ l) : Int) + (l + e) * (2 * (atanhFix 1 3 : Int))

/-- 1 ÷ sqrt(m × 2^e) in fixed point. -/
def rsqrtFix (m : Nat) (e : Int) : Nat := isqrt (2 ^ (2 * fixP - e).toNat / m)

/-- The word lies within 2 units in the last place of ±v × 2^−256. -/
def within2 (w : Word) (neg : Bool) (v : Nat) : Bool :=
  match numOf w with
  | .fin a m e =>
    let u := 2 ^ (max (Nat.log2 v) (fixP - 126) - 23)
    let z : Int := if neg then -(v : Int) else v
    decide ((scaled a m e (-fixP) - z).natAbs ≤ 2 * u + 1)
  | _ => false

/-- A value within 2 units in the last place of ±v × 2^−256: `w` where it is one, which the spec leaves open (R187, R188). -/
def boundedTo (w : Word) (neg : Bool) (v : Nat) : Word := if within2 w neg v then w else f32 (.fin neg v (-fixP))

/-- VEXP. -/
def vexpWord (w : Word) : Word :=
  match numOf w with
  | .nan => f32 .nan
  | .inf a => if a then 0 else f32 (.inf false)
  | .fin a m e => boundedTo (Config.vexp w) false (expFix a m e)

/-- VLOG; for 0 and below the spec states no result (log entry 34). -/
def vlogWord (w : Word) : Word :=
  match numOf w with
  | .nan => f32 .nan
  | .inf a => if a then Config.vlog w else f32 (.inf false)
  | .fin a m e =>
    if a ∨ m = 0 then Config.vlog w else boundedTo (Config.vlog w) (decide (logFix m e < 0)) (logFix m e).natAbs

/-- VRSQRT; for 0 and below the spec states no result (log entry 34). -/
def vrsqrtWord (w : Word) : Word :=
  match numOf w with
  | .nan => f32 .nan
  | .inf a => if a then Config.vrsqrt w else 0
  | .fin a m e => if a ∨ m = 0 then Config.vrsqrt w else boundedTo (Config.vrsqrt w) false (rsqrtFix m e)

/-! ### Lanes (R178, R187, R188) -/

/-- Bits of a lane's element. -/
def laneBits : VType → Nat
  | .fp32 | .int32 => 32
  | .bf16 | .fp16 | .int16 => 16
  | .int8 => 8

/-- The type is an integer type. -/
def laneInt : VType → Bool
  | .int32 | .int16 | .int8 => true
  | _ => false

/-- The format code of a float type. -/
def laneFmt : VType → Nat
  | .bf16 => 1
  | .fp16 => 2
  | _ => 0

/-- The low bits of a lane that hold its element. -/
def lowBits (ty : VType) (w : Word) : Word := w32 (w.toNat % 2 ^ laneBits ty)

/-- The number, and the signed integer, in a lane. -/
def laneNum (ty : VType) (w : Word) : Num := decodeElem (laneFmt ty) (w.toNat % 2 ^ laneBits ty)
def laneZ (ty : VType) (w : Word) : Int := sext (laneBits ty) w.toNat

/-- An integer as a lane holds it, wrapped (R188). -/
def wrapLane (ty : VType) (z : Int) : Word := w32 (ofInt (laneBits ty) z)

/-- The smaller and the larger of two numbers under R188. -/
def Num.min (x y : Num) : Num :=
  if x == .nan || y == .nan then .nan
  else if x.isZero && y.isZero then (if x.signed then x else y)
  else if Num.lt y x then y else x
def Num.max (x y : Num) : Num :=
  if x == .nan || y == .nan then .nan
  else if x.isZero && y.isZero then (if x.signed then y else x)
  else if Num.lt x y then y else x

/-- A float result rounded once to the lane type, with its flags. -/
def roundLane (ty : VType) (xs : List Num) (y : Num) : Word × FlagSet :=
  let c := encodeElem (laneFmt ty) 0 0 y
  (w32 c, floatFlags (laneFmt ty) xs y c)

/-- The exact result of a float operation of V-ALU on lanes. -/
def floatOp (op : VOp) (a b c : Num) : Num :=
  match op with
  | .vadd => Num.add a b
  | .vsub => Num.add a b.neg
  | .vmul => Num.mul a b
  | .vfma => Num.add (Num.mul a b) c
  | .vmin => Num.min a b
  | .vmax => Num.max a b
  | .vabs => a.abs
  | .vneg => a.neg
  | .vdiv => Num.div a b
  | .vsqrt => a.sqrt
  | _ => a

/-- The operands that a float operation reads. -/
def floatReads (op : VOp) (a b c : Num) : List Num :=
  match op with
  | .vfma => [a, b, c]
  | .vabs | .vneg | .vsqrt => [a]
  | _ => [a, b]

/-- An integer operation of V-ALU on lanes. -/
def intOp (op : VOp) (a b c : Int) : Int :=
  match op with
  | .vadd => a + b
  | .vsub => a - b
  | .vmul => a * b
  | .vfma => a * b + c
  | .vmin => min a b
  | .vmax => max a b
  | .vabs => a.natAbs
  | .vneg => -a
  | _ => a

/-- A shift of a lane; by the width or more the spec states no result (log entry 35). -/
def laneShift (left : Bool) (ty : VType) (a b : Word) : Word :=
  let n := b.toNat % 2 ^ laneBits ty
  if laneBits ty ≤ n then lowBits ty (Config.shiftOver (if left then 21 else 22) (lowBits ty a) (lowBits ty b))
  else if left then w32 (a.toNat * 2 ^ n % 2 ^ laneBits ty)
  else wrapLane ty (laneZ ty a / (2 ^ n : Nat))

/-- One of VEXP, VLOG and VRSQRT with its flags. -/
def approxLane (f : Word → Word) (a : Word) : Word × FlagSet :=
  let w := f a
  (w, ⟨numOf w == .nan && numOf a != .nan, (numOf a).isFin && (numOf w == .inf false || numOf w == .inf true), false, false⟩)

/-- The result of an operation of V-ALU in one lane, compares, VSUM, VMAXR and VSEL apart (R187, R188). -/
def laneOp (op : VOp) (ty : VType) (a b c : Word) : Word × FlagSet :=
  match op with
  | .vexp => approxLane vexpWord a
  | .vlog => approxLane vlogWord a
  | .vrsqrt => approxLane vrsqrtWord a
  | .vand => (lowBits ty (a &&& b), .none)
  | .vor => (lowBits ty (a ||| b), .none)
  | .vxor => (lowBits ty (a ^^^ b), .none)
  | .vshl => (laneShift true ty a b, .none)
  | .vshr => (laneShift false ty a b, .none)
  | .vmov => (lowBits ty a, .none)
  | _ =>
    if laneInt ty then (wrapLane ty (intOp op (laneZ ty a) (laneZ ty b) (laneZ ty c)), .none)
    else
      let x := laneNum ty a
      let y := laneNum ty b
      let z := laneNum ty c
      roundLane ty (floatReads op x y z) (floatOp op x y z)

/-- A compare in one lane; false with a NaN operand (R188). -/
def laneCompare (op : VOp) (ty : VType) (a b : Word) : Bool :=
  if laneInt ty then
    match op with
    | .vcmpgt => decide (laneZ ty b < laneZ ty a)
    | .vcmple => decide (laneZ ty a ≤ laneZ ty b)
    | _ => laneZ ty a == laneZ ty b
  else
    match op with
    | .vcmpgt => Num.lt (laneNum ty b) (laneNum ty a)
    | .vcmple => Num.le (laneNum ty a) (laneNum ty b)
    | _ => Num.eq (laneNum ty a) (laneNum ty b)

/-- One level of VSUM or VMAXR: pairs of neighbours (R188). -/
def pairUp (f : Word → Word → Word × FlagSet) (l : List Word) : List (Word × FlagSet) :=
  match l with
  | a :: b :: t => f a b :: pairUp f t
  | [a] => [(a, .none)]
  | [] => []

/-- Lanes combined by pairs, then pairs of those results, to one (R188). -/
def combineLanes (f : Word → Word → Word × FlagSet) (fuel : Nat) (l : List Word) (g : FlagSet) : Word × FlagSet :=
  match fuel, l with
  | 0, _ => (l.headD 0, g)
  | n + 1, l =>
    let r := pairUp f l
    combineLanes f n (r.map (·.1)) (r.foldl (fun g e => g.or e.2) g)

/-- VSUM or VMAXR of 16 lanes. -/
def reduceLanes (op : VOp) (ty : VType) (l : List Word) : Word × FlagSet :=
  combineLanes (fun a b => laneOp (if op = .vsum then .vadd else .vmax) ty a b 0) 4 (l.map (lowBits ty)) .none

/-! ### V-ALU -/

/-- FLAGS after operations. -/
def addFlags (g : FlagSet) (x : Core) : Core := { x with flags := flagsAfter x.flags g }

/-- Lanes with their results: VD and FLAGS after them. -/
def laneResults (vd : BitVec 4) (rs : List (Nat × Word × FlagSet)) (x : Core) : Core :=
  rs.foldl (fun y r => addFlags r.2.2 (vPut vd r.1 r.2.1 y)) x

/-- A V-ALU instruction on a core's registers (R187, R188). -/
def valuCore (op : VOp) (ty : VType) (pred : BitVec 2) (vd va vb vc : BitVec 4) (x : Core) : Core :=
  match op with
  | .vsel =>
    lanes.foldl (fun y i => vPut vd i (lowBits ty (if pOn x pred i then vLane x va i else vLane x vb i)) y) x
  | .vcmpgt | .vcmple | .vcmpeq =>
    let p : BitVec 2 := BitVec.ofNat 2 vd.toNat
    pPut p (BitVec.ofNat 16 (ofBits (lanes.filter fun i =>
      if pOn x pred i then laneCompare op ty (vLane x va i) (vLane x vb i) else pOn x p i))) x
  | .vsum | .vmaxr =>
    let r := reduceLanes op ty (lanes.map (vLane x va))
    if pOn x pred 0 then laneResults vd [(0, r)] x else x
  | _ => laneResults vd ((lanes.filter (pOn x pred)).map fun i => (i, laneOp op ty (vLane x va i) (vLane x vb i) (vLane x vc i))) x

end Sys2Proof.Machine
end

