-- ==== Sys2Proof/Machine/Collective.lean ====
section
/-! DEFINITION. Collectives: descriptors and their admission, the order of reduction, messages sent, gates, stragglers, and
completion records (R297 to R312, R318, R322, R327). -/

namespace Sys2Proof.Machine

/-! ### Descriptors and groups (R300 to R302) -/

/-- The descriptor in a 64-byte word. -/
def collDesc (e : Nat) : CollDesc :=
  let addr (byte : Nat) : Nat := 64 * fld e (8 * byte) 46
  { op := fld e 0 4, mode := fld e 4 1, norm := bit e 5, normFinal := bit e 6, skipNonfinite := bit e 7, srcFmt := fld e 8 4
    dstFmt := fld e 12 4, tag := fld e 16 12, count := fld e 32 32, src := addr 8, dst := addr 0x10, groupAddr := addr 0x18
    postscale := fld e 256 32, maxNorm := fld e 288 32, clipAddr := addr 0x28, recordAddr := addr 0x30, waitCtr := fld e 448 4
    doneCtr := fld e 452 4, waitEn := bit e 456, doneEn := bit e 457, waitValue := fld e 480 32 }

/-- ALLREDUCE or REDUCE_SCATTER. -/
def CollDesc.reduces (x : CollDesc) : Bool := x.op == 0 || x.op == 1

/-- The collective moves blocks (R323). -/
def CollDesc.moves (x : CollDesc) : Bool := decide (2 ≤ x.op ∧ x.op ≤ 5)

/-- Bytes of an element of a contribution and of an output. -/
def CollDesc.srcBytes (x : CollDesc) : Nat := fmtBits x.srcFmt / 8
def CollDesc.dstBytes (x : CollDesc) : Nat := fmtBits x.dstFmt / 8

/-- PERMUTE: pieces, and the bytes of one. -/
def CollDesc.pieces (x : CollDesc) : Nat := x.maxNorm % 64 + 1
def CollDesc.pieceBytes (x : CollDesc) : Nat := x.count / x.pieces

/-- PERMUTE: cluster index in the partition, PAL_BASE and PAL_SIZE in KiB. -/
def CollDesc.stageCluster (x : CollDesc) : Nat := x.postscale % 1024
def CollDesc.stageBase (x : CollDesc) : Nat := fld x.postscale 10 9
def CollDesc.stageSize (x : CollDesc) : Nat := fld x.postscale 19 10

/-- The elements of shard `j` of `g`: first and number (R306). -/
def shardOf (count g j : Nat) : Nat × Nat := (j * count / g, (j + 1) * count / g - j * count / g)

/-- Check 1 of R302 on the descriptor alone. -/
def collFormat (e : Nat) : Bool :=
  let x := collDesc e
  let zero : Bool := decide (fld e 28 4 = 0 ∧ fld e 458 22 = 0) &&
    [0x08, 0x10, 0x18, 0x28, 0x30].all fun b => fld e (8 * b + 46) 18 == 0
  let fmts : Bool := if x.reduces then [0, 1, 2].contains x.srcFmt && [0, 1].contains x.dstFmt else x.srcFmt == 0 && x.dstFmt == 0
  let modes : Bool := x.mode == 0 || x.op == 0 || x.op == 3 || x.op == 6
  let norms : Bool := (!x.normFinal || x.norm) && (!x.norm || x.reduces)
  let count : Bool := if x.reduces then decide (1 ≤ x.count ∧ x.count ≤ 2 ^ 31) else if x.op = 6 then x.count == 0 else x.count % 64 == 0
  let pieces : Bool := x.op ≠ 5 || (x.count % x.pieces == 0 &&
    decide (x.pieceBytes ≤ 1024 * x.stageSize ∧ x.stageBase + x.stageSize ≤ 512))
  zero && decide (x.op ≤ 6) && fmts && modes && norms && count && pieces

/-- Check 1 of R302 on the group record. -/
def collGroupOk (nv : NonVol) (d : Device) (c : Nat) (x : CollDesc) (g : Group) : Bool :=
  let dests := g.members.map (·.dest)
  ((g.me.map fun m => decide (m.node = d.link.node ∧ m.ctx = c ∧ m.ctxGen = genOf nv c)).getD false) &&
    (x.op ≠ 2 || decide (g.members.length ≤ 16)) &&
    (x.op ≠ 5 || (dests.all (· < g.members.length) && decide dests.Nodup &&
      decide (x.stageCluster < (partClusters d (ctxGet d c).part.val).length)))

/-- Bytes of the reads and of the writes that the descriptor names, as (address, length) (R302 check 3). -/
def collReads (x : CollDesc) : List (Nat × Nat) :=
  if x.reduces then [(x.src, x.count * x.srcBytes)]
  else if x.op = 6 then [(x.src, if x.mode = 0 then 256 else 8)]
  else [(x.src, x.count)]

def collWrites (x : CollDesc) (g : Group) : List (Nat × Nat) :=
  let out : List (Nat × Nat) :=
    if x.op = 0 then [(x.dst, x.count * x.dstBytes)]
    else if x.op = 1 then [(x.dst, (shardOf x.count g.members.length g.self).2 * x.dstBytes)]
    else if x.op = 6 then [(x.dst, 192 + 8 * g.members.length)]
    else []
  out ++ [(x.recordAddr, 256)] ++ (if x.normFinal then [(x.clipAddr, 8)] else [])

/-- Every range is mapped, and writable where it is written. -/
def rangesMapped (d : Device) (c : Nat) (wr : Bool) (l : List (Nat × Nat)) : Bool :=
  l.all fun r => match vSpan d.mem (ctxGet d c).root wr r.1 r.2 with
    | .ok _ => true
    | .error _ => false

/-- The collective is in progress: admitted, and its context not torn down (R298, R312). -/
def CollRun.open_ (r : CollRun) : Bool := r.active && r.bad ≠ stTorn

/-- A collective in progress of context `c` with this GROUP_ID and TAG. -/
def collActive (d : Device) (c id tag : Nat) : Bool :=
  d.coll.runs.any fun r => r.open_ && decide (r.ctx.val = c ∧ r.group.id = id ∧ r.desc.tag = tag)

/-- Check 2 of R302, by G and GROUP_ID: a group of several modules needs a cage, and its tag is not in use. -/
def collStateBad (d : Device) (c n id tag : Nat) : Bool :=
  let caged := ((partGet d (ctxGet d c).part.val).map (·.cages)).getD 0 ≠ 0
  (decide (1 < n) && !caged) || collActive d c id tag

/-- The checks of R302 for the descriptor at virtual address `a` of context `c`: it and its group, or the status and the number of the check
that fails. What is mapped of the group record is checked before what is not is met (check 3). -/
def collCheck (nv : NonVol) (d : Device) (c a : Nat) : Except AdmitErr (CollDesc × Group) := do
  match ← admRead d c a 64 with
  | none => .error (.refuse stPage 0xFFFF)
  | some e =>
    let x := collDesc e
    if !collFormat e then .error (.refuse stMalformed 1)
    else
      match ← admRead d c x.groupAddr 64 with
      | none => .error (.refuse stPage 3)
      | some h =>
        let n := fld h 0 11
        if !groupHeadOk h ∨ (x.op = 2 ∧ 16 < n) then .error (.refuse stMalformed 1)
        else
          match ← admRead d c x.groupAddr (64 + 16 * n) with
          | none => .error (if collStateBad d c n (fld h 32 16) x.tag then .refuse stState 2 else .refuse stPage 3)
          | some v =>
            match groupParse fun o len => fld v (8 * o) (8 * len) with
            | none => .error (.refuse stMalformed 1)
            | some g =>
              if !collGroupOk nv d c x g then .error (.refuse stMalformed 1)
              else if collStateBad d c n g.id x.tag then .error (.refuse stState 2)
              else if rangesMapped d c false (collReads x) ∧ rangesMapped d c true (collWrites x g) then .ok (x, g)
              else .error (.refuse stPage 3)

/-! ### Places in the group (R306, R307, R310, R323) -/


/-- Members of the group. -/
def CollRun.size (r : CollRun) : Nat := r.group.members.length

/-- This member's index. -/
def CollRun.me (r : CollRun) : Nat := r.group.self

/-- The order is the tree of R307; the norm and digests always use it. -/
def CollRun.tree (r : CollRun) : Bool := r.desc.mode = 1

/-- Children and parent of member `m` in the heap (R307). -/
def heapChildren (g m : Nat) : List Nat := [2 * m + 1, 2 * m + 2].filter (· < g)
def heapParent (m : Nat) : List Nat := if m = 0 then [] else [(m - 1) / 2]

/-- The next and the previous member of the ring, where there is another. -/
def ringNext (g m : Nat) : List Nat := if g ≤ 1 then [] else [(m + 1) % g]
def ringPrev (g m : Nat) : List Nat := if g ≤ 1 then [] else [(m + g - 1) % g]

/-- BROADCAST: the members that `m` sends to, and the one it hears from. MODE 0 sends along the ring, MODE 1 down the heap
(DEDUCED from R301 and R325, log entry 43). -/
def bcastTo (r : CollRun) (m : Nat) : List Nat :=
  if r.tree then heapChildren r.size m else if m + 1 < r.size then [m + 1] else []
def bcastFrom (r : CollRun) (m : Nat) : List Nat := if r.tree then heapParent m else if m = 0 then [] else [m - 1]

/-- PERMUTE: the member that member `m`'s shard goes to, and the members whose shard comes to `m` (R326). -/
def permTo (r : CollRun) (m : Nat) : Nat := ((r.group.members[m]?).map (·.dest)).getD m
def permFrom (r : CollRun) (m : Nat) : List Nat := (List.range r.size).filter fun j => permTo r j = m

/-- The members that the blocks of this member go to (R324 to R326). -/
def moveTo (r : CollRun) : List Nat :=
  if r.desc.op = 2 then List.range r.size
  else if r.desc.op = 3 then bcastTo r r.me
  else if r.desc.op = 4 then [(r.me + 1) % r.size]
  else if r.desc.op = 5 then [permTo r r.me].filter (· ≠ r.me)
  else []

/-- The members whose ARRIVAL this member awaits (R324 to R326). -/
def moveFrom (r : CollRun) : List Nat :=
  let l := if r.desc.op = 2 then List.range r.size
    else if r.desc.op = 3 then bcastFrom r r.me
    else if r.desc.op = 4 then [(r.me + r.size - 1) % r.size]
    else if r.desc.op = 5 then permFrom r r.me
    else []
  l.filter (· ≠ r.me)

/-- The members that send this one data, to which its READY goes (R310). The norm totals, the digests and the RECORDs are data
beside the chunks and the blocks (DEDUCED, log entry 44). -/
def sendersTo (r : CollRun) : List Nat :=
  let g := r.size
  let heap := heapParent r.me ++ heapChildren g r.me
  let l := if r.desc.reduces then (if r.tree then heap else ringPrev g r.me) ++ (if r.desc.normFinal then heap else [])
    else if r.desc.op = 6 then heap
    else moveFrom r
  l.eraseDups

/-- The bucket's coordinator (R310). -/
def CollRun.coordinator (r : CollRun) : Nat := r.desc.tag % r.size

/-! ### Runs and messages (R303) -/

/-- The collective with command tag `t` of context `c`. -/
def collGet (d : Device) (c t : Nat) : Option CollRun := d.coll.runs.find? fun r => decide (r.ctx.val = c ∧ r.tag = t)

def collMod (c t : Nat) (f : CollRun → CollRun) (d : Device) : Device :=
  { d with coll := { d.coll with runs := d.coll.runs.map (fun r => if r.ctx.val = c ∧ r.tag = t then f r else r) } }

/-- Adds one to COLL_CNT `k` (R330). -/
def collCnt (k : Nat) (d : Device) : Device := { d with coll := { d.coll with cnt := smMod d.coll.cnt 0 k (satInc 32) } }

/-- The tail of R303. -/
def collTail (r : CollRun) (kind chunk elements status : Nat) : List Word :=
  [w32 (pack [(0, 16, r.group.id), (16, 16, r.group.gen)]), w32 (pack [(0, 12, r.desc.tag), (12, 4, kind), (16, 10, r.me)]),
    w32 chunk, w32 elements, w32 status]

/-- Sends member `m` a message of `kind`, on flow selector 0 of the context (log entry 45). -/
def collSend (nv : NonVol) (r : CollRun) (m kind chunk elements : Nat) (bs : List Byte) (d : Device) : Device :=
  let node := ((r.group.members[m]?).map (·.node)).getD 0
  let q := { dataPacket nv d r.ctx.val node 0 5 with
    ordered := kind == 9, tail := collTail r kind chunk elements 0, payload := bs }
  txPost nv node (r.ctx.val * 16) { TxPacket.plain q with coll := some (r.ctx.val, r.tag) } d

/-- Sends each of the members the same message. -/
def collSendAll (nv : NonVol) (r : CollRun) (ms : List Nat) (kind chunk elements : Nat) (bs : List Byte) (d : Device) : Device :=
  ms.foldl (fun d m => collSend nv r m kind chunk elements bs d) d

/-! ### Records (R318, R322) -/

/-- The RECORDs together (R313): the total count, the lowest element, and the node found there. -/
def recordSum (r : CollRun) : Nat × Nat × Nat :=
  (r.records.filterMap (·.2)).foldl (fun a b =>
    (min (2 ^ 32 - 1) (a.1 + b.1), min a.2.1 b.2.1, if b.2.1 < a.2.1 then b.2.2 else a.2.2)) (0, 2 ^ 32 - 1, 0x3FF)

/-- add2 of R314: adds `a` and a small term `e` into a pair. -/
def addTwo (h : Word × Word) (a e : Word) : Word × Word :=
  let neg (w : Word) : Word := f32 (Num.neg (numOf w))
  let s := addF32 h.1 a
  let b := addF32 s (neg h.1)
  let err := addF32 (addF32 h.1 (neg (addF32 s (neg b)))) (addF32 a (neg b))
  (s, addF32 h.2 (addF32 err e))

/-- The square of an element and its exact remainder, in FP32 (R314). -/
def squareTwo (x : Word) : Word × Word :=
  let n := numOf x
  let p := f32 (Num.mul n n)
  (p, f32 (Num.add (Num.mul n n) (Num.neg (numOf p))))

/-- The pair of `lane`: the elements `lane`, `lane` + 256, … of those held. -/
def laneTwo (xs : List Word) (lane : Nat) : Word × Word :=
  ((List.range xs.length).filter fun i => i % 256 = lane).foldl (fun h i =>
    let q := squareTwo (xs.getD i 0)
    addTwo h q.1 q.2) (0, 0)

/-- The norm part of the elements held, in ascending order (R314). -/
def normPart (xs : List Word) : Word × Word :=
  ((List.range 256).map (laneTwo xs)).foldl (fun h q => addTwo h q.1 q.2) (0, 0)

/-- The norm part of a collective: over the elements it finally holds (R314). -/
def CollRun.part (r : CollRun) : Word × Word := if r.desc.norm then normPart (r.held.map (·.2)) else (0, 0)

/-- The bucket record's 256 bytes (R318). -/
def bucketRecord (r : CollRun) (valid : Bool) (status seq end_ : Nat) : Nat :=
  let nf := recordSum r
  let p := r.part
  let k : Word × Nat := r.clip.getD (0, 0)
  pack [(0, 1, b2n valid), (8, 8, status), (16, 16, seq), (32, 12, r.desc.tag), (44, 4, r.desc.op), (48, 16, r.group.id),
    (64, 32, nf.1), (96, 32, nf.2.1), (128, 10, nf.2.2), (144, 11, r.missing.length), (160, 32, p.1.toNat), (192, 32, p.2.toNat),
    (224, 32, if r.desc.normFinal then (r.normVal.getD 0).toNat else 0),
    (256, 32, k.1.toNat), (288, 32, k.2),
    (320, 64, r.startTime), (384, 64, end_), (1024, 1024, ofBits r.missing)]

/-- The members whose digest is known and differs from `ref` (R321). -/
def digestNamed (r : CollRun) (ref : Nat) : List Nat :=
  (List.range r.size).filter fun m => match smGet r.digests none m with
    | some (some v) => v ≠ ref
    | _ => false

/-- Members that contributed the digest of member `m`. -/
def digestVotes (r : CollRun) (v : Nat) : Nat :=
  ((List.range r.size).filter fun j => decide (smGet r.digests none j = some (some v))).length

/-- The reference digest (R321): the value of most members that contributed, on a tie that of the lowest member. -/
def digestRef (r : CollRun) : Nat :=
  let vs := (List.range r.size).filterMap fun m => match smGet r.digests none m with
    | some (some v) => some v
    | _ => none
  match vs.find? fun v => vs.all fun w => decide (digestVotes r w ≤ digestVotes r v) with
  | some v => v
  | none => 0

/-- Every member's digest is known. -/
def digestsKnown (r : CollRun) : Bool := (List.range r.size).all fun m => (smGet r.digests none m).isSome

/-- The members named by a digest exchange (R321). -/
def CollRun.named (r : CollRun) : List Nat := if r.desc.op = 6 ∧ digestsKnown r then digestNamed r (digestRef r) else []

/-- The node of member `m`. -/
def nodeOf (r : CollRun) (m : Nat) : Nat := ((r.group.members[m]?).map (·.node)).getD 0

/-- The digest-exchange record (R322). -/
def digestRecord (r : CollRun) (valid : Bool) (status seq : Nat) : Nat :=
  let none_ := (List.range r.size).filter fun m => smGet r.digests none m = some none
  pack ([(0, 1, b2n valid), (8, 8, status), (16, 16, seq), (32, 11, r.size), (48, 16, r.group.id), (64, 11, r.named.length),
    (80, 11, none_.length), (96, 10, (r.named.head?.map (nodeOf r)).getD 0x3FF),
    (128, 64, if digestsKnown r then digestRef r else 0), (512, 1024, ofBits none_)] ++
    (List.range r.size).map fun m => (1536 + 64 * m, 64, ((smGet r.digests none m).getD none).getD 0))

/-- SEQ of the record at `a`, as memory holds it (R318). -/
def recordSeq (d : Device) (c a : Nat) : Nat :=
  match vRead d.mem (ctxGet d c).root a 4 with
  | .ok bs => ofBytes bs / 65536
  | .error _ => 0

/-- A fault of the engine's accesses for a collective is its command's (R421). -/
def CollRun.blame (r : CollRun) (f : FaultAt) : FaultAt := { f with tag := some r.tag }

/-- A write of the engine for collective `r`; of a context that is torn down it reaches what is still mapped and writable (R312). -/
def engineWrite (nv : NonVol) (r : CollRun) (va : Nat) (bs : List Byte) (d : Device) : Device :=
  let c := r.ctx.val
  if (ctxGet d c).st = .tearing then
    match vSpan d.mem (ctxGet d c).root true va bs.length with
    | .ok ps => ctxStore nv c ps bs d
    | .error _ => d
  else ctxWriteAs nv r.blame c 7 va bs d

/-- Writes both records of a collective (R318, R322): the fields first, STATUS, VALID and SEQ last, which one step shows at once. -/
def recordsWrite (nv : NonVol) (r : CollRun) (valid : Bool) (status : Nat) (d : Device) : Device :=
  let c := r.ctx.val
  let next (a : Nat) : Nat := recordSeq d c a + b2n valid
  let end_ := if valid then d.time.now else 0
  let d' := if r.desc.op = 6 then
      engineWrite nv r r.desc.dst (toBytes (192 + 8 * r.size) (digestRecord r valid status (next r.desc.dst))) d
    else d
  engineWrite nv r r.desc.recordAddr (toBytes 256 (bucketRecord r valid status (next r.desc.recordAddr) end_)) d'

/-! ### COLLECTIVE (R298, R302) -/

/-- A collective before anything has happened to it. -/
def CollRun.init (c : CtxNo) (t : Nat) (x : CollDesc) (g : Group) : CollRun :=
  { ctx := c, tag := t, desc := x, group := g, active := false, gateOpen := false, startTime := 0, gateUp := 0, readyFrom := []
    allReady := false, raised := 0, told := false, missing := [], stage := none, traffic := 0, inbox := [], added := [], resIn := []
    results := [], held := [], own := (0, 2 ^ 32 - 1, 0x3FF), records := [], recSent := [], totals := [], totSent := []
    normVal := none, normSent := false, clip := none, digests := [], digUp := [], digDown := [], sentTo := [], arrSent := []
    arrivals := [], piece := 0, copied := 0, posted := 0, grantsOut := [], grantsIn := [], landed := [], bad := 0 }

/-- Another collective of context `c` may be in progress (R298). -/
def collRoom (d : Device) (c : Nat) : Bool :=
  let l := d.coll.runs.filter (·.open_)
  decide (l.length < 64) && decide ((l.filter fun r => r.ctx.val = c).length < 16)

/-- A collective comes into progress: it joins the norm set, and its record is written with VALID 0 (R315, R318). -/
def collBegin (nv : NonVol) (c t : Nat) (d : Device) : Device :=
  match collGet d c t with
  | none => d
  | some r =>
    let d := collMod c t (fun r => { r with active := true }) d
    let d := if r.desc.norm then { d with coll := { d.coll with norms := smMod d.coll.norms ⟨[], 0⟩ c (fun s =>
      { s with joined := s.joined + 1 }) } } else d
    recordsWrite nv r false 0 d

/-- Collectives that wait come into progress in submission order, as far as there is room (R298). -/
def collAdmitNext (nv : NonVol) (fuel : Nat) (d : Device) : Device :=
  match fuel with
  | 0 => d
  | n + 1 =>
    match d.coll.runs.find? fun r => !r.active && collRoom d r.ctx.val with
    | some r => collAdmitNext nv n (collBegin nv r.ctx.val r.tag d)
    | none => d

/-- COLLECTIVE (R302): the checks, then a place among the collectives in progress or in the queue. -/
def collective (t : Nat) (x : Taken) (nv : NonVol) (d : Device) : Device :=
  match x.ring with
  | none => d
  | some c =>
    match collCheck nv d c.val (eArg x.entry 0 % 2 ^ 52) with
    | .error (.refuse st i) => complete nv t st i 0 d
    | .error (.fault f) => faultCtx nv c.val { f with tag := some t } d
    | .ok (y, g) =>
      let d := { d with coll := { d.coll with runs := d.coll.runs ++ [CollRun.init c t y g] } }
      collAdmitNext nv 64 (markBegun t d)

/-- COLLECTIVE (R302). -/
def execCollective (t : Nat) (s : State) : Host.Outcome State Fault Refusal := .next (onDev (withTaken 0x41 t (collective t)) s)

/-! ### IDLE_WINDOWS (R327) -/

/-- A bubble record; none where it breaks R327. -/
def bubbleParse (v : Nat) : Option Bubble :=
  let b : Bubble := ⟨fld v 0 64, fld v 64 32, fld v 96 32, fld v 128 16, fld v 144 8, bit v 152, 0⟩
  if fld v 153 7 = 0 ∧ fld v 160 96 = 0 ∧ 1 ≤ b.count ∧ (b.period = 0 ∨ b.length ≤ b.period) then some b else none

/-- IDLE_WINDOWS (R327): a new declaration replaces the earlier one; a record that breaks the layout refuses the command (log entry 46). -/
def idleWindows (t : Nat) (x : Taken) (nv : NonVol) (d : Device) : Device :=
  match x.ring with
  | none => d
  | some c =>
    let n := eArg x.entry 1 % 32
    match admRead d c.val (eArg x.entry 0 % 2 ^ 52) (32 * n) with
    | .error (.fault f) => faultCtx nv c.val { f with tag := some t } d
    | .error (.refuse st i) => complete nv t st i 0 d
    | .ok none => complete nv t stPage 0xFFFF 0 d
    | .ok (some v) =>
      match allSome ((List.range n).map fun i => bubbleParse (fld v (256 * i) 256)) with
      | some bs => complete nv t stOK 0xFFFF 0 (ctxMod c.val (fun y => { y with bubbles := bs }) d)
      | none => complete nv t stMalformed 0xFFFF 0 d

/-- IDLE_WINDOWS (R327). -/
def execIdleWindows (t : Nat) (s : State) : Host.Outcome State Fault Refusal := .next (onDev (withTaken 0x42 t (idleWindows t)) s)

/-! ### Gates and stragglers (R299, R310) -/

/-- READY of member `m` is held; the coordinator that holds them all sends ALL_READY (R310). -/
def readyTake (nv : NonVol) (c t m : Nat) (d : Device) : Device :=
  let d := collMod c t (fun r => { r with readyFrom := if r.readyFrom.contains m then r.readyFrom else insAsc m r.readyFrom }) d
  match collGet d c t with
  | none => d
  | some r =>
    if r.coordinator = r.me ∧ !r.allReady ∧ ((List.range r.size).all fun j => r.readyFrom.contains j) then
      collSendAll nv r ((List.range r.size).filter (· ≠ r.me)) 3 0 0 [] (collMod c t (fun r => { r with allReady := true }) d)
    else d

/-- The digest that this member contributes (R321). -/
def ownDigest (d : Device) (r : CollRun) : Except FaultAt (Option Nat) :=
  let c := r.ctx.val
  if r.desc.mode = 1 then (ctxRead d c 7 r.desc.src 8).map fun bs => some (ofBytes bs)
  else (ctxRead d c 7 r.desc.src 256).map fun bs =>
    let v := ofBytes bs
    if bit v (0x1C * 8) then some (fld v (0x28 * 8) 64) else none

/-- A member of a ring whose own shard is empty: its RECORD is known from the start (R306, R313). -/
def holdsNone (r : CollRun) : Bool := r.desc.reduces && !r.tree && (shardOf r.desc.count r.size r.me).2 == 0

/-- COLLECTIVE_GATE_OPEN (R299, R310, R321). -/
def collGateOpen (nv : NonVol) (c t : Nat) (d : Device) : Device :=
  match collGet d c t with
  | none => d
  | some r =>
    if r.active ∧ !r.gateOpen ∧ (!r.desc.waitEn ∨ ctrPassed d c r.desc.waitCtr (w32 r.desc.waitValue)) then
      let open_ (d : Device) : Device :=
        let d := collMod c t (fun r => { r with
          gateOpen := true, startTime := d.time.now, gateUp := nv.up
          records := if holdsNone r then smPut r.records none r.me (some (0, 2 ^ 32 - 1, 0x3FF)) else r.records }) d
        let to_ := (r.coordinator :: sendersTo r).eraseDups.filter (· ≠ r.me)
        readyTake nv c t r.me (collSendAll nv r to_ 2 0 0 [] d)
      if r.desc.op = 6 then
        match ownDigest d r with
        | .ok v => open_ (collMod c t (fun r => { r with digests := smPut r.digests none r.me (some v) })
            (readCharge nv c r.desc.src (if r.desc.mode = 1 then 8 else 256) d))
        | .error f => faultCtx nv c { f with tag := some t } d
      else open_ d
    else d

/-- COLLECTIVE_GATE_OPEN (R299). -/
def execCollectiveGateOpen (c : CtxNo) (t : Nat) (s : State) : Host.Outcome State Fault Refusal :=
  .next (onDev (fun nv d => collGateOpen nv c.val t d) s)

/-- A straggler event here: the record's MISSING fields first, then the event (R310, R318). -/
def stragglerRaise (nv : NonVol) (c t : Nat) (missing : List Nat) (d : Device) : Device :=
  let d := collMod c t (fun r => { r with missing := missing }) d
  match collGet d c t with
  | none => d
  | some r =>
    let nodes := missing.map (nodeOf r)
    let low := nodes.foldl min (nodes.headD 0)
    raiseEv nv 0x12 (some c) (pack [(0, 16, r.group.id), (16, 12, r.desc.tag)]) (pack [(0, 11, missing.length), (16, 10, low)])
      (collCnt 2 (recordsWrite nv r false 0 d))

/-- The 128-byte missing map of STRAGGLER (R310). -/
def missingMap (l : List Nat) : List Byte := toBytes 128 (ofBits l)

/-- STRAGGLER_TIMEOUT (R310). -/
def stragglerTimeout (nv : NonVol) (c t : Nat) (d : Device) : Device :=
  match collGet d c t with
  | none => d
  | some r =>
    let ms := d.coll.stragglerMs * 1000000
    if !r.gateOpen ∨ r.allReady then d
    else if r.coordinator = r.me then
      if r.gateUp + (r.raised + 1) * ms ≤ nv.up then
        let missing := (List.range r.size).filter fun m => !r.readyFrom.contains m
        let d := stragglerRaise nv c t missing (collMod c t (fun r => { r with raised := r.raised + 1 }) d)
        collSendAll nv r (r.readyFrom.filter (· ≠ r.me)) 4 0 0 (missingMap missing) d
      else d
    else if !r.told ∧ r.raised = 0 ∧ r.gateUp + ms + 1000000000 ≤ nv.up then
      stragglerRaise nv c t [r.coordinator] (collMod c t (fun r => { r with raised := 1 }) d)
    else d

/-- STRAGGLER_TIMEOUT (R310). -/
def execStragglerTimeout (c : CtxNo) (t : Nat) (s : State) : Host.Outcome State Fault Refusal :=
  .next (onDev (fun nv d => stragglerTimeout nv c.val t d) s)

end Sys2Proof.Machine
end

