-- ==== Sys2Proof/Machine/Reduce.lean ====
section
/-! DEFINITION. The reduction engine's stages: sums in the order of the group, results, non-finite counts, digests on their way,
and blocks moved (R297, R305 to R308, R311, R313, R321, R323 to R326). -/

namespace Sys2Proof.Machine

/-! ### Chunks (R303, R306) -/

/-- The shards of a bucket: G of them on a ring, the whole bucket on a tree. -/
def CollRun.shards (r : CollRun) : List (Nat × Nat) :=
  if r.tree then [(0, r.desc.count)] else (List.range r.size).map fun j => shardOf r.desc.count r.size j

/-- Chunks of a shard. -/
def shardChunks (s : Nat × Nat) : Nat := cdiv s.2 1024

/-- Chunk `i` of a list of shards, the first of which is shard `j`: shard, first element, elements. Chunks are numbered through the
shards in ascending order (log entry 47). -/
def chunkIn (l : List (Nat × Nat)) (j i : Nat) : Option (Nat × Nat × Nat) :=
  match l with
  | [] => none
  | s :: t => if i < shardChunks s then some (j, s.1 + 1024 * i, min 1024 (s.2 - 1024 * i)) else chunkIn t (j + 1) (i - shardChunks s)

/-- Chunk `i` of the bucket: shard, first element, elements. -/
def CollRun.chunk (r : CollRun) (i : Nat) : Option (Nat × Nat × Nat) := chunkIn r.shards 0 i

/-- The numbers of the chunks of shard `j`. -/
def CollRun.chunksOf (r : CollRun) (j : Nat) : List Nat :=
  let before := ((r.shards.take j).map shardChunks).foldl (· + ·) 0
  (List.range ((r.shards[j]?.map shardChunks).getD 0)).map (before + ·)

/-- All chunk numbers. -/
def CollRun.allChunks (r : CollRun) : List Nat := List.range ((r.shards.map shardChunks).foldl (· + ·) 0)

/-- The final holder of shard `j`. -/
def CollRun.holder (r : CollRun) (j : Nat) : Nat := if r.tree then 0 else j

/-- This member finally holds shard `j`. -/
def CollRun.holds (r : CollRun) (j : Nat) : Bool := r.holder j == r.me

/-- The inbox keys of the sums that this member awaits for chunk `i` of shard `j` (R306, R307). -/
def sumInputs (r : CollRun) (i j : Nat) : List Nat :=
  if r.tree then (heapChildren r.size r.me).map fun m => 2 * i + (m - 2 * r.me - 1)
  else if (j + 1) % r.size = r.me then [] else [2 * i]

/-- Where this member sends the sum of shard `j`; none where it holds it. -/
def sumTo (r : CollRun) (j : Nat) : List Nat :=
  if r.holds j then [] else if r.tree then heapParent r.me else ringNext r.size r.me

/-- Where this member sends what the holder `h` gives out: down the heap, or on round the ring as far as the member before `h`. -/
def outTo (r : CollRun) (h : Nat) : List Nat :=
  if r.tree then heapChildren r.size r.me else (ringNext r.size r.me).filter (· ≠ h)

/-- Where this member sends a result of shard `j`; REDUCE_SCATTER sends none (R306). -/
def resultTo (r : CollRun) (j : Nat) : List Nat := if r.desc.op = 1 then [] else outTo r (r.holder j)

/-- Each of the members has sent its READY (R304). -/
def readyAll (r : CollRun) (l : List Nat) : Bool := l.all fun m => r.readyFrom.contains m

/-! ### Arithmetic (R305, R308, R313) -/

/-- The bytes of FP32 words, and the words of bytes. -/
def wordsOut (l : List Word) : List Byte := l.flatMap fun w => toBytes 4 w.toNat
def wordsIn (n : Nat) (bs : List Byte) : List Word :=
  (List.range n).map fun i => w32 (ofBytes ((bs.drop (4 * i)).take 4))

/-- Contributions in memory widened to FP32 (R305). -/
def contribution (x : CollDesc) (bs : List Byte) (n : Nat) : List Word :=
  (List.range n).map fun i => f32 (decodeElem x.srcFmt (ofBytes ((bs.drop (x.srcBytes * i)).take x.srcBytes)))

/-- The member's sum: on a ring the incoming sum on the left, on a tree the children's sums added in turn (R306, R307). -/
def memberSum (tree : Bool) (c : Word) (ins : List Word) : Word :=
  if tree then ins.foldl addF32 c else ins.foldl (fun _ s => addF32 s c) c

/-- POSTSCALE with one rounding (R306). -/
def postscaled (x : CollDesc) (w : Word) : Word := if x.postscale = 0 then w else f32 (Num.mul (numOf w) (numOf (w32 x.postscale)))

/-- Results as they are written at DST (R308). -/
def resultBytes (x : CollDesc) (l : List Word) : List Byte :=
  l.flatMap fun w => toBytes x.dstBytes (encodeElem x.dstFmt 0 0 (numOf w))

/-- The members of the heap from member `m` down (R307). -/
def heapUnder (g m : Nat) : List Nat := (List.range g).filter fun j => (List.range 11).any fun k => (j + 1) / 2 ^ k = m + 1

/-- The members whose contributions are in the sums that came in, sum by sum (R306, R307). -/
def behindSums (r : CollRun) : List (List Nat) :=
  if r.tree then (heapChildren r.size r.me).map (heapUnder r.size) else [(List.range r.size).filter (· ≠ r.me)]

/-- The lowest members that can have had a non-finite contribution at a result, none for no member: a sum that came in finite had finite
contributions only, and one that came in non-finite can also be an overflow. -/
def badMembers (r : CollRun) (c : Word) (ins : List Word) : List (Option Nat) :=
  let others := ((ins.zip (behindSums r)).filter fun e => !(numOf e.1).isFin).flatMap (·.2)
  if (numOf c).isFin then none :: others.map some else (others.filter (· < r.me)).map some ++ [some r.me]

/-- The NODE of the lowest member whose contribution to a non-finite result was non-finite, 0x3FF where none was (R313). The spec does not say
how the holder learns it of the members behind a non-finite sum: it is free among those that it can be (log entry 48). -/
def badNode (r : CollRun) (free : Nat) (c : Word) (ins : List Word) : Nat :=
  let l := badMembers r c ins
  (((l[free % l.length]?).getD none).map (nodeOf r)).getD 0x3FF

/-- Results of a chunk counted into the holder's account, from element `first` on: `l` gives result, contribution and sums. -/
def countBad (r : CollRun) (free first : Nat) (l : List (Word × Word × List Word)) : Nat × Nat × Nat :=
  (l.zip (List.range l.length)).foldl (fun a e =>
    if (numOf e.1.1).isFin then a
    else
      let i := first + e.2
      (min (2 ^ 32 - 1) (a.1 + 1), min a.2.1 i, if i < a.2.1 then badNode r free e.1.2.1 e.1.2.2 else a.2.2)) r.own

/-! ### The tasks of a stage -/

/-- One piece of the engine's work for a collective. -/
inductive CollTask where
  /-- Add this member's contribution to chunk `i`. -/
  | sum (i : Nat)
  /-- Write result chunk `i` and pass it on. -/
  | res (i : Nat)
  /-- Pass on the RECORD of final holder `h`. -/
  | rec_ (h : Nat)
  /-- Send member `m`'s digest up; send the table to child `m`. -/
  | digUp (m : Nat)
  | digDown (m : Nat)
  /-- Send the next bytes of a block to member `m`; send it the ARRIVAL. -/
  | move (m : Nat)
  | arrive (m : Nat)
  /-- PERMUTE: copy into staging, send the GRANT, send the staged bytes, go on to the next piece. -/
  | copy
  | grant
  | send
  | next
  deriving DecidableEq, Repr

/-- RECORD of holder `h` may be passed on: it is known, and the results of the shard have gone before it (R313). -/
def recordReady (r : CollRun) (h : Nat) : Bool :=
  (smGet r.records none h).isSome && !r.recSent.contains h && readyAll r (outTo r h) &&
    (r.desc.op == 1 || (r.chunksOf (if r.tree then 0 else h)).all fun i => r.results.contains i)

/-- The next task of a reduction. -/
def reduceTask (r : CollRun) : Option CollTask :=
  let sums := r.allChunks.find? fun i => !r.added.contains i && match r.chunk i with
    | some (j, _, _) => ((sumInputs r i j).all fun k => (r.inbox.find? (·.1 = k)).isSome) && readyAll r (sumTo r j) &&
        (!r.holds j || readyAll r (resultTo r j))
    | none => false
  let ress := r.allChunks.find? fun i => (r.resIn.find? (·.1 = i)).isSome && match r.chunk i with
    | some (j, _, _) => readyAll r (resultTo r j)
    | none => false
  firstSome [sums.map .sum, ress.map .res, ((List.range r.size).find? (recordReady r)).map .rec_]

/-- The next task of a digest exchange (R321). -/
def digestTask (r : CollRun) : Option CollTask :=
  let up := (List.range r.size).find? fun m =>
    (smGet r.digests none m).isSome && !r.digUp.contains m && !digestsKnown r && readyAll r (heapParent r.me)
  let down := (heapChildren r.size r.me).find? fun m => digestsKnown r && !r.digDown.contains m && r.readyFrom.contains m
  firstSome [if r.me = 0 then none else up.map .digUp, down.map .digDown]

/-- Bytes from the start of the block that `parts` hold without a gap, `n` of them being known to be held. -/
def landedFrom (fuel n : Nat) (parts : List (Nat × Nat)) : Nat :=
  match fuel with
  | 0 => n
  | k + 1 => landedFrom k ((parts.filter fun p => decide (p.1 ≤ n)).foldl (fun m p => max m (p.1 + p.2)) n) parts

/-- Bytes of the block that this member can send: all of its own, and below the root of a BROADCAST those that have landed (R325). -/
def moveHeld (r : CollRun) : Nat :=
  if r.desc.op ≠ 3 ∨ (moveFrom r).all (fun m => r.arrivals.contains m) then r.desc.count else landedFrom (r.landed.length + 1) 0 r.landed

/-- Bytes that the next move to offset `off` carries: no packet crosses a 4 KiB line of the window (R288). -/
def moveStep (left off : Nat) : Nat := min left (4096 - off % 4096)

/-- Byte offset in the receiving window at which this member's bytes land, `done` bytes on (R324, R325). -/
def moveOffset (r : CollRun) (done : Nat) : Nat := r.desc.dst + (if r.desc.op = 2 then r.me * r.desc.count else 0) + done

/-- The next task of ALLGATHER, BROADCAST or SHIFT: a member below the root of a BROADCAST forwards its data as it lands (R325). -/
def moveTask (r : CollRun) : Option CollTask :=
  let open_ (m : Nat) : Bool := m == r.me || r.readyFrom.contains m
  let held (m : Nat) : Bool :=
    let done := smGet r.sentTo 0 m
    decide (done < r.desc.count ∧ done + moveStep (r.desc.count - done) (moveOffset r done) ≤ moveHeld r)
  firstSome [((moveTo r).find? fun m => open_ m && held m).map .move,
    ((moveTo r).find? fun m => m ≠ r.me && open_ m && !r.arrSent.contains m && decide (r.desc.count ≤ smGet r.sentTo 0 m)).map .arrive]

/-- A WRITE of the collective is not acknowledged. -/
def writesOwed (d : Device) (r : CollRun) : Bool :=
  d.link.tx.any fun x => (x.sent ++ x.queue).any fun p => p.coll = some (r.ctx.val, r.tag) && p.pkt.op == 0

/-- The next task of a PERMUTE (R326). -/
def permTask (d : Device) (r : CollRun) : Option CollTask :=
  let size := r.desc.pieceBytes
  let to_ := permTo r r.me
  if to_ = r.me then none
  else if r.desc.pieces ≤ r.piece then (if r.arrSent.contains to_ then none else some (.arrive to_))
  else if r.copied < size then some .copy
  else if !r.grantsOut.contains r.piece then some .grant
  else if r.grantsIn.contains r.piece ∧ r.readyFrom.contains to_ ∧ r.posted < size then some .send
  else if size ≤ r.posted ∧ r.grantsIn.contains r.piece ∧ !writesOwed d r then some .next
  else none

/-- The next task of a collective whose gate is open. -/
def collTask (d : Device) (r : CollRun) : Option CollTask :=
  if !r.active ∨ !r.gateOpen ∨ r.bad ≠ 0 then none
  else if r.desc.reduces then reduceTask r
  else if r.desc.op = 6 then digestTask r
  else if r.desc.op = 5 then permTask d r
  else moveTask r

/-- Memory traffic of a task, in bytes (R311). -/
def taskBytes (r : CollRun) (t : CollTask) : Nat :=
  match t with
  | .sum i => match r.chunk i with
    | some (j, _, n) => n * r.desc.srcBytes + (if r.holds j then n * r.desc.dstBytes else 0)
    | none => 0
  | .res i => match r.chunk i with
    | some (_, _, n) => n * r.desc.dstBytes
    | none => 0
  | .move m =>
    let n := moveStep (r.desc.count - smGet r.sentTo 0 m) (moveOffset r (smGet r.sentTo 0 m))
    if m = r.me then 2 * n else n
  | .copy => min 4096 (r.desc.pieceBytes - r.copied)
  | .rec_ _ | .digUp _ | .digDown _ | .arrive _ | .grant | .send | .next => 0

/-! ### Doing a task -/

/-- Reads contributions or blocks for the collective; poison and refused pages fault the context (R218, R239). -/
def collRead (nv : NonVol) (r : CollRun) (va len : Nat) (f : List Byte → Device → Device) (d : Device) : Device :=
  match ctxRead d r.ctx.val 7 va len with
  | .ok bs => f bs (readCharge nv r.ctx.val va len d)
  | .error e => faultCtx nv r.ctx.val { e with tag := some r.tag } d

/-- The byte of DST at which element `e` of shard `j` is written: a REDUCE_SCATTER writes its shard alone (R306). -/
def outAddr (r : CollRun) (j e : Nat) : Nat :=
  let first := if r.desc.op = 1 then ((r.shards[j]?).map (·.1)).getD 0 else 0
  r.desc.dst + (e - first) * r.desc.dstBytes

/-- Results `l` of chunk `i`, shard `j`, are written and passed on (R306, R308). -/
def resultOut (nv : NonVol) (r : CollRun) (i j e : Nat) (l : List Word) (d : Device) : Device :=
  let d := ctxWriteAs nv r.blame r.ctx.val 7 (outAddr r j e) (resultBytes r.desc l) d
  collSendAll nv r (resultTo r j) 1 i l.length (wordsOut l) (collMod r.ctx.val r.tag (fun r => { r with
    results := insAsc i r.results, resIn := smDel r.resIn i }) d)

/-- The FP32 results of a chunk are final at this member (R306, R313, R314). -/
def chunkFinal (nv : NonVol) (r : CollRun) (i j e : Nat) (l : List (Word × Word × List Word)) (d : Device) : Device :=
  let own := countBad r (Config.freeWord d.fresh).toNat e l
  let ws := l.map (·.1)
  let held := if r.desc.norm then (ws.zip (List.range ws.length)).foldl (fun m p => smIns m (e + p.2) p.1) r.held else r.held
  let d := collMod r.ctx.val r.tag (fun r => { r with own := own, held := held }) (drawFresh 1 d)
  let d := resultOut nv r i j e ws d
  let whole := (r.chunksOf j).all fun k => decide (k = i) || r.results.contains k
  if whole then collMod r.ctx.val r.tag (fun r => { r with records := smPut r.records none r.me (some own) }) d else d

/-- Chunk `i` takes this member's contribution (R305 to R307). -/
def sumDo (nv : NonVol) (r : CollRun) (i : Nat) (d : Device) : Device :=
  match r.chunk i with
  | none => d
  | some (j, e, n) =>
    collRead nv r (r.desc.src + e * r.desc.srcBytes) (n * r.desc.srcBytes) (fun bs d =>
      let keys := sumInputs r i j
      let ins (x : Nat) : List Word := keys.map fun k => (smGet r.inbox [] k).getD x 0
      let l := ((contribution r.desc bs n).zip (List.range n)).map fun c => (memberSum r.tree c.1 (ins c.2), c.1, ins c.2)
      let d := collMod r.ctx.val r.tag (fun r => { r with added := insAsc i r.added, inbox := keys.foldl smDel r.inbox }) d
      if r.holds j then chunkFinal nv r i j e (l.map fun x => (postscaled r.desc x.1, x.2)) d
      else collSendAll nv r (sumTo r j) 0 i n (wordsOut (l.map (·.1))) d) d

/-- A result chunk that has arrived is written and passed on (R306, R308). -/
def resDo (nv : NonVol) (r : CollRun) (i : Nat) (d : Device) : Device :=
  match r.chunk i with
  | some (j, e, _) => resultOut nv r i j e (smGet r.resIn [] i) d
  | none => d

/-- The payload of a RECORD: NONFINITE, FIRST_INDEX, FIRST_NODE; CHUNK names the final holder (log entry 49). -/
def recordBytes (x : Nat × Nat × Nat) : List Byte := toBytes 4 x.1 ++ toBytes 4 x.2.1 ++ toBytes 4 x.2.2

/-- The payload of a DIGEST: the digest, or nothing from a member without one; CHUNK names the member (log entry 49). -/
def digestBytes (x : Option Nat) : List Byte := (x.map (toBytes 8)).getD []

/-- Bytes landing in this member's own window (R325); a refusal is the collective's. -/
def ownLand (nv : NonVol) (r : CollRun) (off : Nat) (bs : List Byte) (d : Device) : Device :=
  match r.group.me with
  | none => d
  | some m =>
    let q := writePacket nv d r.ctx.val d.link.node 0 m.window m.winGen m.key off bs
    match winCheck d q true bs.length with
    | some st => collFail r.ctx.val r.tag (if st = 2 then stStale else stWindow) (linkCnt st d)
    | none => winLand nv (winDesc d m.window) off bs d

/-- Bytes on their way to member `m`'s window (R323). -/
def blockSend (nv : NonVol) (r : CollRun) (m off : Nat) (bs : List Byte) (d : Device) : Device :=
  match r.group.members[m]? with
  | none => d
  | some x =>
    let q := writePacket nv d r.ctx.val x.node 0 x.window x.winGen x.key off bs
    txPost nv x.node (r.ctx.val * 16) { TxPacket.plain q with coll := some (r.ctx.val, r.tag) } d

/-- The bytes that a member moves: at SRC, or below the root of a BROADCAST in its own window (R325). -/
def moveBytes (nv : NonVol) (r : CollRun) (done n : Nat) (f : List Byte → Device → Device) (d : Device) : Device :=
  if r.desc.op = 3 ∧ r.me ≠ 0 then
    match r.group.me with
    | none => d
    | some m =>
      let v := winDesc d m.window
      let x := winBytes d v (r.desc.dst + done) n
      if !x.2.isEmpty then faultCtx nv r.ctx.val { poisonFault d r.ctx.val 7 (fld v 64 52 + r.desc.dst + done) n with tag := some r.tag } d
      else f x.1 (winCharge nv v (r.desc.dst + done) n d)
  else collRead nv r (r.desc.src + done) n f d

/-- The next bytes to member `m` (R323 to R325). -/
def moveDo (nv : NonVol) (r : CollRun) (m : Nat) (d : Device) : Device :=
  let done := smGet r.sentTo 0 m
  let off := moveOffset r done
  let n := moveStep (r.desc.count - done) off
  moveBytes nv r done n (fun bs d =>
    let d := collMod r.ctx.val r.tag (fun r => { r with sentTo := smPut r.sentTo 0 m (done + n) }) d
    if m = r.me then ownLand nv r off bs d else blockSend nv r m off bs d) d

/-- The cluster and the first Palette byte of a PERMUTE's staging range (R301). -/
def stagePlace (d : Device) (r : CollRun) : Nat × Nat :=
  ((partCluster d (ctxGet d r.ctx.val).part.val r.desc.stageCluster).getD 0, 1024 * r.desc.stageBase)

/-- PERMUTE step 1: bytes of the present piece go into staging (R326). -/
def copyDo (nv : NonVol) (r : CollRun) (d : Device) : Device :=
  let n := min 4096 (r.desc.pieceBytes - r.copied)
  let s := stagePlace d r
  collRead nv r (r.desc.src + r.piece * r.desc.pieceBytes + r.copied) n (fun bs d =>
    let d := cluMod s.1 (fun x => (bs.zip (List.range n)).foldl (fun x b => palPut (s.2 + r.copied + b.2) b.1 x) x) d
    collMod r.ctx.val r.tag (fun r => { r with copied := r.copied + n }) d) d

/-- PERMUTE step 3: staged bytes go to the receiver's window (R326). -/
def sendDo (nv : NonVol) (r : CollRun) (d : Device) : Device :=
  let off := r.desc.dst + r.piece * r.desc.pieceBytes + r.posted
  let n := moveStep (r.desc.pieceBytes - r.posted) off
  let s := stagePlace d r
  let bs := (List.range n).map fun i => palByte (cluGet d s.1) (s.2 + r.posted + i)
  blockSend nv r (permTo r r.me) off bs (collMod r.ctx.val r.tag (fun r => { r with posted := r.posted + n }) d)

/-- Does a task of the collective. -/
def taskDo (nv : NonVol) (r : CollRun) (t : CollTask) (d : Device) : Device :=
  let c := r.ctx.val
  match t with
  | .sum i => sumDo nv r i d
  | .res i => resDo nv r i d
  | .rec_ h => match smGet r.records none h with
    | some x => collSendAll nv r (outTo r h) 5 h 0 (recordBytes x) (collMod c r.tag (fun r => { r with recSent := insAsc h r.recSent }) d)
    | none => d
  | .digUp m => match smGet r.digests none m with
    | some x => collSendAll nv r (heapParent r.me) 7 m 0 (digestBytes x) (collMod c r.tag (fun r => { r with digUp := insAsc m r.digUp }) d)
    | none => d
  | .digDown m => (List.range r.size).foldl (fun d j => collSend nv r m 7 j 0 (digestBytes ((smGet r.digests none j).getD none)) d)
      (collMod c r.tag (fun r => { r with digDown := insAsc m r.digDown }) d)
  | .move m => moveDo nv r m d
  | .arrive m => collSend nv r m 9 0 0 [] (collMod c r.tag (fun r => { r with arrSent := insAsc m r.arrSent }) d)
  | .copy => copyDo nv r d
  | .grant => collSendAll nv r (permFrom r r.me) 8 r.piece 0 [] (collMod c r.tag (fun r => { r with
      grantsOut := insAsc r.piece r.grantsOut }) d)
  | .send => sendDo nv r d
  | .next => collMod c r.tag (fun r => { r with piece := r.piece + 1, copied := 0, posted := 0 }) d

/-- The stage in progress of collective `t` does what it can within its 256 KiB (R311). -/
def collWork (nv : NonVol) (c t : Nat) (fuel : Nat) (d : Device) : Device :=
  match fuel with
  | 0 => d
  | n + 1 =>
    match collGet d c t with
    | none => d
    | some r =>
      match r.stage, collTask d r with
      | some _, some k =>
        let b := taskBytes r k
        if r.traffic + b ≤ 262144 then
          collWork nv c t n (taskDo nv r k (collMod c t (fun r => { r with traffic := r.traffic + b }) d))
        else d
      | _, _ => d

/-- Tasks that a stage may do: more than its memory traffic and its messages allow. -/
def stageFuel : Nat := 1048576

/-! ### Stages (R311, R387) -/

/-- A stage of collective `r` may start: its context is resident and not departing, no activation (R414) and no application of its
partition (R329, R345) holds stages back, and there is work whose inputs have arrived (R311). -/
def stageReady (d : Device) (r : CollRun) : Bool :=
  let x := ctxGet d r.ctx.val
  r.stage.isNone && decide (x.st = .resident) && x.departing.isNone && d.fw.acting.isNone && !applying d x.part.val &&
    (collTask d r).isSome

/-- COLLECTIVE_STAGE (R311). -/
def collStage (nv : NonVol) (c t : Nat) (d : Device) : Device :=
  match collGet d c t with
  | none => d
  | some r =>
    if stageReady d r then
      collWork nv c t stageFuel (ctxMod c (fun x => { x with progressAt := nv.up })
        (collMod c t (fun r => { r with stage := some nv.up, traffic := 0 }) d))
    else d

/-- COLLECTIVE_STAGE (R311). -/
def execCollectiveStage (c : CtxNo) (t : Nat) (s : State) : Host.Outcome State Fault Refusal :=
  .next (onDev (fun nv d => collStage nv c.val t d) s)

/-- The overrun of a departure whose last stage has ended (R387). -/
def stageOverrun (nv : NonVol) (c : Nat) (d : Device) : Device :=
  let x := ctxGet d c
  match x.departing, x.departT with
  | some _, some b =>
    if !inStage d c ∧ b < d.time.now then
      raiseEv nv 0x41 (some c) (pack [(0, 4, x.part.val), (8, 8, c)]) (d.time.now - b)
        (ctxMod c (fun x => { x with overrun := x.overrun + (d.time.now - b) }) d)
    else d
  | _, _ => d

/-- COLLECTIVE_STAGE_END (R311, R387). -/
def collStageEnd (nv : NonVol) (c t : Nat) (d : Device) : Device :=
  match collGet d c t with
  | none => d
  | some r =>
    if r.stage.isSome then
      stageOverrun nv c (ctxMod c (fun x => { x with progressAt := nv.up })
        (collMod c t (fun r => { r with stage := none, traffic := 0 }) d))
    else d

/-- COLLECTIVE_STAGE_END (R387). -/
def execCollectiveStageEnd (c : CtxNo) (t : Nat) (s : State) : Host.Outcome State Fault Refusal :=
  .next (onDev (fun nv d => collStageEnd nv c.val t d) s)

end Sys2Proof.Machine
end

