-- ==== Sys2Proof/Machine/CollMsg.lean ====
section
/-! DEFINITION. COLLECTIVE messages received, the global norm, and the completion of collectives (R299, R304, R309 to R316, R318,
R321 to R326). -/

namespace Sys2Proof.Machine

/-! ### Acceptance (R303, R304) -/

/-- Fields of the tail of R303. -/
def msgGroup (q : StavaPacket) : Nat := (q.tail.getD 0 0).toNat % 65536
def msgGen (q : StavaPacket) : Nat := (q.tail.getD 0 0).toNat / 65536
def msgTag (q : StavaPacket) : Nat := (q.tail.getD 1 0).toNat % 4096
def msgKind (q : StavaPacket) : Nat := fld (q.tail.getD 1 0).toNat 12 4
def msgMember (q : StavaPacket) : Nat := fld (q.tail.getD 1 0).toNat 16 10
def msgChunk (q : StavaPacket) : Nat := (q.tail.getD 2 0).toNat
def msgElements (q : StavaPacket) : Nat := fld (q.tail.getD 3 0).toNat 0 11
def msgStatus (q : StavaPacket) : Nat := fld (q.tail.getD 4 0).toNat 0 8

/-- The collectives in progress that a message names. -/
def msgRuns (d : Device) (q : StavaPacket) : List CollRun :=
  d.coll.runs.filter fun r => r.open_ &&
    decide (r.group.id = msgGroup q ∧ r.group.gen = msgGen q ∧ r.desc.tag = msgTag q)

/-- The sender is the member that the message names (R304). -/
def fromMember (r : CollRun) (q : StavaPacket) : Bool :=
  ((r.group.members[msgMember q]?).map fun m =>
    decide (m.node = q.srcNode.toNat ∧ m.ctx = q.srcCtx.toNat ∧ m.ctxGen = q.srcGen.toNat)).getD false

/-- REFUSE goes back with the tail of the message it answers, but for KIND, MEMBER and STATUS, on the flow selector it came on. Where that
message names a collective here, it goes from its context, with this module's own member index; else from the context number of the
sender, and MEMBER, of which this module has none, is 0 (R303; log entry 50). -/
def refuseSend (nv : NonVol) (q : StavaPacket) (st : Nat) (d : Device) : Device :=
  let own := d.coll.runs.find? fun r => decide (r.group.id = msgGroup q ∧ r.desc.tag = msgTag q)
  let c := (own.map (·.ctx.val)).getD q.srcCtx.toNat
  let sel := q.flow.toNat % 16
  let n := q.srcNode.toNat
  let who := putFld (putFld (q.tail.getD 1 0).toNat 12 4 10) 16 10 ((own.map (·.me)).getD 0)
  let tail := [q.tail.getD 0 0, w32 who, q.tail.getD 2 0, 0, w32 st]
  txPost nv n (c * 16 + sel) (TxPacket.plain { dataPacket nv d c n sel 5 with tail := tail }) d

/-- A refused message (R304): counted, and answered unless it is a REFUSE itself. -/
def msgRefuse (nv : NonVol) (q : StavaPacket) (st : Nat) (d : Device) : Device :=
  let d := collCnt (if st = stStale then 3 else 4) d
  if msgKind q = 10 then d else refuseSend nv q st d

/-- A collective message of `kind` at cage `g`: what it does to the collective that it names is `land` (R276, R304). -/
def msgReceive (nv : NonVol) (g : CageNo) (q : StavaPacket) (kind : Nat) (land : CollRun → Device → Device) (d : Device) : Device :=
  if q.op = 5 ∧ msgKind q = kind then
    receiveData nv g q (fun d =>
      let d := acctMod ((((msgRuns d q).head?).map (·.ctx.val)).getD 256) (fun a => { a with linkRx := a.linkRx + q.payload.length }) d
      match msgRuns d q, (msgRuns d q).find? (fun r => fromMember r q) with
      | _, some r => land r d
      | [], none => msgRefuse nv q stStale d
      | _, none => msgRefuse nv q stWindow d) d
  else d

/-- What has arrived is worked on at once where a stage is in progress. -/
def msgWork (nv : NonVol) (r : CollRun) (d : Device) : Device := collWork nv r.ctx.val r.tag stageFuel d

/-! ### The data messages -/

/-- PARTIAL (R305 to R307): a chunk that this member awaits from its sender joins the sum when a stage takes it. -/
def partialLand (nv : NonVol) (q : StavaPacket) (r : CollRun) (d : Device) : Device :=
  let i := msgChunk q
  match r.chunk i with
  | none => d
  | some (j, _, n) =>
    let froms := if r.tree then heapChildren r.size r.me else ringPrev r.size r.me
    let key := 2 * i + (if r.tree then msgMember q - 2 * r.me - 1 else 0)
    if r.desc.reduces ∧ froms.contains (msgMember q) ∧ (sumInputs r i j).contains key ∧ !r.added.contains i ∧ msgElements q = n ∧
        q.payload.length = 4 * n then
      msgWork nv r (collMod r.ctx.val r.tag (fun r => { r with inbox := smIns r.inbox key (wordsIn n q.payload) }) d)
    else d

/-- PARTIAL (R306). -/
def execPartial (g : CageNo) (q : StavaPacket) (s : State) : Host.Outcome State Fault Refusal :=
  .next (onDev (fun nv d => msgReceive nv g q 0 (partialLand nv q) d) s)

/-- RESULT (R306, R308): a chunk from the member before it is written to DST and passed on when a stage takes it. -/
def resultLand (nv : NonVol) (q : StavaPacket) (r : CollRun) (d : Device) : Device :=
  let i := msgChunk q
  match r.chunk i with
  | none => d
  | some (j, _, n) =>
    let froms := if r.tree then heapParent r.me else ringPrev r.size r.me
    if r.desc.op = 0 ∧ froms.contains (msgMember q) ∧ !r.holds j ∧ !r.results.contains i ∧ msgElements q = n ∧
        q.payload.length = 4 * n then
      msgWork nv r (collMod r.ctx.val r.tag (fun r => { r with resIn := smIns r.resIn i (wordsIn n q.payload) }) d)
    else d

/-- RESULT (R306). -/
def execResult (g : CageNo) (q : StavaPacket) (s : State) : Host.Outcome State Fault Refusal :=
  .next (onDev (fun nv d => msgReceive nv g q 1 (resultLand nv q) d) s)

/-- RECORD (R313): the counts of the final holder that CHUNK names. -/
def recordLand (nv : NonVol) (q : StavaPacket) (r : CollRun) (d : Device) : Device :=
  let h := msgChunk q
  let v := ofBytes q.payload
  let legal : Bool := if r.tree then h == 0 && (heapParent r.me).contains (msgMember q)
    else h ≠ r.me && decide (h < r.size) && (ringPrev r.size r.me).contains (msgMember q)
  if r.desc.reduces ∧ legal ∧ q.payload.length = 12 then
    msgWork nv r (collMod r.ctx.val r.tag (fun r => { r with
      records := smPut r.records none h (some (fld v 0 32, fld v 32 32, fld v 64 10)) }) d)
  else d

/-- RECORD (R313). -/
def execRecord (g : CageNo) (q : StavaPacket) (s : State) : Host.Outcome State Fault Refusal :=
  .next (onDev (fun nv d => msgReceive nv g q 5 (recordLand nv q) d) s)

/-- DIGEST (R321): the digest of the member that CHUNK names. Once all are known the reference is. -/
def digestLand (nv : NonVol) (q : StavaPacket) (r : CollRun) (d : Device) : Device :=
  let m := msgChunk q
  let v := if q.payload.length = 8 then some (ofBytes q.payload) else none
  if r.desc.op = 6 ∧ m < r.size ∧ (heapParent r.me ++ heapChildren r.size r.me).contains (msgMember q) then
    msgWork nv r (collMod r.ctx.val r.tag (fun r => { r with digests := smPut r.digests none m (some v) }) d)
  else d

/-- DIGEST (R321). -/
def execDigest (g : CageNo) (q : StavaPacket) (s : State) : Host.Outcome State Fault Refusal :=
  .next (onDev (fun nv d => msgReceive nv g q 7 (digestLand nv q) d) s)

/-- GRANT (R326): piece CHUNK of this member's shard may go. -/
def grantLand (nv : NonVol) (q : StavaPacket) (r : CollRun) (d : Device) : Device :=
  if r.desc.op = 5 ∧ msgMember q = permTo r r.me then
    msgWork nv r (collMod r.ctx.val r.tag (fun r => { r with grantsIn := insAsc (msgChunk q) r.grantsIn }) d)
  else d

/-- GRANT (R326). -/
def execGrant (g : CageNo) (q : StavaPacket) (s : State) : Host.Outcome State Fault Refusal :=
  .next (onDev (fun nv d => msgReceive nv g q 8 (grantLand nv q) d) s)

/-- ARRIVAL (R323): every packet of that member has landed. -/
def arrivalLand (nv : NonVol) (q : StavaPacket) (r : CollRun) (d : Device) : Device :=
  if (moveFrom r).contains (msgMember q) then
    msgWork nv r (collMod r.ctx.val r.tag (fun r => { r with arrivals := insAsc (msgMember q) r.arrivals }) d)
  else d

/-- ARRIVAL (R323). -/
def execArrival (g : CageNo) (q : StavaPacket) (s : State) : Host.Outcome State Fault Refusal :=
  .next (onDev (fun nv d => msgReceive nv g q 9 (arrivalLand nv q) d) s)

/-! ### READY, ALL_READY, STRAGGLER, REFUSE (R304, R310) -/

/-- READY (R310). -/
def readyLand (nv : NonVol) (q : StavaPacket) (r : CollRun) (d : Device) : Device :=
  msgWork nv r (readyTake nv r.ctx.val r.tag (msgMember q) d)

/-- READY (R310). -/
def execReady (g : CageNo) (q : StavaPacket) (s : State) : Host.Outcome State Fault Refusal :=
  .next (onDev (fun nv d => msgReceive nv g q 2 (readyLand nv q) d) s)

/-- ALL_READY of the coordinator (R310). -/
def allReadyLand (q : StavaPacket) (r : CollRun) (d : Device) : Device :=
  if msgMember q = r.coordinator then collMod r.ctx.val r.tag (fun r => { r with allReady := true }) d else d

/-- ALL_READY (R310). -/
def execAllReady (g : CageNo) (q : StavaPacket) (s : State) : Host.Outcome State Fault Refusal :=
  .next (onDev (fun nv d => msgReceive nv g q 3 (allReadyLand q) d) s)

/-- STRAGGLER of the coordinator (R310): the same event here, and the same fields in the record. -/
def stragglerLand (nv : NonVol) (q : StavaPacket) (r : CollRun) (d : Device) : Device :=
  if msgMember q = r.coordinator ∧ r.gateOpen then
    stragglerRaise nv r.ctx.val r.tag (bitsOf 1024 (ofBytes q.payload)) (collMod r.ctx.val r.tag (fun r => { r with told := true }) d)
  else d

/-- STRAGGLER (R310). -/
def execStraggler (g : CageNo) (q : StavaPacket) (s : State) : Host.Outcome State Fault Refusal :=
  .next (onDev (fun nv d => msgReceive nv g q 4 (stragglerLand nv q) d) s)

/-- REFUSE (R304): it comes from a node of the group, whatever the generation there (DEDUCED, log entry 50). -/
def refuseLand (nv : NonVol) (q : StavaPacket) (d : Device) : Device :=
  match (msgRuns d q).find? fun r => r.group.members.any fun m => decide (m.node = q.srcNode.toNat) with
  | some r => collFail r.ctx.val r.tag (msgStatus q) d
  | none => msgRefuse nv q (if (msgRuns d q).isEmpty then stStale else stWindow) d

/-- REFUSE (R304). -/
def execRefuse (g : CageNo) (q : StavaPacket) (s : State) : Host.Outcome State Fault Refusal :=
  .next (onDev (fun nv d =>
    if q.op = 5 ∧ msgKind q = 10 then receiveData nv g q (refuseLand nv q) d else d) s)

/-! ### The norm (R314 to R316) -/

/-- All that this member does for a reduction has been done: its contribution is in, its results are written and passed on, and every
RECORD is known and passed on (R309, R313). -/
def reduceOver (r : CollRun) : Bool :=
  let mine := r.allChunks.filter fun i => r.desc.op == 0 || ((r.chunk i).map fun x => r.holds x.1).getD false
  let holders := if r.tree then [0] else List.range r.size
  (r.allChunks.all fun i => r.added.contains i) && (mine.all fun i => r.results.contains i) &&
    holders.all fun h => (smGet r.records none h).isSome && (r.recSent.contains h || (outTo r h).isEmpty)

/-- The norm collectives of context `c` that joined the set before `t` (R315). -/
def setBefore (d : Device) (c t : Nat) : List NormPart := (smGet d.coll.norms ⟨[], 0⟩ c).parts.filter (·.tag < t)

/-- Every NORM collective of the context admitted before has completed (R315). -/
def setReady (d : Device) (c t : Nat) : Bool :=
  !(d.coll.runs.any fun r => r.desc.norm && decide (r.ctx.val = c ∧ r.tag < t))

/-- A part goes before another in a total: ascending TAG (R315). -/
def partLe (a b : NormPart) : Bool := decide (a.bucket < b.bucket ∨ (a.bucket = b.bucket ∧ a.tag ≤ b.tag))

/-- A part in its place among others in ascending order. -/
def partIns (a : NormPart) (l : List NormPart) : List NormPart :=
  match l with
  | [] => [a]
  | b :: t => if partLe a b then a :: b :: t else b :: partIns a t

/-- This member's total: the parts of the set in ascending TAG, its own part of the closing collective among them (R315). -/
def normTotal (d : Device) (r : CollRun) : Word × Word :=
  let p := r.part
  let mine : NormPart := ⟨r.tag, r.desc.tag, p.1, p.2, 0⟩
  ((mine :: setBefore d r.ctx.val r.tag).foldr partIns []).foldl (fun h x => addTwo h x.hi x.lo) (0, 0)

/-- The norm from the members' totals in ascending order (R315). -/
def normOf (r : CollRun) : Word :=
  let h := (r.totals.filterMap (·.2)).foldl (fun h x => addTwo h x.1 x.2) (0, 0)
  f32 (Num.sqrt (numOf (addF32 h.1 h.2)))

/-- Clip factor and skip word (R316); `failed`: a collective of the set ended with a status other than OK and NONFINITE. -/
def clipOf (x : CollDesc) (norm : Word) (failed : Bool) : Word × Nat :=
  let n := numOf norm
  let m := numOf (w32 x.maxNorm)
  if failed then (0x7FC00000, 2)
  else if !n.isFin then (0x7FC00000, b2n x.skipNonfinite)
  else if m.isZero ∨ Num.le n m then (0x3F800000, 0)
  else (f32 (Num.div m n), 0)

/-- Clip factor and skip word are written, and the set closes (R315, R316). A skip word other than 0 is counted once (R330). -/
def normClose (nv : NonVol) (c t : Nat) (k : Word × Nat) (d : Device) : Device :=
  match collGet d c t with
  | none => d
  | some r =>
    let d := engineWrite nv r r.desc.clipAddr (toBytes 4 k.1.toNat ++ toBytes 4 k.2) d
    let d := collMod c t (fun r => { r with clip := some k }) d
    let d := if k.2 ≠ 0 ∧ ((r.clip.map (·.2)).getD 0) = 0 then collCnt 6 d else d
    { d with coll := { d.coll with norms := smMod d.coll.norms ⟨[], 0⟩ c (fun s =>
        let left := s.parts.filter fun p => decide (t < p.tag)
        ⟨left, left.length + ((d.coll.runs.filter fun r => r.active && r.desc.norm && decide (r.ctx.val = c ∧ r.tag ≠ t)).length)⟩) } }

/-- The payload of a NORM_TOTAL: the two terms of the total of the member that CHUNK names, or, down the heap, the norm alone (log entry 49). -/
def totalBytes (x : Word × Word) : List Byte := toBytes 4 x.1.toNat ++ toBytes 4 x.2.toNat

/-- Totals that have not gone up go to the parent once it is ready. -/
def totalsUp (nv : NonVol) (c t : Nat) (d : Device) : Device :=
  match collGet d c t with
  | none => d
  | some r =>
    if r.me = 0 ∨ !readyAll r (heapParent r.me) then d
    else
      r.totals.foldl (fun d e => match e.2 with
        | some x =>
          if r.totSent.contains e.1 then d
          else collSendAll nv r (heapParent r.me) 6 e.1 0 (totalBytes x)
            (collMod c t (fun r => { r with totSent := insAsc e.1 r.totSent }) d)
        | none => d) d

/-- The norm is known: it goes down the heap, and clip and skip are written (R315, R316). -/
def normDown (nv : NonVol) (c t : Nat) (d : Device) : Device :=
  match collGet d c t with
  | none => d
  | some r =>
    match r.normVal with
    | none => d
    | some w =>
      let kids := heapChildren r.size r.me
      let d := if !r.normSent ∧ readyAll r kids then
          collSendAll nv r kids 6 0 0 (toBytes 4 w.toNat) (collMod c t (fun r => { r with normSent := true }) d)
        else d
      if r.clip.isNone ∧ r.bad = 0 ∧ reduceOver r ∧ setReady d c t then
        let failed := (setBefore d c t).any fun p => p.status ≠ 0 && p.status ≠ stNonfinite
        normClose nv c t (clipOf r.desc w failed) d
      else d

/-- NORM_STEP (R315): the member's total, then at member 0 the norm, then the clip factor. -/
def normStep (nv : NonVol) (c t : Nat) (d : Device) : Device :=
  match collGet d c t with
  | none => d
  | some r =>
    if r.active ∧ r.desc.normFinal ∧ r.bad = 0 ∧ reduceOver r ∧ setReady d c t then
      let own := if (smGet r.totals none r.me).isSome then d
        else collMod c t (fun x => { x with totals := smPut x.totals none x.me (some (normTotal d r)) }) d
      let d := totalsUp nv c t own
      let d := collMod c t (fun r =>
        if r.me = 0 ∧ r.normVal.isNone ∧ (List.range r.size).all (fun m => (smGet r.totals none m).isSome) then
          { r with normVal := some (normOf r) }
        else r) d
      normDown nv c t d
    else d

/-- NORM_STEP (R315). -/
def execNormStep (c : CtxNo) (t : Nat) (s : State) : Host.Outcome State Fault Refusal :=
  .next (onDev (fun nv d => normStep nv c.val t d) s)

/-- NORM_TOTAL (R315): a total on its way up the heap, or the norm on its way down. -/
def normTotalLand (nv : NonVol) (q : StavaPacket) (r : CollRun) (d : Device) : Device :=
  let c := r.ctx.val
  let v := ofBytes q.payload
  if r.desc.normFinal ∧ (heapChildren r.size r.me).contains (msgMember q) ∧ q.payload.length = 8 ∧ msgChunk q < r.size then
    normStep nv c r.tag (totalsUp nv c r.tag (collMod c r.tag (fun r => { r with
      totals := smPut r.totals none (msgChunk q) (some (w32 (fld v 0 32), w32 (fld v 32 32))) }) d))
  else if r.desc.normFinal ∧ (heapParent r.me).contains (msgMember q) ∧ q.payload.length = 4 then
    normDown nv c r.tag (collMod c r.tag (fun r => { r with normVal := some (w32 v) }) d)
  else d

/-- NORM_TOTAL (R315). -/
def execNormTotal (g : CageNo) (q : StavaPacket) (s : State) : Host.Outcome State Fault Refusal :=
  .next (onDev (fun nv d => msgReceive nv g q 6 (normTotalLand nv q) d) s)

/-! ### Completion (R299, R309, R312, R318, R321 to R323) -/

/-- Every task of the collective has been done on this member (R309, R321, R323). -/
def collOver (d : Device) (r : CollRun) : Bool :=
  r.gateOpen && (if r.desc.reduces then reduceOver r && (!r.desc.normFinal || (r.clip.isSome && (r.normSent || (heapChildren r.size r.me).isEmpty)))
    else if r.desc.op = 6 then digestsKnown r && (heapChildren r.size r.me).all (r.digDown.contains ·)
    else (collTask d r).isNone && (moveFrom r).all (r.arrivals.contains ·) && !collOwes d r.ctx.val r.tag &&
      ((moveTo r).all fun m => if m = r.me then decide (r.desc.count ≤ smGet r.sentTo 0 m) else r.arrSent.contains m))

/-- The status of a collective (R312, R313, R321). -/
def collStatus (r : CollRun) : Nat :=
  if r.bad ≠ 0 then r.bad
  else if (recordSum r).1 ≠ 0 then stNonfinite
  else if r.named ≠ [] then stMismatch
  else stOK

/-- The collective leaves: its records, its part of the norm set, its counts and events, the command's record, then the addition to
DONE_CTR (R299, R315, R318, R321, R330). -/
def collFinish (nv : NonVol) (c t : Nat) (d : Device) : Device :=
  match collGet d c t with
  | none => d
  | some r =>
    let st := collStatus r
    let d := recordsWrite nv r true st d
    let p := r.part
    let d := if r.desc.norm ∧ !r.desc.normFinal then
        { d with coll := { d.coll with norms := smMod d.coll.norms ⟨[], 0⟩ c (fun s =>
          { s with parts := s.parts ++ [⟨t, r.desc.tag, p.1, p.2, st⟩] }) } }
      else d
    let d := { d with coll := { d.coll with runs := d.coll.runs.filter fun x => !decide (x.ctx.val = c ∧ x.tag = t) } }
    let d := collCnt 0 d
    let d := if st = stNonfinite then collCnt 1 d else d
    let d := if r.named ≠ [] then
        raiseEv nv 0x11 (some c) (pack [(0, 16, r.group.id), (16, 11, r.named.length)]) (nodeOf r (r.named.headD 0)) (collCnt 5 d)
      else d
    let d := complete nv t st 0xFFFF 0 d
    let d := if r.desc.doneEn ∧ ctxLive d c then ctxMod c (fun x => { x with ctrs := smMod x.ctrs 0 r.desc.doneCtr (· + 1) }) d else d
    collAdmitNext nv 64 d

/-- COLLECTIVE_COMPLETE (R309, R312): all is done, or a status ends it; a stage in progress finishes first. A NORM_FINAL collective
that a status ends writes skip 2, and waits for the earlier collectives of its set (DEDUCED from R315 and R316). -/
def collComplete (nv : NonVol) (c t : Nat) (d : Device) : Device :=
  match collGet d c t with
  | none => d
  | some r =>
    if r.open_ ∧ r.stage.isNone ∧ (r.bad ≠ 0 ∨ collOver d r) ∧ (!r.desc.normFinal ∨ setReady d c t) then
      let d := if r.desc.normFinal ∧ (r.bad ≠ 0 ∨ r.clip.isNone) then normClose nv c t (0x7FC00000, 2) d else d
      collFinish nv c t d
    else d

/-- A collective whose context is torn down completes here with CONTEXT_TORN_DOWN, and nothing is sent (R312): clip and skip, its records and
its count. The command's own record follows with the context's others (R370). -/
def collTorn (nv : NonVol) (r : CollRun) (d : Device) : Device :=
  let c := r.ctx.val
  let d := if r.desc.normFinal then normClose nv c r.tag (0x7FC00000, 2) d else d
  let d := recordsWrite nv { r with clip := if r.desc.normFinal then some (0x7FC00000, 2) else r.clip } true stTorn d
  collCnt 0 { d with coll := { d.coll with
    runs := d.coll.runs.filter fun x => !decide (x.ctx.val = c ∧ x.tag = r.tag), norms := smDel d.coll.norms c } }

/-- The collectives of contexts that are torn down complete, and those that wait take their places (R298, R312). -/
def collTornAll (nv : NonVol) (d : Device) : Device :=
  let l := d.coll.runs.filter fun r => r.bad = stTorn
  if l.isEmpty then d else collAdmitNext nv 64 (l.foldl (fun d r => collTorn nv r d) d)

/-- COLLECTIVE_COMPLETE (R309). -/
def execCollectiveComplete (c : CtxNo) (t : Nat) (s : State) : Host.Outcome State Fault Refusal :=
  .next (onDev (fun nv d => collComplete nv c.val t d) s)

end Sys2Proof.Machine
end

