-- ==== Sys2Proof/Machine/Passes.lean ====
section
/-! DEFINITION. Array passes and bound passes: the k-block sums, the partial sums, the bounds of the Underdrawing, and the cycles
they take (R37 to R41, R53, R62, R80 to R83, R93 to R97, R102, R107 to R110, R113, R144 to R146, R156, R157, R171, R235, R236). -/

namespace Sys2Proof.Machine

/-! ### Operand elements in the chunk buffers -/

/-- The bytes of a row stored at `base` in the chunk buffers. -/
def bufRow (u : UnitRun) (base : Nat) : Nat → Byte := fun o => bufByte u (base + o)

/-- X at output row `r` and reduction position `q` (R35, R100, R170). -/
def xElem (i : StreamInfo) (u : UnitRun) (r q : Nat) : Num :=
  if opKind i.y = 3 then
    elemNum i.x.xFmt (xCols i.y) (bufRow u (xRow i (r / i.y.m * i.y.k + q))) (r % i.y.m)
  else elemNum i.x.xFmt (xCols i.y) (bufRow u (xRow i r)) q

/-- W of expert `e` at reduction position `q` and column `n` (R35, R100, R170). -/
def wElem (i : StreamInfo) (u : UnitRun) (e q n : Nat) : Num :=
  if opKind i.y = 2 then elemNum i.x.wFmt (wCols i.y) (bufRow u (wRow i e n)) q
  else elemNum i.x.wFmt i.y.n (bufRow u (wRow i e q)) n

/-- A kept value of a sparse W: stored row `q` of k-block `b` (R108). -/
def sparseElem (i : StreamInfo) (u : UnitRun) (e b q n : Nat) : Num :=
  elemNum i.x.wFmt i.y.n (bufRow u (wRow i e (b * sparseRows i.y + q))) n

/-- The metadata field of group `g` of k-block `b` in column `n` (R108, R109). -/
def sparseMeta (i : StreamInfo) (u : UnitRun) (e b g n : Nat) : Nat :=
  let w := if opSparse i.y = 1 then 4 else 2
  let row := wRow i e (b * sparseRows i.y + (if opSparse i.y = 1 then 64 else 32) + g)
  fld (bufByte u (row + w * n / 8)).toNat (w * n % 8) w

/-- The products of a sparse k-block: reduction position and kept value (R109, R110). -/
def sparseTerms (i : StreamInfo) (u : UnitRun) (e b n : Nat) : List (Nat × Num) :=
  (List.range 32).flatMap fun g =>
    let m := sparseMeta i u e b g n
    if opSparse i.y = 1 then
      [(128 * b + 4 * g + m % 4, sparseElem i u e b (2 * g) n), (128 * b + 4 * g + m / 4, sparseElem i u e b (2 * g + 1) n)]
    else [(128 * b + 4 * g + m, sparseElem i u e b g n)]

/-- The terms of the k-block sum of output element (r, n): the products formed, and one +0 where positions are padding or dead
(R42, R81, R110, R171). -/
def blockTerms (i : StreamInfo) (u : UnitRun) (counts : List Nat) (r n b : Nat) : List Num :=
  let e := r / i.y.m
  let live (q : Nat) : Bool := decide (q < i.y.k) && liveK i counts r q
  let pads := if (List.range 128).all (fun j => live (128 * b + j)) then [] else [Num.zero]
  if opSparse i.y ≠ 0 then
    ((sparseTerms i u e b n).filter fun t => live t.1).map (fun t => Num.mul (xElem i u r t.1) t.2) ++ pads
  else
    ((List.range 128).filter fun j => live (128 * b + j)).map (fun j =>
      Num.mul (xElem i u r (128 * b + j)) (wElem i u e (128 * b + j) n)) ++ pads

/-- A partial sum after k-block `b` (R80, R83). -/
def addBlock (i : StreamInfo) (u : UnitRun) (counts : List Nat) (r n : Nat) (a : Word) (b : Nat) : Word :=
  let s := sumNums (blockTerms i u counts r n b)
  if intClass i.x then addSat a s.toInt else addF32 a (f32 s)

/-- The key of a partial sum. -/
def accKey (r n : Nat) : Nat := r * 2 ^ 24 + n

/-- The partial sums after a pass: every row it streams, every live column of its strip, its k-blocks in ascending order (R41,
R93, R107). -/
def passSums (i : StreamInfo) (g : Region) (u : UnitRun) (counts : List Nat) (p : PassAt) : SMap Word :=
  let cols := (List.range 8).filterMap fun j =>
    if 8 * p.strip + j < g.nc then some (g.c0 + 8 * p.strip + j) else none
  (passRows i g counts u.pred p).foldl (fun m r =>
    let bs := (passBlocks i g p.b).filter fun b => kBlockIssued i counts r b && !rowSkips i u.pred r b
    cols.foldl (fun m n => smPut m 0 (accKey r n) (bs.foldl (addBlock i u counts r n) (smGet m 0 (accKey r n)))) m) u.acc

/-! ### Initial values (R113) -/

/-- A word of Y in the chunk buffers. -/
def yWord (i : StreamInfo) (u : UnitRun) (r n : Nat) : Word :=
  w32 (ofBytes ((List.range 4).map fun o => bufByte u (yRow i r + 4 * n + o)))

/-- Initial values are loaded once, before the first k-block (R113). -/
def accStart (i : StreamInfo) (u : UnitRun) : UnitRun :=
  if u.moved || !accInit i.x || decide (i.x.ksplit ≠ 0) || u.combine then { u with moved := true }
  else
    let g := regionOf i u
    { u with
      moved := true
      acc := ((List.range g.nr).map (g.r0 + ·)).foldl (fun m r =>
        ((List.range g.nc).map (g.c0 + ·)).foldl (fun m n => smPut m 0 (accKey r n) (yWord i u r n)) m) u.acc }

/-! ### Bounds (R146) -/

/-- The larger of two magnitudes. -/
def maxNum (x y : Num) : Num := if Num.lt x y then y else x

/-- ex of R146: ⌈log2(a ÷ 6)⌉, held to −149 … 126. -/
def boundExp (a : Num) : Int :=
  match a with
  | .fin _ m e =>
    let l := log2Of m e - 2
    max (-149) (min 126 (if Num.le a (.fin false 6 l) then l else l + 1))
  | _ => 126

/-- The 4-bit values of a row or column over a k-block, and dx or dw (R146). -/
def quantize (xs : List Num) : List Num × Num :=
  let amax := (xs.map Num.abs).foldl maxNum .zero
  if amax.isZero then (xs.map fun _ => .zero, .zero)
  else
    let ex := boundExp amax
    (xs.map fun x => (decodeElem 7 (encodeElem 7 0 0 (x.shift (-ex)))).shift ex, .fin false 1 ex)

/-- FP32 toward +∞. -/
def f32Up (x : Num) : Word := w32 (encodeElem 0 2 0 x)

/-- The bound of one k-block added to `v` (R146). -/
def boundAdd (v : Word) (xs ws : List Num) : Word :=
  if (xs ++ ws).any fun x => !x.isFin then 0x7F800000
  else
    let (xq, dx) := quantize xs
    let (wq, dw) := quantize ws
    let u := Num.add (Num.add (Num.add (sumNums ((xq.zip wq).map fun p => Num.mul p.1 p.2))
      (Num.mul dx (sumNums (wq.map Num.abs)))) (Num.mul dw (sumNums (xq.map Num.abs)))) (Num.mul (.fin false 128 0) (Num.mul dx dw))
    f32Up (Num.add (numOf v) (numOf (f32Up u)))

/-- The values of X and of W over k-block `b` that a bound reads; pad and dead positions hold +0 (R146, R171). -/
def boundRow (i : StreamInfo) (u : UnitRun) (counts : List Nat) (r b : Nat) : List Num :=
  (List.range 128).map fun j =>
    if 128 * b + j < i.y.k ∧ liveK i counts r (128 * b + j) then xElem i u r (128 * b + j) else .zero
def boundCol (i : StreamInfo) (u : UnitRun) (counts : List Nat) (r b n : Nat) : List Num :=
  (List.range 128).map fun j =>
    if 128 * b + j < i.y.k ∧ liveK i counts r (128 * b + j) then wElem i u (r / i.y.m) (128 * b + j) n else .zero

/-- The bounds after one bound pass. -/
def boundSums (i : StreamInfo) (g : Region) (u : UnitRun) (counts : List Nat) (p : BoundAt) : SMap Word :=
  ((tileRows i g p.tile).filter (liveRow i counts)).foldl (fun m r =>
    if kBlockIssued i counts r p.b then
      (tileCols i g p.tile).foldl (fun m n =>
        smPut m 0 (accKey r n) (boundAdd (smGet m 0 (accKey r n)) (boundRow i u counts r p.b) (boundCol i u counts r p.b n))) m
    else m) u.bound

/-! ### Cycles, stalls and charges (R62, R96, R97, R401, R402) -/

/-- `n` cycles of stall cause `cause`, in the order of R63, of a stream (R62). -/
def stallAdd (c idx cause n : Nat) (d : Device) : Device :=
  acctMod c (fun a => { a with stalls := lMod a.stalls cause (· + n) })
    (runMod c idx (fun r => { r with stalls := lMod r.stalls cause (· + n) }) d)

/-- Context `c` has made progress (R388). -/
def progressed (nv : NonVol) (c : Nat) (d : Device) : Device := ctxMod c (fun x => { x with progressAt := nv.up }) d

/-- Conflict cycles of a bank are counted where MEM_BANK_SEL selects them (R235). -/
def bankCount (k c bank n : Nat) (d : Device) : Device :=
  let d := acctMod c (fun a => { a with bank := a.bank + n }) d
  if d.mem.bankEn ∧ d.mem.bankCtx = c ∧ d.mem.bankClu = k then
    memMod (fun m => { m with bankCnt := smMod m.bankCnt 0 bank (fun v => min (v + n) (2 ^ 32 - 1)) }) d
  else d

/-- The partition of context `c` has dummy fill enabled, with its gap threshold G; the safe state of an emergency suspends it (R115, R337, R457). -/
def dummyFill (d : Device) (c : Nat) : Option Nat :=
  (partGet d (ctxGet d c).part.val).bind fun s => if s.dummyFill && !d.pwr.safe then some s.dummyGap else none

/-- `n` dummy rows of array kind `kind`, charged to context `c` (R117). -/
def dummyRows (c kind n : Nat) (d : Device) : Device :=
  charge 4 n c (acctMod c (fun a =>
    if kind = 1 then { a with dummyFwd := a.dummyFwd + n } else { a with dummyBwd := a.dummyBwd + n }) d)

/-- A dummy row is issued in cycle `t` of a gap (R115): while the tail falls, in the cycles whose number since the end of G is a multiple
of 2, 4, 8 and 16; the spec does not say in which of every second, fourth, eighth and sixteenth it falls (log entry 116). -/
def dummyDue (g t : Nat) : Bool :=
  if t ≤ g then true
  else
    let q := t - g
    if q ≤ 16 then q % 2 == 0 else if q ≤ 32 then q % 4 == 0 else if q ≤ 48 then q % 8 == 0 else decide (q ≤ 64) && q % 16 == 0

/-- The array whose streamed rows stand for array kind `kind`: FWD, or the first of the BWD pair. -/
def kindArray (kind : Nat) : Nat := if kind = 1 then 0 else 1

/-- Array `a` of cluster `k`. -/
def arrayGet (d : Device) (k a : Nat) : ArraySt := smGet (cluGet d k).arrays ArraySt.init a
def arrayMod (k a : Nat) (f : ArraySt → ArraySt) (d : Device) : Device :=
  cluMod k (fun x => { x with arrays := smMod x.arrays ArraySt.init a f }) d

/-- `n` cycles of a gap of the arrays of kind `kind` of cluster `k`: their dummy rows go to the context whose real row the array took
last (R115, R117). A cycle of the BWD pair counts once (log entry 116). -/
def gapCycles (k kind n : Nat) (d : Device) : Device :=
  match (arrayGet d k (kindArray kind)).last with
  | none => d
  | some (c, _, since) =>
    let since' (x : ArraySt) : ArraySt := { x with last := x.last.map fun l => (l.1, l.2.1, l.2.2 + n) }
    let d := arrayMod k (kindArray kind) since' d
    let d := if kind = 2 then arrayMod k 2 since' d else d
    match dummyFill d c.val with
    | some g => dummyRows c.val kind ((List.range n).filter fun j => dummyDue g (since + 1 + j)).length d
    | none => d

/-- The fault of a unit that consumes poisoned data (R239). -/
def unitPoison (d : Device) (k : Nat) (i : StreamInfo) (r : UnitRun) (w : Nat) : FaultAt :=
  { poisonFault d r.ctx.val 1 (w * 64) 64 with clu := some k, stream := some (i.x.stream, r.unit, r.repair) }

/-- What a unit no longer needs leaves its chunk buffers (R39). -/
def trimBufs (i : StreamInfo) (counts : List Nat) (trust : Bool) (u : UnitRun) : UnitRun :=
  let keep := fetchWords i u counts trust false
  { u with
    have_ := u.have_.filter keep.contains
    bad := u.bad.filter keep.contains
    buf := u.buf.filter fun e => keep.contains (e.1 / 64)
    turned := u.turned.filter fun b => ((turnWords i u counts b).filter keep.contains) ≠ [] }

/-! ### Accumulator room (R53, R236) -/

/-- The drain number of row block `mb` and strip `s` of a region: mb × strips + s. -/
def stripNo (g : Region) (mb s : Nat) : Nat := mb * stripsOf g + s

/-- The row blocks and strips that a unit has opened, each once. -/
def openedStrips (i : StreamInfo) (u : UnitRun) (counts : List Nat) : List (Nat × Nat) :=
  (((unitPasses i u counts).take u.pos).map fun p => (p.mb, p.strip)).eraseDups

/-- Where a strip of a unit stands while it is open (R53): the strips in the order in which they first open, the lowest in the
accumulator up to 32,768 elements, the next in Palette spill room, the rest in memory. -/
inductive StripPlace where
  | accumulator | palette | memory
  deriving DecidableEq, Repr

/-- The elements of the strips before strip `s` in the order of their first opening, and of `s` itself. -/
def stripRank (i : StreamInfo) (u : UnitRun) (counts : List Nat) (s : Nat × Nat) : Nat × Nat :=
  let g := regionOf i u
  let all := ((unitPasses i u counts).map fun p => (p.mb, p.strip)).eraseDups
  let size (s : Nat × Nat) : Nat := 8 * (blockRows i g s.1).length
  (((all.takeWhile (· ≠ s)).map size).foldl (· + ·) 0, size s)

/-- The place of a strip (R53). -/
def stripPlace (i : StreamInfo) (u : UnitRun) (counts : List Nat) (s : Nat × Nat) : StripPlace :=
  if residency i.x ≤ 32768 then .accumulator
  else
    let (before, mine) := stripRank i u counts s
    if before + mine ≤ 32768 then .accumulator
    else if (before + mine - 32768) * 4 ≤ i.x.palSize * 1024 - footprint i.y then .palette
    else .memory

/-- Accumulator granules that a unit holds; a strip that spills takes none (R53, R236). -/
def granulesHeld (i : StreamInfo) (u : UnitRun) (counts : List Nat) : Nat :=
  let g := regionOf i u
  ((openedStrips i u counts).filter fun s =>
    !u.drained.contains (stripNo g s.1 s.2) && !u.sent.contains (stripNo g s.1 s.2) && stripPlace i u counts s = .accumulator).foldl
    (fun n s => n + (blockRows i g s.1).length) 0

/-- Granules held on cluster `k` by all its units (R236). -/
def granulesUsed (d : Device) (k : Nat) : Nat :=
  (dealtOn d k).foldl (fun n u =>
    match unitInfo d k u.1 with
    | some (r, i) => if hasArray i.x then n + granulesHeld i r (countsOf d r.ctx.val r.idx) else n
    | none => n) 0

/-- The accumulator has room for the strip of pass `p` (R53, R236). -/
def hasRoom (d : Device) (k : Nat) (i : StreamInfo) (r : UnitRun) (p : PassAt) : Bool :=
  let g := regionOf i r
  let counts := countsOf d r.ctx.val r.idx
  let new_ := !(openedStrips i r counts).contains (p.mb, p.strip)
  !new_ || stripPlace i r counts (p.mb, p.strip) ≠ .accumulator || decide (granulesUsed d k + (blockRows i g p.mb).length ≤ 4096)

/-! ### Spill moves (R53) -/

/-- The moves of pass `p` of a unit, the next of its passes: its strip is read back unless the pass opens it, and written out unless no
pass of it is left (R53). Initial values stand in the spill location (R113). -/
def spillMoves (i : StreamInfo) (u : UnitRun) (counts : List Nat) (p : PassAt) : Bool × Bool :=
  let same (q : PassAt) : Bool := q.mb == p.mb && q.strip == p.strip
  if stripPlace i u counts (p.mb, p.strip) = .accumulator then (false, false)
  else (accInit i.x || ((unitPasses i u counts).take u.pos).any same, ((unitPasses i u counts).drop (u.pos + 1)).any same)

/-- The spill moves that pass `p` of a spilling unit waits for, and the device with their code words charged; the cycles waited are the
machine's own: a free value (R53, R62; log entry 11). -/
def spillWait (c : Nat) (i : StreamInfo) (u : UnitRun) (counts : List Nat) (p : PassAt) (d : Device) : Nat × Device :=
  let m := spillMoves i u counts p
  if !m.1 && !m.2 then (0, d)
  else
    let n := (Config.freeWord d.fresh).toNat
    let bytes (b : Bool) : Nat := if b then 64 * cdiv ((blockRows i (regionOf i u) p.mb).length * 32) 64 else 0
    let d := drawFresh 1 d
    let d := acctMod c (fun a => { a with spill := a.spill + n }) (runMod c u.idx (fun r => { r with spill := r.spill + n }) d)
    (n, if stripPlace i u counts (p.mb, p.strip) = .memory then moved c (bytes m.1) (bytes m.2) d else d)

/-! ### Stationary blocks (R93, R97, R107, R109) -/

/-- The number that a stationary block or an Easel region gives its unit: repair units apart. -/
def unitKey (u : UnitRun) : Nat := if u.repair then u.unit + 2 ^ 25 else parcelUnit u

/-- Cell (r, c) of the stationary block of a pass (R93); of a sparse block, the kept value (R107). -/
def cellNum (i : StreamInfo) (u : UnitRun) (counts : List Nat) (e b col r c : Nat) : Num :=
  let g := regionOf i u
  let kept := if opSparse i.y = 1 then 64 else 32
  if g.c0 + g.nc ≤ col + c then .zero
  else if opSparse i.y ≠ 0 then
    if b + r / kept < g.b0 + g.nb then sparseElem i u e (b + r / kept) (r % kept) (col + c) else .zero
  else if 128 * b + r < i.y.k ∧ liveK i counts (e * i.y.m) (128 * b + r) then wElem i u e (128 * b + r) (col + c)
  else .zero

/-- The stationary block of a pass, with the metadata of a sparse one. -/
def passBlock (i : StreamInfo) (u : UnitRun) (counts : List Nat) (p : PassAt) : StatBlock :=
  let g := regionOf i u
  let e := (passRows i g counts u.pred p).headD 0 / i.y.m
  let col := g.c0 + 8 * p.strip
  let metas := if opSparse i.y = 0 then [] else
    (passBlocks i g p.b).flatMap fun b => (List.range 32).flatMap fun q => (List.range 8).map fun c => sparseMeta i u e b q (col + c)
  ⟨u.ctx, u.idx, unitKey u, e, p.b, col, false, (List.range 1024).map fun j => cellNum i u counts e p.b col (j / 8) (j % 8), metas⟩

/-- The stationary block of a bound pass: the 4-bit values that SKETCH forms (R145, R146). -/
def boundBlock (i : StreamInfo) (u : UnitRun) (counts : List Nat) (p : BoundAt) : StatBlock :=
  let g := regionOf i u
  let r := (tileRows i g p.tile).headD 0
  let cols := tileCols i g p.tile
  let col (c : Nat) : List Num := match cols[c]? with
    | some n => (quantize (boundCol i u counts r p.b n)).1
    | none => List.replicate 128 .zero
  ⟨u.ctx, u.idx, unitKey u, r / i.y.m, p.b, cols.headD 0, true,
    (List.range 1024).map fun j => (col (j % 8)).getD (j / 8) .zero, []⟩

/-- Two stationary blocks are the same block. -/
def sameBlock (a b : StatBlock) : Bool :=
  a.ctx == b.ctx && a.idx == b.idx && a.unit == b.unit && a.expert == b.expert && a.b == b.b && a.col == b.col && a.bound == b.bound

/-- The block of the unit's next pass or bound pass, once the words of W that it holds have landed (R145). -/
def blockAhead (d : Device) (i : StreamInfo) (u : UnitRun) : Option StatBlock :=
  let c := u.ctx.val
  let counts := countsOf d c u.idx
  let g := regionOf i u
  let landed (ws : List Nat) : Bool := ws.all u.have_.contains
  let pass (p : PassAt) : Option StatBlock := if landed (passW i g counts u.pred p) then some (passBlock i u counts p) else none
  let bound (b : BoundAt) : Option StatBlock := if landed (boundW i g counts b) then some (boundBlock i u counts b) else none
  match (unitPasses i u counts)[u.pos]?, (unitBounds i u (trusted d c u.idx))[u.bpos]? with
  | some p, some b => if p.chunk ≤ b.chunk then pass p else bound b
  | some p, none => pass p
  | none, some b => bound b
  | none, none => none

/-- The block that the arrays of kind `kind` of cluster `k` preload during the pass now issued, `u` being the unit after it: its own next
block, or past its last the first block of the cluster's claimed unit of that kind (R97). -/
def nextBlock (d : Device) (k kind : Nat) (i : StreamInfo) (u : UnitRun) : Option StatBlock :=
  match blockAhead d i u with
  | some b => some b
  | none =>
    if !passesOver d u then none
    else
      match fetchInfo d k claimPlace with
      | some (q, j) => if q.kind = kind ∧ q.predRead then blockAhead d j q else none
      | none => none

/-- The arrays of kind `kind` of cluster `k` take rows `rows` against block `b`, `after` cycles of a gap following, and preload `next`
(R93, R97, R102). On BWD both hold the block, and the rows go to the pair in turn, `q` at a time. -/
def arraysRun (k kind q after : Nat) (c : CtxNo) (b : StatBlock) (next : Option StatBlock) (rows : List Nat) (d : Device) : Device :=
  let mine (a : Nat) : List Nat := ((rows.zip (List.range rows.length)).filter fun e => e.2 / q % 2 == a).map (·.1)
  let put (rows : List Nat) (after : Nat) (x : ArraySt) : ArraySt :=
    ⟨some b, next, match rows.getLast? with
      | some r => some (c, r, after)
      | none => x.last⟩
  if kind = 1 then arrayMod k 0 (put rows after) d
  else arrayMod k 2 (put (mine 1) after) (arrayMod k 1 (put (mine 0) after) d)

/-! ### The Easel (R103, R104) -/

/-- The path's operand turned by the Easel: its format's element width gives the cycles of a region of four blocks (R104). -/
def easelCycles (i : StreamInfo) : Nat :=
  let w := fmtBits (if opKind i.y = 2 then i.x.wFmt else i.x.xFmt)
  if w ≤ 4 then 4 else if w ≤ 8 then 8 else if w ≤ 16 then 16 else 32

/-- Transposed element (j, q) of the region at position `at_` of k-block `b`: reduction position q, other dimension j (R103). -/
def easelElem (i : StreamInfo) (u : UnitRun) (counts : List Nat) (b at_ j q : Nat) : Num :=
  let g := regionOf i u
  if i.y.k ≤ 128 * b + q then .zero
  else if opKind i.y = 2 then
    if at_ + j < g.c0 + g.nc then wElem i u (g.r0 / i.y.m) (128 * b + q) (at_ + j) else .zero
  else if at_ + j < g.r0 + g.nr ∧ liveK i counts (at_ + j) (128 * b + q) then xElem i u (at_ + j) (128 * b + q)
  else .zero

/-- A region: its four blocks in ascending reduction order, each turned (R103). -/
def easelRegion (i : StreamInfo) (u : UnitRun) (counts : List Nat) (b at_ : Nat) : EaselRegion :=
  ⟨u.ctx, u.idx, unitKey u, b, at_, (List.range 4).map fun m => (List.range 1024).map fun e =>
    easelElem i u counts b at_ (e / 32) (32 * m + e % 32)⟩

/-- The regions that a pass takes its operand from, in the order of their use: under KIND 2 that of its strip, under KIND 3 those of its
rows; each covers 32 positions of the unit's own region (R103). -/
def passRegions (i : StreamInfo) (u : UnitRun) (counts : List Nat) (p : PassAt) : List EaselRegion :=
  let g := regionOf i u
  let ats := if opKind i.y = 2 then [g.c0 + p.strip / 4 * 32]
    else ((passRows i g counts u.pred p).map fun r => g.r0 + (r - g.r0) / 32 * 32).eraseDups
  (passBlocks i g p.b).flatMap fun b => ats.map fun a => easelRegion i u counts b a

/-- Two regions are the same region. -/
def sameRegion (a b : EaselRegion) : Bool := a.ctx == b.ctx && a.idx == b.idx && a.unit == b.unit && a.b == b.b && a.at_ == b.at_

/-- The Easel supplies regions `rs` one after another, each for `supply` cycles, while it turns the next in `cyc` cycles: the cycles that
the array waits, and the Easel after them (R104). A region still held is not turned again. -/
def easelServe (cyc supply : Nat) (rs : List EaselRegion) (e : Easel) : Nat × Easel :=
  match rs with
  | [] => (0, e)
  | r :: t =>
    let held := e.held.any (sameRegion r)
    let wait := if held then 0 else match e.filling with
      | some (f, n) => if sameRegion f r then n else cyc
      | none => cyc
    let filling := e.filling.filter fun f => held && !sameRegion f.1 r
    let now : Easel := ⟨r :: ((e.held.filter fun x => !sameRegion r x).take 1), filling⟩
    match t with
    | [] => (wait, now)
    | n :: _ =>
      let ahead : Easel := if now.held.any (sameRegion n) then now else ⟨now.held.take 1, some (n, cyc - min cyc supply)⟩
      let rest := easelServe cyc supply t ahead
      (wait + rest.1, rest.2)

/-- While the array works, the Easel turns the region that comes next, if it does not hold it (R104). -/
def easelAhead (cyc : Nat) (next : Option EaselRegion) (e : Easel) : Easel :=
  match next with
  | none => e
  | some n =>
    if (e.held.any (sameRegion n)) || (e.filling.map fun f => sameRegion f.1 n) == some true then e
    else ⟨e.held.take 1, some (n, cyc)⟩

/-- The region that the next pass of a unit needs first, once its words have landed. -/
def nextRegion (d : Device) (i : StreamInfo) (u : UnitRun) : Option EaselRegion :=
  let counts := countsOf d u.ctx.val u.idx
  let g := regionOf i u
  match (unitPasses i u counts)[u.pos]? with
  | none => none
  | some p =>
    if (passX i g counts u.pred p ++ passW i g counts u.pred p).all u.have_.contains then (passRegions i u counts p).head? else none

/-- The waits of pass `p` for the Easel of cluster `k`, charged to its cause; `u1` is the unit after the pass (R62, R104). -/
def easelWait (k : Nat) (i : StreamInfo) (u u1 : UnitRun) (counts : List Nat) (p : PassAt) (s : Nat) (d : Device) : Nat × Device :=
  if !has i.x 2 then (0, d)
  else
    let rs := passRegions i u counts p
    let cyc := easelCycles i
    let (w, e) := easelServe cyc (s / max 1 rs.length) rs (cluGet d k).easel
    (w, stallAdd u.ctx.val u.idx 6 w (cluMod k (fun x => { x with easel := easelAhead cyc (nextRegion d i u1) e }) d))

/-! ### What a pass takes (R62, R94 to R97, R115) -/

/-- A pass or bound pass of the unit at place `u` of cluster `k` occupies its arrays for `s` streaming cycles, after `wait` cycles of
waiting for the Easel or a spill move: `r1` is the unit after it, `b` its stationary block, `rows` its rows, `q` of them entering an array
at once. The first block of a stream, not preloaded, takes 16 cycles first, and one preloaded during fewer than 16 the rest of them: sync wait (R97).
In the last streaming cycles of a pass that gives the second array of the pair no row, that array is in a gap (R102, R115). -/
def arrayTook (nv : NonVol) (k u : Nat) (i : StreamInfo) (r1 : UnitRun) (b : StatBlock) (q s c cls wait : Nat) (rows : List Nat) (d : Device) :
    Device :=
  let ctx := r1.ctx.val
  let kind := r1.kind
  let a := arrayGet d k (kindArray kind)
  let loaded := ((a.shadow.map (sameBlock b)).getD false) || ((a.held.map fun h => h.ctx == b.ctx && h.idx == b.idx).getD false)
  let first := if loaded then 0 else 16
  let odd := if kind = 2 ∧ cdiv rows.length q % 2 = 1 then c else 0
  let d := gapCycles k kind (wait + first) d
  let d := arraysRun k kind q 0 r1.ctx b (nextBlock d k kind i r1) rows d
  let d := if odd = 0 ∨ (dummyFill d ctx).isNone then d else dummyRows ctx kind odd d
  let d := gapCycles k kind (16 - s) d
  let d := if first + (16 - s) = 0 then d else stallAdd ctx r1.idx 5 (first + (16 - s)) d
  let d := runMod ctx r1.idx (fun x => { x with issue := x.issue + s }) d
  let d := acctMod ctx (fun a => if kind = 1 then { a with fwd := a.fwd + s } else { a with bwd := a.bwd + s }) d
  let d := unitMod k u (fun x => { x with busy := x.busy + max s 16 + first + wait, idle := 0 }) d
  progressed nv ctx (charge cls rows.length ctx d)

/-! ### PASS (R96) -/

/-- PASS: the next pass of the unit at place `u` of cluster `k` runs once its predictions are read and its words have landed, the bound
passes of earlier chunks are over, and the accumulator has room (R53, R60, R93 to R97, R145). -/
def passGo (nv : NonVol) (k u : Nat) (d : Device) : Device :=
  match unitInfo d k u with
  | none => d
  | some (r, i) =>
    let c := r.ctx.val
    let counts := countsOf d c r.idx
    let trust := trusted d c r.idx
    let g := regionOf i r
    let bounds := unitBounds i r trust
    match (unitPasses i r counts)[r.pos]? with
    | none => d
    | some p =>
      let need := passX i g counts r.pred p ++ passW i g counts r.pred p ++ (if r.pos = 0 then initWords i r else [])
      let behind := ((bounds[r.bpos]?).map fun b => decide (b.chunk < p.chunk)).getD false
      if behind ∨ !r.predRead ∨ need.any (fun w => !r.have_.contains w) ∨ !hasRoom d k i r p then d
      else
        match need.find? fun w => r.bad.contains w with
        | some w => faultCtx nv c (unitPoison d k i r w) d
        | none =>
          let r0 := accStart i r
          let rows := passRows i g counts r.pred p
          let s := passCycles i.x rows.length
          let r1 := trimBufs i counts trust { r0 with acc := passSums i g r0 counts p, pos := r.pos + 1 }
          let (spill, d) := spillWait c i r counts p (unitMod k u (fun _ => r1) d)
          let (easel, d) := easelWait k i r r1 counts p s d
          arrayTook nv k u i r1 (passBlock i r counts p) (if rateOf i.x = 3 then 2 else 1) s
            (if rateOf i.x = 0 then 8 else if rateOf i.x = 1 then 2 else 1) (rateOf i.x) (spill + easel) rows d

/-- PASS (R96). -/
def pass (nv : NonVol) (k u : Nat) (d : Device) : Device := passGo nv k u (predTry nv k u d)

/-- PASS (R96). -/
def execPass (k : CluNo) (u : Nat) (s : State) : Host.Outcome State Fault Refusal :=
  .next (onDev (fun nv d => pass nv k.val u d) s)

/-! ### BOUND_PASS (R145, R146) -/

/-- Cycles of a bound pass: those of R145, for a ragged tile too, though R150 has it never longer than the compute pass that it replaces
(log entry 117). -/
def boundCycles (kind : Nat) : Nat := if kind = 2 then 32 else 64

/-- The next bound pass runs once the compute passes of its chunk are over and its words have landed. -/
def boundGo (nv : NonVol) (k u : Nat) (d : Device) : Device :=
  match unitInfo d k u with
  | none => d
  | some (r, i) =>
    let c := r.ctx.val
    let counts := countsOf d c r.idx
    let trust := trusted d c r.idx
    let g := regionOf i r
    match (unitBounds i r trust)[r.bpos]? with
    | none => d
    | some b =>
      let need := boundX i g counts b ++ boundW i g counts b
      let ahead := (((unitPasses i r counts)[r.pos]?).map fun p => decide (p.chunk ≤ b.chunk)).getD false
      if ahead ∨ !r.predRead ∨ need.any (fun w => !r.have_.contains w) then d
      else
        match need.find? fun w => r.bad.contains w with
        | some w => faultCtx nv c (unitPoison d k i r w) d
        | none =>
          let r1 := trimBufs i counts trust { r with bound := boundSums i g r counts b, bpos := r.bpos + 1 }
          arrayTook nv k u i r1 (boundBlock i r counts b) 2 (boundCycles r.kind) 1 5 0 ((List.range 128).map fun j =>
            b.tile / mapS i * 128 + j) (unitMod k u (fun _ => r1) d)

/-- BOUND_PASS (R145). -/
def boundPass (nv : NonVol) (k u : Nat) (d : Device) : Device := boundGo nv k u (predTry nv k u d)

/-- BOUND_PASS (R145). -/
def execBoundPass (k : CluNo) (u : Nat) (s : State) : Host.Outcome State Fault Refusal :=
  .next (onDev (fun nv d => boundPass nv k.val u d) s)

end Sys2Proof.Machine
end

