-- ==== Sys2Proof/Machine/Varnish.lean ====
section
/-! DEFINITION. What leaves a unit: Varnish's conversion of one output row with its map bits and digest, write masks, and the
writes of STORE and EXCHANGE (R69, R72, R74, R75, R84 to R92, R129 to R136, R152, R221, R288 to R292, R477). -/

namespace Sys2Proof.Machine

/-! ### Codes (R86, R88 to R91, R477) -/

/-- The descriptor's word at byte 0x18 (R34). -/
def yWord18 (x : StreamDesc) : Nat := pack [(0, 46, x.yAddr / 64), (46, 4, x.yFmt), (50, 14, x.yPitch)]

/-- r of R86 for output element (r, n); 0 under the modes that take none. -/
def roundRand (x : StreamDesc) (r n : Nat) : Nat :=
  if x.round = 4 then crc32c (toBytes 4 r ++ toBytes 4 n ++ toBytes 8 (yWord18 x)) % 65536 else 0

/-- One output element: its code, its block's scale bytes, and whether the write replaced a value (R91). -/
structure OutCode where
  code : Nat
  scales : List Nat
  replaced : Bool
  deriving DecidableEq, Repr

/-- The codes of one row of scalar elements from column `c0` on. -/
def scalarCodes (x : StreamDesc) (r c0 : Nat) (xs : List (Option Num)) : List (Option OutCode) :=
  (xs.zip (List.range xs.length)).map fun e => e.1.map fun v =>
    ⟨encodeElem x.yFmt x.round (roundRand x r (c0 + e.2)) v, [], narrowed x.yFmt v⟩

/-- The codes of one block from column `c0` on. While a block has an element that its unit leaves unwritten (R147), its scale is not
settled: until the repair (R148) writes it whole, +0 stands as +0 in it, and its other codes and its scale are free (log entry 28). -/
def blockCodes (x : StreamDesc) (free r c0 : Nat) (xs : List (Option Num)) : List (Option OutCode) :=
  let bs := blockSize x.yFmt
  let full := xs ++ List.replicate (bs - xs.length) (some Num.zero)
  if full.any Option.isNone then
    let scales := (List.range (scaleBytes x.yFmt)).map fun j => (Config.freeByte (free + bs + j)).toNat
    (full.zip (List.range bs)).map fun e => e.1.map fun v =>
      ⟨if v.isZero && !v.signed then 0 else (Config.freeByte (free + e.2)).toNat % 2 ^ fmtBits x.yFmt, scales, false⟩
  else
    let vs := full.map fun v => v.getD .zero
    let rs := (List.range bs).map fun j => roundRand x r (c0 + j)
    let e := encodeBlock x.yFmt x.round (!(vs.any Num.signed)) rs vs
    let bad := vs.any fun v => !v.isFin
    e.1.map fun c => some ⟨c, e.2, bad⟩

/-- `l` cut into pieces of `n` elements. -/
def piecesOf {α : Type} (n fuel : Nat) (l : List α) : List (List α) :=
  match fuel with
  | 0 => []
  | f + 1 => if l.isEmpty then [] else l.take n :: piecesOf n f (l.drop n)

/-- The blocks of one row from column `c0` on, each with its number in the row. -/
def rowBlocksOf (x : StreamDesc) (free r c0 : Nat) (xs : List (Option Num)) : List (Nat × List (Option OutCode)) :=
  let bs := blockSize x.yFmt
  let ps := piecesOf bs (xs.length + 1) xs
  (ps.zip (List.range ps.length)).map fun p => (c0 / bs + p.2, blockCodes x (free + 130 * p.2) r (c0 + bs * p.2) p.1)

/-! ### Pieces of a row -/

/-- Runs of consecutive elements that are written: the first column and the codes. -/
def runsOf (n : Nat) (l : List (Option Nat)) : List (Nat × List Nat) :=
  match l with
  | [] => []
  | none :: t => runsOf (n + 1) t
  | some c :: t =>
    match runsOf (n + 1) t with
    | (m, cs) :: rest => if m = n + 1 then (n, c :: cs) :: rest else (n, [c]) :: (m, cs) :: rest
    | [] => [(n, [c])]

/-- The byte pieces (offset within the row, bytes) of scalar codes; `frozen` columns are left out (R152). -/
def scalarPieces (f c0 : Nat) (frozen : List Nat) (cs : List (Option OutCode)) : List (Nat × List Byte) :=
  let l := (cs.zip (List.range cs.length)).map fun e =>
    if frozen.contains (c0 + e.2) then none else e.1.map fun c => c.code
  (runsOf c0 l).map fun p => (fmtBits f * p.1 / 8, packCodes (fmtBits f) p.2)

/-- The byte pieces of blocks: element bytes of what is written, and scale bytes after all element bytes of the row (R68). -/
def blockPieces (f n : Nat) (bs : List (Nat × List (Option OutCode))) : List (Nat × List Byte) :=
  bs.flatMap fun b =>
    let elems := (runsOf 0 (b.2.map fun c => c.map (·.code))).map fun p =>
      (blockSize f * fmtBits f / 8 * b.1 + fmtBits f * p.1 / 8, packCodes (fmtBits f) p.2)
    match b.2.findSome? id with
    | some c => elems ++ [(scaleAt f n b.1, c.scales.map (BitVec.ofNat 8))]
    | none => []

/-! ### One output row -/

/-- What Varnish makes of one row: pieces to write, tiles with a live element that is not zero, its part of the digest, and
whether a value was replaced. -/
structure RowResult where
  pieces : List (Nat × List Byte)
  nonzero : List Nat
  part : Nat
  replaced : Bool
  deriving DecidableEq, Repr

/-- A written code is ±0 in its format (R130). -/
def codeZero (f : Nat) (c : OutCode) : Bool :=
  if fmtBlock f then c.scales.head? != some 0xFF && (decodeElem (elemFmt f) c.code).isZero else (decodeElem f c.code).isZero

/-- The part that consecutive elements of row `r` from column `c0` on have in the digest (R133, R135). -/
def rowDigest (i : StreamInfo) (r c0 : Nat) (cs : List (Option OutCode)) : Nat :=
  let f := i.y.yFmt
  let w := imageLen f
  if i.x.digest then
    let bytes := cs.flatMap fun c => match c with
      | some c => digestImage f c.code c.scales
      | none => List.replicate w 0
    crcPart i.slot.poly (digestLen i) ((r * i.y.n + c0) * w) bytes
  else 0

/-- Row `r` from column `c0` on: values `xs`, none where the unit leaves an element unwritten (R147). A block with such an element enters
map, digest and NONFINITE with its repair. A frozen element is not written, so its value is not replaced in memory (R91, R152). -/
def varnishRow (i : StreamInfo) (free : Nat) (frozen : List Nat) (r c0 : Nat) (xs : List (Option Num)) : RowResult :=
  let f := i.x.yFmt
  let blocks := if fmtBlock f then rowBlocksOf i.x free r c0 xs else []
  let whole (l : List (Option OutCode)) : List (Option OutCode) := if l.any Option.isNone then l.map fun _ => none else l
  let cs := if fmtBlock f then (blocks.flatMap fun b => whole b.2).take xs.length else scalarCodes i.x r c0 xs
  let nz := ((cs.zip (List.range cs.length)).filter fun e => (e.1.map fun c => !codeZero f c).getD false).map fun e => tileOf i r (c0 + e.2)
  ⟨if fmtBlock f then blockPieces f i.y.n blocks else scalarPieces f c0 frozen cs, nz.eraseDups, rowDigest i r c0 cs,
    (cs.zip (List.range cs.length)).any fun e => !frozen.contains (c0 + e.2) && (e.1.map (·.replaced)).getD false⟩

/-- Set bits `lo` to `lo` + `n` − 1 of a mask at `va`: as FETCH has read it for unit `u` (R153), or where the home reads it for a combined tile
or a copy. -/
def maskBits (d : Device) (c : Nat) (u : Option UnitRun) (va lo n : Nat) : Except FaultAt (List Nat) :=
  match u with
  | some u => .ok (((List.range n).map (lo + ·)).filter fun b => bit (bufByte u (va + b / 8)).toNat (b % 8))
  | none => mapBits d c va lo n

/-- The frozen columns `c0` to `c0` + `n` − 1 of row `r` (R152). -/
def frozenCols (d : Device) (c : Nat) (u : Option UnitRun) (i : StreamInfo) (r c0 n : Nat) : Except FaultAt (List Nat) :=
  let cols := (List.range n).map (c0 + ·)
  match i.slot.maskKind with
  | 0 => .ok []
  | 1 =>
    match maskBits d c u i.slot.maskAddr r 1 with
    | .ok l => .ok (if l.isEmpty then [] else cols)
    | .error f => .error f
  | 2 => maskBits d c u i.slot.maskAddr c0 n
  | _ => maskBits d c u (i.slot.maskAddr + r * 64 * cdiv i.y.n 512) c0 n

/-! ### EXCHANGE (R288 to R292) -/

/-- The pieces (window offset, first byte, length) of `len` bytes at window offset `off` that cross no 4,096 B boundary (R292). -/
def exchangePieces (fuel off from_ len : Nat) : List (Nat × Nat × Nat) :=
  match fuel with
  | 0 => []
  | f + 1 =>
    if len = 0 then []
    else
      let n := min len (4096 - off % 4096)
      (off, from_, n) :: exchangePieces f (off + n) (from_ + n) (len - n)

/-- The window offset of byte `off` of remote row `r` (R292). -/
def remoteOffset (t : RemoteTarget) (pitch r off : Nat) : Nat := t.offset + r * 64 * pitch + off

/-- Bytes at window offset `off` join the contiguous runs of a unit (R292). -/
def runAdd (off : Nat) (bs : List Byte) (runs : List (Nat × List Byte)) : List (Nat × List Byte) :=
  match runs with
  | [] => [(off, bs)]
  | (a, xs) :: t =>
    if a + xs.length = off then runAdd a (xs ++ bs) t
    else if off + bs.length = a then (off, bs ++ xs) :: t
    else if off < a then (off, bs) :: (a, xs) :: t
    else (a, xs) :: runAdd off bs t

/-- EXCHANGE as a sink: the bytes of row `r` of the unit at place `u` of cluster `k` join its runs (R292). -/
def exchangeOut (k u : Nat) (t : RemoteTarget) (pitch r off : Nat) (bs : List Byte) (d : Device) : Device :=
  unitMod k u (fun x => { x with xout := runAdd (remoteOffset t pitch r off) bs x.xout }) d

/-- The runs of a unit leave, each in packets of at most 4,096 B that cross no 4,096 B boundary of window offset (R292). -/
def exchangeSend (nv : NonVol) (k u : Nat) (r : UnitRun) (t : RemoteTarget) (d : Device) : Device :=
  let c := r.ctx.val
  r.xout.foldl (fun d run =>
    (exchangePieces (run.2.length / 4096 + 2) run.1 0 run.2.length).foldl (fun d p =>
      txPost nv t.node (c * 16 + t.flowSel)
        { TxPacket.plain (writePacket nv d c t.node t.flowSel t.window t.winGen t.key p.1 ((run.2.drop p.2.1).take p.2.2)) with
          unit := some (k, u) } d) d) (unitMod k u (fun x => { x with xout := [] }) d)

/-- EXCHANGE as a source asks for `parts` of its rows, which lie one after the other from window offset `off` on (R289, R292). -/
def readPost (nv : NonVol) (k u : Nat) (c : CtxNo) (t : RemoteTarget) (off : Nat) (parts : List (Nat × Nat × Nat)) (d : Device) : Device :=
  let n := nextRead d
  let len := (parts.map (·.2.2)).foldl (· + ·) 0
  let rd : RemoteRead := ⟨n, t.node, c.val * 16 + t.flowSel, t.window, c, some (k, u), parts, 0⟩
  let q := { dataPacket nv d c.val t.node t.flowSel 1 with
    window := BitVec.ofNat 16 t.window, winGen := BitVec.ofNat 16 t.winGen, key := BitVec.ofNat 32 t.key
    offset := BitVec.ofNat 40 off, length := BitVec.ofNat 13 len }
  txPost nv t.node (c.val * 16 + t.flowSel) { TxPacket.plain q with seq := n - 4096 }
    { d with link := { d.link with reads := d.link.reads ++ [rd] } }

/-- Pieces (window offset, row, first byte, length) as the READ_REQs that ask for them: contiguous pieces share one up to a 4,096 B boundary of
window offset (R292). Each is its offset and its parts; `acc` holds the last one first. -/
def readPack (ps : List (Nat × Nat × Nat × Nat)) (acc : List (Nat × List (Nat × Nat × Nat))) : List (Nat × List (Nat × Nat × Nat)) :=
  match ps with
  | [] => acc.reverse
  | p :: t =>
    match acc with
    | (o, parts) :: rest =>
      if o + (parts.map (·.2.2)).foldl (· + ·) 0 = p.1 ∧ p.1 % 4096 ≠ 0 then readPack t ((o, parts ++ [p.2]) :: rest)
      else readPack t ((p.1, [p.2]) :: acc)
    | [] => readPack t [(p.1, [p.2])]

/-- EXCHANGE as a source reads the rows of a unit (R291, R292). -/
def exchangeIn (nv : NonVol) (k u : Nat) (c : CtxNo) (i : StreamInfo) (g : Region) (d : Device) : Device :=
  match i.src with
  | none => d
  | some t =>
    let pieces := ((List.range g.nr).map (g.r0 + ·)).flatMap fun r =>
      (rowPieces i.x.xFmt i.x.k g.c0 (min (g.c0 + g.nc) i.x.k)).flatMap fun p =>
        (exchangePieces (p.2 / 4096 + 2) (remoteOffset t i.x.xPitch r p.1) p.1 p.2).map fun q => (q.1, r, q.2.1, q.2.2)
    (readPack pieces []).foldl (fun d q => readPost nv k u c t q.1 q.2 d) d

/-- The arrival word of a record (R292). -/
def arrivalPost (nv : NonVol) (c idx : Nat) (t : RemoteTarget) (d : Device) : Device :=
  let q := writePacket nv d c t.node t.flowSel t.window t.winGen t.key t.arriveOffset (toBytes 4 t.arriveValue)
  txPost nv t.node (c * 16 + t.flowSel) { TxPacket.plain { q with ordered := true } with arr := some (c, idx) } d

/-! ### Sinks -/

/-- One piece of output row `r` goes to Y or to the remote window (R221, R292). -/
def sinkPut (nv : NonVol) (k u : Nat) (c : CtxNo) (i : StreamInfo) (r : Nat) (p : Nat × List Byte) (d : Device) : Device :=
  match i.dst with
  | some t => if exSink i.x then exchangeOut k u t i.x.yPitch r p.1 p.2 d else storeOut nv k c u (yRow i r + p.1) p.2 d
  | none => storeOut nv k c u (yRow i r + p.1) p.2 d

/-- The address of output element (r, n) in a slot region from `base` (R45, R113). -/
def slotElem (i : StreamInfo) (base r n : Nat) : Nat := base + (r * (8 * cdiv i.y.n 8) + n) * 4

/-- The program's spill area. -/
def spillBase (d : Device) (c : Nat) : Nat := (((ctxGet d c).prog).map (·.header.spillBase)).getD 0

/-- What a drained row adds to its unit: map tiles, digest and NONFINITE (R91, R131, R135). -/
def rowCount (x : RowResult) (u : UnitRun) : UnitRun :=
  { u with
    nonzero := x.nonzero.foldl (fun l t => insAsc t l) u.nonzero
    contrib := u.contrib ^^^ x.part
    nonfinite := u.nonfinite || x.replaced }

/-! ### Blocks that a mispredicted tile shares (R147, R148) -/

/-- The key of an element's value, and of the mark that a tile's values are all there, among the open values of a stream. -/
def openKey (r n : Nat) : Nat := r * 2 ^ 24 + n
def openMark (t : Nat) : Nat := 2 ^ 60 + t

/-- The values of row `r` from column `c0` on are kept until the blocks that they share with mispredicted tiles are whole. -/
def openPut (i : StreamInfo) (c idx r c0 : Nat) (xs : List (Option Num)) (d : Device) : Device :=
  let word (v : Num) : Word := if intClass i.x then w32 (ofInt 32 v.toInt) else f32 v
  let put (m : SMap Word) (e : Option Num × Nat) : SMap Word := match e.1 with
    | some v => smPut m 0 (openKey r (c0 + e.2)) (word v)
    | none => m
  runMod c idx (fun q => { q with openVals := (xs.zip (List.range xs.length)).foldl put q.openVals }) d

/-- The first column, and the number of columns, of the block that holds column `n`. -/
def blockCols (i : StreamInfo) (n : Nat) : Nat × Nat :=
  let bs := blockSize i.x.yFmt
  (n / bs * bs, min bs (i.y.n - n / bs * bs))

/-- The values of row `r` over the block that holds column `n`, as they are kept. -/
def openRow (i : StreamInfo) (q : StreamRun) (r n : Nat) : List (Option Num) :=
  let (lo, len) := blockCols i n
  (List.range len).map fun j => some (wordNum (intClass i.x) (smGet q.openVals 0 (openKey r (lo + j))))

/-- The map tiles that share the block of column `n` in the tile row of row `r`. -/
def blockTiles (i : StreamInfo) (r n : Nat) : List Nat :=
  let (lo, len) := blockCols i n
  (List.range (cdiv len 8)).map fun j => tileOf i r (lo + 8 * j)

/-- A repair unit's row of a block-scaled Y (R148): its values join those that its block's other tiles gave, and once none is missing
the whole block is written, with the scale that all its elements give. -/
def repairRow (nv : NonVol) (k u : Nat) (r0 : UnitRun) (i : StreamInfo) (r c0 : Nat) (xs : List (Option Num)) (d : Device) : Device :=
  let c := r0.ctx.val
  let d := openPut i c r0.idx r c0 xs d
  let d := runMod c r0.idx (fun q => { q with openVals := smPut q.openVals 0 (openMark (tileOf i r c0)) 1 }) d
  match runGet d c r0.idx with
  | none => d
  | some q =>
    let known (t : Nat) : Bool := !q.openTiles.contains t || smGet q.openVals 0 (openMark t) == 1
    if (blockTiles i r c0).all known then
      (varnishRow i d.fresh [] r (blockCols i c0).1 (openRow i q r c0)).pieces.foldl (fun d p => sinkPut nv k u r0.ctx i r p d) d
    else d

/-- What the blocks around repaired tile `t` add to their stream once no tile of them is open: digest, map tiles, NONFINITE (R91, R131,
R135, R148). -/
def blockClose (i : StreamInfo) (q : StreamRun) (t : Nat) : Nat × List Nat × Bool :=
  let a := t / mapS i
  let n := t % mapS i * 8
  if (blockTiles i (128 * a) n).any q.openTiles.contains then (0, [], false)
  else
    let rows := ((List.range 128).map (128 * a + ·)).filter fun r => r < allRows i
    rows.foldl (fun s r =>
      let x := varnishRow i 0 [] r (blockCols i n).1 (openRow i q r n)
      (s.1 ^^^ x.part, x.nonzero.foldl (fun l t => insAsc t l) s.2.1, s.2.2 || x.replaced)) (0, [], false)

/-! ### Draining -/

/-- Varnish drains columns `c0` on of row `r` for unit `q` at place `u` of cluster `k`, and STORE or EXCHANGE writes them. -/
def drainRow (nv : NonVol) (k u : Nat) (q : UnitRun) (i : StreamInfo) (r c0 : Nat) (xs : List (Option Num)) (d : Device) : Device :=
  let c := q.ctx.val
  if fmtBlock i.x.yFmt && q.repair then repairRow nv k u q i r c0 xs d
  else
    match frozenCols d c (if q.combine then none else some q) i r c0 xs.length with
    | .error f => faultCtx nv c { f with clu := some k, stream := some (i.x.stream, 0, q.repair) } d
    | .ok frozen =>
      let x := varnishRow i d.fresh frozen r c0 xs
      let d := drawFresh (if fmtBlock i.x.yFmt then 130 * xs.length else 0) d
      let d := if fmtBlock i.x.yFmt && xs.any Option.isNone then openPut i c q.idx r c0 xs d else d
      let d := unitMod k u (rowCount x) d
      x.pieces.foldl (fun d p => sinkPut nv k u q.ctx i r p d) d

end Sys2Proof.Machine
end

