-- ==== Sys2Proof/Machine/Sort.lean ====
section
/-! DEFINITION. The SORT station: the list phase, the moves, the exchange with the other modules of an expert group, and the
waits for arrival (R159 to R175). -/

namespace Sys2Proof.Machine

/-! ### The list phase (R163 to R166) -/

/-- The lists while they are being built: counts by expert, slot entries, token entries, overflows in order, and the totals of the
list header. -/
structure Placing where
  counts : SMap Nat
  slots : SMap (Option Nat)
  toks : SMap (Option Nat)
  late : List (Nat × Nat)
  placed : Nat
  second : Nat
  held : Nat
  dropped : Nat
  bad : Nat
  deriving DecidableEq, Repr

/-- Lists without an assignment. -/
def Placing.init : Placing := ⟨[], [], [], [], 0, 0, 0, 0, 0⟩

/-- The route entries of a SORT descriptor: candidate `r` of token `t` (R163). -/
def routeEntry (s : SortDesc) (route : List Nat) (t r : Nat) : Nat := route.getD (t * s.cand + r) 0
def routeExpert (s : SortDesc) (route : List Nat) (t r : Nat) : Nat := fld (routeEntry s route t r) 0 16
def routeGate (s : SortDesc) (route : List Nat) (t r : Nat) : Nat := fld (routeEntry s route t r) 16 16

/-- Slots of an expert that may be taken (R165). -/
def roomOf (s : SortDesc) : Nat := if s.policy = 2 then sortQ s else min s.cap (sortQ s)

/-- A slot entry (R164). -/
def slotEntry (t r gate : Nat) (second held : Bool) : Nat :=
  pack [(0, 24, t), (24, 3, r), (27, 1, b2n second), (28, 1, b2n held), (32, 16, gate)]

/-- Choice `r` of token `t` takes the next slot of expert `e` (R165). -/
def place (s : SortDesc) (t r e gate : Nat) (second : Bool) (a : Placing) : Placing :=
  let j := smGet a.counts 0 e
  let held := decide (s.cap ≤ j)
  { a with
    counts := smPut a.counts 0 e (j + 1)
    slots := smPut a.slots none (e * sortQ s + j) (some (slotEntry t r gate second held))
    toks := smPut a.toks none (t * s.topk + r) (some (e * sortQ s + j))
    placed := a.placed + 1, second := a.second + b2n second, held := a.held + b2n held }

/-- Pass 1 for choice `r` of token `t`: bad, placed, or overflowing (R165, R166). -/
def passOne (s : SortDesc) (route : List Nat) (a : Placing) (x : Nat × Nat) : Placing :=
  let e := routeExpert s route x.1 x.2
  if s.experts ≤ e ∨ (List.range x.2).any (fun q => routeExpert s route x.1 q == e) then { a with bad := a.bad + 1 }
  else if smGet a.counts 0 e < roomOf s then place s x.1 x.2 e (routeGate s route x.1 x.2) false a
  else { a with late := a.late ++ [x] }

/-- Expert `e` holds an assignment of token `t` already. -/
def holdsToken (s : SortDesc) (a : Placing) (t e : Nat) : Bool :=
  (List.range s.topk).any fun r => (smGet a.toks none (t * s.topk + r)).map (· / sortQ s) == some e

/-- Pass 2 for an overflow: the first further candidate with room, else the assignment is dropped (R165). -/
def passTwo (s : SortDesc) (route : List Nat) (a : Placing) (x : Nat × Nat) : Placing :=
  let can := ((List.range (s.cand - s.topk)).map (s.topk + ·)).find? fun q =>
    let e := routeExpert s route x.1 q
    decide (e < s.experts) && !holdsToken s a x.1 e && decide (smGet a.counts 0 e < roomOf s)
  match (if s.policy = 1 then can else none) with
  | some q => place s x.1 x.2 (routeExpert s route x.1 q) (routeGate s route x.1 q) true a
  | none => { a with dropped := a.dropped + 1 }

/-- The lists that the route records give (R165, R166). -/
def placeAll (s : SortDesc) (route : List Nat) : Placing :=
  let all := (List.range s.t).flatMap fun t => (List.range s.topk).map fun r => (t, r)
  let a := all.foldl (passOne s route) Placing.init
  a.late.foldl (passTwo s route) a

/-- The list header (R164). -/
def listHeader (s : SortDesc) (valid : Bool) (seq : Nat) (a : Placing) : Nat :=
  pack [(0, 1, b2n valid), (16, 16, seq), (32, 32, listGeometry s), (64, 24, s.t), (96, 32, a.placed), (128, 32, a.second),
    (160, 32, a.held), (192, 32, a.dropped), (224, 32, a.bad)]

/-- The tables in memory (R164). -/
def countBytes (s : SortDesc) (a : Placing) : List Byte := (List.range s.experts).flatMap fun e => toBytes 4 (smGet a.counts 0 e)
def slotTableBytes (s : SortDesc) (a : Placing) : List Byte :=
  (List.range (s.experts * sortQ s)).flatMap fun n => toBytes 8 ((smGet a.slots none n).getD 0xFFFFFF)
def tokenBytes (s : SortDesc) (a : Placing) : List Byte :=
  (List.range (s.t * s.topk)).flatMap fun n => toBytes 4 ((smGet a.toks none n).getD 0xFFFFFFFF)

/-- A fault found while the sorter of the entry's home reads for it. -/
def sortFault (r : StreamRun) (stream : Nat) (f : FaultAt) : FaultAt :=
  { f with clu := some r.home, stream := some (stream, 0, false) }

/-- The lists are written: the header with VALID = 0, the tables, the header with VALID = 1 and SEQ + 1 (R164). -/
def listsWrite (nv : NonVol) (who : FaultAt → FaultAt) (c : Nat) (s : SortDesc) (seq : Nat) (a : Placing) (d : Device) : Device :=
  let d := ctxWriteAs nv who c 1 s.listAddr (toBytes 64 (listHeader s false seq Placing.init)) d
  let d := ctxWriteAs nv who c 1 (countTable s) (countBytes s a) d
  let d := ctxWriteAs nv who c 1 (slotTable s) (slotTableBytes s a) d
  let d := ctxWriteAs nv who c 1 (tokenTable s) (tokenBytes s a) d
  ctxWriteAs nv who c 1 s.listAddr (toBytes 64 (listHeader s true (seq + 1) a)) d

/-- LIST_PHASE (R161, R165): the home sorter builds the lists of a DISPATCH. -/
def listPhase (nv : NonVol) (c idx : Nat) (d : Device) : Device :=
  match runGet d c idx, sortInfo d c idx with
  | some r, some s =>
    if s.op ≠ 0 ∨ r.ready ∨ !mayDeal d c ∨ outOfService d r.home then d
    else
      let n := s.t * s.cand
      match ctxRead d c 1 s.routeAddr (4 * n), ctxRead d c 1 s.listAddr 64 with
      | .ok bs, .ok h =>
        let d := readCharge nv c s.listAddr 64 (readCharge nv c s.routeAddr (4 * n) d)
        let d := listsWrite nv (sortFault r s.stream) c s (fld (ofBytes h) 16 16) (placeAll s (words4 n bs)) d
        progressed nv c (runMod c idx (fun r => { r with ready := true, idle := 0 }) d)
      | .error f, _ => faultCtx nv c (sortFault r s.stream f) d
      | _, .error f => faultCtx nv c (sortFault r s.stream f) d
  | _, _ => d

/-- LIST_PHASE (R165). -/
def execListPhase (c : CtxNo) (idx : Nat) (s : State) : Host.Outcome State Fault Refusal :=
  .next (onDev (fun nv d => listPhase nv c.val idx d) s)

/-! ### RECEIVE (R174) -/

/-- An arrival word of the tag (R173). -/
def arrivedWord (s : SortDesc) (w : Nat) : Bool := fld w 0 16 == s.tag && bit w 16

/-- Every arrival word of the source window can be read and holds the entry's TAG. -/
def arrivalsIn (d : Device) (c : Nat) (s : SortDesc) : Bool :=
  match ctxRead d c 1 s.srcAddr (4 * s.group) with
  | .ok bs => (words4 s.group bs).all (arrivedWord s)
  | .error _ => false

/-- RECEIVE (R174): every arrival word of the source window holds the entry's TAG; its move units are dealt from then on, as a COMBINE's
are (log entry 32). -/
def receiveWait (nv : NonVol) (c idx : Nat) (d : Device) : Device :=
  match runGet d c idx, sortInfo d c idx with
  | some r, some s =>
    if r.ready ∨ !awaitsRows s ∨ !resident d c then d
    else
      match ctxRead d c 1 s.srcAddr (4 * s.group) with
      | .error f => faultCtx nv c (sortFault r s.stream f) d
      | .ok bs =>
        if (words4 s.group bs).all (arrivedWord s) then
          progressed nv c (runMod c idx (fun r => { r with ready := true, idle := 0, lastTime := d.time.now })
            (readCharge nv c s.srcAddr (4 * s.group) d))
        else d
  | _, _ => d

/-- RECEIVE (R174). -/
def execReceive (c : CtxNo) (idx : Nat) (s : State) : Host.Outcome State Fault Refusal :=
  .next (onDev (fun nv d => receiveWait nv c.val idx d) s)

/-! ### Exchange between modules (R173, R174) -/

/-- The node-table entry of member `m`: node and window (R173). -/
def nodeEntry (d : Device) (c : Nat) (s : SortDesc) (m : Nat) : Except FaultAt (Nat × Nat) :=
  match ctxRead d c 1 (s.listAddr + 0x40 + 4 * m) 4 with
  | .ok bs => .ok (fld (ofBytes bs) 0 10, fld (ofBytes bs) 10 16)
  | .error f => .error f

/-- A write of this module into a window of its own: it lands where the window permits (R174, R286). -/
def ownWindow (nv : NonVol) (c idx w off : Nat) (bs : List Byte) (d : Device) : Device :=
  let v := winDesc d w
  let ok := bit v 0 && bit v 2 && decide (off + bs.length ≤ winSize v) &&
    (if bit v 3 then winPalOk d v off bs.length
     else match vSpan d.mem (ctxGet d (fld v 8 8)).root true (fld v 64 52 + off) bs.length with
      | .ok _ => true
      | .error _ => false)
  if ok then winLand nv v off bs d else remoteFail c idx stWindow none d

/-- Bytes for offset `off` of the window of member `m`: into the module's own window, or on the ordered flow to the member (R174);
`unit` and `arr` say what waits for them. -/
def memberPut (nv : NonVol) (c idx : Nat) (s : SortDesc) (m off : Nat) (bs : List Byte) (ordered : Bool)
    (unit arr : Option (Nat × Nat)) (d : Device) : Device :=
  match nodeEntry d c s m with
  | .error f => faultCtx nv c { f with stream := some (s.stream, 0, false) } d
  | .ok (n, w) =>
    if m = s.self then ownWindow nv c idx w off bs d
    else
      (exchangePieces (bs.length / 4096 + 2) off 0 bs.length).foldl (fun d p =>
        let q := writePacket nv d c n 0 w (Config.exchangeGen n w) (Config.exchangeKey n w) p.1 ((bs.drop p.2.1).take p.2.2)
        txPost nv n (c * 16) { TxPacket.plain { q with ordered := ordered } with unit := unit, arr := arr } d) d

/-- Where the rows of a dispatch window start (R173). -/
def dispatchRows (s : SortDesc) : Nat := up64 (0x100 + 4 * hosted s * s.group)

/-- The member and the window offset of slot `n` of a DISPATCH, and of slot `n` of a RETURN (R173, R174). -/
def dispatchPlace (s : SortDesc) (n : Nat) : Nat × Nat :=
  let e := n / sortQ s
  (e / hosted s, dispatchRows s + (e % hosted s * s.group * sortQ s + s.self * sortQ s + n % sortQ s) * s.dstPitch * 64)
def returnPlace (s : SortDesc) (n : Nat) : Nat × Nat :=
  let e := n / (s.group * sortQ s)
  (n / sortQ s % s.group, 0x100 + ((s.self * hosted s + e) * sortQ s + n % sortQ s) * s.dstPitch * 64)

/-- The counts that a DISPATCH leaves in the window of member `m`: offset and bytes (R173). -/
def memberCounts (s : SortDesc) (counts : List Nat) (m : Nat) : List (Nat × List Byte) :=
  (List.range (hosted s)).map fun e => (0x100 + 4 * (e * s.group + s.self), toBytes 4 (counts.getD (m * hosted s + e) 0 % 2 ^ 24))

/-- The counts, when the entry sends any, and the arrival word go to member `m` (R174). -/
def memberEnd (nv : NonVol) (c idx : Nat) (s : SortDesc) (counts : List Nat) (d : Device) (m : Nat) : Device :=
  let arr := some (c, idx)
  let d := if s.op = 4 then d else (memberCounts s counts m).foldl (fun d p =>
    memberPut nv c idx s m p.1 p.2 true none arr d) d
  memberPut nv c idx s m (4 * s.self) (toBytes 4 (s.tag + 65536)) true none arr d

/-- Once the last move unit of an exchange has committed, counts and arrival words leave (R174); a RETURN's go to its windows whatever
the number of modules. -/
def sortDone (nv : NonVol) (c idx : Nat) (d : Device) : Device :=
  match runGet d c idx, sortInfo d c idx with
  | some r, some s =>
    if r.arriveSent ∨ !sendsRows s ∨ !allCommitted d c r then d
    else
      match ctxRead d c 1 (countTable s) (4 * s.experts) with
      | .error f => faultCtx nv c (sortFault r s.stream f) d
      | .ok bs =>
        (List.range s.group).foldl (memberEnd nv c idx s (words4 s.experts bs))
          (runMod c idx (fun r => { r with arriveSent := true }) d)
  | _, _ => d

/-! ### MOVE_UNIT (R167, R168) -/

/-- A stored row of numbers in format `f` under ROUND 0, and whether a value was replaced (R67, R68, R88 to R91). -/
def storedRow (f : Nat) (xs : List Num) : List Byte × Bool :=
  if fmtBlock f then
    let bs := blockSize f
    let ps := piecesOf bs (xs.length + 1) xs
    let es := ps.map fun p =>
      let full := p ++ List.replicate (bs - p.length) Num.zero
      encodeBlock f 0 (!(full.any Num.signed)) (List.replicate bs 0) full
    (es.flatMap (fun e => packCodes (fmtBits f) e.1) ++ es.flatMap (fun e => e.2.map (BitVec.ofNat 8)), xs.any fun v => !v.isFin)
  else (packCodes (fmtBits f) (xs.map (encodeElem f 0 0)), xs.any (narrowed f))

/-- The elements of a source row, widened (R87, R167). -/
def rowNums (s : SortDesc) (bs : List Byte) : List Num :=
  (List.range s.rowLen).map fun j =>
    wordNum (fmtInt s.srcFmt) (widenNum s.srcFmt (elemNum s.srcFmt s.rowLen (fun o => bs.getD o 0) j))

/-- GATE × x rounded to FP32 to nearest even, or x (R167). -/
def gated (s : SortDesc) (gate : Nat) (x : Num) : Num := if s.scale then numOf (f32 (Num.mul (decodeElem 1 gate) x)) else x

/-- Bytes of a source row. -/
def srcLen (s : SortDesc) : Nat := rowLen s.srcFmt s.rowLen

/-- A row moved by one slot: the bytes to write and whether a value was replaced (R167). -/
def slotRowOut (s : SortDesc) (gate : Nat) (bs : List Byte) : List Byte × Bool :=
  if s.op = 1 ∧ s.scale then storedRow s.dstFmt ((rowNums s bs).map (gated s gate)) else (bs, false)

/-- The counts of a RETURN's segments: those of the receive window of the latest RECEIVE before it, none where there is none
(DEDUCED, log entry 32). -/
def returnCounts (d : Device) (c idx : Nat) : Except FaultAt (Option (List Nat)) :=
  let l := ((List.range idx).filterMap fun j => match entryGet d c j with
    | some (.sort s) => if s.op = 3 then some s else none
    | _ => none).getLast?
  match l with
  | none => .ok none
  | some s =>
    match ctxRead d c 1 (s.srcAddr + 0x100) (4 * hosted s * s.group) with
    | .ok bs => .ok (some ((words4 (hosted s * s.group) bs).map (· % 2 ^ 24)))
    | .error f => .error f

/-- What moves in one slot: the slot, the address of its source row, and its gate. -/
structure SlotMove where
  n : Nat
  src : Nat
  gate : Nat
  deriving DecidableEq, Repr

/-- The live slots of move unit `m` of a DISPATCH, REDISPATCH or RETURN (R161, R167). -/
def slotMoves (d : Device) (c idx : Nat) (s : SortDesc) (m : Nat) : Except FaultAt (List SlotMove) :=
  let ns := ((List.range 128).map (128 * m + ·)).filter fun n => n < s.experts * sortQ s
  if s.op = 4 then
    match returnCounts d c idx with
    | .error f => .error f
    | .ok counts =>
      let live (n : Nat) : Bool := (counts.map fun l => decide (n % sortQ s < l.getD (n / sortQ s) 0)).getD true
      .ok ((ns.filter live).map fun n => ⟨n, s.srcAddr + n * s.srcPitch * 64, 0⟩)
  else
    match ctxRead d c 1 (slotTable s + 8 * 128 * m) (8 * ns.length) with
    | .error f => .error f
    | .ok bs => .ok (ns.filterMap fun n =>
        let v := ofBytes ((bs.drop (8 * (n - 128 * m))).take 8)
        if fld v 0 24 = 0xFFFFFF then none else some ⟨n, s.srcAddr + fld v 0 24 * s.srcPitch * 64, fld v 32 16⟩)

/-- A written row of the unit that replaced a value sets NONFINITE (R91). -/
def unitNarrowed (k u : Nat) (b : Bool) (d : Device) : Device := if b then unitMod k u (fun r => { r with nonfinite := true }) d else d

/-- The row of one slot moves (R167, R174). -/
def slotMoveRow (nv : NonVol) (k u : Nat) (r : UnitRun) (s : SortDesc) (d : Device) (m : SlotMove) : Device :=
  let c := r.ctx.val
  match ctxRead d c 1 m.src (srcLen s) with
  | .error f => faultCtx nv c { f with clu := some k, stream := some (s.stream, r.unit, false) } d
  | .ok bs =>
    let out := slotRowOut s m.gate bs
    let d := unitNarrowed k u out.2 (readCharge nv c m.src (srcLen s) d)
    if !sendsRows s then storeOut nv k r.ctx u (s.dstAddr + m.n * s.dstPitch * 64) out.1 d
    else
      let p := if s.op = 4 then returnPlace s m.n else dispatchPlace s m.n
      memberPut nv c r.idx s p.1 p.2 out.1 false (some (k, u)) none d

/-- The term of one choice of a token: none where it was not placed (R167). -/
def combineTerm (d : Device) (c : Nat) (s : SortDesc) (t r : Nat) : Except FaultAt (Option (List Num × Nat)) :=
  match ctxRead d c 1 (tokenTable s + 4 * (t * s.topk + r)) 4 with
  | .error f => .error f
  | .ok w =>
    if ofBytes w = 0xFFFFFFFF then .ok none
    else
      let n := fld (ofBytes w) 0 28
      let a := s.srcAddr + (if s.group = 1 then 0 else 0x100) + n * s.srcPitch * 64
      match ctxRead d c 1 (slotTable s + 8 * n) 8, ctxRead d c 1 a (srcLen s) with
      | .ok v, .ok bs => .ok (some ((rowNums s bs).map (gated s (fld (ofBytes v) 32 16)), a))
      | .error f, _ => .error f
      | _, .error f => .error f

/-- The sum of a token's row over its choices in rank order, and the rows read (R167). -/
def combineSum (d : Device) (c : Nat) (s : SortDesc) (t : Nat) (rs : List Nat) (sum : List Word) (read : List Nat) :
    Except FaultAt (List Word × List Nat) :=
  match rs with
  | [] => .ok (sum, read)
  | r :: rest =>
    match combineTerm d c s t r with
    | .error f => .error f
    | .ok none => combineSum d c s t rest sum read
    | .ok (some (xs, a)) =>
      combineSum d c s t rest ((sum.zip xs).map fun e => f32 (Num.add (numOf e.1) e.2)) (read ++ [a])

/-- The row of token `t` is combined and written (R167). -/
def combineToken (nv : NonVol) (k u : Nat) (r : UnitRun) (s : SortDesc) (d : Device) (t : Nat) : Device :=
  let c := r.ctx.val
  match combineSum d c s t (List.range s.topk) (List.replicate s.rowLen 0) [] with
  | .error f => faultCtx nv c { f with clu := some k, stream := some (s.stream, r.unit, false) } d
  | .ok (sum, read) =>
    let out := storedRow s.dstFmt (sum.map numOf)
    let d := unitNarrowed k u out.2 (read.foldl (fun d a => readCharge nv c a (srcLen s) d) d)
    storeOut nv k r.ctx u (s.dstAddr + t * s.dstPitch * 64) out.1 d

/-- Some unit of the entry has moved its rows (R168). -/
def moveBegun (d : Device) (c : Nat) (r : StreamRun) : Bool :=
  r.committed ≠ [] || d.clus.any fun e => (unitsOn d e.1).any fun u => decide (u.2.ctx.val = c ∧ u.2.idx = r.idx) && u.2.moved

/-- The lists serve the entry: its first move reads their header, but for a DISPATCH, which wrote them, and a RECEIVE,
which uses none (R168). -/
def listsServe (d : Device) (c : Nat) (r : StreamRun) (s : SortDesc) : Except FaultAt Bool :=
  if s.op = 0 ∨ s.op = 3 ∨ moveBegun d c r then .ok true
  else
    match ctxRead d c 1 s.listAddr 64 with
    | .ok h => .ok (listOk s (ofBytes h))
    | .error f => .error f

/-- A move unit of a RECEIVE moves nothing; it reads the words of the count area that its slots belong to (R161, R167). -/
def receiveRead (nv : NonVol) (k : Nat) (r : UnitRun) (s : SortDesc) (d : Device) : Device :=
  let a := 128 * r.unit / sortQ s
  let b := min (128 * r.unit + 128) (s.experts * sortQ s)
  let at_ := s.srcAddr + 0x100 + 4 * a
  let n := 4 * (cdiv b (sortQ s) - a)
  match ctxRead d r.ctx.val 1 at_ n with
  | .error f => faultCtx nv r.ctx.val { f with clu := some k, stream := some (s.stream, r.unit, false) } d
  | .ok _ => readCharge nv r.ctx.val at_ n d

/-- The rows of a move unit move (R167). -/
def moveRows (nv : NonVol) (k u : Nat) (r : UnitRun) (s : SortDesc) (d : Device) : Device :=
  if s.op = 2 then
    (((List.range 128).map (128 * r.unit + ·)).filter fun t => t < s.t).foldl (combineToken nv k u r s) d
  else if s.op = 3 then receiveRead nv k r s d
  else
    match slotMoves d r.ctx.val r.idx s r.unit with
    | .error f => faultCtx nv r.ctx.val { f with clu := some k, stream := some (s.stream, r.unit, false) } d
    | .ok l => l.foldl (slotMoveRow nv k u r s) d

/-- MOVE_UNIT (R167, R168): the unit at place `u` of cluster `k` moves its rows; lists that do not serve end the entry with
LIST_INVALID. -/
def moveUnit (nv : NonVol) (k u : Nat) (d : Device) : Device :=
  match unitGet d k u with
  | none => d
  | some r =>
    let c := r.ctx.val
    match sortInfo d c r.idx, runGet d c r.idx with
    | some s, some q =>
      if r.moved ∨ q.remoteStatus ≠ 0 then d
      else
        match listsServe d c q s with
        | .error f => faultCtx nv c { f with clu := some k, stream := some (s.stream, r.unit, false) } d
        | .ok false => remoteFail c r.idx stList none d
        | .ok true =>
          progressed nv c (moveRows nv k u r s (unitMod k u (fun r => { r with moved := true, idle := 0 }) d))
    | _, _ => d

/-- MOVE_UNIT (R167). -/
def execMoveUnit (k : CluNo) (u : Nat) (s : State) : Host.Outcome State Fault Refusal :=
  .next (onDev (fun nv d => moveUnit nv k.val u d) s)

end Sys2Proof.Machine
end

