-- ==== Sys2Proof/Machine/Drain.lean ====
section
/-! DEFINITION. The start of a unit, the draining of strips and rows through Glaze and Varnish, commits, the combination of reduction
parts, and the copies of result slots (R45 to R48, R113, R131, R135, R136, R141, R147, R148, R171, R204, R291, R292, R475). -/

namespace Sys2Proof.Machine

/-! ### UNIT_START (R48) -/

/-- What UNIT_START asks beside room on the cluster (R48): the kept sum, a PERMUTE's staging range, the core context, a digest unit. -/
def unitStartOk (d : Device) (k : Nat) (c : CtxNo) (x : StreamDesc) : Bool :=
  keptAllows d k c.val x && !stagingMeets d k c.val x && (!has x 6 || coresServe d k c) && (!holdsDigest x || (freeDigest d k).isSome)

/-- The lowest free place for a unit of cluster `k`. -/
def freePlace (x : Cluster) : Nat :=
  ((List.range (x.units.length + 1)).find? fun j => (smGet x.units none j).isNone).getD 0

/-- The claimed unit of a cluster is now at place `place`, as `r`, and so is what was asked for ahead of its start (R59). -/
def claimPut (place : Nat) (r : UnitRun) (x : Cluster) : Cluster :=
  { x with
    claimed := none
    units := smPut x.units none place (some r)
    tags := x.tags.map fun t => if t.user = ⟨0, claimPlace⟩ then { t with user := ⟨0, place⟩ } else t }

/-- The claimed unit of cluster `k` starts at the lowest free place (R48, R136, R141, R203, R385). -/
def unitGo (nv : NonVol) (k : Nat) (d : Device) : Device :=
  match (cluGet d k).claimed with
  | none => d
  | some q =>
    let c := q.ctx.val
    if !takesUnits nv d k || !mayDeal d c || !fitsOn d k c q.idx then d
    else
      let place := freePlace (cluGet d k)
      let q := { q with qpc := d.mem.quota }
      match streamInfo d c q.idx with
      | none => cluMod k (claimPut place q) d
      | some i =>
        let dig := if holdsDigest i.x then freeDigest d k else none
        if !unitStartOk d k q.ctx i.x then d
        else
          let d := cluMod k (claimPut place { q with dig := dig }) d
          let d := if has i.x 6 then coreChange k q.ctx d else d
          let d := match dig with
            | some g => digestStart k g c i.slot.poly i.x.stream q.unit q.repair d
            | none => d
          let d := spillTake nv k c i (q.unit, q.repair) (palTake k i.x.palBase (palUsed i.x i.y) d)
          if exSource i.x then exchangeIn nv k place q.ctx i (unitRegion i q.unit q.repair false) d else d

/-- UNIT_START (R48); predictions that could not be read ahead are read again first (R60, R143). -/
def unitStart (nv : NonVol) (k : Nat) (d : Device) : Device := unitGo nv k (predTry nv k claimPlace d)

/-- UNIT_START (R48). -/
def execUnitStart (k : CluNo) (s : State) : Host.Outcome State Fault Refusal :=
  .next (onDev (fun nv d => unitStart nv k.val d) s)

/-! ### Strips of a unit with ACC -/

/-- One draining of a unit: a row block, the strips that close together, and their rows (R53, R477). -/
structure StripSet where
  mb : Nat
  strips : List Nat
  rows : List Nat
  deriving DecidableEq, Repr

/-- The strips that drain under number `strip` = mb × strips + s, where s heads its group (R477). -/
def stripSet (i : StreamInfo) (g : Region) (strip : Nat) : Option StripSet :=
  let ns := stripsOf g
  let grp := stripGroup i.y
  let mb := strip / ns
  let s := strip % ns
  if ns ≠ 0 ∧ mb < rowBlocks i g ∧ s % grp = 0 then
    some ⟨mb, ((List.range grp).map (s + ·)).filter fun t => t < ns, blockRows i g mb⟩
  else none

/-- The drain numbers of a strip set. -/
def stripNos (g : Region) (z : StripSet) : List Nat := z.strips.map fun s => stripNo g z.mb s

/-- Tile `t` has elements in the strip set. -/
def tileIn (i : StreamInfo) (g : Region) (z : StripSet) (t : Nat) : Bool :=
  z.strips.any (fun s => g.c0 / 8 + s == t % mapS i) && z.rows.any fun r => r / 128 == t / mapS i

/-- No pass and no bound pass of the strip set is left (R94, R145, R147). -/
def closedSet (i : StreamInfo) (g : Region) (u : UnitRun) (counts : List Nat) (trust : Bool) (z : StripSet) : Bool :=
  let mine (p : PassAt) : Bool := p.mb == z.mb && z.strips.contains p.strip
  !(((unitPasses i u counts).drop u.pos).any mine) &&
    !(((unitBounds i u trust).drop u.bpos).any fun b => tileIn i g z b.tile)

/-- The predicted tile is confirmed: trusted, or every live element's bound is at most TAU (R147, R149). -/
def confirmed (i : StreamInfo) (g : Region) (u : UnitRun) (counts : List Nat) (trust : Bool) (t : Nat) : Bool :=
  trust || ((tileRows i g t).filter (liveRow i counts)).all fun r =>
    (tileCols i g t).all fun n => Num.le (numOf (smGet u.bound 0 (accKey r n))) (numOf (w32 i.slot.tau))

/-- The accumulated word of element (r, n). Without an array nothing is added, and the spec states no value: it is free (log
entry 29). -/
def accWord (i : StreamInfo) (u : UnitRun) (free r n : Nat) : Word :=
  if hasArray i.x then smGet u.acc 0 (accKey r n) else Config.freeWord (free + accKey r n)

/-- Element (r, n) runs through the kernel: it is live and its tile is not predicted (R147, R171). -/
def throughGlaze (i : StreamInfo) (u : UnitRun) (counts : List Nat) (r n : Nat) : Bool :=
  liveRow i counts r && !predicted i u.pred r n

/-- The ELEMENT parcels of a strip set: 16 rows by 8 columns, those with an element to run (R204). -/
def elementParcels (i : StreamInfo) (g : Region) (u : UnitRun) (counts : List Nat) (free : Nat) (z : StripSet) : List Parcel :=
  z.strips.flatMap fun s => (List.range (cdiv z.rows.length 16)).filterMap fun q =>
    let rows := (z.rows.drop (16 * q)).take 16
    let c0 := g.c0 + 8 * s
    if rows.any fun r => throughGlaze i u counts r c0 then
      some { ctx := u.ctx, idx := u.idx, unit := parcelUnit u, row := rows.headD 0, col := c0, rows := rows.length
             elems := rows.flatMap (fun r => (List.range 8).map fun j =>
               if c0 + j < g.c0 + g.nc then accWord i u free r (c0 + j) else 0)
             welems := [], inAt := 0x1000, outAt := 0x1200, wAt := 0 }
    else none

/-- A parcel of the unit on rows and columns of the strip set is pending or running (R204). -/
def parcelOpen (d : Device) (k : Nat) (u : UnitRun) (hit : Parcel → Bool) : Bool :=
  let mine (p : Parcel) : Bool := p.ctx == u.ctx && p.idx == u.idx && p.unit == parcelUnit u && hit p
  ((cluGet d k).parcels.any mine) || (List.range 64).any fun j => ((coreGet d k j).run.map fun r => mine r.parcel).getD false

/-- The value of output element (r, n) for Varnish; none where a mispredict leaves it unwritten (R147, R171). -/
def outNum (i : StreamInfo) (u : UnitRun) (counts missed : List Nat) (free r n : Nat) : Option Num :=
  if predicted i u.pred r n then if missed.contains (tileOf i r n) then none else some .zero
  else if !liveRow i counts r then some .zero
  else some (wordNum (intClass i.x) (if has i.x 6 then smGet u.outs 0 (accKey r n) else accWord i u free r n))

/-- The strip set's sums leave the accumulator, and its kernel outputs with them. -/
def releaseSet (g : Region) (z : StripSet) (u : UnitRun) : UnitRun :=
  let inSet (e : Nat × Word) : Bool :=
    z.rows.contains (e.1 / 2 ^ 24) && decide (g.c0 ≤ e.1 % 2 ^ 24) && z.strips.contains ((e.1 % 2 ^ 24 - g.c0) / 8)
  { u with
    acc := u.acc.filter fun e => !inSet e
    outs := u.outs.filter fun e => !inSet e
    drained := u.drained ++ stripNos g z
    idle := 0 }

/-- The first column and the live columns of a strip set. -/
def setCols (g : Region) (z : StripSet) : Nat × Nat :=
  let s := z.strips.headD 0
  (g.c0 + 8 * s, min (8 * z.strips.length) (g.nc - 8 * s))

/-- A part unit writes exact partial sums into its part slot, pad columns as +0 (R45). -/
def drainPart (nv : NonVol) (k u : Nat) (i : StreamInfo) (g : Region) (r : UnitRun) (z : StripSet) (d : Device) : Device :=
  let p := r.unit % partsOf i.y
  let base := spillBase d r.ctx.val + p * slotBytes i.y (expertCount i.gov)
  let c0 := (setCols g z).1
  z.rows.foldl (fun d q =>
    storeOut nv k r.ctx u (slotElem i base q c0)
      ((List.range (8 * z.strips.length)).flatMap fun j =>
        toBytes 4 (if c0 + j < g.c0 + g.nc then (accWord i r d.fresh q (c0 + j)).toNat else 0)) d) d

/-- A drained row of an ACC_INIT stream goes exactly into its result slot (R113). -/
def drainResult (nv : NonVol) (k u : Nat) (i : StreamInfo) (r : UnitRun) (q c0 : Nat) (xs : List (Option Num)) (d : Device) :
    Device :=
  let base := spillBase d r.ctx.val + resultAt i.y (expertCount i.gov)
  let x := varnishRow i d.fresh [] q c0 xs
  storeOut nv k r.ctx u (slotElem i base q c0)
    (xs.flatMap fun v => toBytes 4 (encodeElem i.x.yFmt i.x.round 0 (v.getD .zero))) (unitMod k u (rowCount x) d)

/-- The strip set drains through Varnish (R53, R113, R147). -/
def drainOut (nv : NonVol) (k u : Nat) (i : StreamInfo) (g : Region) (r : UnitRun) (counts : List Nat) (trust : Bool)
    (z : StripSet) (d : Device) : Device :=
  let new_ := (r.pred.filter fun t => i.x.speculate && tileIn i g z t && !confirmed i g r counts trust t)
  let missed := new_.foldl (fun l t => insAsc t l) r.missed
  let (c0, n) := setCols g z
  let free := d.fresh
  let d := if hasArray i.x then d else drawFresh (2 ^ 48) d
  let d := z.rows.foldl (fun d q =>
    let xs := (List.range n).map fun j => outNum i r counts missed free q (c0 + j)
    if accInit i.x then drainResult nv k u i r q c0 xs d else drainRow nv k u r i q c0 xs d) d
  unitMod k u (fun q => releaseSet g z { q with missed := missed }) d

/-- STRIP_DRAIN of a unit with ACC: parcels to Glaze first, then Varnish once they have ended (R53, R204). -/
def accDrain (nv : NonVol) (k u strip : Nat) (r : UnitRun) (i : StreamInfo) (d : Device) : Device :=
  let c := r.ctx.val
  let counts := countsOf d c r.idx
  let trust := trusted d c r.idx
  let g := regionOf i r
  match stripSet i g strip with
  | none => d
  | some z =>
    let needs := (if r.moved then [] else initWords i r) ++ maskWords i r
    let waits := !r.predRead || !needs.all r.have_.contains
    if (stripNos g z).any r.drained.contains || waits || !closedSet i g r counts trust z then d
    else
      match needs.find? r.bad.contains with
      | some w => faultCtx nv c (unitPoison d k i r w) d
      | none =>
        let r := accStart i r
        let part := i.x.ksplit ≠ 0 && !r.combine
        let sent := (stripNos g z).all r.sent.contains
        let ps := elementParcels i g r counts d.fresh z
        if part then progressed nv c (unitMod k u (releaseSet g z) (drainPart nv k u i g r z (unitMod k u (fun _ => r) d)))
        else if has i.x 6 && !sent && !ps.isEmpty then
          if (cluGet d k).coreCtx = some r.ctx then
            cluMod k (fun x => { x with parcels := x.parcels ++ ps })
              (unitMod k u (fun _ => { r with
                sent := r.sent ++ stripNos g z, parcelsLeft := r.parcelsLeft + ps.length }) d)
          else d
        else if parcelOpen d k r fun p => z.rows.contains p.row && z.strips.contains ((p.col - g.c0) / 8) then d
        else progressed nv c (drainOut nv k u i g r counts trust z (unitMod k u (fun _ => r) d))

/-! ### Rows of a ROW unit (R204) -/

/-- A stored row as FETCH delivers it to a kernel: one word for each element (R87, R204). -/
def deliveredWords (f l : Nat) (rd : Nat → Byte) : List Word :=
  (List.range l).map fun j =>
    if delivered f = f then w32 (elemCode f rd j)
    else if delivered f = 10 then w32 (ofInt 32 (elemNum f l rd j).toInt) else w32 (widen32 (elemNum f l rd j))

/-- The bytes of delivered elements. -/
def deliveredRow (f : Nat) (ws : List Word) : List Byte := ws.flatMap fun w => toBytes (deliveredBytes f) w.toNat

/-- The areas of a ROW stream's Palette range: X rows, W rows, output rows, by descending element size (log entry 30). Each is its
name, its element size and its row length. -/
def rowAreas (i : StreamInfo) : List (Nat × Nat × Nat) :=
  let l := [(0, deliveredBytes i.x.xFmt, deliveredBytes i.x.xFmt * i.x.k)] ++
    (if i.x.wAddr = 0 then [] else [(1, deliveredBytes i.x.wFmt, deliveredBytes i.x.wFmt * i.x.n)]) ++
    [(2, if has i.x 7 then 4 else max 1 (fmtBits i.x.yFmt / 8), rowOut i.x)]
  [4, 2, 1].flatMap fun e => l.filter fun a => a.2.1 = e

/-- The Palette byte where row `q` of a unit stands in area `which`. -/
def rowPlace (i : StreamInfo) (which q : Nat) : Nat :=
  let before := (rowAreas i).takeWhile fun a => a.1 ≠ which
  let len := (((rowAreas i).find? fun a => a.1 = which).map (·.2.2)).getD 0
  i.x.palBase * 1024 + (before.map fun a => a.2.2 * i.x.tm).foldl (· + ·) 0 + q * len

/-- Bytes put into a Palette from byte `a` on. -/
def palPuts (a : Nat) (bs : List Byte) (x : Cluster) : Cluster :=
  match bs with
  | [] => x
  | b :: t => palPuts (a + 1) t (palPut a b x)

/-- FETCH delivers row `q` of a ROW unit and its parcel waits for a core (R204). -/
def rowDeliver (k u q : Nat) (i : StreamInfo) (r : UnitRun) (d : Device) : Device :=
  let row := (regionOf i r).r0 + q
  let xs := deliveredWords i.x.xFmt i.x.k (bufRow r (xRow i row))
  let ws := if i.x.wAddr = 0 then [] else deliveredWords i.x.wFmt i.x.n (bufRow r (i.x.wAddr + row * i.x.wPitch * 64))
  let p : Parcel := {
    ctx := r.ctx, idx := r.idx, unit := r.unit, row := row, col := 0, rows := 1, elems := xs, welems := ws
    inAt := rowPlace i 0 q, outAt := rowPlace i 2 q, wAt := if i.x.wAddr = 0 then 0 else rowPlace i 1 q }
  let d := cluMod k (fun x =>
    let x := palPuts p.inAt (deliveredRow i.x.xFmt xs) x
    let x := if i.x.wAddr = 0 then x else palPuts p.wAt (deliveredRow i.x.wFmt ws) x
    { x with parcels := x.parcels ++ [p] }) d
  unitMod k u (fun r => { r with sent := r.sent ++ [q], parcelsLeft := r.parcelsLeft + 1 }) d

/-- Bytes of the Palette. -/
def palRead (x : Cluster) (a n : Nat) : List Byte := (List.range n).map fun o => palByte x (a + o)

/-- The output row of a ROW parcel goes to Varnish, or is copied by STORE (R204). -/
def rowFinish (nv : NonVol) (k u q : Nat) (i : StreamInfo) (r : UnitRun) (d : Device) : Device :=
  let row := (regionOf i r).r0 + q
  let bs := palRead (cluGet d k) (rowPlace i 2 q) (rowOut i.x)
  let d := unitMod k u (fun r => { r with drained := r.drained ++ [q], idle := 0 }) d
  if has i.x 7 then
    drainRow nv k u r i row 0 ((List.range i.x.n).map fun j => some (numOf (w32 (ofBytes ((bs.drop (4 * j)).take 4))))) d
  else sinkPut nv k u r.ctx i row (0, bs) d

/-- STRIP_DRAIN of a ROW unit: row `q` is delivered in ascending order, and its output drains in row order (R204). -/
def rowDrain (nv : NonVol) (k u q : Nat) (r : UnitRun) (i : StreamInfo) (d : Device) : Device :=
  let g := regionOf i r
  let need := plainWords i r (g.r0 + q) ++ maskWords i r
  if g.nr ≤ q ∨ r.drained.contains q then d
  else if !r.sent.contains q then
    if !((List.range q).all r.sent.contains) || (cluGet d k).coreCtx ≠ some r.ctx || !(need.all r.have_.contains) then d
    else
      match need.find? r.bad.contains with
      | some w => faultCtx nv r.ctx.val (unitPoison d k i r w) d
      | none => rowDeliver k u q i r d
  else if !((List.range q).all r.drained.contains) || parcelOpen d k r (fun p => p.row == g.r0 + q) then d
  else progressed nv r.ctx.val (rowFinish nv k u q i r d)

/-! ### Rows of a move unit (R475) -/

/-- The bytes of X's row `r` that a move unit holds: fetched, or read through EXCHANGE. -/
def moveRow (i : StreamInfo) (u : UnitRun) (r : Nat) : Nat → Byte :=
  if exSource i.x then bufRow u (remoteKey r 0) else bufRow u (xRow i r)

/-- Row `q` of a move unit is converted and written, or copied (R475). -/
def moveFinish (nv : NonVol) (k u q : Nat) (i : StreamInfo) (r : UnitRun) (d : Device) : Device :=
  let g := regionOf i r
  let row := g.r0 + q
  let rd := moveRow i r row
  let d := unitMod k u (fun r => { r with drained := r.drained ++ [q], idle := 0 }) d
  if has i.x 7 then
    drainRow nv k u r i row g.c0 ((List.range g.nc).map fun j =>
      some (if g.c0 + j < i.x.k then wordNum (fmtInt i.x.xFmt) (widenNum i.x.xFmt (elemNum i.x.xFmt i.x.k rd (g.c0 + j))) else .zero)) d
  else
    (rowPieces i.x.yFmt i.x.n g.c0 (g.c0 + g.nc)).foldl (fun d p =>
      sinkPut nv k u r.ctx i row (p.1, (List.range p.2).map fun o => rd (p.1 + o)) d) d

/-- STRIP_DRAIN of a move unit: a row whose data has landed. -/
def moveDrain (nv : NonVol) (k u q : Nat) (r : UnitRun) (i : StreamInfo) (d : Device) : Device :=
  let g := regionOf i r
  let need := plainWords i r (g.r0 + q) ++ maskWords i r
  let waits := exSource i.x && d.link.reads.any fun x => x.unit = some (k, u)
  if g.nr ≤ q ∨ r.drained.contains q ∨ waits ∨ need.any (fun w => !r.have_.contains w) then d
  else
    match (if exSource i.x then r.bad else need.filter r.bad.contains).head? with
    | some w => faultCtx nv r.ctx.val (unitPoison d k i r w) d
    | none => progressed nv r.ctx.val (moveFinish nv k u q i r d)

/-- Strip `strip` of the unit at place `u` of cluster `k`, or row `strip` of a unit without ACC, drains. -/
def drainGo (nv : NonVol) (k u strip : Nat) (d : Device) : Device :=
  match unitInfo d k u with
  | none => d
  | some (r, i) =>
    if has i.x 5 then accDrain nv k u strip r i d
    else if isRow i.x then rowDrain nv k u strip r i d
    else moveDrain nv k u strip r i d

/-- The unit has run all its passes and drained all its strips or rows, or moved its rows. -/
def unitOver (d : Device) (k u : Nat) : Bool :=
  match unitGet d k u, unitInfo d k u with
  | some _, some (r, i) =>
    let g := regionOf i r
    let counts := countsOf d r.ctx.val r.idx
    if has i.x 5 then
      r.predRead && decide ((unitPasses i r counts).length ≤ r.pos) && decide ((unitBounds i r (trusted d r.ctx.val r.idx)).length ≤ r.bpos) &&
        (List.range (rowBlocks i g * stripsOf g)).all r.drained.contains
    else (List.range g.nr).all r.drained.contains
  | some r, none => r.moved
  | none, _ => false

/-- A unit whose sink is EXCHANGE sends its runs once all its rows have drained (R292). -/
def exchangeEnd (nv : NonVol) (k u : Nat) (d : Device) : Device :=
  match unitInfo d k u with
  | some (r, i) =>
    match i.dst with
    | some t => if !r.xout.isEmpty && unitOver d k u then exchangeSend nv k u r t d else d
    | none => d
  | none => d

/-- STRIP_DRAIN (R53). -/
def stripDrain (nv : NonVol) (k u strip : Nat) (d : Device) : Device := exchangeEnd nv k u (drainGo nv k u strip (predTry nv k u d))

/-- STRIP_DRAIN (R53). -/
def execStripDrain (k : CluNo) (u strip : Nat) (s : State) : Host.Outcome State Fault Refusal :=
  .next (onDev (fun nv d => stripDrain nv k.val u strip d) s)

/-! ### UNIT_COMMIT (R46) -/

/-- The home clears the map bits of tiles in which a unit found a live element that is not zero (R131). -/
def mapClear (nv : NonVol) (c : Nat) (i : StreamInfo) (tiles : List Nat) (d : Device) : Device :=
  if i.x.zmapRecord then
    tiles.foldl (fun d t =>
      let a := i.slot.mapAddr + t / 8
      match ctxRead d c 1 a 1 with
      | .error f => if ctxLive d c then faultCtx nv c (forStream none i.x.stream f) d else d
      | .ok bs => ctxWriteAs nv (forStream none i.x.stream) c 1 a (toBytes 1 (putBit (ofBytes bs) (t % 8) false)) (readCharge nv c a 1 d)) d
  else d

/-- The digest unit that a unit holds ends with its contribution (R141). -/
def digestEnd (k : Nat) (r : UnitRun) (d : Device) : Device :=
  match r.dig with
  | none => d
  | some g => cluMod k (fun x => { x with digs := smMod x.digs DigestUnit.init g.val (fun y =>
      { y with busy := false, valid := true, seq := wrapInc 16 y.seq, result := r.contrib }) }) d

/-- What a commit adds to its stream (R45, R47, R113, R126, R135, R147, R148). A combined tile counts as a commit of its home: END_TIME
moves with it, and its home's bit is set in CLUSTERS; R63 and R126 speak of units only (log entry 114). The cluster that commits a staged
tile makes its copy (R113). -/
def runCommit (k now : Nat) (x : Option StreamDesc) (u : UnitRun) (r : StreamRun) : StreamRun :=
  let spec := (x.map (·.speculate)).getD false
  let acc := (x.map accInit).getD false
  let split := (x.map fun x => decide (x.ksplit ≠ 0)).getD false
  let stages := acc && (u.combine || (!split && !u.repair))
  let shared := (x.map fun x => fmtBlock x.yFmt).getD false
  { r with
    merge := r.merge ^^^ u.contrib
    clusters := if bit r.clusters k then r.clusters else r.clusters + 2 ^ k
    lastTime := now
    nonfinite := r.nonfinite || u.nonfinite
    skipped := r.skipped + (if spec && !u.repair then u.pred.length else 0)
    mispredicts := r.mispredicts + u.missed.length
    repairs := u.missed.foldl (fun l t => insAsc t l) r.repairs
    repairsOpen := r.repairsOpen + u.missed.length - (if u.repair then 1 else 0)
    committed := if u.repair || u.combine then r.committed else insAsc u.unit r.committed
    combined := if u.combine then insAsc u.unit r.combined else r.combined
    staged := if stages then insAsc u.unit r.staged else r.staged
    copier := if stages then smPut r.copier 0 u.unit (k + 1) else r.copier
    openTiles := if !shared then r.openTiles else if u.repair then without r.openTiles u.unit
      else u.missed.foldl (fun l t => insAsc t l) r.openTiles }

/-- Once everything of an entry has committed, the home writes the arrival words that its records or its exchange ask for (R174, R292). -/
def lastDone (nv : NonVol) (c idx : Nat) (d : Device) : Device :=
  match runGet d c idx, streamInfo d c idx with
  | some r, some i =>
    let ts := (i.src.toList ++ i.dst.toList).filter (·.arrive)
    if r.arriveSent || !allCommitted d c r || ts.isEmpty then d
    else ts.foldl (fun d t => arrivalPost nv c idx t d) (runMod c idx (fun r => { r with arriveSent := true }) d)
  | some _, none => sortDone nv c idx d
  | none, _ => d

/-- The unit leaves its cluster; what it had asked for and not used is wanted no more, nor are its regions of the Easel. -/
def unitLeave (k u : Nat) (r : UnitRun) (d : Device) : Device :=
  let mine (e : EaselRegion) : Bool := e.ctx == r.ctx && e.idx == r.idx && e.unit == unitKey r
  cluMod k (fun x => { x with
    units := smDel x.units u
    easel := ⟨x.easel.held.filter fun e => !mine e, x.easel.filling.filter fun f => !mine f.1⟩
    tags := x.tags.map fun t => if t.user.kind = 0 ∧ t.user.u = u then { t with live := false } else t })
    (leaveSets k r.ctx.val r.idx d)

/-- Once a repair unit of a block-scaled Y has committed, the blocks of which no tile is open any more enter map, digest and NONFINITE
(R131, R135, R148). -/
def repairClose (nv : NonVol) (c : Nat) (u : UnitRun) (d : Device) : Device :=
  match runGet d c u.idx, streamInfo d c u.idx with
  | some q, some i =>
    if u.repair && fmtBlock i.x.yFmt then
      let x := blockClose i q u.unit
      mapClear nv c i x.2.1 (runMod c u.idx (fun q => { q with merge := q.merge ^^^ x.1, nonfinite := q.nonfinite || x.2.2 }) d)
    else d
  | _, _ => d

/-- UNIT_COMMIT (R46, R131, R135, R141, R147, R148): the unit's last write is visible. -/
def unitCommit (nv : NonVol) (k u : Nat) (d : Device) : Device :=
  match unitGet d k u with
  | none => d
  | some r =>
    let c := r.ctx.val
    if !unitOver d k u || unitWrites (cluGet d k) u || unitOwes d k u then d
    else
      let d := match streamInfo d c r.idx with
        | some i => mapClear nv c i r.nonzero d
        | none => d
      let d := runMod c r.idx (runCommit k d.time.now (descGet d c r.idx) r) (digestEnd k r d)
      let d := repairClose nv c r d
      let d := if r.repair || r.combine then d else slotMod c r.idx (fun s => { s with done := s.done + 1 }) d
      let d := unitLeave k u r d
      let still := (unitsOn d k).any fun q => q.2.combine && q.2.ctx = r.ctx && q.2.idx == r.idx
      let d := if r.combine then slotMod c r.idx (fun s => { s with combining := still }) d else d
      lastDone nv c r.idx d

/-- UNIT_COMMIT (R46). -/
def execUnitCommit (k : CluNo) (u : Nat) (s : State) : Host.Outcome State Fault Refusal :=
  .next (onDev (fun nv d => unitCommit nv k.val u d) s)

/-! ### PART_COMBINE (R45) -/

/-- The words of columns `c0` to `c0` + `n` − 1 of row `r` in a slot region. -/
def slotRow (d : Device) (c : Nat) (i : StreamInfo) (base r c0 n : Nat) : Except FaultAt (List Word) :=
  match ctxRead d c 1 (slotElem i base r c0) (4 * n) with
  | .ok bs => .ok ((words4 n bs).map w32)
  | .error f => .error f

/-- One word added to a running sum (R45, R83). -/
def addPart (int : Bool) (a b : Word) : Word := if int then addSat a (intOf b) else addF32 a b

/-- The running sum of one row of a tile over its parts in order, from `acc` on (R45). -/
def sumParts (d : Device) (c : Nat) (i : StreamInfo) (base r c0 n : Nat) (ps : List Nat) (acc : List Word) :
    Except FaultAt (List Word) :=
  match ps with
  | [] => .ok acc
  | p :: t =>
    match slotRow d c i (base + p * slotBytes i.y 1) r c0 n with
    | .ok ws => sumParts d c i base r c0 n t ((acc.zip ws).map fun e => addPart (intClass i.x) e.1 e.2)
    | .error f => .error f

/-- What a running sum starts from: the row of Y under ACC_INIT, else +0 (R45, R113). -/
def sumStart (d : Device) (c : Nat) (i : StreamInfo) (r c0 n : Nat) : Except FaultAt (List Word) :=
  if accInit i.x then
    match ctxRead d c 1 (yRow i r + 4 * c0) (4 * n) with
    | .ok bs => .ok ((words4 n bs).map w32)
    | .error f => .error f
  else .ok (List.replicate n 0)

/-- The combined sums of the rows of a tile. -/
def combineRows (d : Device) (c : Nat) (i : StreamInfo) (g : Region) (rows : List Nat) (m : SMap Word) :
    Except FaultAt (SMap Word) :=
  match rows with
  | [] => .ok m
  | r :: t =>
    match sumStart d c i r g.c0 g.nc with
    | .error f => .error f
    | .ok start =>
      match sumParts d c i (spillBase d c) r g.c0 g.nc (List.range (partsOf i.y)) start with
      | .error f => .error f
      | .ok ws =>
        combineRows d c i g t ((ws.zip (List.range g.nc)).foldl (fun m e => smPut m 0 (accKey r (g.c0 + e.2)) e.1) m)

/-- The parts of a tile have all committed, and it is neither combined nor being combined (R45). -/
def mayCombine (d : Device) (c idx tile : Nat) (r : StreamRun) (i : StreamInfo) : Bool :=
  let p := partsOf i.y
  decide (i.x.ksplit ≠ 0) && decide (tile < mtOf i.y * ntOf i.y) && ((List.range p).all fun j => r.committed.contains (tile * p + j)) &&
    !r.combined.contains tile &&
    !((unitsOn d r.home).any fun u => u.2.combine && decide (u.2.ctx.val = c ∧ u.2.idx = idx ∧ u.2.unit = tile))

/-- PART_COMBINE (R45): the home adds the parts of a tile, which then drains and commits like a unit. DIG_UNIT.UNIT reads the tile's number
while a digest unit serves it: R140 speaks of unit numbers only (log entry 114). -/
def partCombine (nv : NonVol) (c : CtxNo) (idx tile : Nat) (d : Device) : Device :=
  match runGet d c.val idx, streamInfo d c.val idx with
  | some r, some i =>
    let k := r.home
    let dig := if i.x.digest then freeDigest d k else none
    let ok := mayDeal d c.val && takesUnits nv d k && mayCombine d c.val idx tile r i && (!i.x.digest || dig.isSome) &&
      (!has i.x 6 || coresServe d k c)
    if !ok then d
    else
      let g := unitRegion i tile false true
      match combineRows d c.val i g ((List.range g.nr).map (g.r0 + ·)) [] with
      | .error f => faultCtx nv c.val { f with clu := some k, stream := some (i.x.stream, tile, false) } d
      | .ok m =>
        let place := freePlace (cluGet d k)
        let u := { UnitRun.new c idx tile false true 0 d.mem.quota [] dig with acc := m, moved := true }
        let d := cluMod k (fun x => { x with units := smPut x.units none place (some u) }) d
        let d := if has i.x 6 then coreChange k c d else d
        let d := match dig with
          | some n => digestStart k n c.val i.slot.poly i.x.stream tile false d
          | none => d
        let n := wordsLen 0 (4 * g.nc) * g.nr * partsOf i.y
        slotMod c.val idx (fun s => { s with combining := true }) (moved c.val n 0 d)
  | _, _ => d

/-- PART_COMBINE (R45). -/
def execPartCombine (c : CtxNo) (idx tile : Nat) (s : State) : Host.Outcome State Fault Refusal :=
  .next (onDev (fun nv d => partCombine nv c idx tile d) s)

/-! ### RESULT_COPY (R113) -/

/-- The bytes of one result-slot row without the frozen elements: offset within the row of Y, and bytes (R113, R152). -/
def copyPieces (c0 : Nat) (ws : List Word) (frozen : List Nat) : List (Nat × List Byte) :=
  let l := (ws.zip (List.range ws.length)).map fun e => if frozen.contains (c0 + e.2) then none else some e.1.toNat
  (runsOf c0 l).map fun p => (4 * p.1, packCodes 32 p.2)

/-- The copy of the rows of a staged tile into Y (R113). -/
def copyRows (nv : NonVol) (k c : Nat) (i : StreamInfo) (g : Region) (rows : List Nat) (d : Device) : Device :=
  match rows with
  | [] => d
  | r :: t =>
    let base := spillBase d c + resultAt i.y (expertCount i.gov)
    match slotRow d c i base r g.c0 g.nc, frozenCols d c none i r g.c0 g.nc with
    | .ok ws, .ok frozen =>
      copyRows nv k c i g t ((copyPieces g.c0 ws frozen).foldl (fun d p => ctxWriteAs nv (forStream (some k) i.x.stream) c 2 (yRow i r + p.1) p.2 d)
        (readCharge nv c (slotElem i base r g.c0) (4 * g.nc) d))
    | .error f, _ => faultCtx nv c { f with clu := some k, stream := some (i.x.stream, 0, false) } d
    | _, .error f => faultCtx nv c { f with clu := some k, stream := some (i.x.stream, 0, false) } d

/-- RESULT_COPY (R113): the cluster that has the copy of a staged tile makes it, under the stream's mask, while it works. -/
def resultCopy (nv : NonVol) (c idx tile : Nat) (d : Device) : Device :=
  match runGet d c idx, streamInfo d c idx with
  | some r, some i =>
    let k := smGet r.copier 0 tile - 1
    if !mayDeal d c || !r.staged.contains tile || r.copied.contains tile || smGet r.copier 0 tile == 0 || !takesUnits nv d k then d
    else
      let g := unitRegion i tile false (i.x.ksplit ≠ 0)
      progressed nv c (runMod c idx (fun r => { r with copied := insAsc tile r.copied })
        (copyRows nv k c i g ((List.range g.nr).map (g.r0 + ·)) d))
  | _, _ => d

/-- RESULT_COPY (R113). -/
def execResultCopy (c : CtxNo) (idx tile : Nat) (s : State) : Host.Outcome State Fault Refusal :=
  .next (onDev (fun nv d => resultCopy nv c.val idx tile d) s)

end Sys2Proof.Machine
end

