-- ==== Sys2Proof/Machine/Kernels.lean ====
section
/-! DEFINITION. The shipped Glaze kernels (R208, R209), each operation rounded to FP32 to nearest even. -/

namespace Sys2Proof.Machine

/-! ### FP32 words -/

def mulF32 (a b : Word) : Word := f32 (Num.mul (numOf a) (numOf b))
def subF32 (a b : Word) : Word := f32 (Num.add (numOf a) (numOf b).neg)
def divF32 (a b : Word) : Word := f32 (Num.div (numOf a) (numOf b))
def sqrtF32 (a : Word) : Word := f32 (numOf a).sqrt
def maxF32 (a b : Word) : Word := f32 (Num.max (numOf a) (numOf b))

/-- 1. -/
def oneF32 : Word := 0x3F800000

/-- A count as FP32. -/
def natF32 (n : Nat) : Word := f32 (Num.ofInt n)

/-- Elements `i`, `i` + 16, … of a list. -/
def everyLane (i : Nat) (l : List Word) : List Word := (l.zip (List.range l.length)).filterMap fun e => if e.2 % 16 = i then some e.1 else none

/-- A reduction of a row: lane i takes elements i, i + 16, … in ascending order from `start`; then the lanes by pairs (R208). -/
def reduceRow (f : Word → Word → Word) (start : Word) (l : List Word) : Word :=
  (combineLanes (fun a b => (f a b, .none)) 4 (lanes.map fun i => (everyLane i l).foldl f start) .none).1

/-- Σ of R208. -/
def sumRow (l : List Word) : Word := reduceRow addF32 0 l

/-! ### Parameters -/

/-- `n` FP32 parameters at `va`, read by far loads (R195, R208). -/
def paramWords (d : Device) (c va n : Nat) : Except FaultAt (List Word) :=
  match ctxRead d c 0 va (4 * n) with
  | .ok bs => .ok ((words4 n bs).map w32)
  | .error f => .error f

/-! ### ELEMENT kernels (R208) -/

/-- RECTIFY: +0 when x ≤ ARG0, else x; an INT32 x is compared exactly. -/
def rectify (int : Bool) (arg0 x : Word) : Word := if Num.le (wordNum int x) (numOf arg0) then 0 else x

/-- SCALE_BIAS of one element: one rounding, to FP32 or to INT32, and the flags of the latter. -/
def scaleBias (int : Bool) (x a b : Word) : Word × FlagSet :=
  let y := Num.add (Num.mul (wordNum int x) (numOf a)) (numOf b)
  if int then
    let c := encodeElem 10 0 0 y
    (w32 c, convertFlags 10 0 0 y c)
  else (f32 y, .none)

/-- The output words of an ELEMENT parcel under a shipped kernel, and its flags; pad columns are not written (R204). -/
def elementKernel (d : Device) (c : Nat) (i : StreamInfo) (kd : KernelEntry) (p : Parcel) : Except FaultAt (List Word × FlagSet) :=
  let int := intClass i.x
  if kd.shipped = 1 then .ok (p.elems.map (rectify int (w32 kd.arg0)), .none)
  else
    let n := min 8 (i.y.n - p.col)
    match paramWords d c (kd.paramAddr + 4 * p.col) n, paramWords d c (kd.paramAddr + 4 * i.y.n + 4 * p.col) n with
    | .ok a, .ok b =>
      let rs := (p.elems.zip (List.range p.elems.length)).map fun e =>
        if e.2 % 8 < n then scaleBias int e.1 (a.getD (e.2 % 8) 0) (b.getD (e.2 % 8) 0) else (e.1, .none)
      .ok (rs.map (·.1), rs.foldl (fun g r => g.or r.2) .none)
    | .error f, _ => .error f
    | _, .error f => .error f

/-! ### ROW kernels (R208) -/

/-- 1 ÷ sqrt(s ÷ K + ε). -/
def invRoot (s eps : Word) (k : Nat) : Word := divF32 oneF32 (sqrtF32 (addF32 (divF32 s (natF32 k)) eps))

/-- RMSNORM of a row. -/
def rmsNorm (xs g : List Word) (eps : Word) : List Word :=
  let q := invRoot (sumRow (xs.map fun x => mulF32 x x)) eps xs.length
  (xs.zip g).map fun e => mulF32 (mulF32 e.1 q) e.2

/-- LAYERNORM of a row. -/
def layerNorm (xs g b : List Word) (eps : Word) : List Word :=
  let mu := divF32 (sumRow xs) (natF32 xs.length)
  let ds := xs.map fun x => subF32 x mu
  let q := invRoot (sumRow (ds.map fun x => mulF32 x x)) eps xs.length
  (ds.zip (g.zip b)).map fun e => addF32 (mulF32 (mulF32 e.1 q) e.2.1) e.2.2

/-- SOFTMAX of row number `row`. -/
def softMax (xs : List Word) (arg0 : Word) (arg1 row : Nat) : List Word :=
  let zs := (xs.zip (List.range xs.length)).map fun e =>
    if arg1 ≠ 0xFFFFFFFF ∧ row + arg1 < e.2 then f32 (.inf true) else mulF32 e.1 arg0
  let m := reduceRow maxF32 (f32 (.inf true)) zs
  let es := zs.map fun z => vexpWord (subF32 z m)
  let s := sumRow es
  es.map fun e => divF32 e s

/-! ### OPT_BQ8 (R209) -/

/-- The parameter block of R209. -/
structure OptParams where
  lr : Word
  b1 : Word
  b2 : Word
  eps : Word
  lam : Word
  c1 : Word
  c2 : Word
  pitch : Nat
  clipAddr : Nat
  mAddr : Nat
  uAddr : Nat
  deriving DecidableEq, Repr

/-- The block of 64 bytes `v`. -/
def optParse (v : Nat) : OptParams :=
  let w (o : Nat) : Word := w32 (fld v (8 * o) 32)
  ⟨w 0, w 4, w 8, w 12, w 16, w 20, w 24, fld v (8 * 0x1C) 32, fld v (8 * 0x20) 52, fld v (8 * 0x28) 52, fld v (8 * 0x30) 52⟩

/-- One element: new weight, m and u. -/
def optElem (p : OptParams) (clip omb1 omb2 x w m u : Word) : Word × Word × Word :=
  let g := mulF32 x clip
  let m := addF32 (mulF32 p.b1 m) (mulF32 omb1 g)
  let u := sqrtF32 (addF32 (mulF32 p.b2 (mulF32 u u)) (mulF32 omb2 (mulF32 g g)))
  let s := divF32 (divF32 m p.c1) (addF32 (divF32 u p.c2) p.eps)
  (subF32 w (mulF32 p.lr (addF32 (mulF32 p.lam w) s)), m, u)

/-- A row of moments in BQ8, of mode S or U, as BLOCK writes it with ROUND 0, and whether a block was narrowed. -/
def momentRow (u : Bool) (ws : List Word) : List Byte × Bool :=
  let ps := piecesOf 128 (ws.length + 1) (ws.map numOf)
  let es := ps.map fun p => encodeBlock 15 0 u (List.replicate 128 0) p
  (es.flatMap (fun e => packCodes 8 e.1) ++ es.flatMap (fun e => e.2.map (BitVec.ofNat 8)), ps.any fun p => p.any fun x => !x.isFin)

/-- A row of moments as FP32 words. -/
def momentWords (n : Nat) (bs : List Byte) : List Word := (List.range n).map fun j => f32 (elemNum 15 n (fun o => bs.getD o 0) j)

/-- What OPT_BQ8 makes of a row: new weights, far stores (address, bytes), and NARROWED. -/
structure OptOut where
  ys : List Word
  stores : List (Nat × List Byte)
  narrowed : Bool
  deriving DecidableEq, Repr

/-- A misaligned address of the parameter block (R209). -/
def optMisaligned (a align : Nat) : FaultAt := ⟨2, stCtxFault, 0, none, none, none, a, align, none⟩

/-- OPT_BQ8 of row `row` with N = `n`; a gradient element beyond K is not stated, and free (log entry 36). -/
def optRow (d : Device) (c param row n : Nat) (xs ws : List Word) : Except FaultAt OptOut :=
  match ctxRead d c 0 param 64 with
  | .error f => .error f
  | .ok pb =>
    let p := optParse (ofBytes pb)
    if p.clipAddr % 8 ≠ 0 then .error (optMisaligned p.clipAddr 8)
    else
      match ctxRead d c 0 p.clipAddr 8 with
      | .error f => .error f
      | .ok cb =>
        if fld (ofBytes cb) 32 32 ≠ 0 then .ok ⟨ws, [], false⟩
        else if p.mAddr % 64 ≠ 0 then .error (optMisaligned p.mAddr 64)
        else if p.uAddr % 64 ≠ 0 then .error (optMisaligned p.uAddr 64)
        else
          let ma := p.mAddr + row * p.pitch * 64
          let ua := p.uAddr + row * p.pitch * 64
          match ctxRead d c 0 ma (rowLen 15 n), ctxRead d c 0 ua (rowLen 15 n) with
          | .ok mb, .ok ub =>
            let ms := momentWords n mb
            let us := momentWords n ub
            let clip := w32 (ofBytes (cb.take 4))
            let omb1 := subF32 oneF32 p.b1
            let omb2 := subF32 oneF32 p.b2
            let rs := (List.range n).map fun j =>
              optElem p clip omb1 omb2 (xs.getD j (Config.freeWord (d.fresh + j))) (ws.getD j 0) (ms.getD j 0) (us.getD j 0)
            let m := momentRow false (rs.map (·.2.1))
            let u := momentRow true (rs.map (·.2.2))
            .ok ⟨rs.map (·.1), [(ma, m.1), (ua, u.1)], m.2 || u.2⟩
          | .error f, _ => .error f
          | _, .error f => .error f

/-- What a shipped ROW kernel makes of a parcel (R208, R209). -/
def rowKernel (d : Device) (c : Nat) (i : StreamInfo) (kd : KernelEntry) (p : Parcel) : Except FaultAt OptOut :=
  let xs := p.elems.map fun w => f32 (decodeElem (delivered i.x.xFmt) w.toNat)
  let n := i.x.n
  if kd.shipped = 6 then optRow d c kd.paramAddr p.row n xs p.welems
  else if kd.shipped = 5 then .ok ⟨softMax xs (w32 kd.arg0) kd.arg1 p.row, [], false⟩
  else
    match paramWords d c kd.paramAddr n with
    | .error f => .error f
    | .ok g =>
      if kd.shipped = 3 then .ok ⟨rmsNorm xs g (w32 kd.arg0), [], false⟩
      else
        match paramWords d c (kd.paramAddr + 4 * i.x.k) n with
        | .error f => .error f
        | .ok b => .ok ⟨layerNorm xs g b (w32 kd.arg0), [], false⟩

end Sys2Proof.Machine
end

