-- ==== Sys2Proof/Machine/CoreExec.lean ====
section
/-! DEFINITION. How a core runs: parcels and kernel frames, the fetch of an instruction, faults of a core, and the effects that the core
instructions share (R178 to R184, R189, R200, R204, R207). -/

namespace Sys2Proof.Machine

/-! ### Faults of a core (R207, R423, R424) -/

/-- The running unit that a parcel on cluster `k` belongs to, with its place. -/
def parcelUnitOf (d : Device) (k : Nat) (p : Parcel) : Option (Nat × UnitRun) :=
  (unitsOn d k).find? fun u => u.2.ctx == p.ctx && u.2.idx == p.idx && parcelUnit u.2 == p.unit

/-- The stream, unit and repair bit of a parcel, for a fault record. -/
def parcelStream (d : Device) (k : Nat) (p : Parcel) : Option (Nat × Nat × Bool) :=
  (descGet d p.ctx.val p.idx).map fun x => (x.stream, p.unit % 2 ^ 24, ((parcelUnitOf d k p).map (·.2.repair)).getD false)

/-- The context of core `j` of cluster `k` faults as `f` says; the record names cluster, core and pc (R207). -/
def coreFaultAs (nv : NonVol) (k j : Nat) (f : FaultAt) (d : Device) : Device :=
  let x := coreGet d k j
  match x.run with
  | none => d
  | some r =>
    faultCtx nv r.parcel.ctx.val
      { f with clu := some k, core := some (j, x.pc.toNat), stream := parcelStream d k r.parcel } d

/-- A fault found by core `j` itself. -/
def coreFault (nv : NonVol) (k j : Nat) (e : CoreErr) (d : Device) : Device :=
  coreFaultAs nv k j ⟨e.cause, stCtxFault, 0, none, none, none, e.address, e.detail, none⟩ d

/-! ### Kernel frames (R207) -/

/-- The frame of cluster `x` that holds kernel slot `slot` of context `c`, with the code that admission read the slot's entry `kd` to name
(R202; log entry 122). -/
def frameOf (x : Cluster) (c slot : Nat) (kd : KernelEntry) : Option Nat :=
  (List.range 4).find? fun f => ((smGet x.frames none f).map fun q =>
    decide (q.ctx = c ∧ q.slot = slot ∧ q.codeAddr = kd.codeAddr ∧ q.codeWords = kd.codeWords)).getD false

/-- A running parcel uses frame `f` of cluster `k`. -/
def frameBusy (d : Device) (k f : Nat) : Bool :=
  (List.range 64).any fun j => ((coreGet d k j).run.map fun r => r.shipped == 0 && r.frame == f).getD false

/-- The frame that a kernel is loaded into: a free one, else the least recently used that no running parcel uses. -/
def frameFor (d : Device) (k : Nat) : Option Nat :=
  let x := cluGet d k
  let use (f : Nat) : Nat := ((smGet x.frames none f).map fun q => q.used + 1).getD 0
  let can := (List.range 4).filter fun f => !frameBusy d k f
  can.find? fun f => can.all fun g => decide (use f ≤ use g)

/-- The kernel of a parcel, its slot and its stream. -/
def parcelKernel (d : Device) (p : Parcel) : Option (KernelEntry × StreamInfo) :=
  match streamInfo d p.ctx.val p.idx with
  | some i => i.kernel.map fun kd => (kd, i)
  | none => none

/-- KERNEL_LOAD (R207): the kernel of the oldest waiting parcel is loaded. -/
def kernelLoad (nv : NonVol) (k : Nat) (d : Device) : Device :=
  match (cluGet d k).parcels with
  | [] => d
  | p :: _ =>
    let c := p.ctx.val
    match parcelKernel d p, frameFor d k with
    | some (kd, i), some f =>
      if kd.shipped ≠ 0 ∨ (frameOf (cluGet d k) c i.x.glaze kd).isSome ∨ !takesUnits nv d k then d
      else
        match ctxRead d c 0 kd.codeAddr (4 * kd.codeWords) with
        | .error e => faultCtx nv c { e with clu := some k, stream := parcelStream d k p } d
        | .ok bs =>
          let code := (words4 kd.codeWords bs).map w32
          readCharge nv c kd.codeAddr (4 * kd.codeWords) (cluMod k (fun x => { x with
            frames := smPut x.frames none f (some ⟨c, i.x.glaze, kd.codeAddr, kd.codeWords, code, x.frameUse + 1⟩), frameUse := x.frameUse + 1 })
            (logPoint nv 3 3 k 0x4001 (pack [(0, 8, c), (8, 8, i.x.glaze)]) k d))
    | _, _ => d

/-- KERNEL_LOAD (R207). -/
def execKernelLoad (k : CluNo) (s : State) : Host.Outcome State Fault Refusal :=
  .next (onDev (fun nv d => kernelLoad nv k.val d) s)

/-! ### PARCEL_START (R204) -/

/-- The lowest-numbered idle core of cluster `k`. -/
def idleCore (d : Device) (k : Nat) : Option Nat := (List.range 64).find? fun j => (coreGet d k j).run.isNone

/-- The entry registers of a parcel (R204). -/
def entryRegs (i : StreamInfo) (kd : KernelEntry) (p : Parcel) : List (Nat × Nat) :=
  let args := [(4, kd.arg0), (5, kd.arg1), (6, kd.paramAddr % 2 ^ 32), (7, kd.paramAddr / 2 ^ 32)]
  if isRow i.x then
    [(1, p.row), (2, 0x02000000 + p.inAt), (3, i.x.k)] ++ args ++
      [(8, 0x02000000 + p.outAt), (9, i.x.n), (10, if i.x.wAddr = 0 then 0 else 0x02000000 + p.wAt), (11, delivered i.x.xFmt),
        (12, if i.x.wAddr = 0 then 0 else delivered i.x.wFmt)]
  else [(1, p.row), (2, p.col), (3, p.rows)] ++ args

/-- The core map's address of a kernel frame. -/
def frameAddr (f : Nat) : Word := w32 (0x04000000 + f * 0x4000)

/-- Bytes into a core's own store. -/
def storePuts (o : Nat) (bs : List Byte) (x : Core) : Core :=
  match bs with
  | [] => x
  | b :: t => storePuts (o + 1) t (storePut o b x)

/-- A core at the start of a parcel (R179, R204). `free` is the first of the free values that stand for its scratch. -/
def parcelCore (i : StreamInfo) (kd : KernelEntry) (p : Parcel) (f free : Nat) (x : Core) : Core :=
  let y := { x with
    run := some ⟨p, 0, f, i.x.glaze, isRow i.x⟩
    s := (entryRegs i kd p).foldl (fun m e => smPut m 0 e.1 (w32 e.2)) []
    v := [], p := [], pc := frameAddr f, flags := 0, scratch := [], scratchFrom := free + 1, loads := [], fars := []
    wait := .none, cycles := 0 }
  if isRow i.x then y else storePuts 0x1000 (p.elems.flatMap fun w => toBytes 4 w.toNat) y

/-- The outputs of an ELEMENT parcel go into its unit's rows and columns. -/
def elementOuts (p : Parcel) (ws : List Word) (m : SMap Word) : SMap Word :=
  (ws.zip (List.range ws.length)).foldl (fun m e => smPut m 0 (accKey (p.row + e.2 / 8) (p.col + e.2 % 8)) e.1) m

/-- A parcel of a unit has ended: its outputs, and NONFINITE where FLAGS.NARROWED is set (R180, R204). -/
def parcelEnd (k : Nat) (p : Parcel) (outs : List Word) (narrowed : Bool) (d : Device) : Device :=
  match parcelUnitOf d k p with
  | none => d
  | some (u, _) => unitMod k u (fun r => { r with
      outs := elementOuts p outs r.outs, parcelsLeft := r.parcelsLeft - 1, nonfinite := r.nonfinite || narrowed }) d

/-- The output bytes of a shipped ROW kernel, and whether one narrowed a value: FP32 values for Varnish, else y_n in Y_FMT (R204, R208),
each rounded to nearest even (log entry 36). -/
def rowBytes (i : StreamInfo) (ys : List Word) : List Byte × Bool :=
  if has i.x 7 ∨ i.x.yFmt = 0 then (ys.flatMap fun w => toBytes 4 w.toNat, false) else storedRow i.x.yFmt (ys.map numOf)

/-- The Palette granules of `n` bytes from byte `a` on have been written by the cores' context. -/
def markSpan (a n : Nat) (x : Cluster) : Cluster :=
  ((List.range (cdiv (a % 16384 + n) 16384)).map (a / 16384 + ·)).foldl (fun x g => markWritten x.coreCtx g x) x

/-- A shipped kernel runs a parcel on core `j` (R208, R209). -/
def shippedRun (nv : NonVol) (k j : Nat) (i : StreamInfo) (kd : KernelEntry) (p : Parcel) (d : Device) : Device :=
  let c := p.ctx.val
  let who (f : FaultAt) : FaultAt :=
    { f with clu := some k, core := some (j, (Config.freeWord d.fresh).toNat), stream := parcelStream d k p }
  let fault (f : FaultAt) (d : Device) : Device := faultCtx nv c (who f) d
  if isRow i.x then
    match rowKernel d c i kd p with
    | .error f => fault f d
    | .ok o =>
      match o.stores.findSome? fun st => match vSpan d.mem (ctxGet d c).root true st.1 st.2.length with
        | .error e => some e
        | .ok _ => none with
      | some e => fault (vFault e 0) d
      | none =>
        let (bs, replaced) := rowBytes i o.ys
        let d := o.stores.foldl (fun d st => ctxWriteAs nv who c 0 st.1 st.2 d) (drawFresh i.x.n d)
        parcelEnd k p [] (o.narrowed || replaced) (cluMod k (fun x => markSpan p.outAt bs.length (palPuts p.outAt bs x)) d)
  else
    match elementKernel d c i kd p with
    | .error f => fault f d
    | .ok r => parcelEnd k p r.1 r.2.narrowed d

/-- PARCEL_START (R179, R204, R208): the oldest waiting parcel goes to the lowest-numbered idle core. A shipped kernel runs it at
once (log entry 37). -/
def parcelStart (nv : NonVol) (k : Nat) (d : Device) : Device :=
  match (cluGet d k).parcels with
  | [] => d
  | p :: rest =>
    match idleCore d k, parcelKernel d p with
    | some j, some (kd, i) =>
      if (cluGet d k).coreCtx ≠ some p.ctx ∨ !takesUnits nv d k then d
      else
        let go (d : Device) : Device := progressed nv p.ctx.val (cluMod k (fun x => { x with parcels := rest }) d)
        if kd.shipped ≠ 0 then shippedRun nv k j i kd p (go d)
        else
          match frameOf (cluGet d k) p.ctx.val i.x.glaze kd with
          | none => d
          | some f =>
            let d := cluMod k (fun x => { x with
              frameUse := x.frameUse + 1
              frames := smMod x.frames none f (Option.map fun q => { q with used := x.frameUse + 1 }) }) (go d)
            coreMod k j (parcelCore i kd p f d.fresh) (drawFresh 0x4000 d)
    | _, _ => d

/-- PARCEL_START (R204). -/
def execParcelStart (k : CluNo) (s : State) : Host.Outcome State Fault Refusal :=
  .next (onDev (fun nv d => parcelStart nv k.val d) s)

/-! ### One instruction -/

/-- The word at a core's pc (R181, R207). A word of a frame that no kernel has filled is undefined. -/
def fetchWord (d : Device) (k : Nat) (x : Core) : Except CoreErr Word :=
  let a := x.pc.toNat
  if a % 4 ≠ 0 then .error ⟨2, a, 4⟩
  else if 0x04000000 ≤ a ∧ a < 0x04010000 then
    let o := (a - 0x04000000) / 4
    let code := ((smGet (cluGet d k).frames none (o / 4096)).map (·.code)).getD []
    .ok (code.getD (o % 4096) (Config.freeWord (2 ^ 64 + a)))
  else .error ⟨3, a, 0⟩

/-- The next instruction in program order. -/
def pcNext (x : Core) : Core := { x with pc := x.pc + 4 }

/-- What an instruction does to its core, and the step to the next one. -/
def coreNext (k j : Nat) (f : Core → Core) (d : Device) : Device := coreMod k j (fun x => pcNext (f x)) d

/-- What an instruction of one row means, for core `j` of cluster `k` that runs a parcel of context `c`. -/
abbrev CoreAct := NonVol → Nat → Nat → CtxNo → CoreInstr → Device → Device

/-- Core `j` of cluster `k` issues word `w` under a row of the opcode table: its parcel runs, it waits for nothing, `w` is the word
at its pc and belongs to the row, and its operands are ready. An illegal word faults the context (R186, R189). -/
def coreStep (row : CoreRow) (act : CoreAct) (k j : Nat) (w : Word) (nv : NonVol) (d : Device) : Device :=
  let x := coreGet d k j
  match x.run with
  | none => d
  | some r =>
    if x.wait ≠ .none then d
    else
      match fetchWord d k x with
      | .error e => coreFault nv k j e d
      | .ok v =>
        if v ≠ w ∨ coreRow w ≠ row then d
        else
          match decodeCore w with
          | none => coreFault nv k j ⟨1, 0, w.toNat⟩ d
          | some i => if operandsReady x i then act nv k j r.parcel.ctx i d else d

/-- The core's far stores that no hub has accepted (R200). -/
def farStores (d : Device) (k j : Nat) : List WriteReq := ((cluGet d k).writes ++ (cluGet d k).combining).filter fun w => w.core = some j

/-- The core's far stores are all visible device-wide (FENCE_FAR, R200). -/
def farFenced (d : Device) (k j : Nat) : Bool := (farStores d k j).isEmpty

/-- A vector instruction is counted by its width (R402): 6 for 32 bits, 7 for 16, 8 for 8. -/
def vecCharge (bytes : Nat) (c : CtxNo) (d : Device) : Device := charge (if bytes = 4 then 6 else if bytes = 2 then 7 else 8) 1 c.val d

/-- Accesses of core `j` of cluster `k` to the Palette banks that hold the `len` bytes from core address `a`: they are counted (R402), and wait for
their banks; `narrow` is a write of less than 32 B (R184, R234). -/
def palCharge (k j a len : Nat) (narrow : Bool) (c : CtxNo) (d : Device) : Device :=
  if coreRegion a = some .palette then
    let o := a - 0x02000000
    let banks := (List.range (cdiv (o % 64 + len) 64)).map fun n => (o / 64 + n) % 32
    charge 9 banks.length c.val (cluMod k (fun x => { x with bankQ := x.bankQ ++ banks.map fun b => ⟨5, j, c, b, 0, narrow⟩ }) d)
  else d

end Sys2Proof.Machine
end

