-- ==== Sys2Proof/Machine/CoreScalar.lean ====
section
/-! DEFINITION. Scalar core instructions: S-ALU, S-IMM, UPPER, BRANCH, JUMP, LOAD/STORE, LOAD_RETURN and SYSTEM (R178, R179, R182,
R185, R186, R189). -/

namespace Sys2Proof.Machine

/-! ### Arithmetic (R185) -/

/-- An operation of S-ALU or S-IMM. MIN and MAX compare signed (DEDUCED, log entry 38); a shift by 32 or more has no stated result
(log entry 35). -/
def aluResult (op : AluOp) (a b : Word) : Word :=
  let wide := Config.shiftOver op.code a b
  match op with
  | .add => a + b
  | .sub => a - b
  | .and => a &&& b
  | .or => a ||| b
  | .xor => a ^^^ b
  | .sll => if b.toNat < 32 then a <<< b.toNat else wide
  | .srl => if b.toNat < 32 then a >>> b.toNat else wide
  | .sra => if b.toNat < 32 then a.sshiftRight b.toNat else wide
  | .slt => if a.toInt < b.toInt then 1 else 0
  | .sltu => if a.toNat < b.toNat then 1 else 0
  | .mul => a * b
  | .mulhu => w32 (a.toNat * b.toNat / 2 ^ 32)
  | .min => if b.toInt < a.toInt then b else a
  | .max => if a.toInt < b.toInt then b else a

/-- S-ALU. -/
def sAluAct : CoreAct := fun _ k j _ i d =>
  match i with
  | .alu op rd rs1 rs2 => coreNext k j (fun x => sPut rd (aluResult op (sReg x rs1) (sReg x rs2)) x) d
  | _ => d

/-- S_ALU (R185). -/
def execSAlu (k : CluNo) (j : CoreNo) (w : Word) (s : State) : Host.Outcome State Fault Refusal :=
  .next (onDev (coreStep .sAlu sAluAct k.val j.val w) s)

/-- S-IMM: IMM12 is sign-extended. -/
def sImmAct : CoreAct := fun _ k j _ i d =>
  match i with
  | .imm op rd rs1 imm => coreNext k j (fun x => sPut rd (aluResult op (sReg x rs1) (imm.signExtend 32)) x) d
  | _ => d

/-- S_IMM (R185). -/
def execSImm (k : CluNo) (j : CoreNo) (w : Word) (s : State) : Host.Outcome State Fault Refusal :=
  .next (onDev (coreStep .sImm sImmAct k.val j.val w) s)

/-- UPPER: RD := IMM20 << 12. -/
def upperAct : CoreAct := fun _ k j _ i d =>
  match i with
  | .upper rd imm => coreNext k j (fun x => sPut rd (w32 (imm.toNat * 2 ^ 12)) x) d
  | _ => d

/-- UPPER (R185). -/
def execUpper (k : CluNo) (j : CoreNo) (w : Word) (s : State) : Host.Outcome State Fault Refusal :=
  .next (onDev (coreStep .upper upperAct k.val j.val w) s)

/-! ### Control flow (R185) -/

/-- The condition of a branch. -/
def branchTaken (c : Cond) (a b : Word) : Bool :=
  match c with
  | .eq => a == b
  | .ne => a != b
  | .lt => decide (a.toInt < b.toInt)
  | .ge => decide (b.toInt ≤ a.toInt)
  | .ltu => decide (a.toNat < b.toNat)
  | .geu => decide (b.toNat ≤ a.toNat)

/-- BRANCH: the offset counts instructions from the branch itself. -/
def branchAct : CoreAct := fun _ k j _ i d =>
  match i with
  | .branch c rs1 rs2 off =>
    coreMod k j (fun x =>
      if branchTaken c (sReg x rs1) (sReg x rs2) then { x with pc := x.pc + BitVec.ofInt 32 (4 * off.toInt) } else pcNext x) d
  | _ => d

/-- BRANCH (R185). -/
def execBranch (k : CluNo) (j : CoreNo) (w : Word) (s : State) : Host.Outcome State Fault Refusal :=
  .next (onDev (coreStep .branch branchAct k.val j.val w) s)

/-- JUMP: RD takes the address of the next instruction; the target counts from pc when RS is s0, else from RS. -/
def jumpAct : CoreAct := fun _ k j _ i d =>
  match i with
  | .jump rd rs off =>
    coreMod k j (fun x =>
      let base := if rs = 0 then x.pc else sReg x rs
      { sPut rd (x.pc + 4) x with pc := base + BitVec.ofInt 32 (4 * off.toInt) }) d
  | _ => d

/-- JUMP (R185). -/
def execJump (k : CluNo) (j : CoreNo) (w : Word) (s : State) : Host.Outcome State Fault Refusal :=
  .next (onDev (coreStep .jump jumpAct k.val j.val w) s)

/-! ### Captures (R17) -/

/-- The reader's key of core `j` of cluster `k`. -/
def coreReader (k j : Nat) : Nat := 4 + k * 64 + j

/-- A read of a _LO register captures the upper half for the next read of the _HI register `hi`. -/
def capturePut (key hi : Nat) (w : Word) (d : Device) : Device :=
  { d with rings := { d.rings with
      captures := (key, hi, w) :: d.rings.captures.filter fun e => !decide (e.1 = key ∧ e.2.1 = hi) } }

/-- What a read of _HI register `hi` returns: the captured half, or `live` (R17). -/
def captureGet (key hi : Nat) (live : Word) (d : Device) : Word :=
  ((d.rings.captures.find? fun e => decide (e.1 = key ∧ e.2.1 = hi)).map (·.2.2)).getD live

/-- The capture is used up by that read. -/
def captureDrop (key hi : Nat) (d : Device) : Device :=
  { d with rings := { d.rings with captures := d.rings.captures.filter fun e => !decide (e.1 = key ∧ e.2.1 = hi) } }

/-- The little-endian word at core address `a`. -/
def coreWord (d : Device) (k j a : Nat) : Word := w32 (ofBytes (coreBytes d k j a 4))

/-- The register of a digest unit that `a` lies in: 1 DIG_RESULT_LO, 2 DIG_RESULT_HI, else 0. -/
def digestHalf (a : Nat) : Nat :=
  if coreRegion a ≠ some .digest then 0 else if a % 0x20 / 4 = 4 then 1 else if a % 0x20 / 4 = 5 then 2 else 0

/-- The `n` bytes that a load reads at `a`, as a number, with the capture rule for DIG_RESULT (R17, R140). A half that was captured is
returned, whatever became of the digest unit since; R141 does not say whether its registers read 0 then too (log entry 114). -/
def loadRead (d : Device) (k j a n : Nat) : Nat :=
  if digestHalf a = 2 then fld (captureGet (coreReader k j) (a / 4 * 4) (coreWord d k j (a / 4 * 4)) d).toNat (8 * (a % 4)) (8 * n)
  else ofBytes (coreBytes d k j a n)

/-- What a load changes by reading `a` (R17). -/
def loadCapture (k j a : Nat) (d : Device) : Device :=
  match digestHalf a with
  | 1 => capturePut (coreReader k j) (a / 4 * 4 + 4) (coreWord d k j (a / 4 * 4 + 4)) d
  | 2 => captureDrop (coreReader k j) (a / 4 * 4) d
  | _ => d

/-! ### LOAD and STORE (R181, R182, R185) -/

/-- Bytes of a scalar load, and its value from the bytes read. -/
def loadBytes : LoadOp → Nat
  | .lw => 4
  | .lh | .lhu => 2
  | .lb | .lbu => 1
def loadValue (op : LoadOp) (n : Nat) : Word :=
  match op with
  | .lw | .lhu | .lbu => w32 n
  | .lh => w32 (ofInt 32 (sext 16 n))
  | .lb => w32 (ofInt 32 (sext 8 n))

/-- A load goes on its way: its data returns later (R182). -/
def loadIssue (rd : BitVec 5) (v : Word) (x : Core) : Core := if rd = 0 then x else { x with loads := x.loads ++ [(rd.toNat, v)] }

/-- LOAD. -/
def loadAct : CoreAct := fun nv k j c i d =>
  match i with
  | .load op rd base off =>
    let a := addrOf (sReg (coreGet d k j) base) off.toInt
    match coreCheck d k a (loadBytes op) (loadBytes op) false with
    | some e => coreFault nv k j e d
    | none =>
      let v := loadValue op (loadRead d k j a (loadBytes op))
      palCharge k j a (loadBytes op) false c (coreNext k j (loadIssue rd v) (loadCapture k j a d))
  | _ => d

/-- LOAD (R182). -/
def execLoad (k : CluNo) (j : CoreNo) (w : Word) (s : State) : Host.Outcome State Fault Refusal :=
  .next (onDev (coreStep .load loadAct k.val j.val w) s)

/-- Bytes of a scalar store. -/
def storeBytes : StoreOp → Nat
  | .sw => 4
  | .sh => 2
  | .sb => 1

/-- STORE. -/
def storeAct : CoreAct := fun nv k j c i d =>
  match i with
  | .store op rs base off =>
    let x := coreGet d k j
    let a := addrOf (sReg x base) off.toInt
    match coreCheck d k a (storeBytes op) (storeBytes op) true with
    | some e => coreFault nv k j e d
    | none => palCharge k j a (storeBytes op) true c (coreNext k j id (coreBytesPut k j a (toBytes (storeBytes op) (sReg x rs).toNat) d))
  | _ => d

/-- STORE (R182). -/
def execStore (k : CluNo) (j : CoreNo) (w : Word) (s : State) : Host.Outcome State Fault Refusal :=
  .next (onDev (coreStep .store storeAct k.val j.val w) s)

/-- The oldest load of a core returns (R182). -/
def loadLand (x : Core) : Core :=
  match x.loads with
  | [] => x
  | l :: rest => sPut (BitVec.ofNat 5 l.1) l.2 { x with loads := rest }

/-- LOAD_RETURN (R182). -/
def execLoadReturn (k : CluNo) (j : CoreNo) (s : State) : Host.Outcome State Fault Refusal :=
  .next (onDev (fun _ d => if (coreGet d k.val j.val).loads = [] then d else coreMod k.val j.val loadLand d) s)

/-! ### SYSTEM (R179, R186) -/

/-- Cycles of the half of cluster `k` since chip reset. -/
def cycleOf (d : Device) (k : Nat) : Nat := (if halfOf k = 0 then d.time.west else d.time.east) / 1000

/-- What a read of CSR `n` returns; the spec states no value for a number without a CSR, which is free (log entry 39). -/
def csrValue (d : Device) (k j : Nat) (c : CtxNo) (n : Nat) : Word :=
  if n = 0 then w32 (pack [(0, 6, j), (6, 10, k), (16, 8, c.val)])
  else if n = 1 then w32 (cycleOf d k)
  else if n = 2 then captureGet (coreReader k j) 2 (w32 (cycleOf d k / 2 ^ 32)) d
  else if n = 4 then w32 (coreGet d k j).flags.toNat
  else Config.freeWord d.fresh

/-- What the read changes: CYCLE_LO captures, CYCLE_HI uses the capture up (R17, R179). -/
def csrCapture (k j n : Nat) (d : Device) : Device :=
  if n = 1 then capturePut (coreReader k j) 2 (w32 (cycleOf d k / 2 ^ 32)) d
  else if n = 2 then captureDrop (coreReader k j) 2 d
  else if n = 0 ∨ n = 4 then d
  else drawFresh 1 d

/-- CSRR. -/
def csrrAct : CoreAct := fun _ k j c i d =>
  match i with
  | .csrr rd n => coreNext k j (sPut rd (csrValue d k j c n.toNat)) (csrCapture k j n.toNat d)
  | _ => d

/-- CSRR (R185). -/
def execCsrr (k : CluNo) (j : CoreNo) (w : Word) (s : State) : Host.Outcome State Fault Refusal :=
  .next (onDev (coreStep .csrr csrrAct k.val j.val w) s)

/-- CSRW: FLAGS is the one CSR that may be written, W1C. -/
def csrwAct : CoreAct := fun _ k j _ i d =>
  match i with
  | .csrw rs _ => coreNext k j (fun x => { x with flags := flagsWrite x.flags (sReg x rs) }) d
  | _ => d

/-- CSRW (R186). -/
def execCsrw (k : CluNo) (j : CoreNo) (w : Word) (s : State) : Host.Outcome State Fault Refusal :=
  .next (onDev (coreStep .csrw csrwAct k.val j.val w) s)

end Sys2Proof.Machine
end

