-- ==== Sys2Proof/Machine/CoreVector.lean ====
section
/-! DEFINITION. Vector core instructions: V-ALU, V-MEM, VCVT and BLOCK (R187 to R192, R194). -/

namespace Sys2Proof.Machine

/-! ### V-ALU (R187) -/

/-- V-ALU. -/
def vAluAct : CoreAct := fun _ k j c i d =>
  match i with
  | .valu op ty pred vd va vb vc => vecCharge (laneBits ty / 8) c (coreNext k j (valuCore op ty pred vd va vb vc) d)
  | _ => d

/-- V_ALU (R187). -/
def execVAlu (k : CluNo) (j : CoreNo) (w : Word) (s : State) : Host.Outcome State Fault Refusal :=
  .next (onDev (coreStep .vAlu vAluAct k.val j.val w) s)

/-! ### VLD, VST, VBCAST (R190) -/

/-- The lanes whose predicate bit is 1. -/
def activeLanes (x : Core) (pred : BitVec 2) : List Nat := lanes.filter (pOn x pred)

/-- The access of a VLD or VST at A: aligned, its 16 × w bytes in one region of R181, and every active lane permitted (R184, R190). -/
def vecCheck (d : Device) (k a w : Nat) (ls : List Nat) (wr : Bool) : Option CoreErr :=
  if a % w ≠ 0 then some ⟨2, a, w⟩
  else if (coreRegion a).isNone ∨ (List.range (16 * w)).any (fun o => coreRegion (a + o) ≠ coreRegion a) then some ⟨3, a, 0⟩
  else ls.findSome? fun i => coreCheck d k (a + i * w) w w wr

/-- The value of `w` bytes at core address `a`, zero-extended into a lane. -/
def laneRead (d : Device) (k j a w : Nat) : Word := w32 (loadRead d k j a w)

/-- The reads of a vector load, lane and address, in the order given: the lanes' values, and the device after them (R17, R190). -/
def lanesLoad (k j w : Nat) (l : List (Nat × Nat)) (d : Device) : SMap Word × Device :=
  l.foldl (fun s e => (smPut s.1 0 e.1 (laneRead s.2 k j e.2 w), loadCapture k j e.2 s.2)) ([], d)

/-- VLD. -/
def vldAct : CoreAct := fun nv k j c i d =>
  match i with
  | .vld pred vd base wd off =>
    let x := coreGet d k j
    let w := wd.bytes
    let a := vecAddr x base wd off
    match vecCheck d k a w (activeLanes x pred) false with
    | some e => coreFault nv k j e d
    | none =>
      let m := lanesLoad k j w ((activeLanes x pred).map fun n => (n, a + n * w)) d
      vecCharge w c (palCharge k j a (16 * w) false c (coreNext k j (vLanes vd pred (smGet m.1 0)) m.2))
  | _ => d

/-- VLD (R190). -/
def execVld (k : CluNo) (j : CoreNo) (w : Word) (s : State) : Host.Outcome State Fault Refusal :=
  .next (onDev (coreStep .vld vldAct k.val j.val w) s)

/-- Stores of lanes in ascending order: (address, value), `w` bytes each. -/
def laneStores (k j w : Nat) (l : List (Nat × Word)) (d : Device) : Device :=
  l.foldl (fun d e => coreBytesPut k j e.1 (toBytes w e.2.toNat) d) d

/-- VST. -/
def vstAct : CoreAct := fun nv k j c i d =>
  match i with
  | .vst pred vs base wd off =>
    let x := coreGet d k j
    let w := wd.bytes
    let a := vecAddr x base wd off
    match vecCheck d k a w (activeLanes x pred) true with
    | some e => coreFault nv k j e d
    | none =>
      vecCharge w c (palCharge k j a (16 * w) (decide (w * (activeLanes x pred).length < 32)) c
        (coreNext k j id (laneStores k j w ((activeLanes x pred).map fun n => (a + n * w, vLane x vs n)) d)))
  | _ => d

/-- VST (R190). -/
def execVst (k : CluNo) (j : CoreNo) (w : Word) (s : State) : Host.Outcome State Fault Refusal :=
  .next (onDev (coreStep .vst vstAct k.val j.val w) s)

/-- VBCAST: the low w bytes of BASE in every active lane; nothing is read from memory. -/
def vbcastAct : CoreAct := fun _ k j c i d =>
  match i with
  | .vbcast pred vd base wd =>
    vecCharge wd.bytes c (coreNext k j (fun x =>
      vLanes vd pred (fun _ => w32 ((sReg x base).toNat % 2 ^ (8 * wd.bytes))) x) d)
  | _ => d

/-- VBCAST (R190). -/
def execVbcast (k : CluNo) (j : CoreNo) (w : Word) (s : State) : Host.Outcome State Fault Refusal :=
  .next (onDev (coreStep .vbcast vbcastAct k.val j.val w) s)

/-! ### VGATHER, VSCATTER (R194) -/

/-- The first lane whose element cannot be reached. -/
def gatherCheck (d : Device) (k : Nat) (x : Core) (base : BitVec 5) (vidx : BitVec 4) (wd : VWidth) (ls : List Nat) (wr : Bool) :
    Option CoreErr :=
  ls.findSome? fun i => coreCheck d k (gatherAddr x base vidx wd i) wd.bytes wd.bytes wr

/-- VGATHER. -/
def vgatherAct : CoreAct := fun nv k j c i d =>
  match i with
  | .vgather pred vd base vidx wd =>
    let x := coreGet d k j
    let at_ (n : Nat) : Nat := gatherAddr x base vidx wd n
    match gatherCheck d k x base vidx wd (activeLanes x pred) false with
    | some e => coreFault nv k j e d
    | none =>
      let m := lanesLoad k j wd.bytes ((activeLanes x pred).map fun n => (n, at_ n)) d
      let d := (activeLanes x pred).foldl (fun d n => palCharge k j (at_ n) wd.bytes false c d) m.2
      vecCharge wd.bytes c (coreNext k j (vLanes vd pred (smGet m.1 0)) d)
  | _ => d

/-- VGATHER (R194). -/
def execVgather (k : CluNo) (j : CoreNo) (w : Word) (s : State) : Host.Outcome State Fault Refusal :=
  .next (onDev (coreStep .vgather vgatherAct k.val j.val w) s)

/-- VSCATTER: lanes in ascending order, so that of two lanes at one address the higher stays. -/
def vscatterAct : CoreAct := fun nv k j c i d =>
  match i with
  | .vscatter pred vs base vidx wd =>
    let x := coreGet d k j
    let at_ (n : Nat) : Nat := gatherAddr x base vidx wd n
    match gatherCheck d k x base vidx wd (activeLanes x pred) true with
    | some e => coreFault nv k j e d
    | none =>
      let d := (activeLanes x pred).foldl (fun d n => palCharge k j (at_ n) wd.bytes true c d) d
      vecCharge wd.bytes c
        (coreNext k j id (laneStores k j wd.bytes ((activeLanes x pred).map fun n => (at_ n, vLane x vs n)) d))
  | _ => d

/-- VSCATTER (R194). -/
def execVscatter (k : CluNo) (j : CoreNo) (w : Word) (s : State) : Host.Outcome State Fault Refusal :=
  .next (onDev (coreStep .vscatter vscatterAct k.val j.val w) s)

/-! ### Conversion (R191, R192) -/

/-- The random value of element `i` under ROUND 4 (R192). -/
def seedRand (rnd : Round) (seed : Word) (i : Nat) : Nat :=
  if rnd = .stochastic then crc32c (toBytes 4 seed.toNat ++ toBytes 4 i) % 65536 else 0

/-- VCVT of one lane, with its flags. -/
def convertLane (dst src : Fmt) (rnd : Round) (seed : Word) (i : Nat) (w : Word) : Word × FlagSet :=
  let x := decodeElem src.code (w.toNat % 2 ^ fmtBits src.code)
  let r := seedRand rnd seed i
  let c := encodeElem dst.code rnd.code r x
  (w32 c, convertFlags dst.code rnd.code r x c)

/-- VCVT. -/
def vcvtAct : CoreAct := fun _ k j c i d =>
  match i with
  | .vcvt dst src rnd vd va seed _ =>
    vecCharge 4 c (coreNext k j (fun x =>
      laneResults vd (lanes.map fun n => (n, convertLane dst src rnd (sReg x seed) n (vLane x va n))) x) d)
  | _ => d

/-- VCVT (R191). -/
def execVcvt (k : CluNo) (j : CoreNo) (w : Word) (s : State) : Host.Outcome State Fault Refusal :=
  .next (onDev (coreStep .vcvt vcvtAct k.val j.val w) s)

/-- A block as BLOCK writes it: element bytes, then scale bytes (R68, R72, R74). -/
def blockBytes (f : Nat) (rnd : Round) (u : Bool) (seed : Word) (xs : List Num) : List Byte :=
  let e := encodeBlock f rnd.code u ((List.range xs.length).map (seedRand rnd seed)) xs
  packCodes (fmtBits f) e.1 ++ e.2.map (BitVec.ofNat 8)

/-- BLOCK from `src` to `dst`: the bytes it reads and their alignment, then those it writes. -/
def blockSpans (f : Nat) (decode : Bool) : (Nat × Nat) × (Nat × Nat) :=
  let plain := (4 * blockSize f, 4)
  let packed := (rowLen f (blockSize f), 1)
  if decode then (packed, plain) else (plain, packed)

/-- What BLOCK writes for the bytes it reads, and its flags. -/
def blockResult (f : Nat) (decode : Bool) (rnd : Round) (u : Bool) (seed : Word) (bs : List Byte) : List Byte × FlagSet :=
  let n := blockSize f
  if decode then
    ((List.range n).flatMap fun j => toBytes 4 (f32 (elemNum f n (fun o => bs.getD o 0) j)).toNat, .none)
  else
    let xs := (words4 n bs).map fun w => numOf (w32 w)
    (blockBytes f rnd u seed xs, ⟨false, false, xs.any fun x => !x.isFin, false⟩)

/-- The `n` bytes that BLOCK reads from `a`, and the device after the reads, which go by words where they follow R17. -/
def blockLoad (k j a n : Nat) (d : Device) : List Byte × Device :=
  if coreRegion a = some .digest then
    let m := (List.range (cdiv n 4)).foldl (fun s o =>
      (s.1 ++ toBytes 4 (loadRead s.2 k j (a + 4 * o) 4), loadCapture k j (a + 4 * o) s.2)) (([] : List Byte), d)
    (m.1.take n, m.2)
  else (coreBytes d k j a n, d)

/-- BLOCK. -/
def blockAct : CoreAct := fun nv k j c i d =>
  match i with
  | .block fmt dec src dst seed rnd u =>
    let x := coreGet d k j
    let f := fmt.code
    let z := blockSpans f dec
    let a := (sReg x src).toNat
    let b := (sReg x dst).toNat
    match coreCheck d k a z.1.1 z.1.2 false, coreCheck d k b z.2.1 z.2.2 true with
    | some e, _ => coreFault nv k j e d
    | none, some e => coreFault nv k j e d
    | none, none =>
      let l := blockLoad k j a z.1.1 d
      let r := blockResult f dec rnd u (sReg x seed) l.1
      vecCharge 4 c (palCharge k j a z.1.1 false c (palCharge k j b z.2.1 (decide (z.2.1 < 32)) c
        (coreNext k j (addFlags r.2) (coreBytesPut k j b r.1 l.2))))
  | _ => d

/-- BLOCK (R191). -/
def execBlock (k : CluNo) (j : CoreNo) (w : Word) (s : State) : Host.Outcome State Fault Refusal :=
  .next (onDev (coreStep .block blockAct k.val j.val w) s)

end Sys2Proof.Machine
end

