-- ==== Sys2Proof/Machine/CoreFar.lean ====
section
/-! DEFINITION. Far core instructions: FLD, FST, FGATHER and FSCATTER (R193, R195, R200). -/

namespace Sys2Proof.Machine

/-- One element of a far access: its lane, virtual address and width. -/
abbrev FarElem := Nat × Nat × Nat

/-- The DPA of each element, or the first refused translation (R195, R218). -/
def farPlaces (d : Device) (k c : Nat) (wr : Bool) (es : List FarElem) : Except VErr (List (FarElem × Nat)) :=
  match es with
  | [] => .ok []
  | e :: t =>
    match transOk d k c e.2.1 wr with
    | .error r => .error r
    | .ok a =>
      match farPlaces d k c wr t with
      | .error r => .error r
      | .ok l => .ok ((e, a) :: l)

/-- A far store of the core to one of the code words has not been accepted: a load of it waits, so that the core sees its accesses in
program order (R200). -/
def storeAhead (d : Device) (k j : Nat) (ps : List (FarElem × Nat)) : Bool :=
  (farStores d k j).any fun w => ps.any fun p => p.2 / 64 == w.addr / 64

/-- A far load of the core from one of the virtual code words is on its way: a store to it waits (R200). -/
def loadAhead (x : Core) (es : List FarElem) : Bool := x.fars.any fun f => f.2.any fun l => es.any fun e => e.2.1 / 64 == l.2.1 / 64

/-- A misaligned far element (R207). -/
def farMisaligned (align : Nat) (es : List FarElem) : Option CoreErr :=
  (es.find? fun e => e.2.1 % align ≠ 0).map fun e => ⟨2, e.2.1, align⟩

/-- The walks that the elements need (R219). -/
def farFill (nv : NonVol) (k c : Nat) (wr : Bool) (es : List FarElem) (d : Device) : Device :=
  es.foldl (fun d e => xlateFill nv k c e.2.1 wr d) d

/-- A far load of `es`, with elements of `bytes` bytes, into register `vd`: misaligned or without a translation it faults, behind an
earlier far store to the same place it waits, and else it goes on its way; a load into v0 has nothing to fill. -/
def farLoad (nv : NonVol) (k j : Nat) (c : CtxNo) (vd : BitVec 4) (bytes : Nat) (es : List FarElem) (d : Device) : Device :=
  match farMisaligned bytes es with
  | some e => coreFault nv k j e d
  | none =>
    let d := farFill nv k c.val false es d
    match farPlaces d k c.val false es with
    | .error e => coreFaultAs nv k j (vFault e 0) d
    | .ok ps =>
      if storeAhead d k j ps then d
      else vecCharge bytes c
        (coreNext k j (fun x => if vd = 0 ∨ es = [] then x else { x with fars := x.fars ++ [(vd.toNat, es)] }) d)

/-- Far stores of `es`, of elements of `bytes` bytes, each with its bytes, go to the hubs in order (R193, R221), once no earlier
far load of the same place is on its way. -/
def farStore (nv : NonVol) (k j : Nat) (c : CtxNo) (bytes : Nat) (es : List (FarElem × List Byte)) (d : Device) : Device :=
  match farMisaligned bytes (es.map (·.1)) with
  | some e => coreFault nv k j e d
  | none =>
    let d := farFill nv k c.val true (es.map (·.1)) d
    match farPlaces d k c.val true (es.map (·.1)) with
    | .error e => coreFaultAs nv k j (vFault e 0) d
    | .ok ps =>
      if loadAhead (coreGet d k j) (es.map (·.1)) then d
      else
        vecCharge bytes c (coreNext k j id (cluMod k (fun x => { x with
          writes := x.writes ++ (ps.zip es).map (fun p => ⟨c, [], some j, p.1.2, p.2.2⟩) }) d))

/-- FLD: 64 B into the 16 lanes of 32 bits; an item of width 64 whose lane is 16 + the mask. -/
def fldAct : CoreAct := fun nv k j c i d =>
  match i with
  | .fld pred vd base _ _ =>
    let x := coreGet d k j
    let a := farAddr x base
    let es : List FarElem := if activeLanes x pred = [] then [] else [(16 + (pMask x pred).toNat, a, 64)]
    if a % 64 ≠ 0 then coreFault nv k j ⟨2, a, 64⟩ d else farLoad nv k j c vd 4 es d
  | _ => d

/-- FLD (R193). -/
def execFld (k : CluNo) (j : CoreNo) (w : Word) (s : State) : Host.Outcome State Fault Refusal :=
  .next (onDev (coreStep .fld fldAct k.val j.val w) s)

/-- FST: the 64 B of a vector register, or its active lanes. -/
def fstAct : CoreAct := fun nv k j c i d =>
  match i with
  | .fst pred vs base _ _ =>
    let x := coreGet d k j
    let a := farAddr x base
    let bytes (n : Nat) : List Byte := toBytes 4 (vLane x vs n).toNat
    let es : List (FarElem × List Byte) :=
      if activeLanes x pred = lanes then [((0, a, 64), lanes.flatMap bytes)]
      else (activeLanes x pred).map fun n => ((n, a + 4 * n, 4), bytes n)
    if a % 64 ≠ 0 then coreFault nv k j ⟨2, a, 64⟩ d else farStore nv k j c 4 es d
  | _ => d

/-- FST (R193). -/
def execFst (k : CluNo) (j : CoreNo) (w : Word) (s : State) : Host.Outcome State Fault Refusal :=
  .next (onDev (coreStep .fst fstAct k.val j.val w) s)

/-- The active elements of a far gather or scatter. -/
def farElems (x : Core) (pred : BitVec 2) (base : BitVec 5) (vidx : BitVec 4) (wd : VWidth) : List FarElem :=
  (activeLanes x pred).map fun n => (n, farElem x base vidx wd n, wd.bytes)

/-- FGATHER. -/
def fgatherAct : CoreAct := fun nv k j c i d =>
  match i with
  | .fgather pred vd base vidx wd =>
    farLoad nv k j c vd wd.bytes (farElems (coreGet d k j) pred base vidx wd) d
  | _ => d

/-- FGATHER (R193). -/
def execFgather (k : CluNo) (j : CoreNo) (w : Word) (s : State) : Host.Outcome State Fault Refusal :=
  .next (onDev (coreStep .fgather fgatherAct k.val j.val w) s)

/-- FSCATTER. -/
def fscatterAct : CoreAct := fun nv k j c i d =>
  match i with
  | .fscatter pred vs base vidx wd =>
    let x := coreGet d k j
    farStore nv k j c wd.bytes ((farElems x pred base vidx wd).map fun e => (e, toBytes wd.bytes (vLane x vs e.1).toNat)) d
  | _ => d

/-- FSCATTER (R193). -/
def execFscatter (k : CluNo) (j : CoreNo) (w : Word) (s : State) : Host.Outcome State Fault Refusal :=
  .next (onDev (coreStep .fscatter fscatterAct k.val j.val w) s)

end Sys2Proof.Machine
end

