-- ==== Sys2Proof/Machine/CoreSync.lean ====
section
/-! DEFINITION. Synchronisation core instructions and their releases (R196 to R200): semaphores, barriers, device event counters,
fences and GDONE. -/

namespace Sys2Proof.Machine

/-- The value of the register of a SYNC instruction. -/
def syncValue (d : Device) (k j : Nat) (r : BitVec 5) : Nat := (sReg (coreGet d k j) r).toNat

/-- A fault of a barrier or semaphore (R424, cause 0x04). -/
def syncErr (obj : BitVec 6) (sem : Bool) : CoreErr := ⟨4, 0, pack [(0, 6, obj.toNat), (8, 1, b2n sem)]⟩

/-- Core `j` goes on after the wait `w`. -/
def waitEnd (k : Nat) (w : CoreWait) (j : Nat) (d : Device) : Device :=
  coreMod k j (fun x => if x.wait = w then pcNext { x with wait := .none } else x) d

/-! ### Semaphores (R198) -/

/-- Semaphore `i` of cluster `k`. -/
def semGet (d : Device) (k i : Nat) : Sem := smGet (cluGet d k).sems ⟨0, []⟩ i
def semMod (k i : Nat) (f : Sem → Sem) (d : Device) : Device := cluMod k (fun x => { x with sems := smMod x.sems ⟨0, []⟩ i f }) d

/-- SEMWAIT: n = 0 returns at once; a wait that nobody is ahead of and that the count satisfies takes n; any other queues up. -/
def semwaitAct : CoreAct := fun _ k j _ i d =>
  match i with
  | .semwait obj r =>
    let n := syncValue d k j r
    let s := semGet d k obj.toNat
    if n = 0 then coreNext k j id d
    else if s.waiters = [] ∧ n ≤ s.count then coreNext k j id (semMod k obj.toNat (fun s => { s with count := s.count - n }) d)
    else
      coreMod k j (fun x => { x with wait := .sem obj.toNat n })
        (semMod k obj.toNat (fun s => { s with waiters := s.waiters ++ [(j, n)] }) d)
  | _ => d

/-- SEMWAIT (R198). -/
def execSemwait (k : CluNo) (j : CoreNo) (w : Word) (s : State) : Host.Outcome State Fault Refusal :=
  .next (onDev (coreStep .semwait semwaitAct k.val j.val w) s)

/-- SEMWAIT_RELEASE (R198): the first waiter is served once the count is at least its n. -/
def semRelease (k i : Nat) (d : Device) : Device :=
  let s := semGet d k i
  match s.waiters with
  | [] => d
  | (j, n) :: rest =>
    if n ≤ s.count then waitEnd k (.sem i n) j (semMod k i (fun _ => ⟨s.count - n, rest⟩) d) else d

/-- SEMWAIT_RELEASE (R198). -/
def execSemwaitRelease (k : CluNo) (i : Fin 64) (s : State) : Host.Outcome State Fault Refusal :=
  .next (onDev (fun _ d => semRelease k.val i.val d) s)

/-- SEMPOST: the register is added to the count; a sum above 65,535 faults the context. -/
def sempostAct : CoreAct := fun nv k j _ i d =>
  match i with
  | .sempost obj r =>
    let n := (semGet d k obj.toNat).count + syncValue d k j r
    if 65535 < n then coreFault nv k j (syncErr obj true) d
    else coreNext k j id (semMod k obj.toNat (fun s => { s with count := n }) d)
  | _ => d

/-- SEMPOST (R198). -/
def execSempost (k : CluNo) (j : CoreNo) (w : Word) (s : State) : Host.Outcome State Fault Refusal :=
  .next (onDev (coreStep .sempost sempostAct k.val j.val w) s)

/-! ### Barriers (R197) -/

/-- Barrier `i` of cluster `k`. -/
def barGet (d : Device) (k i : Nat) : Barrier := smGet (cluGet d k).bars ⟨[], 0, 0⟩ i
def barPut (k i : Nat) (b : Barrier) (d : Device) : Device := cluMod k (fun x => { x with bars := smPut x.bars ⟨[], 0, 0⟩ i b }) d

/-- BARRIER: an arrival with the participant count n, which the first arrival of the generation sets. A count outside 1 to 64, an n
that differs, or a barrier that does not exist, faults the context (log entry 42). -/
def barrierAct : CoreAct := fun nv k j _ i d =>
  match i with
  | .barrier obj r =>
    let n := syncValue d k j r
    let b := barGet d k obj.toNat
    if 8 ≤ obj.toNat ∨ n = 0 ∨ 64 < n ∨ (b.arrived ≠ [] ∧ b.n ≠ n) then coreFault nv k j (syncErr obj false) d
    else
      coreMod k j (fun x => { x with wait := .bar obj.toNat b.gen })
        (barPut k obj.toNat { b with arrived := b.arrived ++ [j], n := n } d)
  | _ => d

/-- BARRIER (R197). -/
def execBarrier (k : CluNo) (j : CoreNo) (w : Word) (s : State) : Host.Outcome State Fault Refusal :=
  .next (onDev (coreStep .barrier barrierAct k.val j.val w) s)

/-- BARRIER_RELEASE (R197): n arrivals have occurred; they are released, and a new generation starts. -/
def barRelease (k i : Nat) (d : Device) : Device :=
  let b := barGet d k i
  if b.arrived ≠ [] ∧ b.n ≤ b.arrived.length then
    b.arrived.foldl (fun d j => waitEnd k (.bar i b.gen) j d) (barPut k i ⟨[], 0, b.gen + 1⟩ d)
  else d

/-- BARRIER_RELEASE (R197). -/
def execBarrierRelease (k : CluNo) (i : Fin 8) (s : State) : Host.Outcome State Fault Refusal :=
  .next (onDev (fun _ d => barRelease k.val i.val d) s)

/-! ### Device event counters (R199) -/

/-- EVWAIT: returns when (count − v) mod 2^32 is below 2^31. A counter that does not exist makes the instruction illegal. -/
def evwaitAct : CoreAct := fun nv k j c i d =>
  match i with
  | .evwait obj r =>
    let v := w32 (syncValue d k j r)
    if 16 ≤ obj.toNat then coreFault nv k j ⟨1, 0, (encodeCore i).toNat⟩ d
    else if ctrPassed d c.val obj.toNat v then coreNext k j id d
    else coreMod k j (fun x => { x with wait := .ev obj.toNat v }) d
  | _ => d

/-- EVWAIT (R199). -/
def execEvwait (k : CluNo) (j : CoreNo) (w : Word) (s : State) : Host.Outcome State Fault Refusal :=
  .next (onDev (coreStep .evwait evwaitAct k.val j.val w) s)

/-- EVWAIT_RETURN (R199). -/
def evReturn (k j : Nat) (d : Device) : Device :=
  let x := coreGet d k j
  match x.wait, x.run with
  | .ev i v, some r => if ctrPassed d r.parcel.ctx.val i v then waitEnd k (.ev i v) j d else d
  | _, _ => d

/-- EVWAIT_RETURN (R199). -/
def execEvwaitReturn (k : CluNo) (j : CoreNo) (s : State) : Host.Outcome State Fault Refusal :=
  .next (onDev (fun _ d => evReturn k.val j.val d) s)

/-- Counter `i` of context `c` takes an addition modulo 2^32 (R199). -/
def ctrAdd (c i : Nat) (v : Word) (d : Device) : Device := ctxMod c (fun x => { x with ctrs := smMod x.ctrs 0 i (· + v) }) d

/-- EVADD: a FENCE_FAR first, then the addition (R199, R200). -/
def evaddAct : CoreAct := fun nv k j c i d =>
  match i with
  | .evadd obj r =>
    if 16 ≤ obj.toNat then coreFault nv k j ⟨1, 0, (encodeCore i).toNat⟩ d
    else if farFenced d k j then coreNext k j id (ctrAdd c.val obj.toNat (w32 (syncValue d k j r)) d)
    else d
  | _ => d

/-- EVADD (R199). -/
def execEvadd (k : CluNo) (j : CoreNo) (w : Word) (s : State) : Host.Outcome State Fault Refusal :=
  .next (onDev (coreStep .evadd evaddAct k.val j.val w) s)

/-! ### Fences and GDONE (R200, R204) -/

/-- FENCE: stores to core stores and the Palette are visible to every core of the cluster as they are made. -/
def fenceAct : CoreAct := fun _ k j _ i d =>
  match i with
  | .fence _ _ => coreNext k j id d
  | _ => d

/-- FENCE_CORE (R200). -/
def execFenceCore (k : CluNo) (j : CoreNo) (w : Word) (s : State) : Host.Outcome State Fault Refusal :=
  .next (onDev (coreStep .fenceCore fenceAct k.val j.val w) s)

/-- FENCE_FAR: waits until the core's far stores are visible device-wide. -/
def fenceFarAct : CoreAct := fun _ k j _ i d =>
  match i with
  | .fenceFar _ _ => if farFenced d k j then coreNext k j id d else d
  | _ => d

/-- FENCE_FAR (R200). -/
def execFenceFar (k : CluNo) (j : CoreNo) (w : Word) (s : State) : Host.Outcome State Fault Refusal :=
  .next (onDev (coreStep .fenceFar fenceFarAct k.val j.val w) s)

/-- The output words that an ELEMENT parcel leaves at OUT (R204). -/
def outWords (x : Core) (p : Parcel) : List Word :=
  (List.range (8 * p.rows)).map fun n => w32 (ofBytes ((List.range 4).map fun o => storeGet x (0x1200 + 4 * n + o)))

/-- GDONE: a FENCE and a FENCE_FAR, then the parcel ends: its outputs, NONFINITE, and the core's cycles (R180, R200, R204, R401). -/
def gdoneAct : CoreAct := fun nv k j c i d =>
  match i with
  | .gdone _ _ =>
    let x := coreGet d k j
    match x.run with
    | none => d
    | some r =>
      if farFenced d k j then
        let outs := if r.isRow then [] else outWords x r.parcel
        let d := parcelEnd k r.parcel outs (x.flags.getLsbD 2) d
        let d := acctMod c.val (fun a => { a with core := a.core + x.cycles }) d
        progressed nv c.val (coreMod k j (fun x => { x with run := none, loads := [], fars := [], cycles := 0 }) d)
      else d
  | _ => d

/-- GDONE (R200). -/
def execGdone (k : CluNo) (j : CoreNo) (w : Word) (s : State) : Host.Outcome State Fault Refusal :=
  .next (onDev (coreStep .gdone gdoneAct k.val j.val w) s)

end Sys2Proof.Machine
end

