-- ==== Sys2Proof/Machine/Faults.lean ====
section
/-! DEFINITION. Teardown, the progress watchdog, escalation, the dump, tests, fuses and retirement
(16_faults_and_recovery R425 to R443, 13_host_interface R370). -/

namespace Sys2Proof.Machine

/-! ### The dump (R432) -/

/-- The sections of the dump region: offset and size. The spec gives their contents in words and no layout of bits: their
bytes are free values (log entry 20). -/
def dumpSections : List (Nat × Nat) :=
  [(0x10000, 257 * 16384), (0x420000, 768 * 512), (0x480000, 256 * 64), (0x500000, 768 * 1024), (0x600000, 512 * 1024),
    (0x680000, 128 * 1024), (0x700000, 3 * 2 ^ 20), (0xA00000, 64 * 1024), (0xB00000, 4 * 2 ^ 20)]

/-- The dump header (R432). -/
def dumpHeader (level cause ctx target seq : Nat) (d : Device) : Nat :=
  pack [(0, 1, 1), (1, 3, level), (4, 8, cause), (32, 32, 0x4455594F), (64, 8, ctx), (72, 10, target), (96, 32, seq),
    (128, 64, d.time.now), (192, 32, fwVersion d)]

/-- Writes a section's bytes at DPA `a`. -/
def dumpSection (a n : Nat) (d : Device) : Device := memMod (dWrite a (freeBytes d.fresh n)) (drawFresh n d)

/-- Writes the dump, if nothing locks it; a dump before a chip reset always overwrites. True when it was written. Where the
region no longer lies in a valid set nothing can be stored, and VALID stays 0 (log entry 21). -/
def dumpWrite (nv : NonVol) (level cause ctx target : Nat) (d : Device) : Device × Bool :=
  if d.kept.dumpLock ∧ level ≠ 4 then (fltCnt 11 d, false)
  else
    let seq := wrapInc 32 d.kept.dumpSeq
    let a := d.mem.dump
    let ok := dpaOk d.mem a (64 * 2 ^ 20)
    let d :=
      if ok then
        memMod (dWrite a (toBytes 4096 (dumpHeader level cause ctx target seq d)))
          (dumpSections.foldl (fun d s => dumpSection (a + s.1) s.2 d) d)
      else d
    let d := { d with kept := { d.kept with
      dumpSeq := seq, dumpLevel := level, dumpValid := ok, dumpLock := true, dumpAddr := a } }
    (raiseEv nv 0x26 none seq a (fltCnt 10 d), true)

/-- An escalation at the ENGINE level or above raises ESCALATION and writes the dump before the reset, at the POWER_CYCLE
level too (R430, R444, log entry 109). -/
def escalation (nv : NonVol) (level target cause : Nat) (d : Device) : Device :=
  let written := !d.kept.dumpLock || level == 4
  (dumpWrite nv level cause 0 target
    (raiseEv nv 0x21 none (pack [(0, 3, level), (3, 1, b2n written), (4, 10, target)]) cause d)).1

/-! ### Engine and partition resets (R430) -/

/-- A core after an engine reset: its SRAM keeps its contents. -/
def coreReset (x : Core) : Core := { Core.init with store := x.store, scratch := x.scratch, scratchFrom := x.scratchFrom }

/-- What an engine reset does to cluster `k` beside its units: the sequencer, stations, arrays and cores start afresh, SRAM
keeps its contents, and barriers return to no arrivals (R210, R430). -/
def clusterReset (from_ end_ : Nat) (x : Cluster) : Cluster :=
  { x with
    parcels := [], tags := [], writes := [], wtags := [], combining := [], deliveries := [], mcWait := []
    bars := smMapV x.bars ⟨[], 0, 0⟩ (fun _ b => { b with arrived := [] })
    sems := smMapV x.sems ⟨0, []⟩ (fun _ m => { m with waiters := [] })
    arrays := [], easel := ⟨[], none⟩, bankQ := [], bankHold := [], reset := some (from_, end_)
    resets := from_ :: x.resets.filter fun t => decide (from_ < t + 600000000000) }

/-- The engine reset of cluster `k` (R430, R435, R437). Its duration is the machine's own: a free value (log entry 22). -/
def engineReset (nv : NonVol) (k : Nat) (d : Device) : Device :=
  let d := clearUnits k (abandonTest k d)
  let dur := (Config.freeWord d.fresh).toNat % 2 ^ 24
  let d := (List.range 64).foldl (fun d j => coreMod k j coreReset d) (drawFresh 1 d)
  let d := fltCnt 3 (cluMod k (clusterReset nv.up (nv.up + dur)) d)
  let d := suspect nv 0 k 3 d
  if 3 ≤ (cluGet d k).resets.length ∧ !(bindGet nv d k).fenced then declareDead nv k 3 d else d

/-- An engine-level escalation of cluster `k`, for the command `tag` if one (R430). -/
def engineEscalate (nv : NonVol) (k cause : Nat) (tag : Option Nat) (d : Device) : Device :=
  let d := engineReset nv k (escalation nv 2 k cause d)
  match tag with
  | some t => cluMod k (fun x => { x with resetTag := some t }) d
  | none => d

/-- The contexts of partition `p` are torn down with HANG_RESET (R430). -/
def partTeardown (nv : NonVol) (p level : Nat) (d : Device) : Device :=
  let cs := boundTo d p
  let d := (cs.filter (ctxLive d)).foldl (fun d c =>
    faultCtx nv c ⟨0x0D, stHang, 6, none, none, none, 0, level, (ctxGet d c).prog.map (·.tag)⟩ d) d
  cs.foldl (fun d c => if (ctxGet d c).st = .tearing then ctxMod c (fun x => { x with tornStatus := stHang }) d else d) d

/-- A partition-level escalation (R430, R431). -/
def partitionEscalate (nv : NonVol) (p : Nat) (tag : Option Nat) (d : Device) : Device :=
  let d := fltCnt 4 (escalation nv 3 p 0 d)
  let d := abandonApp nv p (partTeardown nv p 3 d)
  let d := (partClusters d p).foldl (fun d k => engineReset nv k d) d
  schedMod p (fun s => { s with reset := some nv.up, resetTag := tag }) d

/-- The engine reset of cluster `k` has ended, and its command completes. -/
def engineResetEnd (nv : NonVol) (k : Nat) (d : Device) : Device :=
  match (cluGet d k).reset with
  | some (_, e) =>
    if e ≤ nv.up then
      let tag := (cluGet d k).resetTag
      let d := cluMod k (fun x => { x with reset := none, resetTag := none }) d
      match tag with
      | some t => complete nv t stOK 0xFFFF 0 d
      | none => d
    else d
  | none => d

/-- A partition reset ends once its clusters' resets and its contexts' teardowns have ended, and its command completes. -/
def partitionResetEnd (nv : NonVol) (p : Nat) (d : Device) : Device :=
  let s := schedGet d p
  let busy := ((partClusters d p).any fun k => (cluGet d k).reset.isSome) ||
    ((boundTo d p).any fun c => (ctxGet d c).st = .tearing)
  if s.reset.isSome ∧ !busy then
    let d := schedMod p (fun s => { s with reset := none, resetTag := none }) d
    match s.resetTag with
    | some t => complete nv t stOK 0xFFFF 0 d
    | none => d
  else d

/-- Every reset that has ended (R430). -/
def resetsEnd (nv : NonVol) (d : Device) : Device :=
  let d := ((d.clus.filter fun e => e.2.reset.isSome).map (·.1)).foldl (fun d k => engineResetEnd nv k d) d
  ((d.sched.filter fun e => e.2.reset.isSome).map (·.1)).foldl (fun d p => partitionResetEnd nv p d) d

/-- ENGINE_RESET_TIMEOUT (R430, R437): 1 ms has passed. -/
def engineResetTimeout (nv : NonVol) (k : Nat) (d : Device) : Device :=
  match (cluGet d k).reset with
  | some (a, e) =>
    if a + 1000000 ≤ nv.up ∧ nv.up < e then
      let d := declareDead nv k 3 d
      match partOf d k with
      | some p => if (schedGet d p).reset.isSome then d else partitionEscalate nv p none d
      | none => d
    else d
  | none => d

/-- ENGINE_RESET_TIMEOUT (R430). -/
def execEngineResetTimeout (k : CluNo) (s : State) : Host.Outcome State Fault Refusal :=
  .next (onDev (fun nv d => engineResetTimeout nv k.val d) s)

/-- PARTITION_RESET_TIMEOUT (R430): 10 ms have passed, and a chip reset is due. -/
def partitionResetTimeout (nv : NonVol) (p : Nat) (d : Device) : Device :=
  match (schedGet d p).reset with
  | some a => if a + 10000000 ≤ nv.up then { d with flt := { d.flt with resetDue := some 0 } } else d
  | none => d

/-- PARTITION_RESET_TIMEOUT (R430). -/
def execPartitionResetTimeout (p : PartNo) (s : State) : Host.Outcome State Fault Refusal :=
  .next (onDev (fun nv d => partitionResetTimeout nv p.val d) s)

/-- ESCALATE (R431). -/
def escalate (t : Nat) (x : Taken) (nv : NonVol) (d : Device) : Device :=
  match eArg x.entry 0 with
  | 1 => startTeardown nv (eContext x.entry) 0 none (markBegun t d)
  | 2 => engineEscalate nv (eArg x.entry 1) 0 (some t) (markBegun t d)
  | 3 => partitionEscalate nv (ePartition x.entry) (some t) (markBegun t d)
  | 4 => complete nv t stOK 0xFFFF 0 { d with flt := { d.flt with resetDue := some 0 } }
  | _ => complete nv t stOK 0xFFFF 0 { d with flt := { d.flt with cycleDue := true } }

/-- ESCALATE (R431). -/
def execEscalate (t : Nat) (s : State) : Host.Outcome State Fault Refusal :=
  .next (onDev (withTaken 0x23 t (escalate t)) s)

/-! ### Teardown (R370, R425 to R427) -/

/-- Cluster `k` still drains a memory tag of context `c` (R425). -/
def holdsTag (d : Device) (c k : Nat) : Bool := (cluGet d k).tags.any fun t => t.ctx.val = c

/-- The clusters that still drain memory tags of context `c`. -/
def holders (d : Device) (c : Nat) : List Nat := (d.clus.map (·.1)).filter fun k => holdsTag d c k

/-- Every row of R425 has finished: tags are drained, remote reads landed or past the lifetime of R279, and the resets of
R426 are over. -/
def tearReady (nv : NonVol) (d : Device) (c : Nat) : Bool :=
  let x := ctxGet d c
  (holders d c).isEmpty && ((d.link.reads.all fun r => r.ctx.val ≠ c) || decide (x.tearFrom + 100000 ≤ nv.up)) &&
    (decide (nv.up < x.tearFrom + 200000) || (partClusters d x.part.val).all fun k => (cluGet d k).reset.isNone)

/-- RESULT of a program's final record (R366). -/
def progResult (g : Prog) : Nat := pack [(0, 16, min 65535 g.preempts), (16, 1, b2n g.mismatch), (17, 1, b2n g.nonfinite)]

/-- The records of context `c`'s commands at the end of TEARING (R370): the faulting command its status, the others
`tornStatus`; then the commands that asked for the teardown. -/
def tearRecords (nv : NonVol) (c : Nat) (d : Device) : Device :=
  let x := ctxGet d c
  let result (t : Nat) : Nat := match x.prog with
    | some g => if g.tag = t then progResult g else 0
    | none => 0
  let mine := d.rings.taken.filter fun y => (y.ring.map (·.val)) = some c
  let d := mine.foldl (fun d y =>
    complete nv y.tag (if x.faultTag = some y.tag then x.faultStatus else x.tornStatus) 0xFFFF (result y.tag) d) d
  let asked := d.rings.taken.filter fun y => y.ring.isNone && y.begun && decide (eContext y.entry = c) &&
    (decide (eOpcode y.entry = 0x04) || decide (eOpcode y.entry = 0x23 ∧ eArg y.entry 0 = 1))
  asked.foldl (fun d y => complete nv y.tag stOK 0xFFFF 0 d) d

/-- TEARDOWN_COMPLETE (R370, R400, R426). -/
def teardownComplete (nv : NonVol) (c : Nat) (d : Device) : Device :=
  if (ctxGet d c).st = .tearing ∧ tearReady nv d c then
    let x := ctxGet d c
    let d := { d with link := { d.link with reads := d.link.reads.filter fun r => r.ctx.val ≠ c } }
    let d := tearRecords nv c (acctWrite nv c 1 (collTornAll nv d))
    let d := ctxMod c (fun y => { y with st := .quiescing, ringEn := false, grant := 0, prog := none, tearFrom := nv.up }) d
    raiseEv nv 0x03 (some c) (genOf nv c) x.faultStatus d
  else d

/-- TEARDOWN_COMPLETE (R426). -/
def execTeardownComplete (c : CtxNo) (s : State) : Host.Outcome State Fault Refusal :=
  .next (onDev (fun nv d => teardownComplete nv c.val d) s)

/-- TEARDOWN_TIMEOUT (R426): at 200 µs the engines that still hold an activity are reset. -/
def teardownTimeout (nv : NonVol) (c : Nat) (d : Device) : Device :=
  if (ctxGet d c).st = .tearing ∧ (ctxGet d c).tearFrom + 200000 ≤ nv.up then
    (holders d c).foldl (fun d k => if (cluGet d k).reset.isSome then d else engineEscalate nv k 0 none d) d
  else d

/-- TEARDOWN_TIMEOUT (R426). -/
def execTeardownTimeout (c : CtxNo) (s : State) : Host.Outcome State Fault Refusal :=
  .next (onDev (fun nv d => teardownTimeout nv c.val d) s)

/-- The end of context `c`'s quiescence epoch, in `up` (R397, R427). -/
def quiesceEnd (nv : NonVol) (d : Device) (c : Nat) : Nat :=
  let x := ctxGet d c
  max x.tearFrom x.lastTx + 100000 + (if d.time.st = .holdover then 2 * holdBound nv d else 0)

/-- QUIESCENCE_END (R370, R427). -/
def quiescenceEnd (nv : NonVol) (c : Nat) (d : Device) : Device :=
  if (ctxGet d c).st = .quiescing ∧ quiesceEnd nv d c ≤ nv.up then ctxMod c (fun _ => Ctx.init) d else d

/-- QUIESCENCE_END (R427). -/
def execQuiescenceEnd (c : CtxNo) (s : State) : Host.Outcome State Fault Refusal :=
  .next (onDev (fun nv d => quiescenceEnd nv c.val d) s)

/-! ### The progress watchdog (R428, R429) -/

/-- An activity of context `c` that has hung: cycles, cluster, stream, unit, and whether it is a repair unit (R429). -/
def hung (d : Device) (c : Nat) : Option (Nat × Nat × Nat × Nat × Bool) :=
  let bound := 4 * tileBudget d (ctxGet d c).part.val * 1600
  let name (idx : Nat) : Nat := match entryGet d c idx with
    | some (.stream x _ _ _ _ _) => x.stream
    | some (.sort x) => x.stream
    | _ => 0
  let us := d.clus.flatMap fun e => (unitsOn d e.1).filterMap fun u =>
    if u.2.ctx.val = c ∧ bound ≤ u.2.idle then some (u.2.idle, e.1, name u.2.idx, u.2.unit, u.2.repair) else none
  let rs := (((ctxGet d c).prog.map (·.runs)).getD []).filterMap fun r =>
    if bound ≤ r.idle then some (r.idle, r.home, name r.idx, 0, false) else none
  (us ++ rs).head?

/-- HANG (R429): the fault, the dump and the teardown. -/
def hang (nv : NonVol) (c : Nat) (d : Device) : Device :=
  match hung d c with
  | some (n, k, stream, u, rep) =>
    if resident d c then
      let d := fltCnt 2 (faultCtx nv c
        ⟨0x0C, stHang, 5, some k, none, some (stream, u, rep), 0, n, (ctxGet d c).prog.map (·.tag)⟩ d)
      (dumpWrite nv 1 0x0C c k d).1
    else d
  | none => d

/-- HANG (R429). -/
def execHang (c : CtxNo) (s : State) : Host.Outcome State Fault Refusal := .next (onDev (fun nv d => hang nv c.val d) s)

/-! ### Chip reset and power cycle (R267, R430, R453) -/

/-- The LIVE bindings whose old site failed its test become fused remaps, at most 48 in all (R267). -/
def fuseRemaps (l : List (Nat × Nat)) (nv : NonVol) (d : Device) : NonVol × Device :=
  match l with
  | [] => (nv, d)
  | (k, site) :: t =>
    if nv.remaps.length < 48 then
      let n := nv.remaps.length + 1
      let r := fuseAppend 3 n 3 0 0 (pack [(0, 10, k), (10, 10, site)]) { nv with remaps := nv.remaps ++ [(k, site)] } d
      fuseRemaps t r.1 r.2
    else (nv, d)

/-- The health of what the fuses retire (R434). -/
def retiredHealth (nv : NonVol) (d : Device) : Device :=
  nv.retired.foldl (fun d n => healthMod 3 n (fun u => { u with st := .retired, reason := 10, since := nv.up }) d) d

/-- An emergency, its flags and its safe state outlast a chip reset and main power: it lasts until every flag has been
clear for 100 ms (R457, log entry 108). `d0` is the device before, `d` after. -/
def emergencyStays (d0 d : Device) : Device :=
  let w := { d.pwr with
    flags := d0.pwr.flags, emergency := d0.pwr.emergency, clearFrom := d0.pwr.clearFrom, safe := d0.pwr.emergency }
  { d with pwr := if d0.pwr.emergency then
      { w with mhz := smPut (smPut w.mhz 1600 0 400) 1600 1 400, reason := smPut (smPut w.reason 0 0 3) 0 1 3 }
    else w }

/-- Replace requested after a reset (R440): it goes on where a condition holds, and is entered where it did not hold before. -/
def replaceStays (nv : NonVol) (d0 d : Device) : Device :=
  let r := replaceReasons nv d
  if d0.flt.replace then { d with flt := { d.flt with reasons := r, replace := decide (r ≠ 0) } } else checkReplace nv d

/-- The spares that failed their reset test, `passed` being the sites that passed it, are withheld (R267). -/
def withholdSpares (passed : List Nat) (d : Device) : Device :=
  { d with fabric := { d.fabric with withheld := (spareSites 0 ++ spareSites 1).filter fun s => !passed.contains s } }

/-- Chip reset (R267, R430): `passed` are the sites that passed their reset test. A LIVE binding whose site fails is fused, be it FENCED or
not. -/
def chipResetGo (passed : List Nat) (nv : NonVol) (d0 : Device) : NonVol × Device :=
  let d := escalation nv 4 0 0 d0
  let live := d.fabric.bind.filterMap fun e => match e.2 with
    | some b => if b.live && !passed.contains (fusedSite nv e.1) then some (e.1, b.site) else none
    | none => none
  let recent := nv.up :: d.kept.resetAt.filter fun t => decide (nv.up < t + 3600000000000)
  let kept := { d.kept with chipResets := satInc 32 d.kept.chipResets, resetAt := recent }
  let wrong := d.mem.latent
  let d := memMod (fun m => { m with latent := wrong }) (Device.afterReset nv d.mem.cells d.mem.poison kept)
  let r := fuseRemaps live nv d
  let nv := r.1
  let d := withholdSpares passed { r.2 with
    flt := { r.2.flt with cycleDue := decide (3 ≤ recent.length) } }
  (nv, emergencyStays d0 (replaceStays nv d0 (retiredHealth nv d)))

/-- CHIP_RESET (R430): cause 0 is a chip reset that is due (a partition reset past its bound, a stopped processor, ESCALATE
level 4); any other is a unit without progress for 10 ms or a router fault. -/
def chipReset (cause : Nat) (passed : List Nat) (nv : NonVol) (d : Device) : NonVol × Device :=
  if nv.mainOn ∧ (cause ≠ 0 ∨ d.flt.resetDue.isSome) then chipResetGo passed nv d else (nv, d)

/-- CHIP_RESET (R430). -/
def execChipReset (cause : Nat) (passed : List Nat) (s : State) : Host.Outcome State Fault Refusal :=
  .next (onBoth (chipReset cause passed) s)

/-- Adds one to PWR_COUNT `k` (R472). -/
def pwrCount (k : Nat) (d : Device) : Device :=
  { d with kept := { d.kept with pwrCnt := smMod d.kept.pwrCnt 0 k (satInc 32) } }

/-- The chip reset has not ended within 5 s (R430; log entry 128). -/
def bootLate (nv : NonVol) (d : Device) : Bool :=
  d.fw.mode = .booting && ((d.kept.resetAt.head?.map fun t => decide (t + 5000000000 ≤ nv.up)).getD false)

/-- POWER_CYCLE (R430, R453): PCYC_REQ# is asserted and the request is sent over the management bus (log entry 72). -/
def powerCycle (nv : NonVol) (d : Device) : NonVol × Device :=
  if nv.mainOn ∧ (d.flt.cycleDue ∨ (bootLate nv d ∧ !nv.pcycReq)) then
    let d := escalation nv 5 0 0 { d with flt := { d.flt with cycleDue := false } }
    ({ nv with pcycReq := true }, mgmtPush 3 3 (pwrCount 5 d))
  else (nv, d)

/-- POWER_CYCLE (R453). -/
def execPowerCycle (s : State) : Host.Outcome State Fault Refusal := .next (onBoth powerCycle s)

/-! ### Tests (R435 to R438) -/

/-- 15 minutes, 1 hour and 2 hours in ns. -/
def min15 : Nat := 900000000000
def hour1 : Nat := 3600000000000
def hour2 : Nat := 7200000000000

/-- A unit's test is due: a SUSPECT one at once and then every 15 minutes, a HEALTHY one each FLT_TEST.PERIOD (R435). -/
def testDue (nv : NonVol) (d : Device) (kind id : Nat) : Bool :=
  let u := healthGet d kind id
  let after (n : Nat) : Bool := (u.testedAt.map fun t => decide (t + n ≤ nv.up)).getD true
  match u.st with
  | .suspect => after min15
  | .healthy => after (d.flt.testPeriod * hour1)
  | _ => false

/-- The units that a package tests on cluster `k`: kind and ID (R434, R438). -/
def testUnits (p : TestPkg) (k : Nat) : List (Nat × Nat) :=
  (if bit p.kinds 0 then [(0, k)] else []) ++ (if bit p.kinds 1 then [(1, 3 * k), (1, 3 * k + 1), (1, 3 * k + 2)] else [])

/-- The cluster is eligible for a run of `ns` (R436). -/
def testEligible (nv : NonVol) (d : Device) (k ns : Nat) : Bool :=
  takesUnits nv d k && (cluGet d k).claimed.isNone && (unitsOn d k).isEmpty &&
    match partOf d k with
    | none => true
    | some p =>
      let s := schedGet d p
      s.reclaim.isNone && (residents d p).isEmpty &&
        ((s.table.map fun t => decide (t.epoch < s.boundary) && decide ((sliceOf t s.number).residents = [])).getD false) &&
        decide (d.time.now + ns + 20000 ≤ s.boundary)

/-- TEST_RUN (R436). -/
def testRun (nv : NonVol) (k : Nat) (d : Device) : Device :=
  match d.flt.pkg with
  | none => d
  | some p =>
    let ns := p.runUs * 1000
    if testEligible nv d k ns ∧ firmwareRuns d ∧ securityUp d ∧ ((testUnits p k).any fun u => testDue nv d u.1 u.2) then
      chargeNone 15 p.runUs (fltCnt 7 (cluMod k (fun x => { x with test := some (nv.up + ns) }) d))
    else d

/-- TEST_RUN (R436). -/
def execTestRun (k : CluNo) (s : State) : Host.Outcome State Fault Refusal :=
  .next (onDev (fun nv d => testRun nv k.val d) s)

/-- A unit passes a test (R435). -/
def unitPass (nv : NonVol) (kind id : Nat) (d : Device) : Device :=
  let d := healthMod kind id (fun u => { u with testedAt := some nv.up, passes := satInc 4 u.passes }) d
  let u := healthGet d kind id
  if u.st = .suspect ∧ 8 ≤ u.passes ∧ u.suspectAt + hour2 ≤ nv.up then setHealth nv kind id .healthy 9 d else d

/-- What a unit is retired as (R435). -/
def retireAs (nv : NonVol) (kind id : Nat) (d : Device) : Device :=
  if kind = 0 then declareDead nv id 5 d
  else if kind = 1 then declareDead nv (id / 3) 5 (setHealth nv 1 id .dead 5 d)
  else if kind = 2 then setHealth nv 2 id .replaceMedia 5 d
  else checkReplace nv (setHealth nv 3 id .retireDue 5 d)

/-- A unit fails a test (R435): a HEALTHY one becomes SUSPECT with one failure, and a second failure retires it. -/
def unitFail (nv : NonVol) (kind id : Nat) (d : Device) : Device :=
  let u := healthGet d kind id
  match u.st with
  | .healthy | .suspect =>
    let d := healthMod kind id (fun u => { u with failures := u.failures + 1, passes := 0 }) d
    let d := suspect nv kind id 5 d
    let d := healthMod kind id (fun u => { u with testedAt := some nv.up }) d
    if 2 ≤ (healthGet d kind id).failures then retireAs nv kind id d else d
  | _ => d

/-- TEST_RUN_END (R435, R438): `failed` names the array whose products differed, or else the cluster. A failure located in
an array counts for the array and for its cluster; what the run did not locate is neither pass nor fail. -/
def testRunEnd (nv : NonVol) (k : Nat) (failed : Option (Option (Fin 3))) (d : Device) : Device :=
  match (cluGet d k).test, d.flt.pkg with
  | some e, some p =>
    if nv.up < e then d
    else
      let d := cluMod k (fun x => { x with test := none }) d
      match failed with
      | none => (testUnits p k).foldl (fun d u => unitPass nv u.1 u.2 d) d
      | some none => unitFail nv 0 k (fltCnt 8 d)
      | some (some a) => unitFail nv 0 k (unitFail nv 1 (3 * k + a.val) (fltCnt 8 d))
  | _, _ => d

/-- TEST_RUN_END (R435). -/
def execTestRunEnd (k : CluNo) (failed : Option (Option (Fin 3))) (s : State) : Host.Outcome State Fault Refusal :=
  .next (onDev (fun nv d => testRunEnd nv k.val failed d) s)

/-- Something takes cluster `k` from its test run: a reclaim, a resident, a remap or an application (R436). -/
def testInterrupted (d : Device) (k : Nat) : Bool :=
  outOfService d k || match partOf d k with
    | none => false
    | some p => (schedGet d p).reclaim.isSome || !(residents d p).isEmpty || applying d p

/-- TEST_RUN_ABANDON (R436). -/
def execTestRunAbandon (k : CluNo) (s : State) : Host.Outcome State Fault Refusal :=
  .next (onDev (fun _ d => if testInterrupted d k.val then abandonTest k.val d else d) s)

/-- A SUSPECT cluster that could start a run now has an eligible moment (R436); without a package a run is as short as it can be. -/
def eligibleTick (nv : NonVol) (d : Device) : Device :=
  let ns := ((d.flt.pkg.map (·.runUs)).getD 0) * 1000
  let l := d.flt.units.filter fun e => decide (e.1 < 768 ∧ e.2.st = .suspect) && testEligible nv d e.1 ns
  l.foldl (fun d e => healthMod 0 e.1 (fun u => { u with eligibleAt := nv.up }) d) d

/-- TEST_STARVED (R436): a SUSPECT cluster that has had no eligible moment for an hour, once in each further hour. -/
def testStarved (nv : NonVol) (k : Nat) (d : Device) : Device :=
  let u := healthGet d 0 k
  let last := max u.starvedAt u.eligibleAt
  if u.st = .suspect ∧ last + hour1 ≤ nv.up then
    raiseEv nv 0x25 none (pack [(0, 4, 0), (4, 12, k)]) ((nv.up - u.testedAt.getD u.suspectAt) / 60000000000)
      (healthMod 0 k (fun u => { u with starvedAt := nv.up }) d)
  else d

/-- TEST_STARVED (R436). -/
def execTestStarved (k : CluNo) (s : State) : Host.Outcome State Fault Refusal :=
  .next (onDev (fun nv d => testStarved nv k.val d) s)

/-- LINK_LANE_TEST (R435): `ppm` is the rate of corrected FEC symbols in 1 in 10^6. A HEALTHY lane above 1 in 10^5 becomes
SUSPECT; a SUSPECT one is tested. -/
def linkLaneTest (nv : NonVol) (lane ppm : Nat) (d : Device) : Device :=
  match (healthGet d 2 lane).st with
  | .healthy => if 10 < ppm then suspect nv 2 lane 6 d else d
  | .suspect => if !testDue nv d 2 lane then d else if ppm < 1 then unitPass nv 2 lane d else unitFail nv 2 lane d
  | _ => d

/-- LINK_LANE_TEST (R435). -/
def execLinkLaneTest (lane : Fin 64) (ppm : Nat) (s : State) : Host.Outcome State Fault Refusal :=
  .next (onDev (fun nv d => linkLaneTest nv lane.val ppm d) s)

/-- The header of a test package of length `n` at hand (R438). -/
def packageHeader (w : Nat) : Option TestPkg :=
  let p : TestPkg := ⟨fld w 64 32, fld w 128 16, fld w 144 2⟩
  let n := fld w 96 32
  if fld w 0 32 = 0x5450594F ∧ fld w 32 16 = 1 ∧ fld w 48 16 = 0 ∧ fld w 146 14 = 0 ∧ fld w 160 352 = 0 ∧ n % 64 = 0 ∧
      4096 ≤ n ∧ n ≤ 16 * 2 ^ 20 ∧ 10 ≤ p.runUs ∧ p.runUs ≤ 1000 ∧ p.kinds ≠ 0 then some p
  else none

/-- TEST_PACKAGE (R438; log entry 126). -/
def testPackage (t : Nat) (x : Taken) (nv : NonVol) (d : Device) : Device :=
  let a := eArg x.entry 0
  match packageHeader (dNat d.mem a 64) with
  | none => complete nv t stMalformed 0xFFFF 0 d
  | some p =>
    if Config.factorySignature (dRead d.mem a (dNat d.mem (a + 12) 4)) then
      complete nv t stOK 0xFFFF 0 { d with flt := { d.flt with pkg := some p } }
    else complete nv t stSignature 0xFFFF 0 d

/-- TEST_PACKAGE (R438). -/
def execTestPackage (t : Nat) (s : State) : Host.Outcome State Fault Refusal :=
  .next (onDev (withTaken 0x22 t (testPackage t)) s)

/-! ### Fuses and retirement (R244, R356, R439, R443) -/

/-- FUSE_WRITE (R443). -/
def fuseWrite (t : Nat) (x : Taken) (nv : NonVol) (d : Device) : NonVol × Device :=
  let w := dNat d.mem (eArg x.entry 0) 64
  let mask := fld w 32 4
  match failedCheck 2 [(decide (w = pack [(0, 4, 4), (32, 4, mask)] ∧ mask ≠ 0), stMalformed),
    (decide (mask ≠ nv.policyMask), stState), (decide (nv.policyChanges < 8), stNoResource)] with
  | some (i, st) => (nv, complete nv t st i 0 d)
  | none =>
    let n := nv.policyChanges + 1
    let r := fuseAppend 4 n 1 x.port.val nv.policyMask mask { nv with policyMask := mask, policyChanges := n } d
    (r.1, complete r.1 t stOK 0xFFFF 0 r.2)

/-- FUSE_WRITE (R443). -/
def execFuseWrite (t : Nat) (s : State) : Host.Outcome State Fault Refusal :=
  .next (onBoth (withTakenNv 0x21 t (fuseWrite t)) s)

/-- Stack `n` is powered down: its contents are gone (R244). -/
def stackOff (n : Nat) (m : Mem) : Mem :=
  { m with
    cells := m.cells.filter fun c => c.1 / 2 ^ 36 ≠ n
    poison := m.poison.filter fun w => w * 64 / 2 ^ 36 ≠ n }

/-- STACK_RETIRE (R244, R439). -/
def stackRetire (t : Nat) (x : Taken) (nv : NonVol) (d : Device) : NonVol × Device :=
  let n := eArg x.entry 0
  let nv := { nv with retired := nv.retired ++ [n] }
  let d := setHealth nv 3 n .retired 10 (memMod (stackOff n) d)
  let r := fuseAppend 2 nv.retired.length 1 x.port.val 0 n nv d
  (r.1, complete r.1 t stOK 0xFFFF 0 (checkReplace r.1 r.2))

/-- STACK_RETIRE (R439). -/
def execStackRetire (t : Nat) (s : State) : Host.Outcome State Fault Refusal :=
  .next (onBoth (withTakenNv 0x20 t (stackRetire t)) s)

/-! ### FLT_LOG (R445, R474) -/

/-- A write of FLT_LOG_HI by port `p`. -/
def fltLogHi (p : Port) (v : Word) (d : Device) : Device :=
  if isOwner d p then
    let a := v.toNat % 4096 * 2 ^ 32 + d.flt.logStage.getD (d.flt.log % 2 ^ 32)
    { d with flt := { d.flt with log := if dpaOk d.mem a (256 * 1024) then a else d.flt.log, logStage := none } }
  else denied d

/-- FLT_LOG_HI (R474). -/
def execFltLogHi (p : Port) (v : Word) (s : State) : Host.Outcome State Fault Refusal :=
  .next (onDev (fun nv d => if hostWrites nv d p then fltLogHi p v d else d) s)

end Sys2Proof.Machine
end

