-- ==== Sys2Proof/Machine/Firmware.lean ====
section
/-! DEFINITION. Boot, the driver interface version, staging and activation of images, crashes and restarts of processors
(15_firmware R404 to R419, 17_module_physical R469). -/

namespace Sys2Proof.Machine

/-! ### Banks and images (R405, R408, R409) -/

/-- The image in bank A (false) or B (true). -/
def bankImage (nv : NonVol) (b : Bool) : Option Image := if b then nv.bankB else nv.bankA

/-- Bank `b` becomes `x`. -/
def bankPut (b : Bool) (x : Option Image) (nv : NonVol) : NonVol := if b then { nv with bankB := x } else { nv with bankA := x }

/-- The image that bank `b` boots: one that verifies, its ROLLBACK at least COUNTER (R408, R409). -/
def bootImage (nv : NonVol) (b : Bool) : Option Image :=
  (bankImage nv b).bind fun x => if nv.rollback ≤ x.rollback then some x else none

/-- The check of R410 that bank `b` fails: 5 for its ROLLBACK; which of 2 to 4 a bank without a verifying image fails, the
spec does not say: a free value. -/
def bankCheck (nv : NonVol) (d : Device) (b : Bool) : Nat :=
  if (bankImage nv b).isSome then 5 else 2 + (Config.freeWord d.fresh).toNat % 3

/-- COUNTER is raised to `r` (R409): requester 1 host port, 2 PLDM, 3 device. -/
def raiseCounter (r requester port : Nat) (nv : NonVol) (d : Device) : NonVol × Device :=
  if nv.rollback < r then fuseAppend 1 r requester port nv.rollback r { nv with rollback := r } d else (nv, d)

/-- The log records of the boot steps (R405, R419). -/
def bootLog (nv : NonVol) (b : Bool) (d : Device) : Device :=
  [1, 2, 3, 4].foldl (fun d n => logPoint nv 2 0 0 0x0001 n (b2n b) d) d

/-- HELD with the image of bank `b` (R405 steps 3 and 4, R409; log entry 127). -/
def bootFrom (b : Bool) (x : Image) (nv : NonVol) (d : Device) : NonVol × Device :=
  let d := bootLog nv b { d with fw := { d.fw with mode := .held, bankB := b, image := some x } }
  if nv.pendingB = some b then raiseCounter x.rollback 3 0 { nv with activeB := b, pendingB := none } d else (nv, d)

/-- BOOT (R405). -/
def boot (nv : NonVol) (d : Device) : NonVol × Device :=
  if !nv.mainOn || decide (d.fw.mode ≠ .booting) then (nv, d)
  else
    let b := nv.pendingB.getD nv.activeB
    match bootImage nv b with
    | some x => bootFrom b x nv d
    | none =>
      let n := bankCheck nv d b
      let d := logPoint nv 0 0 0 0x0002 (b2n b) n (raiseEv nv 0x55 none (b2n b) n (drawFresh 1 d))
      match bootImage nv (!b) with
      | some x => bootFrom (!b) x nv d
      | none =>
        let m := bankCheck nv d (!b)
        let d := logPoint nv 0 0 0 0x0002 (b2n !b) m (drawFresh 1 d)
        (nv, { d with fw := { d.fw with mode := .recovery, image := none } })

/-- BOOT (R405). -/
def execBoot (s : State) : Host.Outcome State Fault Refusal := .next (onBoth boot s)

/-- VERSION (R406, R407). -/
def version (t : Nat) (x : Taken) (nv : NonVol) (d : Device) : Device :=
  let v := eArg x.entry 0
  let result := fwIfMin d + fwIfMax d * 2 ^ 32
  if d.fw.mode = .recovery then complete nv t stVersion 0xFFFF result d
  else if fwIfMin d ≤ v ∧ v ≤ fwIfMax d ∧ d.fw.image.isSome then
    complete nv t stOK 0xFFFF result { d with fw := { d.fw with mode := .running, ifAccepted := v } }
  else
    complete nv t stVersion 0xFFFF result (raiseEv nv 0x54 none v result { d with fw := { d.fw with mode := .held } })

/-- VERSION (R406). -/
def execVersion (t : Nat) (s : State) : Host.Outcome State Fault Refusal :=
  .next (onDev (withTaken 0x02 t (version t)) s)

/-! ### Staging (R410) -/

/-- A stage or activation completes with `status` and INDEX `i`; `tag` none is the tray controller's (R365, R420 FW_ACT_STATUS). -/
def fwDoneAt (nv : NonVol) (tag : Option Nat) (status i : Nat) (d : Device) : Device :=
  let d := { d with fw := { d.fw with actSeq := wrapInc 16 d.fw.actSeq, actStatus := status } }
  match tag with
  | some t => complete nv t status i 0 d
  | none => d

/-- The same, where no check of R410 failed. -/
def fwDone (nv : NonVol) (tag : Option Nat) (status : Nat) (d : Device) : Device := fwDoneAt nv tag status 0xFFFF d

/-- A stage, an activation or a deferred activation is in progress (R410). -/
def fwBusy (d : Device) : Bool := d.fw.staging.isSome || d.fw.acting.isSome || d.fw.deferred.isSome

/-- FW_STAGE (R410): check 1 and the copy. -/
def fwStage (t : Nat) (x : Taken) (nv : NonVol) (d : Device) : Device :=
  if !securityUp d || fwBusy d then fwDoneAt nv (some t) stState 1 d
  else
    let a := eArg x.entry 0
    let len := dNat d.mem (a + 0x1C) 4
    let n := if 4096 ≤ len ∧ len ≤ 32 * 2 ^ 20 then len else 256
    markBegun t { d with fw := { d.fw with staging := some (some t, dRead d.mem a n) } }

/-- FW_STAGE (R410). -/
def execFwStage (t : Nat) (s : State) : Host.Outcome State Fault Refusal :=
  .next (onDev (withTaken 0x18 t (fwStage t)) s)

/-- `n` bytes at `o` of a byte string. -/
def sliceBytes (bs : List Byte) (o n : Nat) : List Byte := (bs.drop o).take n

/-- The component table of a header: offset, size and CRC (R408). -/
def components (w : Nat) : List (Nat × Nat × Nat) :=
  (List.range 4).map fun i => (fld w (384 + 128 * i) 32, fld w (416 + 128 * i) 32, fld w (448 + 128 * i) 32)

/-- The header checks of R408; components lie between the header and the signature. -/
def imageHeaderOk (w len : Nat) : Bool :=
  decide (fld w 0 32 = 0x4657594F ∧ fld w 32 16 = 1 ∧ fld w 48 16 = 0 ∧ fld w 103 25 = 0 ∧ fld w 320 64 = 0 ∧
      fld w 896 1152 = 0) &&
    decide (fld w 224 32 = len ∧ len % 64 = 0 ∧ 4096 ≤ len ∧ len ≤ 32 * 2 ^ 20) &&
    ((List.range 4).all fun i => fld w (480 + 128 * i) 32 = 0) &&
    ((components w).all fun c => decide (c.1 % 64 = 0 ∧ 256 ≤ c.1 ∧ c.1 + c.2.1 ≤ len - 128))

/-- The image that a header describes (R408). -/
def imageOf (w : Nat) : Image :=
  ⟨fld w 64 32, fld w 96 7, fld w 128 32, fld w 160 32, fld w 192 16, fld w 208 16⟩

/-- Checks 2 to 5 of R410: the number and the status of the first that fails. -/
def imageCheck (nv : NonVol) (bs : List Byte) : Option (Nat × Nat) :=
  let w := ofBytes (bs.take 256)
  failedCheck 2 [(imageHeaderOk w bs.length, stMalformed), (Config.factorySignature bs, stSignature),
    ((components w).all fun c => decide (crc32c (sliceBytes bs c.1 c.2.1) = c.2.2), stMalformed),
    (decide (nv.rollback ≤ (imageOf w).rollback), stState)]

/-- FW_STAGE_COMPLETE (R410). A stage that fails may have begun to write the bank, which then cannot boot: a free value. -/
def fwStageComplete (nv : NonVol) (d : Device) : NonVol × Device :=
  match d.fw.staging with
  | none => (nv, d)
  | some (tag, bs) =>
    if !securityUp d then (nv, d)
    else
      let b := !d.fw.bankB
      let d := { d with fw := { d.fw with staging := none } }
      match imageCheck nv bs with
      | none =>
        let nv := { bankPut b (some (imageOf (ofBytes (bs.take 256)))) nv with pendingB := some b }
        (nv, fwDone nv tag stOK d)
      | some (i, st) =>
        let nv := if bit (Config.freeWord d.fresh).toNat 0 then bankPut b none nv else nv
        (nv, fwDoneAt nv tag st i (drawFresh 1 d))

/-- FW_STAGE_COMPLETE (R410). -/
def execFwStageComplete (s : State) : Host.Outcome State Fault Refusal := .next (onBoth fwStageComplete s)

/-! ### Activation (R412 to R414) -/

/-- The conditions of R412 under which no activation starts; a stage of the tray controller in progress is one (R410). -/
def activateRefused (nv : NonVol) (d : Device) : Bool :=
  match pendingImage nv with
  | none => true
  | some x =>
    d.fw.acting.isSome || d.fw.deferred.isSome || ((d.fw.staging.map (·.1.isNone)).getD false) ||
      ((d.fw.image.map fun r => decide (r.handoffOut < x.handoffMin)).getD false)

/-- An activation waits for a Frame application or a reclaim in progress (R412). -/
def activationWaits (d : Device) : Bool :=
  (d.frames.apps.any fun a => a.frame.isSome) || d.sched.any fun e => e.2.reclaim.isSome

/-- Step 1 of R414. -/
def activationStart (nv : NonVol) (tag : Option Nat) (d : Device) : Device :=
  logPoint nv 2 0 0 0x1001 1 0 { d with fw := { d.fw with acting := some (tag, nv.up), deferred := none } }

/-- An activation is requested by the command `tag`, or by the tray controller (R412, R413). -/
def activateGo (nv : NonVol) (tag : Option Nat) (d : Device) : Device :=
  let begun (d : Device) : Device := match tag with
    | some t => markBegun t d
    | none => d
  if d.pwr.emergency then
    let d := logPoint nv 1 0 0 0x1002 d.pwr.flags 0 (begun { d with fw := { d.fw with deferred := some tag } })
    match tag with
    | some t => inform nv t stDeferred d
    | none => d
  else if activationWaits d then d
  else activationStart nv tag (begun d)

/-- FW_ACTIVATE (R407, R412 to R414). -/
def fwActivate (t : Nat) (_ : Taken) (nv : NonVol) (d : Device) : Device :=
  if d.fw.mode = .recovery then
    if nv.pendingB.isSome then
      fwDone nv (some t) stOK { d with flt := { d.flt with resetDue := some 0 } }
    else fwDone nv (some t) stState d
  else if activateRefused nv d then fwDone nv (some t) stState d
  else activateGo nv (some t) d

/-- FW_ACTIVATE (R414). -/
def execFwActivate (t : Nat) (s : State) : Host.Outcome State Fault Refusal :=
  .next (onDev (withTaken 0x19 t (fwActivate t)) s)

/-- DEFERRED_ACTIVATION_START (R413): the emergency has cleared. -/
def deferredStart (nv : NonVol) (d : Device) : Device :=
  match d.fw.deferred with
  | some tag => if d.pwr.emergency || activationWaits d then d else activationStart nv tag d
  | none => d

/-- DEFERRED_ACTIVATION_START (R413). -/
def execDeferredActivationStart (s : State) : Host.Outcome State Fault Refusal := .next (onDev deferredStart s)

/-- The ceiling of half `h`, the conservative point included (R454, R459). -/
def ceiling (w : Pwr) (h : Nat) : Nat :=
  let c := smGet w.ceil 1600 h
  if w.conservative then min c 1000 else c

/-- PWR_CLK.REASON of half `h` (R472). -/
def clockReason (w : Pwr) (h : Nat) : Nat :=
  if w.safe then 3
  else if smGet w.hot false h then 2
  else if smGet w.dieCap 1600 h < ceiling w h then 1
  else if w.conservative && decide (1000 < smGet w.ceil 1600 h) then 4
  else 0

/-- The governor leaves its safe state (R457), which it holds until no emergency is in progress and, where one began during an
activation, the new power-management component runs (R416): that is at the activation's end. -/
def safeRelease (d : Device) : Device :=
  if d.pwr.safe && !d.pwr.emergency && d.fw.acting.isNone then
    let d := { d with pwr := { d.pwr with safe := false } }
    { d with pwr := { d.pwr with reason := smPut (smPut d.pwr.reason 0 0 (clockReason d.pwr 0)) 0 1 (clockReason d.pwr 1) } }
  else d

/-- The activation is undone because component `proc` did not start (R411, R414). -/
def activationFail (proc clu : Nat) (nv : NonVol) (d : Device) : NonVol × Device :=
  match d.fw.acting with
  | none => (nv, d)
  | some (tag, from_) =>
    let tried := fwStaged nv
    let d := logPoint nv 0 0 0 0x1003 proc clu (safeRelease { d with fw := { d.fw with
      acting := none, actPause := min 65535 ((nv.up - from_) / 1000) } })
    let d := raiseEv nv 0x51 none tried proc d
    ({ nv with pendingB := none }, fwDone nv tag 0x75 d)

/-- Log records of steps 2 to 7; when each was reached within the pause, the spec does not say: free values. -/
def activationLog (nv : NonVol) (ns : Nat) (d : Device) : Device :=
  let d := [2, 3, 4, 5, 6].foldl (fun d n =>
    logPoint nv 2 0 0 0x1001 n ((Config.freeWord d.fresh).toNat % (ns + 1)) (drawFresh 1 d)) d
  logPoint nv 2 0 0 0x1001 7 ns d

/-- Steps 6 and 7 of R414. -/
def activationOk (nv : NonVol) (d : Device) : NonVol × Device :=
  match d.fw.acting, pendingImage nv, nv.pendingB with
  | some (tag, from_), some x, some b =>
    let port := ((tag.bind (takenGet d)).map (·.port.val)).getD 0
    let old := fwVersion d
    let r := raiseCounter x.rollback (if tag.isSome then 1 else 2) port { nv with activeB := b, pendingB := none } d
    let nv := r.1
    let held : Bool := decide (d.fw.mode = .running ∧ ¬(x.ifMin ≤ d.fw.ifAccepted ∧ d.fw.ifAccepted ≤ x.ifMax))
    let d := safeRelease { r.2 with fw := { r.2.fw with
      acting := none, bankB := b, image := some x, activations := wrapInc 16 r.2.fw.activations
      actPause := min 65535 ((nv.up - from_) / 1000), mode := if held then .held else r.2.fw.mode } }
    let d := activationLog nv (nv.up - from_) d
    (nv, fwDone nv tag stOK (raiseEv nv 0x50 none x.version old d))
  | _, _, _ => (nv, d)

/-- No unit is in flight and no collective stage in progress, on the whole device (R414 step 1). -/
def deviceQuiet (d : Device) : Bool :=
  (d.clus.all fun e => e.2.units.isEmpty) && d.coll.runs.all fun r => r.stage.isNone

/-! ### The handoff region (R415) -/

/-- Bytes at offset `o` of the handoff region. -/
def handoffPut (o : Nat) (bs : List Byte) (d : Device) : Device :=
  { d with fw := { d.fw with
    handoff := (bs.zip (List.range bs.length)).foldl (fun m e => smPut m 0 (o + e.2) e.1) d.fw.handoff } }

/-- `n` bytes from offset `o` of the handoff region. -/
def handoffGet (d : Device) (o n : Nat) : List Byte := (List.range n).map fun i => smGet d.fw.handoff 0 (o + i)

/-- The header: MAGIC, the format that the running image writes, and the old and the new IMAGE_VERSION. -/
def handoffHeader (old new_ : Option Image) : List Byte :=
  toBytes 64 (pack [(0, 32, 0x4846594F), (32, 16, (old.map (·.handoffOut)).getD 0), (64, 32, (old.map (·.version)).getD 0),
    (96, 32, (new_.map (·.version)).getD 0)])

/-- The processors in the order in which they hand over: (code, cluster), each step of R414 a list. -/
def handoffSteps : List (List (Nat × Nat)) := [(List.range 768).map fun k => (3, k), [(2, 0)], [(0, 0)], [(1, 0)]]

/-- The number of a processor's directory entry: the clusters' 0 to 767, then the scheduler, security and power-management core's. -/
def handoffPlace (p : Nat × Nat) : Nat := if p.1 = 3 then p.2 else if p.1 = 2 then 768 else if p.1 = 0 then 769 else 770

/-- A processor writes its section and its directory entry: OFFSET, SIZE and CRC-32C of the section. What a section holds, how long it is and
whether its bytes are damaged before they are read are free; the sections' places are the model's own (log entry 124). -/
def sectionWrite (d : Device) (p : Nat × Nat) : Device :=
  let i := handoffPlace p
  let at_ := 0x4000 + 5376 * i
  let n := (Config.freeWord d.fresh).toNat % 5377
  let harm := (Config.freeWord (d.fresh + 1)).toNat
  let bs := freeBytes (d.fresh + 3) n
  let kept := if bit harm 0 then bs.set (harm / 2 % (n + 1)) (Config.freeByte (d.fresh + 2)) else bs
  let entry := pack [(0, 2, p.1), (2, 10, p.2), (32, 32, at_), (64, 32, n), (96, 32, crc32c bs)]
  handoffPut at_ kept (handoffPut (0x40 + 16 * i) (toBytes 16 entry) (drawFresh (n + 3) d))

/-- The section of a processor has the CRC-32C that its entry gives. -/
def sectionOk (d : Device) (p : Nat × Nat) : Bool :=
  let e := ofBytes (handoffGet d (0x40 + 16 * handoffPlace p) 16)
  crc32c (handoffGet d (fld e 32 32) (fld e 64 32)) == fld e 96 32

/-- The steps of R414 from `l` on: each step's processors write their sections and read them; the first whose CRC fails, if any. -/
def handoffRun (l : List (List (Nat × Nat))) (d : Device) : Option (Nat × Nat) × Device :=
  match l with
  | [] => (none, d)
  | ps :: t =>
    let d := ps.foldl sectionWrite d
    match ps.find? fun p => !sectionOk d p with
    | some p => (some p, d)
    | none => handoffRun t d

/-- The handover of steps 2 to 5 (R414, R415): the region is opened, and the processors hand over. -/
def handoffGo (nv : NonVol) (d : Device) : Option (Nat × Nat) × Device :=
  handoffRun handoffSteps (handoffPut 0 (handoffHeader d.fw.image (pendingImage nv)) { d with fw := { d.fw with handoff := [] } })

/-- ACTIVATION_COMPLETE (R414): `failed` names the component that missed its bound, and its cluster; a section whose CRC fails is a failed
start of its processor (R415). -/
def activationComplete (failed : Option (Fin 4 × CluNo)) (nv : NonVol) (d : Device) : NonVol × Device :=
  if d.fw.acting.isNone then (nv, d)
  else
    match failed with
    | some (p, k) => activationFail p.val (if p.val = 3 then k.val else 0) nv d
    | none =>
      if !deviceQuiet d then (nv, d)
      else
        match handoffGo nv d with
        | (some p, d) => activationFail p.1 p.2 nv d
        | (none, d) => activationOk nv d

/-- ACTIVATION_COMPLETE (R414). -/
def execActivationComplete (failed : Option (Fin 4 × CluNo)) (s : State) : Host.Outcome State Fault Refusal :=
  .next (onBoth (activationComplete failed) s)

/-- PLDM_FIRMWARE_UPDATE (R410, R469): the tray controller stages an image, or activates the staged one; while a stage or an
activation is in progress it is refused as busy. -/
def pldmUpdate (activate : Bool) (image : List Byte) (nv : NonVol) (d : Device) : Device :=
  if !nv.mainOn || decide (d.fw.mode = .booting) || fwBusy d then d
  else if !activate then
    if securityUp d then { d with fw := { d.fw with staging := some (none, image) } } else fwDoneAt nv none stState 1 d
  else if d.fw.mode = .recovery then
    if nv.pendingB.isSome then fwDone nv none stOK { d with flt := { d.flt with resetDue := some 0 } } else fwDone nv none stState d
  else if activateRefused nv d then fwDone nv none stState d
  else activateGo nv none d

/-- PLDM_FIRMWARE_UPDATE (R469). -/
def execPldmFirmwareUpdate (activate : Bool) (image : List Byte) (s : State) : Host.Outcome State Fault Refusal :=
  .next (onDev (pldmUpdate activate image) s)

/-! ### Crashes and restarts (R210, R417, R418) -/

/-- Crashes within the last 10 minutes, the one now included. -/
def recentCrashes (up : Nat) (l : List Nat) : List Nat := up :: l.filter fun t => decide (up < t + 600000000000)

/-- FW_CRASH and its log record (R417, R419). -/
def crashReport (nv : NonVol) (proc k n cause : Nat) (d : Device) : Device :=
  let who := pack [(0, 2, proc), (8, 10, k)]
  logPoint nv 0 proc (if proc = 3 then k else 0) 0x2001 who cause (raiseEv nv 0x52 none who n d)

/-- The control core of cluster `k` crashes (R210, R417, R418, R435). -/
def clusterCrash (nv : NonVol) (k cause : Nat) (d : Device) : Device :=
  let x := cluGet d k
  if x.stopped || x.downFrom.isSome || outOfService d k then d
  else
    let l := recentCrashes nv.up x.crashes
    let d := crashReport nv 3 k l.length cause { d with fw := { d.fw with cccCrashes := satInc 16 d.fw.cccCrashes } }
    let d := clearUnits k d
    let d := (List.range 64).foldl (fun d j => coreMod k j coreReset d) d
    let d := cluMod k (fun x => { x with
      crashes := l, bars := smMapV x.bars ⟨[], 0, 0⟩ (fun _ b => { b with arrived := [] })
      sems := smMapV x.sems ⟨0, []⟩ (fun _ m => { m with waiters := [] }) }) d
    let d := suspect nv 0 k 4 d
    if 4 ≤ l.length then
      let d := cluMod k (fun x => { x with stopped := true }) d
      if (bindGet nv d k).fenced then d else declareDead nv k 4 d
    else cluMod k (fun x => { x with downFrom := some nv.up }) d

/-- Processor `p` of the I/O ring crashes: 0 security, 1 power management, 2 scheduler (R417, R418, R459). -/
def procCrash (nv : NonVol) (p cause : Nat) (d : Device) : Device :=
  let x := smGet d.fw.procs Proc.init p
  if x.st ≠ .running then d
  else
    let l := recentCrashes nv.up x.recent
    let stop := 4 ≤ l.length
    let y : Proc := { x with
      st := if stop then .stopped else .restarting, crashes := satInc 16 x.crashes, recent := l, downFrom := nv.up }
    let d := crashReport nv p 0 l.length cause { d with fw := { d.fw with procs := smPut d.fw.procs Proc.init p y } }
    let d := if stop then { d with flt := { d.flt with resetDue := some 0 } } else d
    let d := if p = 0 then frameCrash d else d
    if p = 1 then { d with pwr := { d.pwr with conservative := true } } else d

/-- A staging that the security core's crash cuts short: its command completes when the core returns (R410, R417). -/
def stageCrash (d : Device) : Device :=
  match d.fw.staging with
  | some (some t, _) =>
    { d with fw := { d.fw with staging := none }, frames := { d.frames with owed := d.frames.owed ++ [(t, stState)] } }
  | some (none, _) => { d with fw := { d.fw with staging := none } }
  | none => d

/-- Processor `proc`, of cluster `k` where it is a cluster control core, runs, so it can crash. -/
def canCrash (d : Device) (proc k : Nat) : Bool :=
  if proc = 3 then !(cluGet d k).stopped && (cluGet d k).downFrom.isNone && !outOfService d k else procUp d proc

/-- PROCESSOR_CRASH (R414, R417, R418). -/
def processorCrash (proc k cause : Nat) (nv : NonVol) (d : Device) : NonVol × Device :=
  if d.fw.mode = .booting || !canCrash d proc k then (nv, d)
  else
    let d := if proc = 3 then clusterCrash nv k cause d else procCrash nv proc cause d
    let d := if proc = 0 then stageCrash d else d
    if d.fw.acting.isSome then activationFail proc (if proc = 3 then k else 0) nv d else (nv, d)

/-- PROCESSOR_CRASH (R417). -/
def execProcessorCrash (proc : Fin 4) (k : CluNo) (cause : Fin 3) (s : State) : Host.Outcome State Fault Refusal :=
  .next (onBoth (processorCrash proc.val k.val cause.val) s)

/-- FW_RESTARTED and its log record (R417, R419). -/
def restartReport (nv : NonVol) (proc k down : Nat) (d : Device) : Device :=
  let who := pack [(0, 2, proc), (8, 10, k)]
  logPoint nv 2 proc (if proc = 3 then k else 0) 0x2002 who down (raiseEv nv 0x53 none who down d)

/-- PROCESSOR_RESTART (R417). -/
def processorRestart (proc k : Nat) (nv : NonVol) (d : Device) : Device :=
  if proc = 3 then
    match (cluGet d k).downFrom with
    | some t => restartReport nv 3 k (nv.up - t) (cluMod k (fun x => { x with downFrom := none }) d)
    | none => d
  else
    let x := smGet d.fw.procs Proc.init proc
    if x.st ≠ .restarting then d
    else
      let d := { d with fw := { d.fw with procs := smPut d.fw.procs Proc.init proc { x with st := .running } } }
      let d := restartReport nv proc 0 (nv.up - x.downFrom) d
      if proc = 0 then frameReturn nv d
      else if proc = 1 then { d with pwr := { d.pwr with conservative := false } }
      else d

/-- PROCESSOR_RESTART (R417). -/
def execProcessorRestart (proc : Fin 4) (k : CluNo) (s : State) : Host.Outcome State Fault Refusal :=
  .next (onDev (processorRestart proc.val k.val) s)

end Sys2Proof.Machine
end

