-- ==== Sys2Proof/Machine/Lending.lean ====
section
/-! DEFINITION. Lending when every resident of a partition is blocked: blocked and runnable contexts, and the standby that comes in
(R388, R389). -/

namespace Sys2Proof.Machine

/-! ### Blocked residents (R388) -/

/-- A parcel of context `c` runs on a core. -/
def parcelRuns (d : Device) (c : Nat) : Bool := d.cores.any fun e => (e.2.run.map (·.parcel.ctx.val)) == some c

/-- Context `c` has made no progress of R388 for `ns` nanoseconds: none has happened, and no stage and no parcel of it runs now. -/
def blocked (nv : NonVol) (d : Device) (c ns : Nat) : Bool :=
  decide ((ctxGet d c).progressAt + ns ≤ nv.up) && !inStage d c && !parcelRuns d c

/-- An entry of context `c`'s ring that has not been taken is a SUBMIT. -/
def submitUntaken (d : Device) (c : Nat) : Bool :=
  let x := ctxGet d c
  let size := 2 ^ x.sqLog
  (List.range ((x.sqTail + size - x.sqHead) % size)).any fun i =>
    match vRead d.mem x.root (x.ring + 64 * ((x.sqHead + i) % size)) 1 with
    | .ok bs => decide (ofBytes bs = 0x40)
    | .error _ => false

/-- The SUBMITs of context `c` that have been taken and have not been admitted. -/
def submitsWaiting (d : Device) (c : Nat) : List Taken :=
  d.rings.taken.filter fun x => decide ((x.ring.map (·.val)) = some c ∧ eOpcode x.entry = 0x40) && !x.begun

/-- Collectives of context `c` in progress. -/
def collsOf (d : Device) (c : Nat) : List CollRun := d.coll.runs.filter fun r => r.active && decide (r.ctx.val = c)

/-- IDLE: no program is admitted or waiting on its ring, and no collective is in progress (R388). -/
def blockedIdle (d : Device) (c : Nat) : Bool :=
  (ctxGet d c).prog.isNone && (submitsWaiting d c).isEmpty && !submitUntaken d c && (collsOf d c).isEmpty

/-- An active entry of context `c` is a RECEIVE or a COMBINE that waits on arrival words (R174). -/
def arrivalsAwaited (d : Device) (c : Nat) : Bool :=
  match (ctxGet d c).prog with
  | none => false
  | some g => g.runs.any fun r => !r.ready && match g.entries[r.idx]? with
    | some (.sort s) => awaitsRows s
    | _ => false

/-- A SUBMIT of context `c` waits at a gate on the DONE_CTR of one of its collectives in progress (R364). -/
def gatedOnDone (d : Device) (c : Nat) : Bool :=
  (submitsWaiting d c).any fun x => eWaitEn x.entry && !gateOpen d c x.entry &&
    (collsOf d c).any fun r => r.desc.doneEn && decide (r.desc.doneCtr = eWaitCtr x.entry)

/-- REMOTE: the context waits for another module (R388). -/
def blockedRemote (d : Device) (c : Nat) : Bool :=
  (d.clus.any fun e => (unitsOn d e.1).any fun u => decide (u.2.ctx.val = c) && unitOwes d e.1 u.1) || arrivalsAwaited d c ||
    ((collsOf d c).any fun r => r.gateOpen && r.stage.isNone && (collTask d r).isNone) || gatedOnDone d c

/-- The kind of a blocked context: 0 IDLE, 1 REMOTE, 2 LOCAL (R388). -/
def blockedKind (d : Device) (c : Nat) : Nat := if blockedIdle d c then 0 else if blockedRemote d c then 1 else 2

/-! ### Runnable standbys (R388) -/

/-- From entry `n`, among the first `m` entries, the program comes to one that can start: BEGIN and END let it pass once nothing runs,
and an END after a mismatch under HALT does not (R120, R139). -/
def couldStart (g : Prog) (n m : Nat) : Bool :=
  match m with
  | 0 => false
  | m + 1 =>
    match g.entries[n]? with
    | some (.stream x _ _ _ _ gov) => depMet g x.depKind x.depStream && govDone g gov
    | some (.sort s) => depMet g s.depKind s.depStream
    | some (.marker k) =>
      let halts : Bool := k.kind == 2 && ((g.block.map fun b =>
        b.marker.halt && g.done.any fun r => decide (b.idx < r.idx) && r.mismatch).getD false)
      g.runs.isEmpty && !halts && couldStart g (n + 1) m
    | _ => false

/-- An active entry can have its units dealt once its context is resident, though it is not ready: a DISPATCH before its list phase, and a
wait whose arrival words are there. -/
def readyNext (d : Device) (c : Nat) (r : StreamRun) : Bool :=
  match sortInfo d c r.idx with
  | some s => s.op == 0 || (awaitsRows s && arrivalsIn d c s)
  | none => false

/-- An admitted program has a unit that could be dealt: of an active entry, or of the next entry that can start. -/
def couldDeal (d : Device) (c : Nat) : Bool :=
  match (ctxGet d c).prog with
  | none => false
  | some g =>
    (g.runs.any fun r =>
      let s := slotOf d r
      (r.ready || readyNext d c r) && r.remoteStatus == 0 && (!r.reissue.isEmpty || decide (s.next < s.total) || !r.repairs.isEmpty)) ||
    (g.stop.isNone && decide (g.runs.length < 8) && couldStart g g.next g.entries.length)

/-- A context that is not resident is runnable (R388). -/
def runnable (d : Device) (c : Nat) : Bool :=
  (ctxGet d c).st = .bound &&
    (couldDeal d c || ((submitsWaiting d c).any fun x => submitTurn d c x.tag && gateOpen d c x.entry) ||
      (collsOf d c).any fun r => r.stage.isNone && (collTask d r).isSome)

/-! ### ALL_BLOCKED (R389) -/

/-- The best of a list under `better`, the first listed among equals. -/
def bestOf (better : Nat → Nat → Bool) (l : List Nat) : Option Nat :=
  l.foldl (fun b c => match b with
    | none => some c
    | some a => if better c a then some c else some a) none

/-- The resident `a` departs sooner than `b` (R389 tests 1 to 4). -/
def departsBefore (d : Device) (a b : Nat) : Bool :=
  let x := ctxGet d a
  let y := ctxGet d b
  let ka := blockedKind d a
  let kb := blockedKind d b
  if x.prio ≠ y.prio then decide (x.prio < y.prio)
  else if ka ≠ kb then decide (ka < kb)
  else if x.progressAt ≠ y.progressAt then decide (x.progressAt < y.progressAt)
  else decide (b < a)

/-- An eviction may happen now: not within BLOCK_US of the last, nor within LEAD before a boundary (R389). -/
def mayEvict (nv : NonVol) (d : Device) (p blockNs : Nat) : Bool :=
  let s := schedGet d p
  let lead := ((upcoming d p).map fun u => u.1.lead).getD 0
  ((s.evictAt.map fun u => decide (u + blockNs ≤ nv.up)).getD true) && decide (d.time.now + lead * 1000 < s.boundary)

/-- The runnable standby that comes in: of highest PRIORITY, the first listed among equals; an evicted context is a standby of its
slice (R389). Before EPOCH there is no current slice, and so no standby of one (R379). -/
def standbyNext (d : Device) (p : Nat) (t : SliceTable) : Option Nat :=
  let s := schedGet d p
  let l := if t.epoch < s.boundary then (sliceOf t s.number).standby ++ s.evicted else []
  bestOf (fun a b => decide ((ctxGet d b).prio < (ctxGet d a).prio))
    (l.filter fun c => decide ((ctxGet d c).part.val = p) && !s.incoming.contains c && runnable d c)

/-- A bubble of context `c` runs now: the context stays resident (R328; log entry 120). -/
def inBubble (d : Device) (c : Nat) : Bool := (ctxGet d c).bubbles.any fun b => (bubbleNow d b).isSome

/-- ALL_BLOCKED (R389). -/
def allBlocked (nv : NonVol) (p : Nat) (d : Device) : Device :=
  let s := schedGet d p
  match s.table with
  | none => d
  | some t =>
    let ns := t.blockUs * 1000
    let rs := residents d p
    let idle : Bool := rs.all fun c => (ctxGet d c).departing.isNone && blocked nv d c ns
    if !firmwareRuns d || s.reclaim.isSome || applying d p || !s.incoming.isEmpty || !idle then d
    else
      match standbyNext d p t with
      | none => d
      | some c =>
        if rs.length < maxResident d p then arrive nv c d
        else
          match mayEvict nv d p ns, bestOf (departsBefore d) (rs.filter fun v => !inBubble d v) with
          | true, some v =>
            let d := raiseEv nv 0x43 (some v) (pack [(0, 4, p), (8, 8, v), (16, 8, c), (24, 2, blockedKind d v)]) 0 d
            let d := schedMod p (fun s => { s with
              evictions := satInc 16 s.evictions, evictAt := some nv.up, evicted := s.evicted ++ [v], incoming := [c] }) d
            beginDeparture v d.time.now none d
          | _, _ => d

/-- ALL_BLOCKED (R389). -/
def execAllBlocked (p : PartNo) (s : State) : Host.Outcome State Fault Refusal :=
  .next (onDev (fun nv d => allBlocked nv p.val d) s)

end Sys2Proof.Machine
end

