-- ==== Sys2Proof/Machine/LinkRun.lean ====
section
/-! DEFINITION. The receive queues of the cages at work: what each kind of packet does when its turn comes (R280, R288). -/

namespace Sys2Proof.Machine

/-- WRITE (R285). A BROADCAST whose data has landed goes on with it where a stage is in progress (R325). -/
def writeTake (nv : NonVol) (q : StavaPacket) (d : Device) : Device :=
  let fed := if (winCheck d q true q.payload.length).isNone then
      d.coll.runs.filter fun r => blockLanded q.window.toNat q.offset.toNat q.payload.length r ≠ r
    else []
  fed.foldl (fun d r => msgWork nv r d) (writeLand nv q d)

/-- WRITE (R285). -/
def execWrite (g : CageNo) (q : StavaPacket) (s : State) : Host.Outcome State Fault Refusal :=
  .next (onDev (fun nv d => receiveData nv g q (writeTake nv q) d) s)

/-- A COLLECTIVE message takes effect by its KIND (R303, R304). A message of a reserved kind is accepted or refused as any other, and does
nothing (log entry 125). -/
def collTake (nv : NonVol) (g : CageNo) (q : StavaPacket) (d : Device) : Device :=
  match msgKind q with
  | 0 => msgReceive nv g q 0 (partialLand nv q) d
  | 1 => msgReceive nv g q 1 (resultLand nv q) d
  | 2 => msgReceive nv g q 2 (readyLand nv q) d
  | 3 => msgReceive nv g q 3 (allReadyLand q) d
  | 4 => msgReceive nv g q 4 (stragglerLand nv q) d
  | 5 => msgReceive nv g q 5 (recordLand nv q) d
  | 6 => msgReceive nv g q 6 (normTotalLand nv q) d
  | 7 => msgReceive nv g q 7 (digestLand nv q) d
  | 8 => msgReceive nv g q 8 (grantLand nv q) d
  | 9 => msgReceive nv g q 9 (arrivalLand nv q) d
  | 10 => receiveData nv g q (refuseLand nv q) d
  | k => msgReceive nv g q k (fun _ d => d) d

/-- A DATA packet takes effect by its OP; a reserved OP is refused (R288). -/
def dataTake (nv : NonVol) (g : CageNo) (q : StavaPacket) (d : Device) : Device :=
  match q.op.toNat with
  | 0 => receiveData nv g q (writeTake nv q) d
  | 1 => receiveData nv g q (readLand nv q) d
  | 2 => receiveData nv g q (readDataLand nv q) d
  | 3 => receiveData nv g q (responseLand q) d
  | 4 => receiveData nv g q (noticeLand q) d
  | 5 => collTake nv g q d
  | _ => receiveData nv g q (refusePacket nv q 1) d

/-- A packet takes effect at cage `g`. One of a reserved TYPE is dropped (R275; log entry 125). -/
def packetTake (nv : NonVol) (g : CageNo) (q : StavaPacket) (d : Device) : Device :=
  match q.type.toNat with
  | 0 => dataTake nv g q d
  | 1 => receiveAck nv g q d
  | _ => cageTake g.val q id d

/-- A nanosecond of the receive queues: whether the first packet of a cage has its turn is free, since the spec gives no rate (R280; log
entry 125). -/
def rxTick (nv : NonVol) (d : Device) : Device :=
  let w := (Config.freeWord d.fresh).toNat
  ((List.finRange 8).filter fun g => bit w g.val).foldl (fun d g =>
    match (cageGet d g.val).rxq with
    | q :: _ => packetTake nv g q d
    | [] => d) (drawFresh 1 d)

end Sys2Proof.Machine
end

