-- ==== Sys2Proof/Machine/TimeAcct.lean ====
section
/-! DEFINITION. System time and its reference, accounting records on request and by period, and the calibration of energy
(14_scheduling_and_lending R392 to R395, R400, R402). -/

namespace Sys2Proof.Machine

/-- The state of time changes (R393, R398). -/
def timeGo (nv : NonVol) (st : TimeSt) (e : Int) (d : Device) : Device :=
  raiseEv nv 0x40 none (timeCode st + 16 * timeCode d.time.st) (ofInt 64 e) { d with time := { d.time with
    st := st, everLocked := d.time.everLocked || decide (st = .locked) } }

/-- The correction of error `e` (R394): a step forward, or a slew that the clock carries out. -/
def correct (e : Int) (t : Time) : Time :=
  if e < -100000 then { t with now := t.now + (-e).toNat, slew := 0, slewAcc := 0, half := false }
  else { t with slew := e, slewAcc := 0, half := decide (100000 < e) }

/-- The armed value that applies at an edge now: it was armed at least 100 µs ago (R392). -/
def armedNow (nv : NonVol) (t : Time) : Option Nat :=
  t.armed.bind fun a => if a.2 + 100000 ≤ nv.up then some a.1 else none

/-- The time that an edge marks (R393). -/
def marks (nv : NonVol) (t : Time) : Nat :=
  ((armedNow nv t).getD ((t.now + 500000) / 1000000 * 1000000)) + t.syncDelay

/-- SYNC_EDGE (R392 to R394). Multiples of the accounting period that a load sets the counter behind come again (R400). In UNSET and HOLDOVER the edge is not used: the loop has not locked (log entry 16). -/
def syncEdge (nv : NonVol) (d : Device) : Device :=
  let t := d.time
  let e : Int := (t.now : Int) - marks nv t
  let used := (armedNow nv t).isSome
  let seen := { t with error := e, armed := if used then none else t.armed }
  match t.st with
  | .unset | .holdover => d
  | .locking =>
    if t.fromUnset then
      if used then
        timeGo nv .locked e { d with time := { seen with
          now := marks nv t, acctAt := min t.acctAt (marks nv t / (t.acctPeriod * 1000000) * (t.acctPeriod * 1000000)), fallback := false, slew := 0, slewAcc := 0, half := false } }
      else { d with time := { t with error := e } }
    else if -50 ≤ e ∧ e ≤ 50 then timeGo nv .locked e { d with time := { correct e seen with fallback := false } }
    else { d with time := correct e seen }
  | .locked =>
    if e < -1000 ∨ 1000 < e then
      timeGo nv .locking e { d with time := { correct e seen with fallback := true, fromUnset := false } }
    else { d with time := correct e seen }

/-- SYNC_EDGE (R393). -/
def execSyncEdge (s : State) : Host.Outcome State Fault Refusal := .next (onDev (fun nv d => syncEdge nv d) s)

/-- REFERENCE_PRESENT (R393). -/
def referencePresent (nv : NonVol) (d : Device) : Device :=
  let d := { d with time := { d.time with refOk := true, syncOk := true } }
  match d.time.st with
  | .unset => timeGo nv .locking d.time.error { d with time := { d.time with fromUnset := true } }
  | .holdover => timeGo nv .locking d.time.error { d with time := { d.time with fromUnset := false } }
  | .locking | .locked => d

/-- REFERENCE_PRESENT (R393). -/
def execReferencePresent (s : State) : Host.Outcome State Fault Refusal :=
  .next (onDev (fun nv d => referencePresent nv d) s)

/-- REFERENCE_LOST (R393): the reference or SYNC is absent; which of the two the event does not tell, so the bits are free
but for one of them being 0 (log entry 17). -/
def referenceLost (nv : NonVol) (d : Device) : Device :=
  let w := (Config.freeWord d.fresh).toNat
  let d := drawFresh 1 { d with time := { d.time with refOk := bit w 0, syncOk := bit w 1 && !bit w 0 } }
  match d.time.st with
  | .locked | .locking =>
    timeGo nv .holdover d.time.error { d with time := { d.time with
      fallback := true, holdovers := satInc 16 d.time.holdovers, holdFrom := nv.up } }
  | .unset | .holdover => d

/-- REFERENCE_LOST (R393). -/
def execReferenceLost (s : State) : Host.Outcome State Fault Refusal := .next (onDev (fun nv d => referenceLost nv d) s)

/-- Arms `v` as the time of a coming SYNC edge (R392); true where it is accepted. -/
def armOk (v : Nat) : Bool := v % 1000000 = 0
def armTime (nv : NonVol) (v : Nat) (d : Device) : Device :=
  { d with time := { d.time with armed := some (v, nv.up), arm := v, armStage := none } }

/-- A write of TIME_ARM_HI (R392, R403, R474). -/
def timeArmHi (nv : NonVol) (p : Port) (v : Word) (d : Device) : Device :=
  let x := v.toNat * 2 ^ 32 + d.time.armStage.getD (d.time.arm % 2 ^ 32)
  if isOwner d p then
    if armOk x then armTime nv x d else { d with time := { d.time with armStage := none } }
  else denied d

/-- TIME_ARM_HI (R392). -/
def execTimeArmHi (p : Port) (v : Word) (s : State) : Host.Outcome State Fault Refusal :=
  .next (onDev (fun nv d => if hostWrites nv d p then timeArmHi nv p v d else d) s)

/-- ACCOUNTING_PERIOD (R400): a PERIODIC record for each context whose counts have changed, at a whole multiple of the
period that has not been served. -/
def accountingPeriod (nv : NonVol) (d : Device) : Device :=
  let ms := d.time.acctPeriod * 1000000
  let last := d.time.now / ms * ms
  if d.time.acctAt < last then
    let cs := (d.ctxs.filter fun e => decide (e.2.st ≠ .free ∧ e.2.acct ≠ e.2.acctLast)).map (·.1)
    cs.foldl (fun d c => acctWrite nv c 0 d) { d with time := { d.time with acctAt := last } }
  else d

/-- ACCOUNTING_PERIOD (R400). -/
def execAccountingPeriod (s : State) : Host.Outcome State Fault Refusal :=
  .next (onDev (fun nv d => accountingPeriod nv d) s)

/-- A write of TIME_ACCT_SNAP (R400, R403). -/
def acctSnap (nv : NonVol) (p : Port) (v : Word) (d : Device) : Device :=
  let c := v.toNat % 256
  if !isOwner d p then denied d
  else if bit v.toNat 8 then
    if ctxLive d c then
      acctWrite nv c 2 { d with time := { d.time with
        snapCtx := c, snapValid := true, snapSeq := wrapInc 16 d.time.snapSeq } }
    else { d with time := { d.time with snapRefused := true } }
  else { d with time := { d.time with snapCtx := c } }

/-- TIME_ACCT_SNAP (R400). -/
def execTimeAcctSnap (p : Port) (v : Word) (s : State) : Host.Outcome State Fault Refusal :=
  .next (onDev (fun nv d => if hostWrites nv d p then acctSnap nv p v d else d) s)

/-- The new κ: measured ÷ estimated in 1/4,096, from 0.5 to 2.0 (R402). With nothing estimated the spec states no quotient:
a free value within the same limits. -/
def kappaOf (measured estimate free : Nat) : Nat :=
  max 0x800 (min 0x2000 (if estimate = 0 then free else measured * 4096 / estimate))

/-- KAPPA_CALIBRATION (R402): `measured` is the energy of the die, hub and stack rails in the window, pJ. -/
def kappaCalibration (nv : NonVol) (measured : Nat) (d : Device) : Device :=
  if d.time.kappaAt + 100000000 ≤ nv.up then
    if procUp d 1 then
      drawFresh 1 { d with time := { d.time with
        kappa := kappaOf measured d.time.estimate (Config.freeWord d.fresh).toNat
        kappaWindows := satInc 16 d.time.kappaWindows, kappaAt := nv.up, estimate := 0 } }
    else { d with time := { d.time with kappaAt := nv.up, estimate := 0 } }
  else d

/-- KAPPA_CALIBRATION (R402). -/
def execKappaCalibration (measured : Nat) (s : State) : Host.Outcome State Fault Refusal :=
  .next (onDev (fun nv d => kappaCalibration nv measured d) s)

end Sys2Proof.Machine
end

