-- ==== Sys2Proof/Machine/Power.lean ====
section
/-! DEFINITION. Power sequencing, the governor, emergencies, removal and the management bus (17_module_physical R447 to R469).
Temperatures are in 0.1 °C. -/

namespace Sys2Proof.Machine

/-! ### Power sequencing (R451, R452, R467, R481) -/

/-- ALERT# is asserted (R468). -/
def alertPin (nv : NonVol) (d : Device) : Bool := nv.standby && !d.kept.mgmt.isEmpty

/-- A report of the module controller over the management bus: 1 start refused, 2 THERMAL_TRIP (R451, R458). -/
def controllerReport (code : Nat) (d : Device) : Device := mgmtPush 3 code d

/-- STANDBY_START (R451 step 1, R481): a standby power-on. -/
def standbyStart (mv : Nat) (nv : NonVol) (d : Device) : NonVol × Device :=
  if !nv.standby && decide (47000 ≤ mv) then
    ({ nv with
        standby := true, vin := mv, gens := [], removal := .idle, removalSource := 0, graceFrom := 0, cagesBefore := 0
        quiescedPin := false, prsnt := true, up := 0 }, Device.afterReset { nv with up := 0 } [] [] Kept.init)
  else (nv, d)

/-- STANDBY_START (R451). -/
def execStandbyStart (mv : Nat) (s : State) : Host.Outcome State Fault Refusal := .next (onBoth (standbyStart mv) s)

/-- What outlives main power of the values held since power-on: the messages in the module controller, which runs on
standby power (R452, log entry 41). -/
def keptMessages (d : Device) : Kept := { Kept.init with mgmt := d.kept.mgmt }

/-- The conditions of R451 step 2. -/
def startOk (mv : Nat) (inlet : Int) : Bool := decide (48000 ≤ mv ∧ mv ≤ 57000 ∧ inlet ≤ 450)

/-- MAIN_POWER_ON (R451, R464, R481): TRAY_EN is asserted. -/
def mainPowerOn (mv : Nat) (inlet : Int) (passed : List Nat) (nv : NonVol) (d : Device) : NonVol × Device :=
  if !nv.standby || nv.trayEn then (nv, d)
  else
    let nv := { nv with trayEn := true, vin := mv }
    if startOk mv inlet then
      let nv := { nv with
        mainOn := true, pg := true, pcycReq := false, removal := .idle, removalSource := 0, quiescedPin := false }
      (nv, checkReplace nv <| emergencyStays d (retiredHealth nv (withholdSpares passed (Device.afterReset nv [] [] (keptMessages d)))))
    else (nv, controllerReport 1 d)

/-- MAIN_POWER_ON (R451). -/
def execMainPowerOn (mv : Nat) (start : StartSeen) (s : State) : Host.Outcome State Fault Refusal :=
  .next (onBoth (mainPowerOn mv start.inlet start.passed) s)

/-- Main power goes: every content is lost (R452, R453). -/
def mainOff (nv : NonVol) (d : Device) : NonVol × Device :=
  if nv.mainOn then
    ({ nv with mainOn := false, pg := false, pcycReq := false },
      emergencyStays d (Device.afterReset nv [] [] (keptMessages d)))
  else (nv, d)

/-- MAIN_POWER_OFF (R452): TRAY_EN deasserted, or VIN below 46 V. -/
def mainPowerOff (mv : Option Nat) (nv : NonVol) (d : Device) : NonVol × Device :=
  match mv with
  | none => mainOff { nv with trayEn := false } d
  | some v => if v < 46000 then mainOff { nv with vin := v } d else (nv, d)

/-- MAIN_POWER_OFF (R452). -/
def execMainPowerOff (mv : Option Nat) (s : State) : Host.Outcome State Fault Refusal := .next (onBoth (mainPowerOff mv) s)

/-- STANDBY_STOP (R452): the module controller stops as well, and with it all that it holds. -/
def standbyStop (mv : Nat) (nv : NonVol) (d : Device) : NonVol × Device :=
  if mv < 42000 ∧ nv.standby then
    let nv := { nv with standby := false, vin := mv }
    ({ nv with mainOn := false, pg := false, pcycReq := false }, Device.afterReset nv [] [] Kept.init)
  else (nv, d)

/-- STANDBY_STOP (R452). -/
def execStandbyStop (mv : Nat) (s : State) : Host.Outcome State Fault Refusal := .next (onBoth (standbyStop mv) s)

/-- MODULE_PULLED (R467). -/
def modulePulled (nv : NonVol) (d : Device) : NonVol × Device :=
  mainOff { nv with prsnt := false } d

/-- MODULE_PULLED (R467). -/
def execModulePulled (s : State) : Host.Outcome State Fault Refusal := .next (onBoth modulePulled s)

/-- THERMAL_TRIP (R458). -/
def thermalTrip (junction stack : Int) (nv : NonVol) (d : Device) : NonVol × Device :=
  if nv.mainOn ∧ (1100 ≤ junction ∨ 1000 ≤ stack) then
    let r := mainOff nv d
    (r.1, controllerReport 2 r.2)
  else (nv, d)

/-- THERMAL_TRIP (R458). -/
def execThermalTrip (junction stack : Int) (s : State) : Host.Outcome State Fault Refusal :=
  .next (onBoth (thermalTrip junction stack) s)

/-! ### The governor (R454 to R459) -/

/-- The largest clock that half `h` may have, temperature apart (R454). -/
def clockCap (w : Pwr) (h : Nat) : Nat :=
  if w.safe then 400 else max 400 (min (ceiling w h) (smGet w.dieCap 1600 h))

/-- The clock of half `h` becomes `mhz`; a change is counted and logged (R419, R472). -/
def clockSet (nv : NonVol) (h mhz : Nat) (d : Device) : Device :=
  let was := halfMhz d h
  let d := { d with pwr := { d.pwr with
    mhz := smPut d.pwr.mhz 1600 h mhz, reason := smPut d.pwr.reason 0 h (clockReason d.pwr h) } }
  if mhz = was then d
  else
    logPoint nv 1 1 0 0x6001 h mhz (pwrCount 1 { d with pwr := { d.pwr with stepAt := smPut d.pwr.stepAt 0 h nv.up } })

/-- The die limit's hold on half `h` (R455): one step down for the half that draws more while the limit is exceeded, one
step up once the die has stayed below 95 % of it for 1 ms. -/
def dieStep (up h dieW : Nat) (drawsMore : Bool) (w : Pwr) : Pwr :=
  let cap := smGet w.dieCap 1600 h
  let low := if dieW * 100 < w.dieLimit * 95 then some (w.dieLow.getD up) else none
  let cap' :=
    if w.dieLimit < dieW then (if drawsMore then max 400 (smGet w.mhz 1600 h - 50) else cap)
    else if (low.map fun t => decide (t + 1000000 ≤ up)).getD false then min 1600 (cap + 50)
    else cap
  { w with dieCap := smPut w.dieCap 1600 h cap', dieLow := low }

/-- Junction temperature `t` of half `h` is measured (R454, R472). -/
def junctionSeen (h : Nat) (t : Int) (d : Device) : Device :=
  let hot := if 950 < t then true else if t < 900 then false else smGet d.pwr.hot false h
  let temp := smPut d.pwr.temp 0 (1 + h) t
  let temp := smPut temp 0 0 (max (smGet temp 0 1) (smGet temp 0 2))
  let top (m : SMap Int) (k : Nat) : SMap Int := smPut m 0 k (max (smGet m 0 k) (smGet temp 0 k))
  { d with
    pwr := { d.pwr with hot := smPut d.pwr.hot false h hot, temp := temp }
    kept := { d.kept with tempMax := top (top d.kept.tempMax 0) (1 + h) } }

/-- The next clock of half `h`: at most one step (R454). -/
def clockNext (w : Pwr) (h : Nat) (junction : Int) : Nat :=
  let now := smGet w.mhz 1600 h
  let cap := clockCap w h
  if w.safe then 400
  else if cap < now then max cap (now - 50)
  else if 950 < junction then max 400 (now - 50)
  else if now < cap ∧ !smGet w.hot false h then min cap (now + 50)
  else now

/-- GOVERNOR_STEP (R454, R455): at most one step of a half in 20 µs. -/
def governorStep (h : Nat) (junction : Int) (dieW : Nat) (drawsMore : Bool) (nv : NonVol) (d : Device) : Device :=
  if !nv.mainOn || decide (nv.up < smGet d.pwr.stepAt 0 h + 20000) then d
  else
    let d := junctionSeen h junction d
    let d := { d with pwr := dieStep nv.up h dieW drawsMore d.pwr }
    clockSet nv h (clockNext d.pwr h junction) d

/-- GOVERNOR_STEP (R454). -/
def execGovernorStep (h : HalfNo) (junction : Int) (dieW : Nat) (drawsMore : Bool) (s : State) :
    Host.Outcome State Fault Refusal :=
  .next (onDev (governorStep h.val junction dieW drawsMore) s)

/-- One partition's window (R456): the share of cycles held off is the governor's own, at most 3 in 4: a free value. -/
def powerOne (p est : Nat) (d : Device) : Device :=
  let limit := ((partGet d p).map (·.powerW)).getD 0
  let share := if limit ≠ 0 ∧ limit < est then 1 + (Config.freeWord d.fresh).toNat % 75 else 0
  drawFresh 1 { d with pwr := { d.pwr with part := smPut d.pwr.part (0, 0) p (share, min 65535 est) } }

/-- POWER_WINDOW (R456): the estimates of the partitions that exist. -/
def powerWindow (est : List (Nat × Nat)) (nv : NonVol) (d : Device) : Device :=
  if nv.mainOn then (est.filter fun e => (partGet d e.1).isSome).foldl (fun d e => powerOne e.1 e.2 d) d else d

/-- POWER_WINDOW (R456). -/
def execPowerWindow (est : List (Nat × Nat)) (s : State) : Host.Outcome State Fault Refusal :=
  .next (onDev (powerWindow est) s)

/-- EMERGENCY_FLAG_RAISED (R457, R471). Without main power there is no clock to set and no ring for the event. -/
def emergencyFlag (i : Nat) (nv : NonVol) (d : Device) : Device :=
  if !nv.standby && !nv.mainOn then d
  else
    let began := !d.pwr.emergency
    let d := { d with pwr := { d.pwr with
      flags := putBit d.pwr.flags i true, emergency := true, safe := true, clearFrom := nv.up } }
    if !nv.mainOn then d
    else
      let d := clockSet nv 1 400 (clockSet nv 0 400 d)
      if began then raiseEv nv 0x60 none d.pwr.flags 0 (pwrCount 0 d) else d

/-- EMERGENCY_FLAG_RAISED (R457). -/
def execEmergencyFlagRaised (i : Fin 6) (s : State) : Host.Outcome State Fault Refusal :=
  .next (onDev (emergencyFlag i.val) s)

/-- EMERGENCY_END (R457, R416): every flag has been clear for 100 ms. -/
def emergencyEnd (nv : NonVol) (d : Device) : Device :=
  if d.pwr.emergency ∧ d.pwr.flags = 0 ∧ d.pwr.clearFrom + 100000000 ≤ nv.up then
    let d := safeRelease { d with pwr := { d.pwr with emergency := false } }
    if nv.mainOn then raiseEv nv 0x60 none 0 1 d else d
  else d

/-- EMERGENCY_END (R457). -/
def execEmergencyEnd (s : State) : Host.Outcome State Fault Refusal := .next (onDev emergencyEnd s)

/-- MARGIN_EXHAUSTED (R460): bit 0 for temperature, bit 1 for the voltage table. A bit that is set stays. -/
def marginExhausted (m : MarginSeen) (nv : NonVol) (d : Device) : Device :=
  let bits := d.kept.margin ||| pack [(0, 1, b2n (decide (3600000 < m.belowMs))), (1, 1, b2n m.highest)]
  if nv.mainOn then checkReplace nv { d with kept := { d.kept with margin := bits } } else d

/-- MARGIN_EXHAUSTED (R460). -/
def execMarginExhausted (m : MarginSeen) (s : State) : Host.Outcome State Fault Refusal := .next (onDev (marginExhausted m) s)

/-! ### Removal (R463 to R466) -/

/-- REMOVAL (R471): new state and source; without main power there is no ring to write it to. -/
def removalEvent (st : Removal) (source : Nat) (nv : NonVol) (d : Device) : Device :=
  if nv.mainOn then raiseEv nv 0x61 none (pack [(0, 2, removalCode st), (2, 2, source)]) 0 d else d

/-- A request of removal (R464): source 0 button, 1 owner, 2 tray. -/
def removalRequest (source : Nat) (nv : NonVol) (d : Device) : NonVol × Device :=
  if nv.removal = .idle then
    ({ nv with removal := .pending, removalSource := source, graceFrom := nv.up }, removalEvent .pending source nv d)
  else (nv, d)

/-- Steps 3 and 4 of R465, once an application and an activation in progress have completed (step 2). -/
def quiesceWork (nv : NonVol) (d : Device) : Device :=
  if nv.removal ≠ .quiescing ∨ (d.frames.apps.any fun a => a.frame.isSome) ∨ d.fw.acting.isSome then d
  else
    let cs := (d.ctxs.map (·.1)).filter (ctxLive d)
    let d := cs.foldl (fun d c => startTeardown nv c 0 none d) d
    ((List.range 8).filter fun g => (cageGet d g).st ≠ .disabled).foldl
      (fun d g => cageGo nv g .disabled 0 1 (cageMod g (fun x => { x with en := false }) d)) d

/-- R465 begins: a deferred activation is abandoned, and the cages' ENABLE values are kept. -/
def quiesceBegin (nv : NonVol) (d : Device) : NonVol × Device :=
  let nv := { nv with
    removal := .quiescing, cagesBefore := ofBits ((List.range 8).filter fun g => (cageGet d g).en) }
  let d := match d.fw.deferred with
    | some tag => fwDone nv tag stState { d with fw := { d.fw with deferred := none } }
    | none => d
  (nv, quiesceWork nv d)

/-- Quiescing at once (R464). -/
def quiesceAsked (source : Nat) (nv : NonVol) (d : Device) : NonVol × Device :=
  match nv.removal with
  | .idle => quiesceBegin { nv with removalSource := source } (removalEvent .quiescing source nv d)
  | .pending => quiesceBegin nv d
  | .quiescing | .quiesced => (nv, d)

/-- A cage takes its previous ENABLE value (R464). -/
def cageRestore (nv : NonVol) (g : Nat) (d : Device) : Device :=
  let x := cageGet d g
  if bit nv.cagesBefore g ∧ !x.en then
    let d := cageMod g (fun x => { x with en := true }) d
    if x.st = .disabled then cageGo nv g (if x.present then .present else .empty) 0 0 d else d
  else d

/-- Removal is cancelled (R464). -/
def removalCancel (source : Nat) (nv : NonVol) (d : Device) : NonVol × Device :=
  if nv.removal = .idle then (nv, d)
  else
    let d := if nv.removal = .pending then d else (List.range 8).foldl (fun d g => cageRestore nv g d) d
    ({ nv with removal := .idle, quiescedPin := false },
      pwrCount 4 (removalEvent .idle source nv d))

/-- SHORT_PRESS (R463): held for 50 ms to 2 s. -/
def shortPress (ms : Nat) (nv : NonVol) (d : Device) : NonVol × Device :=
  if nv.standby ∧ 50 ≤ ms ∧ ms ≤ 2000 then removalRequest 0 nv (pwrCount 2 d) else (nv, d)

/-- SHORT_PRESS (R463). -/
def execShortPress (ms : Nat) (s : State) : Host.Outcome State Fault Refusal := .next (onBoth (shortPress ms) s)

/-- LONG_PRESS (R463): held for 5 s. -/
def longPress (ms : Nat) (nv : NonVol) (d : Device) : NonVol × Device :=
  if nv.standby ∧ 5000 ≤ ms then removalCancel 0 nv (pwrCount 3 d) else (nv, d)

/-- LONG_PRESS (R463). -/
def execLongPress (ms : Nat) (s : State) : Host.Outcome State Fault Refusal := .next (onBoth (longPress ms) s)

/-- The action bits of a write of PWR_REMOVE by port `p`, in the order CANCEL, QUIESCE_NOW, REQUEST (R464, log entry 12). -/
def removeBits (p : Port) (bits : Nat) (nv : NonVol) (d : Device) : NonVol × Device :=
  if !isOwner d p then (nv, denied d)
  else
    let r := if bit bits 2 then removalCancel 1 nv d else (nv, d)
    let r := if bit bits 1 then quiesceAsked 1 r.1 r.2 else r
    if bit bits 0 then removalRequest 1 r.1 r.2 else r

/-- REQUEST (R464). -/
def execRequest (p : Port) (s : State) : Host.Outcome State Fault Refusal :=
  .next (onBoth (fun nv d => if hostWrites nv d p then removeBits p 1 nv d else (nv, d)) s)

/-- QUIESCE_NOW (R464). -/
def execQuiesceNow (p : Port) (s : State) : Host.Outcome State Fault Refusal :=
  .next (onBoth (fun nv d => if hostWrites nv d p then removeBits p 2 nv d else (nv, d)) s)

/-- CANCEL (R464). -/
def execCancel (p : Port) (s : State) : Host.Outcome State Fault Refusal :=
  .next (onBoth (fun nv d => if hostWrites nv d p then removeBits p 4 nv d else (nv, d)) s)

/-- GRACE_TIMEOUT (R464). -/
def graceTimeout (nv : NonVol) (d : Device) : NonVol × Device :=
  if nv.removal = .pending ∧ nv.graceFrom + d.pwr.graceS * 1000000000 ≤ nv.up then quiesceBegin nv d else (nv, d)

/-- GRACE_TIMEOUT (R464). -/
def execGraceTimeout (s : State) : Host.Outcome State Fault Refusal := .next (onBoth graceTimeout s)

/-- R465 is complete: no context but in its quiescence epoch, every cage disabled, no write held back; after a chip reset,
HELD or RECOVERY has been reached (log entry 128). Without main power it has nothing to do. -/
def quiesceDone (nv : NonVol) (d : Device) : Bool :=
  !nv.mainOn || decide (d.fw.mode ≠ .booting) && d.fw.acting.isNone && !(d.frames.apps.any fun a => a.frame.isSome) &&
    (d.ctxs.all fun e => decide (e.2.st = .free ∨ e.2.st = .quiescing)) &&
    ((List.range 8).all fun g => (cageGet d g).st = .disabled) &&
    d.clus.all fun e => e.2.writes.isEmpty && e.2.wtags.isEmpty && e.2.combining.isEmpty

/-- QUIESCE_COMPLETE (R464, R465). -/
def quiesceComplete (nv : NonVol) (d : Device) : NonVol × Device :=
  let d := quiesceWork nv d
  if nv.removal = .quiescing ∧ quiesceDone nv d then
    ({ nv with removal := .quiesced, quiescedPin := true }, removalEvent .quiesced nv.removalSource nv d)
  else (nv, d)

/-- QUIESCE_COMPLETE (R465). -/
def execQuiesceComplete (s : State) : Host.Outcome State Fault Refusal := .next (onBoth quiesceComplete s)

/-! ### Management commands (R468) -/

/-- The words of a response; the spec gives SET_TIME's no code: 1 accepted, 0 refused (log entry 13). -/
def respond (l : List Nat) (d : Device) : Device := { d with pwr := { d.pwr with response := l.map w32 } }

/-- SET_TIME (R392, R468): without main power there is no counter to arm, and it is refused. -/
def setTime (ns : Nat) (nv : NonVol) (d : Device) : Device :=
  if !nv.standby then d
  else if nv.mainOn && armOk ns then respond [1] (armTime nv ns d)
  else respond [0] d

/-- SET_TIME (R468). -/
def execSetTime (ns : Nat) (s : State) : Host.Outcome State Fault Refusal := .next (onDev (setTime ns) s)

/-- GET_STATUS (R468). -/
def getStatus (nv : NonVol) (d : Device) : Device :=
  if !nv.standby then d
  else if nv.mainOn then
    respond [pwrStatus nv d, fltReg nv d 0x20, fwState nv d, timeReg nv d 8] d
  else respond [pwrStatus nv d, 0, 0, 0] d

/-- GET_STATUS (R468). -/
def execGetStatus (s : State) : Host.Outcome State Fault Refusal := .next (onDev getStatus s)

/-- REMOVAL (R464, R468): 0 cancel, 1 request, 2 quiesce; the response is the new removal state. -/
def removalCmd (code : Nat) (nv : NonVol) (d : Device) : NonVol × Device :=
  if !nv.standby then (nv, d)
  else
    let r := match code with
      | 0 => removalCancel 2 nv d
      | 1 => removalRequest 2 nv d
      | 2 => quiesceAsked 2 nv d
      | _ => (nv, d)
    (r.1, respond [removalCode r.1.removal] r.2)

/-- REMOVAL (R468). -/
def execRemoval (code : Nat) (s : State) : Host.Outcome State Fault Refusal := .next (onBoth (removalCmd code) s)

end Sys2Proof.Machine
end

