-- ==== Sys2Proof/Machine/Registers.lean ====
section
/-! DEFINITION. Register writes through BAR0, by block, and register reads with the capture of split values (R13 to R17, R24, R245,
R246, R296, R330, R349, R353, R375, R376, R403, R420, R445, R472, R474). -/

namespace Sys2Proof.Machine

/-! ### Writes of the owner, by block -/

/-- OWN (R375): OWN_LOSS_MS is refused outside 100 to 60,000. -/
def ownPut (o v : Nat) (d : Device) : Device :=
  let ms := v % 65536
  if o = 0xC ∧ 100 ≤ ms ∧ ms ≤ 60000 then { d with own := { d.own with lossMs := ms } } else d

/-- A new accounting period applies from the next whole multiple of it (R403): one that has passed counts as served. -/
def acctPeriodPut (ms : Nat) (t : Time) : Time :=
  { t with acctPeriod := ms, acctAt := max t.acctAt (t.now / (ms * 1000000) * (ms * 1000000)) }

/-- TIME (R403). -/
def timePut (nv : NonVol) (p : Port) (o : Nat) (v : Word) (d : Device) : Device :=
  let n := v.toNat
  let put (t : Time) : Device := { d with time := t }
  if o = 0x10 then put { d.time with armStage := some n }
  else if o = 0x14 then timeArmHi nv p v d
  else if o = 0x18 then put { d.time with syncDelay := n % 65536 }
  else if o = 0x20 then if 10 ≤ n % 2048 ∧ n % 2048 ≤ 2000 then put (acctPeriodPut (n % 2048) d.time) else d
  else if o = 0x24 then acctSnap nv p v d
  else if o = 0x28 then if bit n 2 then put { d.time with snapRefused := false } else d
  else d

/-- The lower or the upper half of a ring's base is written; `base` counts 4 KiB. -/
def baseHalf (hi : Bool) (n base : Nat) : Nat :=
  if hi then n % 4096 * 2 ^ 20 + base % 2 ^ 20 else base / 2 ^ 20 * 2 ^ 20 + n / 4096 % 2 ^ 20

/-- A base register of the admin ring, refused while it is enabled or draining (R376). -/
def adminBase (hi : Bool) (n : Nat) (d : Device) : Device :=
  let r := d.rings.admin
  if r.en ∨ r.draining then d else { d with rings := { d.rings with admin := { r with base := baseHalf hi n r.base } } }

/-- A base register of device ring `k`, refused while it is enabled (R376). -/
def devBase (k : Nat) (hi : Bool) (n : Nat) (d : Device) : Device :=
  if (devRing d k).en then d else devRingMod k (fun r => { r with base := baseHalf hi n r.base }) d

/-- RING_APER_CTRL and RING_APER_LO (R376, R474): MODE 3 is refused, and LO is staged. -/
def aperPut (q a f n : Nat) (d : Device) : Device :=
  if f = 0 then
    if n % 4 = 3 then d else aperMod q a (fun x => { x with mode := n % 4, write := bit n 2, ctx := fld n 8 8 }) d
  else if f = 4 then aperMod q a (fun x => { x with stage := some (fld n 21 11 * 2 ^ 21) }) d
  else d

/-- RING but for doorbells and heads (R376). -/
def ringPut (nv : NonVol) (p : Port) (o : Nat) (v : Word) (d : Device) : Device :=
  let n := v.toNat
  if o = 0 then adminBase false n d
  else if o = 4 then adminBase true n d
  else if o = 8 then ringCtrlWrite nv p 0 v d
  else if 0x100 ≤ o ∧ o < 0x160 then
    let k := (o - 0x100) / 0x20
    let f := o % 0x20
    if f = 0 then devBase k false n d
    else if f = 4 then devBase k true n d
    else if f = 8 then devCtrl nv k n d
    else d
  else if 0x400 ≤ o ∧ o < 0x800 then
    let q := (o - 0x400) / 0x100
    let a := o % 0x100 / 0x10
    if o % 0x10 = 8 then aperHi p ⟨q % 4, Nat.mod_lt _ (by decide)⟩ ⟨a % 16, Nat.mod_lt _ (by decide)⟩ v d
    else aperPut q a (o % 0x10) n d
  else d

/-- FW (R420). -/
def fwPut (o n : Nat) (d : Device) : Device :=
  if o = 0x200 then { d with fw := { d.fw with logLevel := n % 4 } }
  else if o = 0x204 then { d with fw := { d.fw with traceMask := n % 65536 } }
  else d

/-- PART (R349). -/
def partPut (o n : Nat) (d : Device) : Device := if o = 0x400 then { d with frames := { d.frames with ctxSel := n % 256 } } else d

/-- MEM_SET_MASK, MEM_SET_RANGE and MEM_SET_CTRL of set `i` (R245, R246). -/
def setPut (nv : NonVol) (i f n : Nat) (d : Device) : Device :=
  let s := setGet d.mem i
  let put (g : StripeSet → StripeSet) : Device :=
    if s.valid ∨ s.draining then setMod i (fun s => { s with error := 1 }) d else setMod i (fun s => { g s with error := 0 }) d
  if f = 0 then put fun s => { s with mask := n }
  else if f = 4 then put fun s => { s with base := fld n 0 15, size := fld n 16 15 }
  else if f = 8 then setCtrl nv i n d
  else d

/-- MEM (R226, R245). -/
def memPut (nv : NonVol) (o n : Nat) (d : Device) : Device :=
  if o = 4 then if 1 ≤ n % 32 ∧ n % 32 ≤ 20 then memMod (fun m => { m with quota := n % 32 }) d else d
  else if o = 0x10 then memMod (fun m => { m with dumpStage := some (fld n 21 11 * 2 ^ 21) }) d
  else if o = 0x14 then dumpHi n d
  else if o = 0x18 then memMod (fun m => { m with synStage := some (fld n 17 15 * 2 ^ 17) }) d
  else if o = 0x1C then synlogHi n d
  else if o = 0x40 then memMod (fun m => { m with invCtx := n % 256, invAll := bit n 8 }) d
  else if o = 0x44 then memMod (fun m => { m with invVa := m.invVa / 2 ^ 32 * 2 ^ 32 + fld n 21 11 * 2 ^ 21 }) d
  else if o = 0x48 then memMod (fun m => { m with invVa := n % 2 ^ 20 * 2 ^ 32 + m.invVa % 2 ^ 32 }) d
  else if o = 0x4C then memMod (fun m => { m with invCount := n }) d
  else if o = 0x50 then invalGo n d
  else if o = 0x54 then if bit n 1 then memMod (fun m => { m with invRefused := false }) d else d
  else if 0x100 ≤ o ∧ o < 0x180 then setPut nv ((o - 0x100) / 0x10) (o % 0x10) n d
  else if o = 0x600 then bankSel n d
  else d

/-- LINK (R269, R273, R296): the module's addresses are refused unless every cage is DISABLED. -/
def linkPut (nv : NonVol) (p : Port) (o : Nat) (v : Word) (d : Device) : Device :=
  let n := v.toNat
  let still := (List.range 8).all fun g => (cageGet d g).st = .disabled
  let put (l : Link) : Device := { d with link := l }
  if o = 0 then if still then put { d.link with node := n % 1024 } else d
  else if o = 4 then
    if still then put { d.link with fabric := n % 256, vlan := bit n 16, pcp := fld n 17 3, vid := fld n 20 12 } else d
  else if o = 8 then if still then put { d.link with etherType := n % 65536 } else d
  else if o = 0x10 then put { d.link with wintabStage := some (fld n 22 10 * 2 ^ 22) }
  else if o = 0x14 then wintabHi p v d
  else if o = 0x20 then put { d.link with routeIdx := n % 1024 }
  else if o = 0x24 then put { d.link with routes := smPut d.link.routes 0 d.link.routeIdx n }
  else if o = 0x28 then put { d.link with delayMark := n % 65536 }
  else if 0x100 ≤ o ∧ o < 0x300 ∧ o % 0x40 = 0 then cageCtrl nv p ⟨(o - 0x100) / 0x40 % 8, Nat.mod_lt _ (by decide)⟩ v d
  else d

/-- COLL (R330). -/
def collPut (o n : Nat) (d : Device) : Device :=
  if o = 0 then if n % 2 ^ 24 = 0 then d else { d with coll := { d.coll with stragglerMs := n % 2 ^ 24 } }
  else if o = 0x10 then { d with coll := { d.coll with ctxSel := n % 256 } }
  else d

/-- Units of each kind (R434). -/
def unitsOfKind (kind : Nat) : Nat := if kind = 0 then 768 else if kind = 1 then 2304 else if kind = 2 then 64 else 32

/-- FLT (R432, R436, R445). -/
def fltPut (p : Port) (o : Nat) (v : Word) (d : Device) : Device :=
  let n := v.toNat
  let put (f : Flt) : Device := { d with flt := f }
  if o = 0 then put { d.flt with logStage := some (fld n 18 14 * 2 ^ 18) }
  else if o = 4 then fltLogHi p v d
  else if o = 0x10 then if bit n 0 then { d with kept := { d.kept with dumpLock := false } } else d
  else if o = 0x24 then
    if 1 ≤ n % 65536 ∧ n % 65536 ≤ 720 then put { d.flt with testPeriod := n % 65536 } else d
  else if o = 0x30 then
    if n % 16 ≤ 3 ∧ fld n 4 12 < unitsOfKind (n % 16) then put { d.flt with selKind := n % 16, selId := fld n 4 12 } else d
  else if o = 0x40 then put { d.flt with fuseSel := n % 256 }
  else d

/-- PWR but for PWR_REMOVE (R455, R462, R472). -/
def pwrPut (o n : Nat) (d : Device) : Device :=
  let put (w : Pwr) : Device := { d with pwr := w }
  if o = 0x10 ∨ o = 0x14 then
    let mhz := fld n 16 11
    if mhz % 50 = 0 ∧ 400 ≤ mhz ∧ mhz ≤ 1600 then put { d.pwr with ceil := smPut d.pwr.ceil 1600 ((o - 0x10) / 4) mhz } else d
  else if o = 0x18 then if 400 ≤ n % 2048 ∧ n % 2048 ≤ 1150 then put { d.pwr with dieLimit := n % 2048 } else d
  else if o = 0x204 then put { d.pwr with locate := bit n 0 }
  else d

/-- PWR_REMOVE (R464, R472): refused whole above 600 s of grace; GRACE_S first, then the action bits (log entry 12). -/
def removePut (p : Port) (n : Nat) (nv : NonVol) (d : Device) : NonVol × Device :=
  if 600 < fld n 16 10 then (nv, d)
  else removeBits p (n % 8) nv { d with pwr := { d.pwr with graceS := fld n 16 10 } }

/-! ### REGISTER_WRITE -/

/-- A write of the owner at BAR0 offset `off` outside the doorbells and PWR_REMOVE. Reserved space and read-only fields ignore it
(R15, R24). -/
def ownerPut (nv : NonVol) (p : Port) (off : Nat) (v : Word) (d : Device) : Device :=
  let n := v.toNat
  if off < 0x10000 then d
  else if off < 0x20000 then ownPut (off - 0x10000) n d
  else if off < 0x40000 then timePut nv p (off - 0x20000) v d
  else if off < 0x100000 then ringPut nv p (off - 0x40000) v d
  else if off < 0x200000 then fwPut (off - 0x100000) n d
  else if off < 0x400000 then partPut (off - 0x200000) n d
  else if off < 0x600000 then memPut nv (off - 0x400000) n d
  else if off < 0x700000 then linkPut nv p (off - 0x600000) v d
  else if off < 0x800000 then collPut (off - 0x700000) n d
  else if off < 0xA00000 then fltPut p (off - 0x800000) v d
  else if off < 0xB00000 then pwrPut (off - 0xA00000) n d
  else d

/-- The doorbell at a BAR0 offset (R358, R376): none = the admin ring's. -/
def bellAt (off : Nat) : Option (Option CtxNo) :=
  if off = 0x4000C then some none
  else if 0x50000 ≤ off ∧ off < 0x51000 ∧ off % 0x10 = 0 then
    some (some ⟨(off - 0x50000) / 0x10 % 256, Nat.mod_lt _ (by decide)⟩)
  else none

/-- The head register at a BAR0 offset (R359, R376). -/
def headAt (off : Nat) : Option (CtxNo ⊕ Fin 4) :=
  if off = 0x40010 then some (.inr 0)
  else if 0x40100 ≤ off ∧ off < 0x40160 ∧ off % 0x20 = 0xC then
    some (.inr ⟨((off - 0x40100) / 0x20 + 1) % 4, Nat.mod_lt _ (by decide)⟩)
  else if 0x50000 ≤ off ∧ off < 0x51000 ∧ off % 0x10 = 4 then
    some (.inl ⟨(off - 0x50000) / 0x10 % 256, Nat.mod_lt _ (by decide)⟩)
  else none

/-- A 32-bit write of port `p` at `off` (R353): OWN_CLAIM from any port, doorbells and heads by their own rights, everything else
from the owner's port. -/
def regWrite (p : Port) (off : Nat) (v : Word) (nv : NonVol) (d : Device) : NonVol × Device :=
  match bellAt off, headAt off with
  | some r, _ => (nv, bellWrite p r v d)
  | _, some r => (nv, headPut nv p r v d)
  | none, none =>
    if off = 0x10004 then (nv, claimWrite nv p v d)
    else if !isOwner d p then (nv, denied d)
    else if off = 0xA00200 then removePut p v.toNat nv d
    else (nv, ownerPut nv p off v d)

/-- REGISTER_WRITE (R13, R16): aligned 32-bit writes; a narrower one is discarded. -/
def execRegisterWrite (p : Port) (off size : Nat) (v : Word) (s : State) : Host.Outcome State Fault Refusal :=
  .next (onBoth (fun nv d => if hostWrites nv d p ∧ size = 4 ∧ off % 4 = 0 then regWrite p off v nv d else (nv, d)) s)

/-! ### Reads and captures (R14, R17) -/

/-- The _LO registers of split values, by BAR0 offset; each _HI lies 4 bytes on (R17). -/
def loRegister (off : Nat) : Bool :=
  [0x20000, 0x20010, 0x20030, 0x40000, 0x40100, 0x40120, 0x40140, 0x200004, 0x400010, 0x400018, 0x400044, 0x600010, 0x800000,
    0x800014].contains off ||
    (decide (0x20100 ≤ off ∧ off < 0x20200) && off % 0x10 == 4) || (decide (0x40400 ≤ off ∧ off < 0x40800) && off % 0x10 == 4) ||
    (decide (0xA00080 ≤ off ∧ off < 0xA000C0) && off % 8 == 0)

/-- A read of port `p` of the word at offset `off`: its value, and the capture it makes or uses up (R14, R17). -/
def hostReadReg (nv : NonVol) (p : Port) (off : Nat) (d : Device) : Device :=
  let live (o : Nat) : Word := w32 (regVal nv d p.val o)
  let value := if 4 ≤ off ∧ loRegister (off - 4) then captureGet p.val off (live off) d else live off
  let d := { d with rings := { d.rings with readValue := value } }
  if loRegister off then capturePut p.val (off + 4) (live (off + 4)) d
  else if 4 ≤ off ∧ loRegister (off - 4) then captureDrop p.val off d
  else d

/-- The port can read at `off`: until HELD only the DEV block answers (R405). -/
def hostReads (nv : NonVol) (d : Device) (p : Port) (off : Nat) : Bool := hostUp nv d p && (decide (off < 0x10000) || d.fw.mode ≠ .booting)

/-- What a read of a split register by core `j` of cluster `k` captures or uses up: CYCLE_LO and CYCLE_HI by their CSR numbers, the digest
window by core address (R17, R140, R179). -/
def coreCapture (k j a : Nat) (d : Device) : Device :=
  if a = 1 ∨ a = 2 then csrCapture k j a d else loadCapture k j a d

/-- A read of `size` bytes at offset `off`: the word is read, and a narrower read returns the addressed bytes of its value (R16). -/
def hostReadPart (nv : NonVol) (p : Port) (off size : Nat) (d : Device) : Device :=
  let d := hostReadReg nv p (off / 4 * 4) d
  { d with rings := { d.rings with readValue := w32 (fld d.rings.readValue.toNat (8 * (off % 4)) (8 * size)) } }

/-- CAPTURE (R16, R17): an aligned read of 1, 2 or 4 bytes by a host port, or a read by a core. -/
def execCapture (r : Port ⊕ (CluNo × CoreNo)) (a : ReadAt) (s : State) : Host.Outcome State Fault Refusal :=
  .next (onDev (fun nv d =>
    match r with
    | .inl p =>
      if hostReads nv d p a.off ∧ (a.size = 1 ∨ a.size = 2 ∨ a.size = 4) ∧ a.off % a.size = 0 then hostReadPart nv p a.off a.size d else d
    | .inr (k, j) => coreCapture k.val j.val a.off d) s)

end Sys2Proof.Machine
end

