-- ==== Sys2Proof/Machine/Dispatch.lean ====
section
/-! DEFINITION. What each command does to everything but the queue: one arm for each command. -/

namespace Sys2Proof.Machine

def exec (i : Instr) (s : State) : Host.Outcome State Fault Refusal :=
  match i with
  | .identify t => Sys2Proof.Machine.execIdentify t s
  | .version t => Sys2Proof.Machine.execVersion t s
  | .ctxCreate t => Sys2Proof.Machine.execCtxCreate t s
  | .ctxDestroy t => Sys2Proof.Machine.execCtxDestroy t s
  | .ctxGrant t => Sys2Proof.Machine.execCtxGrant t s
  | .windowOpen t => Sys2Proof.Machine.execWindowOpen t s
  | .windowRevoke t => Sys2Proof.Machine.execWindowRevoke t s
  | .keyWrite t => Sys2Proof.Machine.execKeyWrite t s
  | .frameStage t => Sys2Proof.Machine.execFrameStage t s
  | .frameApply t => Sys2Proof.Machine.execFrameApply t s
  | .frameApplicationStart => Sys2Proof.Machine.execFrameApplicationStart s
  | .handover t => Sys2Proof.Machine.execHandover t s
  | .fence t => Sys2Proof.Machine.execFence t s
  | .fenceContext t => Sys2Proof.Machine.execFenceContext t s
  | .reclaim t => Sys2Proof.Machine.execReclaim t s
  | .reclaimComplete p => Sys2Proof.Machine.execReclaimComplete p s
  | .sliceTable t => Sys2Proof.Machine.execSliceTable t s
  | .fwStage t => Sys2Proof.Machine.execFwStage t s
  | .fwActivate t => Sys2Proof.Machine.execFwActivate t s
  | .deferredActivationStart => Sys2Proof.Machine.execDeferredActivationStart s
  | .stackRetire t => Sys2Proof.Machine.execStackRetire t s
  | .fuseWrite t => Sys2Proof.Machine.execFuseWrite t s
  | .testPackage t => Sys2Proof.Machine.execTestPackage t s
  | .escalate t => Sys2Proof.Machine.execEscalate t s
  | .submit t => Sys2Proof.Machine.execSubmit t s
  | .submitGateOpen t => Sys2Proof.Machine.execSubmitGateOpen t s
  | .collective t => Sys2Proof.Machine.execCollective t s
  | .idleWindows t => Sys2Proof.Machine.execIdleWindows t s
  | .entryTake ring => Sys2Proof.Machine.execEntryTake ring s
  | .claim p v => Sys2Proof.Machine.execClaim p v s
  | .portLost p => Sys2Proof.Machine.execPortLost p s
  | .lossTimeout => Sys2Proof.Machine.execLossTimeout s
  | .handoverTimeout => Sys2Proof.Machine.execHandoverTimeout s
  | .drainEnd => Sys2Proof.Machine.execDrainEnd s
  | .doorbell p ring v => Sys2Proof.Machine.execDoorbell p ring v s
  | .headWrite p ring v => Sys2Proof.Machine.execHeadWrite p ring v s
  | .ringCtrl p ring v => Sys2Proof.Machine.execRingCtrl p ring v s
  | .apertureAccess p a off len data => Sys2Proof.Machine.execApertureAccess p a off len data s
  | .ringAperHi p q a v => Sys2Proof.Machine.execRingAperHi p q a v s
  | .capture r off => Sys2Proof.Machine.execCapture r off s
  | .registerWrite p off size v => Sys2Proof.Machine.execRegisterWrite p off size v s
  | .streamStart c => Sys2Proof.Machine.execStreamStart c s
  | .unitClaim k => Sys2Proof.Machine.execUnitClaim k s
  | .unitStart k => Sys2Proof.Machine.execUnitStart k s
  | .pass k u => Sys2Proof.Machine.execPass k u s
  | .boundPass k u => Sys2Proof.Machine.execBoundPass k u s
  | .stripDrain k u strip => Sys2Proof.Machine.execStripDrain k u strip s
  | .unitCommit k u => Sys2Proof.Machine.execUnitCommit k u s
  | .partCombine c idx tile => Sys2Proof.Machine.execPartCombine c idx tile s
  | .resultCopy c idx tile => Sys2Proof.Machine.execResultCopy c idx tile s
  | .recordSlotWrite c idx => Sys2Proof.Machine.execRecordSlotWrite c idx s
  | .streamComplete c idx => Sys2Proof.Machine.execStreamComplete c idx s
  | .checkpointBegin c => Sys2Proof.Machine.execCheckpointBegin c s
  | .checkpointEnd c => Sys2Proof.Machine.execCheckpointEnd c s
  | .programComplete c => Sys2Proof.Machine.execProgramComplete c s
  | .listPhase c idx => Sys2Proof.Machine.execListPhase c idx s
  | .moveUnit k u => Sys2Proof.Machine.execMoveUnit k u s
  | .receive c idx => Sys2Proof.Machine.execReceive c idx s
  | .parcelStart k => Sys2Proof.Machine.execParcelStart k s
  | .kernelLoad k => Sys2Proof.Machine.execKernelLoad k s
  | .coreContextChange k c => Sys2Proof.Machine.execCoreContextChange k c s
  | .sAlu k j w => Sys2Proof.Machine.execSAlu k j w s
  | .sImm k j w => Sys2Proof.Machine.execSImm k j w s
  | .upper k j w => Sys2Proof.Machine.execUpper k j w s
  | .branch k j w => Sys2Proof.Machine.execBranch k j w s
  | .jump k j w => Sys2Proof.Machine.execJump k j w s
  | .load k j w => Sys2Proof.Machine.execLoad k j w s
  | .store k j w => Sys2Proof.Machine.execStore k j w s
  | .loadReturn k j => Sys2Proof.Machine.execLoadReturn k j s
  | .vAlu k j w => Sys2Proof.Machine.execVAlu k j w s
  | .vld k j w => Sys2Proof.Machine.execVld k j w s
  | .vst k j w => Sys2Proof.Machine.execVst k j w s
  | .vgather k j w => Sys2Proof.Machine.execVgather k j w s
  | .vscatter k j w => Sys2Proof.Machine.execVscatter k j w s
  | .vbcast k j w => Sys2Proof.Machine.execVbcast k j w s
  | .vcvt k j w => Sys2Proof.Machine.execVcvt k j w s
  | .block k j w => Sys2Proof.Machine.execBlock k j w s
  | .fld k j w => Sys2Proof.Machine.execFld k j w s
  | .fst k j w => Sys2Proof.Machine.execFst k j w s
  | .fgather k j w => Sys2Proof.Machine.execFgather k j w s
  | .fscatter k j w => Sys2Proof.Machine.execFscatter k j w s
  | .semwait k j w => Sys2Proof.Machine.execSemwait k j w s
  | .semwaitRelease k idx => Sys2Proof.Machine.execSemwaitRelease k idx s
  | .sempost k j w => Sys2Proof.Machine.execSempost k j w s
  | .barrier k j w => Sys2Proof.Machine.execBarrier k j w s
  | .barrierRelease k idx => Sys2Proof.Machine.execBarrierRelease k idx s
  | .evwait k j w => Sys2Proof.Machine.execEvwait k j w s
  | .evwaitReturn k j => Sys2Proof.Machine.execEvwaitReturn k j s
  | .evadd k j w => Sys2Proof.Machine.execEvadd k j w s
  | .fenceCore k j w => Sys2Proof.Machine.execFenceCore k j w s
  | .fenceFar k j w => Sys2Proof.Machine.execFenceFar k j w s
  | .gdone k j w => Sys2Proof.Machine.execGdone k j w s
  | .csrr k j w => Sys2Proof.Machine.execCsrr k j w s
  | .csrw k j w => Sys2Proof.Machine.execCsrw k j w s
  | .tagTaken k user words => Sys2Proof.Machine.execTagTaken k user words s
  | .tagLanded k idx ecc => Sys2Proof.Machine.execTagLanded k idx ecc s
  | .deferredPieceIssue k user => Sys2Proof.Machine.execDeferredPieceIssue k user s
  | .unmappedReadDue k u va => Sys2Proof.Machine.execUnmappedReadDue k u va s
  | .pageWalk k c va wr => Sys2Proof.Machine.execPageWalk k c va wr s
  | .writeAccept k => Sys2Proof.Machine.execWriteAccept k s
  | .combiningWriteBack k word => Sys2Proof.Machine.execCombiningWriteBack k word s
  | .stackNoAnswer k idx => Sys2Proof.Machine.execStackNoAnswer k idx s
  | .sramUncorrectable k structure_ off owner syndrome => Sys2Proof.Machine.execSramUncorrectable k structure_ off owner syndrome s
  | .patrolScrub ecc => Sys2Proof.Machine.execPatrolScrub ecc s
  | .validate p idx => Sys2Proof.Machine.execValidate p idx s
  | .invalidate p idx => Sys2Proof.Machine.execInvalidate p idx s
  | .setDrainEnd idx => Sys2Proof.Machine.execSetDrainEnd idx s
  | .memInvalGo p v => Sys2Proof.Machine.execMemInvalGo p v s
  | .memInvalComplete => Sys2Proof.Machine.execMemInvalComplete s
  | .memDumpHi p v => Sys2Proof.Machine.execMemDumpHi p v s
  | .memSynlogHi p v => Sys2Proof.Machine.execMemSynlogHi p v s
  | .memBankSel p v => Sys2Proof.Machine.execMemBankSel p v s
  | .multicastRequest k u => Sys2Proof.Machine.execMulticastRequest k u s
  | .multicastDeliveryStart p tree => Sys2Proof.Machine.execMulticastDeliveryStart p tree s
  | .multicastAccept k u => Sys2Proof.Machine.execMulticastAccept k u s
  | .multicastTimeout k u => Sys2Proof.Machine.execMulticastTimeout k u s
  | .packetReceive h => Sys2Proof.Machine.execPacketReceive h s
  | .clusterRemap k => Sys2Proof.Machine.execClusterRemap k s
  | .frameReceive g f => Sys2Proof.Machine.execFrameReceive g f s
  | .write g q => Sys2Proof.Machine.execWrite g q s
  | .readReq g q => Sys2Proof.Machine.execReadReq g q s
  | .readData g q => Sys2Proof.Machine.execReadData g q s
  | .response g q => Sys2Proof.Machine.execResponse g q s
  | .revokeNotice g q => Sys2Proof.Machine.execRevokeNotice g q s
  | .ack g q => Sys2Proof.Machine.execAck g q s
  | .ackTimer node flow => Sys2Proof.Machine.execAckTimer node flow s
  | .retransmitTimeout node flow seq => Sys2Proof.Machine.execRetransmitTimeout node flow seq s
  | .suspendExpiry node g => Sys2Proof.Machine.execSuspendExpiry node g s
  | .flowIdleFree node flow rx => Sys2Proof.Machine.execFlowIdleFree node flow rx s
  | .flowFail node flow => Sys2Proof.Machine.execFlowFail node flow s
  | .cageEnable p g v => Sys2Proof.Machine.execCageEnable p g v s
  | .retrain p g v => Sys2Proof.Machine.execRetrain p g v s
  | .presenceHeld g => Sys2Proof.Machine.execPresenceHeld g s
  | .moduleReady g copper watts => Sys2Proof.Machine.execModuleReady g copper watts s
  | .cmisTimeout g => Sys2Proof.Machine.execCmisTimeout g s
  | .trainingDone g => Sys2Proof.Machine.execTrainingDone g s
  | .trainingTimeout g clean => Sys2Proof.Machine.execTrainingTimeout g clean s
  | .linkLoss g loss => Sys2Proof.Machine.execLinkLoss g loss s
  | .downTimeout g => Sys2Proof.Machine.execDownTimeout g s
  | .presenceLost g => Sys2Proof.Machine.execPresenceLost g s
  | .linkWintabHi p v => Sys2Proof.Machine.execLinkWintabHi p v s
  | .collectiveGateOpen c t => Sys2Proof.Machine.execCollectiveGateOpen c t s
  | .collectiveStage c t => Sys2Proof.Machine.execCollectiveStage c t s
  | .collectiveStageEnd c t => Sys2Proof.Machine.execCollectiveStageEnd c t s
  | .partial_ g q => Sys2Proof.Machine.execPartial g q s
  | .result g q => Sys2Proof.Machine.execResult g q s
  | .ready g q => Sys2Proof.Machine.execReady g q s
  | .allReady g q => Sys2Proof.Machine.execAllReady g q s
  | .straggler g q => Sys2Proof.Machine.execStraggler g q s
  | .record g q => Sys2Proof.Machine.execRecord g q s
  | .normTotal g q => Sys2Proof.Machine.execNormTotal g q s
  | .digest g q => Sys2Proof.Machine.execDigest g q s
  | .grant g q => Sys2Proof.Machine.execGrant g q s
  | .arrival g q => Sys2Proof.Machine.execArrival g q s
  | .refuse g q => Sys2Proof.Machine.execRefuse g q s
  | .stragglerTimeout c t => Sys2Proof.Machine.execStragglerTimeout c t s
  | .normStep c t => Sys2Proof.Machine.execNormStep c t s
  | .collectiveComplete c t => Sys2Proof.Machine.execCollectiveComplete c t s
  | .sliceBoundary p => Sys2Proof.Machine.execSliceBoundary p s
  | .departure c => Sys2Proof.Machine.execDeparture c s
  | .departureAbandon k u => Sys2Proof.Machine.execDepartureAbandon k u s
  | .contextArrival c => Sys2Proof.Machine.execContextArrival c s
  | .allBlocked p => Sys2Proof.Machine.execAllBlocked p s
  | .noticeTimeout p => Sys2Proof.Machine.execNoticeTimeout p s
  | .syncEdge => Sys2Proof.Machine.execSyncEdge s
  | .referencePresent => Sys2Proof.Machine.execReferencePresent s
  | .referenceLost => Sys2Proof.Machine.execReferenceLost s
  | .timeArmHi p v => Sys2Proof.Machine.execTimeArmHi p v s
  | .accountingPeriod => Sys2Proof.Machine.execAccountingPeriod s
  | .timeAcctSnap p v => Sys2Proof.Machine.execTimeAcctSnap p v s
  | .kappaCalibration measured => Sys2Proof.Machine.execKappaCalibration measured s
  | .teardownComplete c => Sys2Proof.Machine.execTeardownComplete c s
  | .teardownTimeout c => Sys2Proof.Machine.execTeardownTimeout c s
  | .quiescenceEnd c => Sys2Proof.Machine.execQuiescenceEnd c s
  | .hang c => Sys2Proof.Machine.execHang c s
  | .engineResetTimeout k => Sys2Proof.Machine.execEngineResetTimeout k s
  | .partitionResetTimeout p => Sys2Proof.Machine.execPartitionResetTimeout p s
  | .chipReset cause passed => Sys2Proof.Machine.execChipReset cause passed s
  | .powerCycle => Sys2Proof.Machine.execPowerCycle s
  | .testRun k => Sys2Proof.Machine.execTestRun k s
  | .testRunEnd k failed => Sys2Proof.Machine.execTestRunEnd k failed s
  | .testRunAbandon k => Sys2Proof.Machine.execTestRunAbandon k s
  | .testStarved k => Sys2Proof.Machine.execTestStarved k s
  | .fltLogHi p v => Sys2Proof.Machine.execFltLogHi p v s
  | .boot => Sys2Proof.Machine.execBoot s
  | .processorCrash proc k cause => Sys2Proof.Machine.execProcessorCrash proc k cause s
  | .processorRestart proc k => Sys2Proof.Machine.execProcessorRestart proc k s
  | .standbyStart mv => Sys2Proof.Machine.execStandbyStart mv s
  | .mainPowerOn mv start => Sys2Proof.Machine.execMainPowerOn mv start s
  | .mainPowerOff mv => Sys2Proof.Machine.execMainPowerOff mv s
  | .standbyStop mv => Sys2Proof.Machine.execStandbyStop mv s
  | .governorStep h junction dieW drawsMore => Sys2Proof.Machine.execGovernorStep h junction dieW drawsMore s
  | .powerWindow est => Sys2Proof.Machine.execPowerWindow est s
  | .emergencyFlagRaised idx => Sys2Proof.Machine.execEmergencyFlagRaised idx s
  | .emergencyEnd => Sys2Proof.Machine.execEmergencyEnd s
  | .thermalTrip junction stack => Sys2Proof.Machine.execThermalTrip junction stack s
  | .shortPress ms => Sys2Proof.Machine.execShortPress ms s
  | .longPress ms => Sys2Proof.Machine.execLongPress ms s
  | .request p => Sys2Proof.Machine.execRequest p s
  | .quiesceNow p => Sys2Proof.Machine.execQuiesceNow p s
  | .cancel p => Sys2Proof.Machine.execCancel p s
  | .graceTimeout => Sys2Proof.Machine.execGraceTimeout s
  | .quiesceComplete => Sys2Proof.Machine.execQuiesceComplete s
  | .setTime ns => Sys2Proof.Machine.execSetTime ns s
  | .getStatus => Sys2Proof.Machine.execGetStatus s
  | .removal code => Sys2Proof.Machine.execRemoval code s
  | .pldmFirmwareUpdate activate image => Sys2Proof.Machine.execPldmFirmwareUpdate activate image s
  | .hostLinkUp p => Sys2Proof.Machine.execHostLinkUp p s
  | .applicationCommit => Sys2Proof.Machine.execApplicationCommit s
  | .activationComplete failed => Sys2Proof.Machine.execActivationComplete failed s
  | .fwStageComplete => Sys2Proof.Machine.execFwStageComplete s
  | .frameStageComplete => Sys2Proof.Machine.execFrameStageComplete s
  | .clusterRemapComplete k => Sys2Proof.Machine.execClusterRemapComplete k s
  | .bubbleStart c idx => Sys2Proof.Machine.execBubbleStart c idx s
  | .linkLaneTest lane errPerMillion => Sys2Proof.Machine.execLinkLaneTest lane errPerMillion s
  | .marginExhausted margin => Sys2Proof.Machine.execMarginExhausted margin s
  | .modulePulled => Sys2Proof.Machine.execModulePulled s

end Sys2Proof.Machine
end

