-- ==== Sys2Proof/Machine/Tick.lean ====
section
/-! DEFINITION. What a nanosecond does when no command waits: the clocks, system time, the cycles of the two halves with their
stalls, their watchdog counts and their dummy rows, and what firmware does by the microsecond and the millisecond (log entry 1). -/

namespace Sys2Proof.Machine

/-! ### System time (R392, R394) -/

/-- One nanosecond of the counter while an error is slewed or run off at half rate: how far it moves, and what is left (R394).
DESIGN CHOICE: past 2^64 − 1, of which no rule speaks, the count goes on, and TIME_NOW reads its low 64 bits (log entry 119). -/
def slewStep (t : Time) : Time :=
  if t.slew = 0 then { t with now := t.now + 1, slewAcc := 0, half := false }
  else if t.half then
    if t.slewAcc = 0 then { t with now := t.now + 1, slewAcc := 1 } else { t with slew := t.slew - 1, slewAcc := 0 }
  else if t.slewAcc + 1 < 100000 then { t with now := t.now + 1, slewAcc := t.slewAcc + 1 }
  else if 0 < t.slew then { t with slew := t.slew - 1, slewAcc := 0 }
  else { t with now := t.now + 2, slew := t.slew + 1, slewAcc := 0 }

/-! ### Cycles of a half (R62, R179, R401, R428, R456) -/

/-- Cycle `n` of a half is held off by the governor in a partition with THROTTLE `share` (R456): `share` cycles in 100, spread evenly
(log entry 10). -/
def heldOff (share n : Nat) : Bool := decide (n * share / 100 < (n + 1) * share / 100)

/-- The THROTTLE share of the partition of cluster `k`. -/
def throttleOf (d : Device) (k : Nat) : Nat := ((partOf d k).map fun p => (smGet d.pwr.part (0, 0) p).1).getD 0

/-- The unit waits for a tree's delivery (R230): its next pass needs words of W that the tree brings, and nothing else. -/
def treeWaits (d : Device) (k : Nat) (r : UnitRun) (i : StreamInfo) : Bool :=
  onTree d k r.ctx.val i && (needsNext false d k r i).all r.have_.contains && !(needsNext true d k r i).all r.have_.contains

/-- The strips of a unit that are open and not drained, or its rows at Glaze or Varnish. -/
def undrained (d : Device) (r : UnitRun) (i : StreamInfo) : Bool :=
  let g := regionOf i r
  if has i.x 5 then
    (openedStrips i r (countsOf d r.ctx.val r.idx)).any fun s => !r.drained.contains (stripNo g s.1 s.2)
  else decide (r.drained.length < r.sent.length)

/-- The unit's next pass waits for room in the accumulator (R53); past its last pass its strips, or rows, wait to drain. -/
def drainWaits (d : Device) (k : Nat) (r : UnitRun) (i : StreamInfo) : Bool :=
  match (unitPasses i r (countsOf d r.ctx.val r.idx))[r.pos]? with
  | some p => !hasRoom d k i r p
  | none => undrained d r i

/-- The cause that a cycle of the unit at place `u` of cluster `k` is charged to when its array takes no row and nothing holds the cluster
off, numbered in the order of R63 (R62; log entry 14): remote wait, multicast hold, tag quota, memory latency, Glaze, accumulator
drain, the writes on their way to memory, and for a unit that could go on at once sync wait. -/
def stallCause (d : Device) (k u : Nat) (r : UnitRun) (i : StreamInfo) : Nat :=
  let needs := needsNext true d k r i
  let waits := !r.predRead || !needs.all r.have_.contains
  if unitOwes d k u then 4
  else if waits && treeWaits d k r i then 3
  else if waits && needs.any r.deferred.contains then 1
  else if waits then 0
  else if 0 < r.parcelsLeft then 7
  else if drainWaits d k r i then 8
  else if unitWrites (cluGet d k) u then 0
  else 5

/-- The unit has begun its first pass or move (R428). -/
def begun (r : UnitRun) : Bool :=
  r.combine || r.moved || decide (0 < r.pos ∨ 0 < r.bpos) || !r.sent.isEmpty || !r.drained.isEmpty

/-- The watchdog of context `c` counts (R428): it is resident, and no activation is in its pause. -/
def watched (d : Device) (c : Nat) : Bool := resident d c && d.fw.acting.isNone

/-- A cycle of a unit whose array takes no row for cause `cause`; memory latency, quota and multicast hold are not counted (R62,
R428). -/
def idleCycle (k u : Nat) (r : UnitRun) (cause : Nat) (d : Device) : Device :=
  let counts := begun r && watched d r.ctx.val && !decide (cause = 0 ∨ cause = 1 ∨ cause = 3)
  stallAdd r.ctx.val r.idx cause 1 (if counts then unitMod k u (fun r => { r with idle := r.idle + 1 }) d else d)

/-- The cause of a unit that moves tokens (R161), or whose stream is gone. -/
def moveCause (d : Device) (k u : Nat) (r : UnitRun) : Nat :=
  if unitOwes d k u then 4 else if r.deferred ≠ [] then 1 else if r.moved then 8 else 0

/-- Cycle `n` of a running unit: it is held off (R456), its array works on, it loses the cycle to a bank that refuses its feed (R234), or it
takes no row. While its pass runs, a cycle without a row is a gap cycle of dummy fill (R115). -/
def unitCycle (n k u : Nat) (refused : List Nat) (d : Device) : Device :=
  match unitGet d k u with
  | none => d
  | some r =>
    let c := r.ctx.val
    let gap (d : Device) : Device := if r.busy ≠ 0 ∧ (dummyFill d c).isSome then dummyRows c r.kind 1 d else d
    if heldOff (throttleOf d k) n then gap (idleCycle k u r 5 d)
    else if r.busy ≠ 0 then
      if refused.contains u then gap (stallAdd c r.idx 2 1 d) else unitMod k u (fun r => { r with busy := r.busy - 1 }) d
    else
      match streamInfo d c r.idx with
      | some i => idleCycle k u r (stallCause d k u r i) d
      | none => idleCycle k u r (moveCause d k u r) d

/-- A claimed unit waits for a condition of R48 on a running unit of another stream. -/
def claimBarred (d : Device) (k : Nat) (q : UnitRun) : Bool :=
  (occupying d k).any fun u =>
    !decide (u.2.ctx = q.ctx ∧ u.2.idx = q.idx) && !fitsBeside (needsOf d q.ctx.val q.idx) (needsOf d u.2.ctx.val u.2.idx)

/-- A claimed unit is charged to sync wait while it waits for a condition of R48, or has room and waits for something else (R48, R136, R203,
R326, R385). -/
def claimCycle (k : Nat) (d : Device) : Device :=
  match (cluGet d k).claimed with
  | none => d
  | some q =>
    match descGet d q.ctx.val q.idx with
    | some x =>
      if claimBarred d k q || (fitsOn d k q.ctx.val q.idx && !unitStartOk d k q.ctx x) then stallAdd q.ctx.val q.idx 5 1 d else d
    | none => d

/-! ### The banks of a Palette (R234) -/

/-- Request `a` goes before request `b` at a bank: refused 8 times first, then in the order of R234. -/
def bankBefore (a b : BankReq) : Bool :=
  let key (x : BankReq) : Nat := (if 8 ≤ x.refused then 0 else 2 ^ 16) + x.cls * 2 ^ 12 + (if x.cls = 5 then x.core else 0)
  decide (key a < key b)

/-- Of requests `q`, that of place `n` is served in this cycle: its bank is not busy with a narrow write, and no other goes before it. -/
def bankServes (hold : List Nat) (q : List BankReq) (n : Nat) (a : BankReq) : Bool :=
  !hold.contains a.bank && (q.zip (List.range q.length)).all fun e =>
    decide (e.1.bank ≠ a.bank) || e.2 == n || bankBefore a e.1 || (!bankBefore e.1 a && decide (n < e.2))

/-- The banks that a station asks for in a cycle: the spec does not say where in the Palette a chunk, a spilled strip or an output lies, so
they are a free choice among the 32 (log entry 27). -/
def stationReqs (free cls place : Nat) (c : CtxNo) (q : List BankReq) : List BankReq :=
  if q.any fun x => x.cls == cls && x.core == place then []
  else (bitsOf 32 (Config.freeWord free).toNat).map fun b => ⟨cls, place, c, b, 0, false⟩

/-- The requests that the stations of cluster `k` make in a cycle: the feeds of the arrays at work, the Easel, the moves of a spilling unit,
landings, and STORE's reads (R234). -/
def newReqs (d : Device) (k : Nat) (feeds : List (Nat × UnitRun)) : List BankReq :=
  let x := cluGet d k
  let f := d.fresh
  let spills := feeds.filter fun u => ((descGet d u.2.ctx.val u.2.idx).map fun y => decide (32768 < residency y)).getD false
  (feeds.flatMap fun u => stationReqs (f + u.1) 0 u.1 u.2.ctx x.bankQ) ++
    (x.easel.filling.toList.flatMap fun e => stationReqs (f + 64) 1 0 e.1.ctx x.bankQ) ++
    (spills.flatMap fun u => stationReqs (f + 65) 2 u.1 u.2.ctx x.bankQ) ++
    (x.tags.head?.toList.flatMap fun t => stationReqs (f + 66) 3 0 t.ctx x.bankQ) ++
    ((outWrites x).head?.toList.flatMap fun w => stationReqs (f + 67) 4 0 w.ctx x.bankQ)

/-- A cycle of the banks of cluster `k` (R234, R235): every bank serves one access; the others are refused, counted and wait. The places of
the units whose feed was refused. -/
def bankCycle (k : Nat) (feeds : List (Nat × UnitRun)) (d : Device) : List Nat × Device :=
  let new_ := newReqs d k feeds
  let q := (cluGet d k).bankQ ++ new_
  if q = [] then ([], cluMod k (fun x => { x with bankHold := [] }) d)
  else
    let hold := (cluGet d k).bankHold
    let marked := (q.zip (List.range q.length)).map fun e => (e.1, bankServes hold q e.2 e.1)
    let refused := (marked.filter fun e => !e.2).map (·.1)
    let d := refused.foldl (fun d a => bankCount k a.ctx.val a.bank 1 d) (drawFresh 68 d)
    ((refused.filter fun a => a.cls == 0).map (·.core),
      cluMod k (fun x => { x with
        bankQ := refused.map fun a => { a with refused := a.refused + 1 }
        bankHold := (marked.filter fun e => e.2 && e.1.narrow).map (·.1.bank) }) d)

/-! ### Arrays, Easel (R104, R115 to R117) -/

/-- A cycle in which no pass of the arrays of kind `kind` of cluster `k` runs (R115, R117). -/
def arrayCycle (k kind : Nat) (d : Device) : Device :=
  if (unitsOn d k).any fun u => u.2.kind == kind && u.2.busy != 0 then d else gapCycles k kind 1 d

/-- A cycle of the Easel: the region that it turns is whole after the last (R104). -/
def easelCycle (e : Easel) : Easel :=
  match e.filling with
  | none => e
  | some (r, n) => if n ≤ 1 then ⟨e.held.take 1 ++ [r], none⟩ else ⟨e.held, some (r, n - 1)⟩

/-! ### Cores, SORT entries, halves -/

/-- Cycle `n` of cluster `k`. -/
def cluCycle (n k : Nat) (d : Device) : Device :=
  let d := claimCycle k (arrayCycle k 2 (arrayCycle k 1 d))
  let feeds := if heldOff (throttleOf d k) n then [] else (unitsOn d k).filter fun u => u.2.busy != 0
  let (refused, d) := bankCycle k feeds d
  let d := cluMod k (fun x => { x with easel := easelCycle x.easel }) d
  ((cluGet d k).units.map (·.1)).foldl (fun d u => unitCycle n k u refused d) d

/-- A cycle of a SORT entry that waits: its list phase, RECEIVE, or COMBINE waiting on arrival words, the latter two charged to remote
wait (R62, R174, R428). -/
def sortCycle (h c idx : Nat) (d : Device) : Device :=
  match runGet d c idx, sortInfo d c idx with
  | some r, some s =>
    let waits := s.op == 0 || awaitsRows s
    if halfOf r.home = h ∧ waits ∧ !r.ready ∧ watched d c then
      let d := runMod c idx (fun r => { r with idle := r.idle + 1 }) d
      if s.op = 0 then d else stallAdd c idx 4 1 d
    else d
  | _, _ => d

/-- A cycle in which the next entry of context `c` waits to start, in the clock of its home: sync wait (R31, R33, R54, R62). -/
def startCycle (h c : Nat) (d : Device) : Device :=
  match startWaits d c with
  | some k =>
    if halfOf k = h then
      acctMod c (fun a => { a with stalls := lMod a.stalls 5 (· + 1) }) (progMod c (fun g => { g with waited := g.waited + 1 }) d)
    else d
  | none => d

/-- Cycle `n` of half `h`. -/
def halfCycle (h n : Nat) (d : Device) : Device :=
  let count (e : Nat × Core) : Nat × Core :=
    if halfOf (e.1 / 64) = h ∧ e.2.run.isSome then (e.1, { e.2 with cycles := e.2.cycles + 1 }) else e
  let d := { d with cores := d.cores.map count }
  let d := ((d.clus.map (·.1)).filter fun k => halfOf k = h).foldl (fun d k => cluCycle n k d) d
  d.ctxs.foldl (fun d e =>
    startCycle h e.1 <| (((e.2.prog.map (·.runs)).getD []).map (·.idx)).foldl (fun d idx => sortCycle h e.1 idx d) d) d

/-- The cycles of half `h` that end while its counter goes from `a` to `b` thousandths. -/
def halfRuns (h a b : Nat) (d : Device) : Device :=
  (List.range (b / 1000 - a / 1000)).foldl (fun d j => halfCycle h (a / 1000 + j) d) d

/-! ### Microseconds and milliseconds -/

/-- Interrupts held for the microsecond that has passed (R362). -/
def irqsDue (nv : NonVol) (d : Device) : Device :=
  d.rings.irqDue.foldl (fun d ring => if smGet d.rings.irqAt 0 ring + 999 ≤ nv.up then irqSend nv ring d else d) d

/-- The static energy of the clusters of a partition in a microsecond, shared equally among its resident contexts (R402). -/
def staticShare (p : Nat) (d : Device) : Device :=
  let n := (partClusters d p).length
  let cs := residents d p
  if cs.isEmpty then chargeNone 11 n d
  else
    let e := n * Config.energyPj 11
    cs.foldl (fun d c => acctMod c (fun a => { a with energy := a.energy + e * d.time.kappa / 4096 / cs.length }) d)
      { d with time := { d.time with estimate := d.time.estimate + e } }

/-- Static energy of every cluster in a microsecond (R402). -/
def staticEnergy (d : Device) : Device :=
  let ps := d.frames.parts.map (·.1)
  let used := (ps.map fun p => (partClusters d p).length).foldl (· + ·) 0
  ps.foldl (fun d p => staticShare p d) (chargeNone 11 (768 - used) d)

/-- Rail `k` over the millisecond that ends: its power, and the highest of the last second, are measured and so free (log entry 18);
its energy follows (R472). -/
def railTick (k : Nat) (d : Device) : Device :=
  let w := (Config.freeWord d.fresh).toNat % 65536
  let peak := max w ((Config.freeWord (d.fresh + 1)).toNat % 65536)
  drawFresh 2 { d with
    pwr := { d.pwr with rail := smPut d.pwr.rail (0, 0) k (peak, w) }
    kept := { d.kept with railE := smMod d.kept.railE 0 k fun e => (e + w) % 2 ^ 64 } }

/-- Sensor `k` of PWR_TEMP is read: its value is measured and so free (log entry 18). -/
def tempTick (k : Nat) (d : Device) : Device :=
  let t := (BitVec.ofNat 16 (Config.freeWord d.fresh).toNat).toInt
  drawFresh 1 { d with
    pwr := { d.pwr with temp := smPut d.pwr.temp 0 k t }
    kept := { d.kept with tempMax := smMod d.kept.tempMax 0 k fun m => max m t } }

/-- The FEC of the cages over a nanosecond, in which at most one code word ends on each: whether it was corrected, or could not be, is free
(R295, R296; log entry 18). -/
def fecTick (nv : NonVol) (d : Device) : Device :=
  let w := (Config.freeWord d.fresh).toNat
  ((List.range 8).filter (cageUp d)).foldl (fun d g =>
    let d := if bit w g then cageCnt g 0 d else d
    if bit w (8 + g) then fecSeen nv g 1 d else d) (drawFresh 1 d)

/-- A millisecond ends: rails, and the sensors that no command reports. -/
def msTick (d : Device) : Device :=
  [3, 4, 5, 6, 7].foldl (fun d k => tempTick k d) ((List.range 8).foldl (fun d k => railTick k d) d)

/-! ### A nanosecond -/

/-- The routers of half `h` are paused by its last clock change (R260). -/
def routersPaused (nv : NonVol) (d : Device) (h : Nat) : Bool :=
  let t := smGet d.pwr.stepAt 0 h
  decide (0 < t ∧ nv.up < t + Config.routerPause t % 1001)

/-- The cycles of the routers of half `h` (R260). -/
def routersRun (nv : NonVol) (h a b : Nat) (d : Device) : Device := if routersPaused nv d h then d else netRuns nv h a b d

/-- A nanosecond in which a flag may clear: whether the condition that clears each raised flag holds is measured, and so free; the time
without a flag begins when the last has cleared (R457; log entry 68). -/
def flagsTick (nv : NonVol) (d : Device) : Device :=
  if d.pwr.flags = 0 then d
  else
    let flags := d.pwr.flags &&& (Config.freeWord d.fresh).toNat
    drawFresh 1 { d with pwr := { d.pwr with flags := flags, clearFrom := nv.up } }

/-- A nanosecond of the device under main power, `nv.up` being its end. -/
def deviceTick (nv : NonVol) (d : Device) : Device :=
  let t := d.time
  let west := t.west + halfMhz d 0
  let east := t.east + halfMhz d 1
  let d := { d with time := { slewStep t with west := west, east := east } }
  let d := halfRuns 1 t.east east (halfRuns 0 t.west west d)
  let d := routersRun nv 1 t.east east (routersRun nv 0 t.west west (trafficTick nv d))
  let d := resetsEnd nv (irqsDue nv d)
  let d := (d.clus.map (·.1)).foldl (fun d k => writesTake nv k d) d
  let d := if d.link.tx.isEmpty then d else txPumpAll nv (cageWatchAll nv d)
  let d := collTornAll nv d
  let d := if securityUp d then commitRecord nv d else d
  let d := (List.range 8).foldl (fun d g => lineTick g d) (fecTick nv (rxTick nv d))
  let d := eligibleTick nv (hbmTick (sramTick nv d))
  let d := if nv.up % 1000 = 0 then staticEnergy d else d
  let d := if nv.up % 1000000 = 0 then msTick d else d
  if nv.removal = .quiescing then quiesceWork nv d else d

/-- A nanosecond of the block: what `step` does when no command waits (log entry 1). -/
def tick (s : State) : State :=
  if s.nv.standby then
    let nv := { s.nv with up := s.nv.up + 1 }
    let d := flagsTick nv s.d
    if nv.mainOn then { s with nv := nv, d := deviceTick nv d } else { s with nv := nv, d := d }
  else s

end Sys2Proof.Machine
end

