-- ==== Sys2Proof/Safety.lean ====
section
/-! DEFINITION. What counts as a safe run, and the conditions that the statements share. -/

namespace Sys2Proof

/-- A step that answers a next state. -/
def StepsOn (s : Machine.State) : Prop := ∃ t, Machine.step s = .next t

/-- Core `j` of cluster `k` issues the word `w` of a row: it runs parcel `r` and waits for nothing, `w` is the word at its pc, belongs
to the row and is the instruction `i`, and no load into a register that `i` names is on its way (R186, R189). -/
def CoreIssues (d : Machine.Device) (k j : Nat) (row : CoreRow) (w : Word) (r : Machine.ParcelRun) (i : CoreInstr) : Prop :=
  (Machine.coreGet d k j).run = some r ∧ (Machine.coreGet d k j).wait = .none ∧
    Machine.fetchWord d k (Machine.coreGet d k j) = .ok w ∧ coreRow w = row ∧ decodeCore w = some i ∧
    Machine.operandsReady (Machine.coreGet d k j) i = true

/-- The fuse banks hold no more than they have room for (R442). -/
def FuseBounds (nv : Machine.NonVol) : Prop :=
  nv.retired.length ≤ 4 ∧ nv.remaps.length ≤ 48 ∧ nv.policyChanges ≤ 8 ∧ nv.fuseLog.length ≤ 256

/-- From `a` to `b` fuses were only added: retired stacks, remaps and log records follow those there were, the counters did not
fall, and the factory fuses are the same (R7, R442). -/
def FuseGrows (a b : Machine.NonVol) : Prop :=
  a.retired <+: b.retired ∧ a.remaps <+: b.remaps ∧ a.fuseLog <+: b.fuseLog ∧ a.rollback ≤ b.rollback ∧
    a.policyChanges ≤ b.policyChanges ∧ b.m24 = a.m24 ∧ b.l4 = a.l4 ∧ b.specN = a.specN ∧ b.stepping = a.stepping

end Sys2Proof
end

