-- ==== Sys2Proof/Certificates/Slice0/Obligations.lean ====
section
/-! DEFINITION. The statements: what the commands do, by family, and what holds of the block as a whole. Each docstring says what the
statement is about; OBLIGATIONS.json names its rules. -/

open Sys2Proof Sys2Proof.Machine

/-- With the claim code, a port of the policy mask: an UNOWNED device becomes OWNED by that port, ELECTIONS counts one more
and OWNER_CHANGE is raised with code 0, or 2 after the loss timer; a LOST device goes back to OWNED for its own owner's
port; a HANDING device becomes the target's within one second, its rings leave the old owner, the HANDOVER completes OK
and OWNER_CHANGE has code 1. Nothing else of the block changes. Any other claim changes nothing: a wrong code, a port
out of the mask, an OWNED device, a LOST one at another port, a HANDING one at another port or too late. -/
def Obligations.ClaimTakesTheDevice : Prop :=
  (∀ (s : State) (p : Port) (v : Word), hostWrites s.nv s.d p = true → v.toNat % 65536 = 0x0C1A →
    bit s.nv.policyMask p.val = true →
    (s.d.own.st = .unowned → exec (.claim p v) s = .next { s with
      d := raiseEv s.nv 1 none (p.val + 4 * (if s.d.own.afterLoss then 2 else 0)) 0 { s.d with
        own := { s.d.own with
          st := .owned, owner := p, elections := (s.d.own.elections + 1) % 2 ^ 16, afterLoss := false } } }) ∧
    (s.d.own.st = .lost → p = s.d.own.owner → exec (.claim p v) s = .next { s with
      d := { s.d with own := { s.d.own with st := .owned } } }) ∧
    (∀ t, s.d.own.st = .handing → p = s.d.own.target → s.nv.up < s.d.own.handFrom + 1000000000 → s.d.own.handTag = some t →
      exec (.claim p v) s = .next { s with
        d := raiseEv s.nv 1 none (p.val + 4) 0 (becomeOwner p (leaveOwner
          (complete s.nv t stOK 0xFFFF 0 { s.d with own := { s.d.own with handTag := none } }))) })) ∧
  (∀ (s : State) (p : Port) (v : Word),
    hostWrites s.nv s.d p = false ∨ v.toNat % 65536 ≠ 0x0C1A ∨ bit s.nv.policyMask p.val = false ∨ s.d.own.st = .owned ∨
      (s.d.own.st = .lost ∧ p ≠ s.d.own.owner) ∨
      (s.d.own.st = .handing ∧ (p ≠ s.d.own.target ∨ s.d.own.handFrom + 1000000000 ≤ s.nv.up)) →
    exec (.claim p v) s = .next s)

/-- HOST_LINK_UP under main power sets the port's link bit. PORT_LOST clears the port's bit and drops its captured halves;
at the owner's port it makes the device LOST from now on, and while a HANDOVER is open the loss of the owner's or of the
target's port ends it with STATE_MISMATCH, the device LOST or OWNED again. LOSS_TIMEOUT after OWN_LOSS_MS makes a LOST
device UNOWNED, its rings leaving the owner and its owner number a free value (log 107). HANDOVER_TIMEOUT after a second
makes HANDING OWNED again and ends the HANDOVER with STATE_MISMATCH. DRAIN_END, with no admin command taken, writes the
NOT_OWNER records that have room and ends the drain. -/
def Obligations.OwnershipEventsFollowTheirTimers : Prop :=
  ∀ s : State,
    (∀ p : Port, s.nv.mainOn = true → exec (.hostLinkUp p) s = .next { s with
      d := { s.d with own := { s.d.own with linkUp := putBit s.d.own.linkUp p.val true } } }) ∧
    (s.d.own.st = .owned → exec (.portLost s.d.own.owner) s = .next { s with
      d := { s.d with
        own := { s.d.own with linkUp := putBit s.d.own.linkUp s.d.own.owner.val false, st := .lost, lossFrom := s.nv.up }
        rings := { s.d.rings with captures := s.d.rings.captures.filter (·.1 ≠ s.d.own.owner.val) } } }) ∧
    (∀ (p : Port) d1, d1 = { s.d with
        own := { s.d.own with linkUp := putBit s.d.own.linkUp p.val false }
        rings := { s.d.rings with captures := s.d.rings.captures.filter (·.1 ≠ p.val) } } →
      (s.d.own.st = .unowned ∨ s.d.own.st = .lost ∨ (p ≠ s.d.own.owner ∧ (s.d.own.st = .owned ∨ p ≠ s.d.own.target)) →
        exec (.portLost p) s = .next { s with d := d1 }) ∧
      (∀ t, s.d.own.st = .handing → s.d.own.handTag = some t → p = s.d.own.owner → exec (.portLost p) s = .next { s with
        d := complete s.nv t stState 0xFFFF 0 { d1 with own := { d1.own with st := .lost, lossFrom := s.nv.up, handTag := none } } }) ∧
      (∀ t, s.d.own.st = .handing → s.d.own.handTag = some t → p ≠ s.d.own.owner → p = s.d.own.target →
        exec (.portLost p) s = .next { s with
        d := complete s.nv t stState 0xFFFF 0 { d1 with own := { d1.own with st := .owned, handTag := none } } })) ∧
    (s.d.own.st = .lost → s.d.own.lossFrom + s.d.own.lossMs * 1000000 ≤ s.nv.up → exec .lossTimeout s = .next { s with
      d := drawFresh 1 { leaveOwner s.d with own := { (leaveOwner s.d).own with
        st := .unowned
        afterLoss := true
        owner := Fin.ofNat 4 (Config.freeWord (leaveOwner s.d).fresh).toNat } } }) ∧
    (∀ t, s.d.own.st = .handing → s.d.own.handFrom + 1000000000 ≤ s.nv.up → s.d.own.handTag = some t →
      exec .handoverTimeout s = .next { s with
        d := complete s.nv t stState 0xFFFF 0 { s.d with own := { s.d.own with st := .owned, handTag := none } } }) ∧
    (s.d.rings.admin.draining = true → (s.d.rings.taken.all fun x => x.ring.isSome) = true →
      ∀ d', d' = drainRecords s.nv s.d.rings.admin.untaken s.d →
        exec .drainEnd s = .next { s with
          d := { d' with rings := { d'.rings with admin := { d'.rings.admin with untaken := [], draining := false } } } } ∧
        d'.own = s.d.own)

/-- For a taken entry with the command's opcode that has not begun and whose context and ownership checks give status 0:
IDENTIFY stores its 256 byte page at ARG0 and completes OK; CTX_CREATE makes the named (or the lowest free) context
BOUND with a generation one higher, which the completion returns with the number; CTX_DESTROY begins the teardown of the
context and stays open; CTX_GRANT sets the ports; HANDOVER makes the device HANDING to the target; FENCE completes OK
once every earlier command of its ring has completed. The completion is by the shared record operation, and the frame is
the equation's. -/
def Obligations.AdminCommandsOfContextsAndOwnership : Prop :=
  ∀ (s : State) (t : Nat) (x : Taken), stateStatus s.nv s.d x.ring x.entry = 0 →
    (freshTaken s.d 0x01 t = some x → exec (.identify t) s = .next { s with
      d := complete s.nv t stOK 0xFFFF 0 { s.d with
        mem := dWrite (eArg x.entry 0) (identifyPage s.nv s.d x.port.val) s.d.mem } }) ∧
    (freshTaken s.d 0x03 t = some x → ∃ c g, c = (if bit (eArg x.entry 3) 8 then (freeCtx s.d).getD 0 else eContext x.entry) ∧
      g = (genOf s.nv c + 1) % 2 ^ 16 ∧ exec (.ctxCreate t) s = .next { s with
        nv := { s.nv with gens := smPut s.nv.gens 0 c g }
        d := complete { s.nv with gens := smPut s.nv.gens 0 c g } t stOK 0xFFFF (c + g * 2 ^ 16)
          (ctxMod c (fun _ => newCtx x.entry s.d.time.now) s.d) }) ∧
    (freshTaken s.d 0x04 t = some x → exec (.ctxDestroy t) s = .next { s with
      d := startTeardown s.nv (eContext x.entry) 0 none (markBegun t s.d) }) ∧
    (freshTaken s.d 0x05 t = some x → exec (.ctxGrant t) s = .next { s with
      d := complete s.nv t stOK 0xFFFF 0
        (ctxMod (eContext x.entry) (fun c => { c with grant := eArg x.entry 0 % 16 }) s.d) }) ∧
    (freshTaken s.d 0x0B t = some x → ∀ p : Port, p.val = eArg x.entry 0 % 4 → exec (.handover t) s = .next { s with
      d := markBegun t { s.d with own := { s.d.own with st := .handing, target := p, handFrom := s.nv.up, handTag := some t } } }) ∧
    (freshTaken s.d 0x0C t = some x → earlierDone s.d none t = true → exec (.fence t) s = .next { s with
      d := complete s.nv t stOK 0xFFFF 0 s.d }) ∧
    (freshTaken s.d 0x43 t = some x → earlierDone s.d x.ring t = true → exec (.fenceContext t) s = .next { s with
      d := complete s.nv t stOK 0xFFFF 0 s.d })

/-- A doorbell of a live context whose rings are enabled, by its owner or a granted port and inside the ring, sets SQ_TAIL
and remembers the port; the admin doorbell likewise for the owner. A completion head write sets the head, and waiting
records of a device ring then go out. A value outside the ring, or a ring that is not enabled, is counted as denied. An
aperture read returns the bytes and writes store them where the aperture reaches, and are denied and counted where it
does not. RING_APER_HI commits both halves of an aperture's base. RING_CTRL of an enabled ring with ENABLE still 1
changes only the vector; it enables a ring of 2^4 to 2^12 entries that lies in a valid set, empty and with PHASE 1,
leaves it as it is where it does not, and disables one, the admin ring with a drain where commands are taken; during a
drain it changes nothing. Every write by a port without the right changes nothing but RING_DENIED. -/
def Obligations.HostWritesOfRingsAndApertures : Prop :=
  ∀ (s : State) (p : Port), hostWrites s.nv s.d p = true →
    (∀ (c : CtxNo) (v : Word), mayUse s.d p c.val = true → ctxLive s.d c.val = true → (ctxGet s.d c.val).ringEn = true →
      v.toNat % 4096 < 2 ^ (ctxGet s.d c.val).sqLog → exec (.doorbell p (some c) v) s = .next { s with
        d := ctxMod c.val (fun x => { x with
          sqTail := v.toNat % 4096
          bells := if v.toNat % 4096 = x.sqTail then x.bells else x.bells ++ [(v.toNat % 4096, p)] }) s.d }) ∧
    (∀ (v : Word), isOwner s.d p = true → s.d.rings.admin.en = true → v.toNat % 4096 < 2 ^ s.d.rings.admin.log2 →
      exec (.doorbell p none v) s = .next { s with
      d := { s.d with rings := { s.d.rings with admin := { s.d.rings.admin with
        sqTail := v.toNat % 4096
        bells := if v.toNat % 4096 = s.d.rings.admin.sqTail then s.d.rings.admin.bells
          else s.d.rings.admin.bells ++ [(v.toNat % 4096, p)] } } } }) ∧
    (∀ (c : CtxNo) (v : Word), mayUse s.d p c.val = false →
      exec (.doorbell p (some c) v) s = .next { s with
      d := denied s.d } ∧
      exec (.headWrite p (.inl c) v) s = .next { s with
      d := denied s.d }) ∧
    (∀ (c : CtxNo) (v : Word), mayUse s.d p c.val = true → v.toNat % 4096 < 2 ^ (ctxGet s.d c.val).cqLog →
      exec (.headWrite p (.inl c) v) s = .next { s with
        d := ctxMod c.val (fun x => { x with cqHead := v.toNat % 4096 }) s.d }) ∧
    (∀ (a : Fin 16) (off len : Nat) (bs : List Byte) (ps : List (Nat × Nat)) (ctx : Option Nat),
      ctx = (if (aperGet s.d p.val a.val).mode = 2 then some (aperGet s.d p.val a.val).ctx else none) →
      (aperSpan s.d p a.val off len true = some ps → exec (.apertureAccess p a off len (some bs)) s = .next { s with
        d := memMod (spanWrite ps bs) (meetErrors s.nv 3 ctx 3 (partWords s.d.mem ps) s.d) }) ∧
      (∀ e, aperSpan s.d p a.val off len false = some ps →
        e = meetErrors s.nv 3 ctx 3 (ps.flatMap fun q => touchedWords s.d.mem q.1 q.2) s.d →
        exec (.apertureAccess p a off len none) s = .next { s with
          d := { e with rings := { e.rings with
            readData := hostRead e.mem ps, readPoison := ps.any fun q => dPoisoned e.mem q.1 q.2 } } }) ∧
      (aperSpan s.d p a.val off len true = none →
        exec (.apertureAccess p a off len (some bs)) s = .next { s with d := denied s.d }) ∧
      (aperSpan s.d p a.val off len false = none → exec (.apertureAccess p a off len none) s = .next { s with
        d := denied { s.d with rings := { s.d.rings with readData := List.replicate len 0, readPoison := false } } })) ∧
    (∀ (q : Port) (a : Fin 16) (v : Word), isOwner s.d p = true → exec (.ringAperHi p q a v) s = .next { s with
      d := aperMod q.val a.val (fun x => { x with
        base := v.toNat % 2 ^ 20 * 2 ^ 32 + x.stage.getD (x.base % 2 ^ 32), stage := none }) s.d }) ∧
    (∀ (r : Fin 4) (v : Word), isOwner s.d p = false → exec (.ringCtrl p r v) s = .next { s with
      d := denied s.d } ∧
      exec (.headWrite p (.inr r) v) s = .next { s with
      d := denied s.d } ∧
      exec (.doorbell p none v) s = .next { s with
      d := denied s.d }) ∧
    (∀ (c : CtxNo) (v : Word), ctxLive s.d c.val = false ∨ (ctxGet s.d c.val).ringEn = false ∨
        2 ^ (ctxGet s.d c.val).sqLog ≤ v.toNat % 4096 → exec (.doorbell p (some c) v) s = .next { s with
      d := denied s.d }) ∧
    (∀ (v : Word), s.d.rings.admin.en = false ∨ 2 ^ s.d.rings.admin.log2 ≤ v.toNat % 4096 →
      exec (.doorbell p none v) s = .next { s with
      d := denied s.d }) ∧
    (∀ (c : CtxNo) (v : Word), 2 ^ (ctxGet s.d c.val).cqLog ≤ v.toNat % 4096 →
      exec (.headWrite p (.inl c) v) s = .next { s with
      d := denied s.d }) ∧
    (∀ (v : Word), isOwner s.d p = true →
      (v.toNat % 4096 < 2 ^ s.d.rings.admin.log2 → exec (.headWrite p (.inr 0) v) s = .next { s with
        d := { s.d with rings := { s.d.rings with admin := { s.d.rings.admin with cqHead := v.toNat % 4096 } } } }) ∧
      (2 ^ s.d.rings.admin.log2 ≤ v.toNat % 4096 → exec (.headWrite p (.inr 0) v) s = .next { s with
        d := denied s.d }) ∧
      ∀ r : Fin 4, r ≠ 0 →
        (v.toNat % 4096 < 2 ^ (devRing s.d (r.val - 1)).log2 → exec (.headWrite p (.inr r) v) s = .next { s with
          d := flushAll s.nv (r.val - 1) (devRingMod (r.val - 1) (fun x => { x with head := v.toNat % 4096 }) s.d) }) ∧
        (2 ^ (devRing s.d (r.val - 1)).log2 ≤ v.toNat % 4096 → exec (.headWrite p (.inr r) v) s = .next { s with
          d := denied s.d })) ∧
    (∀ (v : Word) (r : AdminRing), isOwner s.d p = true → r = s.d.rings.admin →
      (r.draining = true → exec (.ringCtrl p 0 v) s = .next s) ∧
      (r.draining = false → r.en = true → bit v.toNat 0 = true → exec (.ringCtrl p 0 v) s = .next { s with
        d := { s.d with rings := { s.d.rings with admin := { r with vector := fld v.toNat 8 5 } } } }) ∧
      (r.draining = false → r.en = true → bit v.toNat 0 = false → ∀ busy, busy = (s.d.rings.taken.any fun x => x.ring.isNone) →
        exec (.ringCtrl p 0 v) s = .next { s with
          d := { s.d with rings := { s.d.rings with admin := { r with
            en := false, vector := fld v.toNat 8 5, bells := [], untaken := [], draining := busy
            log2 := if busy then r.log2 else fld v.toNat 4 4 } } } }) ∧
      (r.draining = false → r.en = false → bit v.toNat 0 = true → ∀ lg, lg = fld v.toNat 4 4 →
        exec (.ringCtrl p 0 v) s = .next { s with
          d := if 4 ≤ lg ∧ lg ≤ 12 ∧ dpaOk s.d.mem (r.base * 4096) (96 * 2 ^ lg) = true then
              { s.d with rings := { s.d.rings with admin := { r with
                en := true, vector := fld v.toNat 8 5, log2 := lg, sqTail := 0, sqHead := 0, cqTail := 0, cqHead := 0
                phase := true, bells := [], untaken := [] } } }
            else s.d }) ∧
      (r.draining = false → r.en = false → bit v.toNat 0 = false → exec (.ringCtrl p 0 v) s = .next { s with
        d := { s.d with rings := { s.d.rings with admin := { r with vector := fld v.toNat 8 5, log2 := fld v.toNat 4 4 } } } })) ∧
    (∀ (r : Fin 4) (v : Word) k q, isOwner s.d p = true → r ≠ 0 → k = r.val - 1 → q = devRing s.d k →
      (q.en = true → bit v.toNat 0 = true → exec (.ringCtrl p r v) s = .next { s with
        d := devRingMod k (fun y => { y with vector := fld v.toNat 8 5 }) s.d }) ∧
      (q.en = false → bit v.toNat 0 = true → ∀ lg, lg = fld v.toNat 4 4 → exec (.ringCtrl p r v) s = .next { s with
        d := if 4 ≤ lg ∧ lg ≤ 12 ∧ dpaOk s.d.mem (q.base * 4096) (recSize k * 2 ^ lg) = true then
            flushAll s.nv k (devRingMod k (fun y => { y with
              en := true, vector := fld v.toNat 8 5, log2 := lg, head := 0, tail := 0, phase := true }) s.d)
          else s.d }) ∧
      (bit v.toNat 0 = false → exec (.ringCtrl p r v) s = .next { s with
        d := devRingMod k (fun y => { y with en := false, vector := fld v.toNat 8 5, log2 := fld v.toNat 4 4 }) s.d })) ∧
    (∀ (v : Word), isOwner s.d p = true → s.d.rings.evRing.en = true → bit v.toNat 0 = true →
      exec (.ringCtrl p 1 v) s = .next { s with
      d := { s.d with rings := { s.d.rings with evRing := { s.d.rings.evRing with
        vector := fld v.toNat 8 5 } } } })

/-- With the scheduler core running and a released completion slot for the opcode: the admin ring, enabled and not empty, at
an address that exists, moves SQ_HEAD on by one modulo its size, drops the doorbells used up, and takes the 64 bytes of
the entry for the port whose doorbell submitted it; a context's ring does the same through the context's own
translation. An admin entry outside a valid set is passed over and counted in RING_DENIED; an entry or a reserved
completion slot of a context that its translation does not reach faults the context with DETECTOR 6 and the address, and
the entry is not taken. With no slot released, nothing waiting, the ring not enabled or the scheduler core down, nothing
is taken. -/
def Obligations.EntriesAreTakenFromTheRings : Prop :=
  ∀ s : State, schedulerUp s.d = true →
    (s.d.rings.admin.en = true → s.d.rings.admin.sqHead ≠ s.d.rings.admin.sqTail →
      dpaOk s.d.mem (s.d.rings.admin.base * 4096 + 64 * s.d.rings.admin.sqHead) 64 = true →
      roomFor s.d none (eOpcode (dNat s.d.mem (s.d.rings.admin.base * 4096 + 64 * s.d.rings.admin.sqHead) 64))
        s.d.rings.admin.log2 s.d.rings.admin.cqTail s.d.rings.admin.cqHead = true →
      exec (.entryTake none) s = .next { s with
        d := takeEntry s.nv none ((s.d.rings.admin.bells.head?.map (·.2)).getD s.d.own.owner)
          (dNat s.d.mem (s.d.rings.admin.base * 4096 + 64 * s.d.rings.admin.sqHead) 64)
          { s.d with rings := { s.d.rings with admin := { s.d.rings.admin with
            sqHead := (s.d.rings.admin.sqHead + 1) % 2 ^ s.d.rings.admin.log2
            bells := bellsAfter s.d.rings.admin.bells ((s.d.rings.admin.sqHead + 1) % 2 ^ s.d.rings.admin.log2) } } } }) ∧
    (∀ (c : CtxNo) (bs : List Byte), ctxLive s.d c.val = true → (ctxGet s.d c.val).ringEn = true →
      (ctxGet s.d c.val).sqHead ≠ (ctxGet s.d c.val).sqTail →
      vRead s.d.mem (ctxGet s.d c.val).root ((ctxGet s.d c.val).ring + 64 * (ctxGet s.d c.val).sqHead) 64 = .ok bs →
      roomFor s.d (some c) (eOpcode (ofBytes bs)) (ctxGet s.d c.val).cqLog (ctxGet s.d c.val).cqTail
        (ctxGet s.d c.val).cqHead = true → slotFault s.d c (eOpcode (ofBytes bs)) = none →
      exec (.entryTake (some c)) s = .next { s with
        d := takeEntry s.nv (some c) (((ctxGet s.d c.val).bells.head?.map (·.2)).getD s.d.own.owner) (ofBytes bs)
          (ctxMod c.val (fun x => { x with
            sqHead := ((ctxGet s.d c.val).sqHead + 1) % 2 ^ (ctxGet s.d c.val).sqLog
            bells := bellsAfter x.bells (((ctxGet s.d c.val).sqHead + 1) % 2 ^ (ctxGet s.d c.val).sqLog) }) s.d) }) ∧
    (s.d.rings.admin.en = true → s.d.rings.admin.sqHead ≠ s.d.rings.admin.sqTail →
      dpaOk s.d.mem (s.d.rings.admin.base * 4096 + 64 * s.d.rings.admin.sqHead) 64 = false →
      exec (.entryTake none) s = .next { s with
        d := denied { s.d with rings := { s.d.rings with admin := { s.d.rings.admin with
            sqHead := (s.d.rings.admin.sqHead + 1) % 2 ^ s.d.rings.admin.log2
            bells := bellsAfter s.d.rings.admin.bells ((s.d.rings.admin.sqHead + 1) % 2 ^ s.d.rings.admin.log2) } } } }) ∧
    (s.d.rings.admin.en = false ∨ s.d.rings.admin.sqHead = s.d.rings.admin.sqTail ∨
        (dpaOk s.d.mem (s.d.rings.admin.base * 4096 + 64 * s.d.rings.admin.sqHead) 64 = true ∧
          roomFor s.d none (eOpcode (dNat s.d.mem (s.d.rings.admin.base * 4096 + 64 * s.d.rings.admin.sqHead) 64))
            s.d.rings.admin.log2 s.d.rings.admin.cqTail s.d.rings.admin.cqHead = false) →
      exec (.entryTake none) s = .next s) ∧
    (∀ c : CtxNo, ctxLive s.d c.val = true → (ctxGet s.d c.val).ringEn = true →
      (ctxGet s.d c.val).sqHead ≠ (ctxGet s.d c.val).sqTail →
      (∀ e, vRead s.d.mem (ctxGet s.d c.val).root ((ctxGet s.d c.val).ring + 64 * (ctxGet s.d c.val).sqHead) 64 = .error e →
        exec (.entryTake (some c)) s = .next { s with d := faultCtx s.nv c.val (vFault e 6) s.d }) ∧
      ∀ bs, vRead s.d.mem (ctxGet s.d c.val).root ((ctxGet s.d c.val).ring + 64 * (ctxGet s.d c.val).sqHead) 64 = .ok bs →
        (roomFor s.d (some c) (eOpcode (ofBytes bs)) (ctxGet s.d c.val).cqLog (ctxGet s.d c.val).cqTail
          (ctxGet s.d c.val).cqHead = false → exec (.entryTake (some c)) s = .next s) ∧
        (∀ e, roomFor s.d (some c) (eOpcode (ofBytes bs)) (ctxGet s.d c.val).cqLog (ctxGet s.d c.val).cqTail
          (ctxGet s.d c.val).cqHead = true → slotFault s.d c (eOpcode (ofBytes bs)) = some e →
          exec (.entryTake (some c)) s = .next { s with d := faultCtx s.nv c.val (vFault e 6) s.d })) ∧
    (∀ c : CtxNo, ctxLive s.d c.val = false ∨ (ctxGet s.d c.val).ringEn = false ∨
        (ctxGet s.d c.val).sqHead = (ctxGet s.d c.val).sqTail → exec (.entryTake (some c)) s = .next s)

/-- For taken entries whose state check passes: KEY_WRITE puts the 96 byte key into its slot, empties the staging slots that
its old key verified, and completes OK. FRAME_STAGE with no staging in progress begins one with the container's bytes;
its completion puts the checked Frame into the slot, or empties the slot with the status and INDEX of the check.
FRAME_APPLY, when every one taken before it has begun, queues an application, and the next application in order begins
when no reclaim of its partitions is in progress and its Frame passes its check, or its command ends with STATE_MISMATCH
where the slot is empty or the check fails. With the security core down, KEY_WRITE aside, the commands end with
STATE_MISMATCH. The commit instant puts PART_SERIAL and SEQ in force with the sections, and the command's record of OK
follows it. -/
def Obligations.FrameCommandsStageApplyAndCommit : Prop :=
  ∀ (s : State) (t : Nat) (x : Taken),
    (stateStatus s.nv s.d x.ring x.entry = 0 → freshTaken s.d 0x08 t = some x → exec (.keyWrite t) s = .next { s with
      d := complete s.nv t stOK 0xFFFF 0 { s.d with frames := { s.d.frames with
        keys := lMod s.d.frames.keys (eArg x.entry 0)
          (fun _ => some (dNat s.d.mem (eArg x.entry 1) 48 + 2 ^ 384 * dNat s.d.mem (eArg x.entry 1 + 48) 48))
        slots := s.d.frames.slots.map fun f => f.bind fun f => if f.keySlot = eArg x.entry 0 then none else some f } } }) ∧
    (stateStatus s.nv s.d x.ring x.entry = 0 → freshTaken s.d 0x09 t = some x → securityUp s.d = true →
      s.d.frames.staging = none → 256 ≤ dNat s.d.mem (eArg x.entry 0 + 8) 4 → dNat s.d.mem (eArg x.entry 0 + 8) 4 ≤ 131072 →
      exec (.frameStage t) s = .next { s with
      d := markBegun t { s.d with frames := { s.d.frames with
        staging := some (t, eArg x.entry 1, dRead s.d.mem (eArg x.entry 0) (dNat s.d.mem (eArg x.entry 0 + 8) 4)) } } }) ∧
    (stateStatus s.nv s.d x.ring x.entry = 0 → freshTaken s.d 0x09 t = some x →
      (securityUp s.d = false → exec (.frameStage t) s = .next { s with
        d := complete s.nv t stState 1 0 (slotPut (eArg x.entry 1) none s.d) }) ∧
      (securityUp s.d = true → s.d.frames.staging ≠ none → exec (.frameStage t) s = .next s) ∧
      (securityUp s.d = true → s.d.frames.staging = none →
        dNat s.d.mem (eArg x.entry 0 + 8) 4 < 256 ∨ 131072 < dNat s.d.mem (eArg x.entry 0 + 8) 4 →
        exec (.frameStage t) s = .next { s with
          d := markBegun t { s.d with frames := { s.d.frames with
            staging := some (t, eArg x.entry 1, dRead s.d.mem (eArg x.entry 0) 64) } } })) ∧
    (stateStatus s.nv s.d x.ring x.entry = 0 → freshTaken s.d 0x0A t = some x →
      (securityUp s.d = false → exec (.frameApply t) s = .next { s with d := complete s.nv t stState 0xFFFF 0 s.d }) ∧
      (∀ y ∈ s.d.rings.taken, securityUp s.d = true → y.ring = none → y.begun = false → eOpcode y.entry = 0x0A → y.tag < t →
        exec (.frameApply t) s = .next s)) ∧
    (stateStatus s.nv s.d x.ring x.entry = 0 → freshTaken s.d 0x0A t = some x → securityUp s.d = true →
      (∀ y ∈ s.d.rings.taken, y.ring = none → y.begun = false → eOpcode y.entry = 0x0A → t ≤ y.tag) →
      exec (.frameApply t) s = .next { s with
      d := applicationStart s.nv (markBegun t { s.d with frames := { s.d.frames with
        apps := s.d.frames.apps ++ [⟨t, eArg x.entry 1, none, false⟩] } }) }) ∧
    (∀ (i : Nat) (bs : List Byte), securityUp s.d = true → s.d.frames.staging = some (t, i, bs) →
      (∀ f, stageCheck s.nv { s.d with frames := { s.d.frames with staging := none } } bs = .ok f →
        exec .frameStageComplete s = .next { s with
      d := complete s.nv t stOK 0xFFFF 0
          (slotPut i (some f) { s.d with frames := { s.d.frames with staging := none } }) }) ∧
      (∀ n st, stageCheck s.nv { s.d with frames := { s.d.frames with staging := none } } bs = .error (n, st) →
        exec .frameStageComplete s = .next { s with
      d := complete s.nv t st n 0
          (slotPut i none { s.d with frames := { s.d.frames with staging := none } }) })) ∧
    (∀ (a : Application) (f : Frame), securityUp s.d = true → nextApp s.d = some a →
      s.d.frames.slots.getD a.slot none = some f → f.isPartial = false → (∀ p < 16, (schedGet s.d p).reclaim = none) →
      fullOk s.d = true →
      exec .frameApplicationStart s = .next { s with
      d := { s.d with frames := { s.d.frames with
        apps := s.d.frames.apps.map fun b => if b.tag = a.tag then { b with frame := some f } else b } } }) ∧
    (∀ (a : Application) (f : Frame) (x : Section) l, securityUp s.d = true → nextApp s.d = some a →
      s.d.frames.slots.getD a.slot none = some f → f.isPartial = true → f.sections = x :: l →
      (schedGet s.d x.number).reclaim = none →
      (partialOk s.d x = true → exec .frameApplicationStart s = .next { s with
        d := { s.d with frames := { s.d.frames with
          apps := s.d.frames.apps.map fun b => if b.tag = a.tag then { b with frame := some f } else b } } }) ∧
      (partialOk s.d x = false → exec .frameApplicationStart s = .next { s with
        d := complete s.nv a.tag stState 0xFFFF 0 (appDrop a.tag s.d) })) ∧
    (∀ (a : Application), securityUp s.d = true → nextApp s.d = some a →
      s.d.frames.slots.getD a.slot none = none ∨ (∃ f, s.d.frames.slots.getD a.slot none = some f ∧ f.isPartial = false ∧
        (∀ p < 16, (schedGet s.d p).reclaim = none) ∧ fullOk s.d = false) →
      exec .frameApplicationStart s = .next { s with
        d := complete s.nv a.tag stState 0xFFFF 0 (appDrop a.tag s.d) }) ∧
    (∀ (a : Application) (f : Frame) d1, securityUp s.d = true → (s.d.frames.apps.find? fun a => a.frame.isSome) = some a →
      a.frame = some f → a.committed = false → f.isPartial = true → commitReady s.d f = true →
      d1 = f.sections.foldl (fun d x => sectionApply s.nv f.serial x d) s.d →
      exec .applicationCommit s = .next { s with
        d := txPumpAll s.nv (cageWatchAll s.nv (logPoint s.nv 2 0 0 0x5001 ((f.sections.head?.map (·.number)).getD 0) f.serial
          { d1 with frames := { d1.frames with
            serial := f.serial, seq := (d1.frames.seq + 1) % 2 ^ 16
            apps := d1.frames.apps.map fun b => if b.tag = a.tag then { b with committed := true } else b } })) }) ∧
    (∀ (a : Application) (f : Frame), securityUp s.d = true → (s.d.frames.apps.find? fun a => a.frame.isSome) = some a →
      a.frame = some f → a.committed = false → f.isPartial = false → commitReady s.d f = true →
      exec .applicationCommit s = .next { s with
        d := txPumpAll s.nv (cageWatchAll s.nv (logPoint s.nv 2 0 0 0x5001 0xF f.serial
          { fullApply s.nv f s.d with frames := { (fullApply s.nv f s.d).frames with
            serial := f.serial, seq := ((fullApply s.nv f s.d).frames.seq + 1) % 2 ^ 16
            apps := (fullApply s.nv f s.d).frames.apps.map fun b => if b.tag = a.tag then { b with committed := true } else b } })) }) ∧
    (∀ a b : Application, securityUp s.d = true → (s.d.frames.apps.find? fun a => a.frame.isSome) = some a → a.committed = true →
      s.d.frames.apps.find? (·.committed) = some b → exec .applicationCommit s = .next { s with
        d := complete s.nv b.tag stOK 0xFFFF 0 (appDrop b.tag s.d) })

/-- VERSION inside the image's range records the interface and runs the device; outside it, the device is HELD, FW_HELD is
raised and the status is VERSION_REFUSED with the range in the result, as it is in RECOVERY, which stays. FW_STAGE
begins a staging of the image's bytes, whose completion writes the other bank and marks it pending, or refuses it with
the check that failed, the bank then left or emptied; it is refused while another staging or an activation is open. An
activation that nothing stops begins and is logged; in an emergency it is deferred and told so, and begins once no
emergency holds it; in RECOVERY it asks for a chip reset where a bank is pending; without a pending image, or beside
another, it is refused. With every cluster quiet an activation whose handoff sections all read back right ends: the
pending bank runs and is active, and the pause is recorded; one whose section fails its check, or one that a processor
fails, falls back. A boot loads the pending or the active bank's image and leaves the device HELD; where that bank is
bad it is logged and the other bank boots, and with both bad the device is in RECOVERY. PLDM begins a staging or an
activation without a host command. -/
def Obligations.FirmwareStagesActivatesAndBoots : Prop :=
  ∀ (s : State) (t : Nat) (x : Taken),
    (stateStatus s.nv s.d x.ring x.entry = 0 → freshTaken s.d 0x02 t = some x → s.d.fw.mode ≠ .recovery →
      (∀ im, s.d.fw.image = some im → im.ifMin ≤ eArg x.entry 0 → eArg x.entry 0 ≤ im.ifMax →
        exec (.version t) s = .next { s with
      d := complete s.nv t stOK 0xFFFF (im.ifMin + im.ifMax * 2 ^ 32)
          { s.d with fw := { s.d.fw with mode := .running, ifAccepted := eArg x.entry 0 } } }) ∧
      (∀ im, s.d.fw.image = some im → eArg x.entry 0 < im.ifMin ∨ im.ifMax < eArg x.entry 0 →
        exec (.version t) s = .next { s with
      d := complete s.nv t stVersion 0xFFFF (im.ifMin + im.ifMax * 2 ^ 32)
          (raiseEv s.nv 0x54 none (eArg x.entry 0) (im.ifMin + im.ifMax * 2 ^ 32)
            { s.d with fw := { s.d.fw with mode := .held } }) })) ∧
    (stateStatus s.nv s.d x.ring x.entry = 0 → freshTaken s.d 0x02 t = some x → s.d.fw.mode = .recovery →
      exec (.version t) s = .next { s with
        d := complete s.nv t stVersion 0xFFFF (fwIfMin s.d + fwIfMax s.d * 2 ^ 32) s.d }) ∧
    (stateStatus s.nv s.d x.ring x.entry = 0 → freshTaken s.d 0x18 t = some x →
      (securityUp s.d = false ∨ fwBusy s.d = true → exec (.fwStage t) s = .next { s with
        d := fwDoneAt s.nv (some t) stState 1 s.d }) ∧
      (securityUp s.d = true → fwBusy s.d = false →
        dNat s.d.mem (eArg x.entry 0 + 0x1C) 4 < 4096 ∨ 33554432 < dNat s.d.mem (eArg x.entry 0 + 0x1C) 4 →
        exec (.fwStage t) s = .next { s with
        d := markBegun t { s.d with fw := { s.d.fw with
          staging := some (some t, dRead s.d.mem (eArg x.entry 0) 256) } } })) ∧
    (∀ tag bs i st, s.d.fw.staging = some (tag, bs) → securityUp s.d = true → imageCheck s.nv bs = some (i, st) → ∃ nv1,
      (nv1 = s.nv ∨ nv1 = bankPut (!s.d.fw.bankB) none s.nv) ∧ exec .fwStageComplete s = .next { s with
        nv := nv1
        d := fwDoneAt nv1 tag st i (drawFresh 1 { s.d with fw := { s.d.fw with staging := none } }) }) ∧
    (stateStatus s.nv s.d x.ring x.entry = 0 → freshTaken s.d 0x19 t = some x →
      (s.d.fw.mode = .recovery → s.nv.pendingB.isSome = true → exec (.fwActivate t) s = .next { s with
        d := fwDone s.nv (some t) stOK { s.d with flt := { s.d.flt with resetDue := some 0 } } }) ∧
      (s.d.fw.mode = .recovery → s.nv.pendingB = none → exec (.fwActivate t) s = .next { s with
        d := fwDone s.nv (some t) stState s.d }) ∧
      (s.d.fw.mode ≠ .recovery → activateRefused s.nv s.d = true → exec (.fwActivate t) s = .next { s with
        d := fwDone s.nv (some t) stState s.d }) ∧
      (s.d.fw.mode ≠ .recovery → activateRefused s.nv s.d = false → s.d.pwr.emergency = true →
        exec (.fwActivate t) s = .next { s with
        d := inform s.nv t stDeferred (logPoint s.nv 1 0 0 0x1002 s.d.pwr.flags 0
          (markBegun t { s.d with fw := { s.d.fw with deferred := some (some t) } })) }) ∧
      (s.d.fw.mode ≠ .recovery → activateRefused s.nv s.d = false → s.d.pwr.emergency = false → activationWaits s.d = true →
        exec (.fwActivate t) s = .next s)) ∧
    (stateStatus s.nv s.d x.ring x.entry = 0 → freshTaken s.d 0x18 t = some x → securityUp s.d = true → fwBusy s.d = false →
      4096 ≤ dNat s.d.mem (eArg x.entry 0 + 0x1C) 4 → dNat s.d.mem (eArg x.entry 0 + 0x1C) 4 ≤ 33554432 →
      exec (.fwStage t) s = .next { s with
      d := markBegun t { s.d with fw := { s.d.fw with
        staging := some (some t, dRead s.d.mem (eArg x.entry 0) (dNat s.d.mem (eArg x.entry 0 + 0x1C) 4)) } } }) ∧
    (∀ tag bs, s.d.fw.staging = some (tag, bs) → securityUp s.d = true → imageCheck s.nv bs = none →
      exec .fwStageComplete s = .next { s with
        nv := { bankPut (!s.d.fw.bankB) (some (imageOf (ofBytes (bs.take 256)))) s.nv with pendingB := some (!s.d.fw.bankB) }
        d := fwDone { bankPut (!s.d.fw.bankB) (some (imageOf (ofBytes (bs.take 256)))) s.nv with
          pendingB := some (!s.d.fw.bankB) } tag stOK { s.d with fw := { s.d.fw with staging := none } } }) ∧
    (stateStatus s.nv s.d x.ring x.entry = 0 → freshTaken s.d 0x19 t = some x → s.d.fw.mode ≠ .recovery →
      activateRefused s.nv s.d = false → s.d.pwr.emergency = false → activationWaits s.d = false →
      exec (.fwActivate t) s = .next { s with
      d := logPoint s.nv 2 0 0 0x1001 1 0 { markBegun t s.d with
        fw := { s.d.fw with acting := some (some t, s.nv.up), deferred := none } } }) ∧
    (∀ tag, s.d.fw.deferred = some tag → s.d.pwr.emergency = false → activationWaits s.d = false →
      exec .deferredActivationStart s = .next { s with
      d := logPoint s.nv 2 0 0 0x1001 1 0 { s.d with
        fw := { s.d.fw with acting := some (tag, s.nv.up), deferred := none } } }) ∧
    (∀ d', s.d.fw.acting.isSome = true → deviceQuiet s.d = true → handoffGo s.nv s.d = (none, d') →
      exec (.activationComplete none) s = .next { s with nv := (activationOk s.nv d').1, d := (activationOk s.nv d').2 }) ∧
    (∀ p k d', s.d.fw.acting.isSome = true → deviceQuiet s.d = true → handoffGo s.nv s.d = (some (p, k), d') →
      exec (.activationComplete none) s = .next { s with
        nv := (activationFail p k s.nv d').1, d := (activationFail p k s.nv d').2 }) ∧
    (∀ (p : Fin 4) (k : CluNo), s.d.fw.acting.isSome = true → exec (.activationComplete (some (p, k))) s = .next { s with
        nv := (activationFail p.val (if p.val = 3 then k.val else 0) s.nv s.d).1
        d := (activationFail p.val (if p.val = 3 then k.val else 0) s.nv s.d).2 }) ∧
    (∀ d tag from_, d.fw.acting = some (tag, from_) →
      (∀ x b port, pendingImage s.nv = some x → s.nv.pendingB = some b →
        port = ((tag.bind (takenGet d)).map (·.port.val)).getD 0 → ∃ r held,
        r = raiseCounter x.rollback (if tag.isSome then 1 else 2) port { s.nv with activeB := b, pendingB := none } d ∧
        held = decide (d.fw.mode = .running ∧ ¬(x.ifMin ≤ d.fw.ifAccepted ∧ d.fw.ifAccepted ≤ x.ifMax)) ∧
        activationOk s.nv d = (r.1, fwDone r.1 tag stOK (raiseEv r.1 0x50 none x.version (fwVersion d)
          (activationLog r.1 (r.1.up - from_) (safeRelease { r.2 with fw := { r.2.fw with
            acting := none, bankB := b, image := some x, activations := (r.2.fw.activations + 1) % 2 ^ 16
            actPause := min 65535 ((r.1.up - from_) / 1000), mode := if held then .held else r.2.fw.mode } }))))) ∧
      ∀ p k, activationFail p k s.nv d = ({ s.nv with pendingB := none }, fwDone s.nv tag 0x75
        (raiseEv s.nv 0x51 none (fwStaged s.nv) p (logPoint s.nv 0 0 0 0x1003 p k (safeRelease { d with fw := { d.fw with
          acting := none, actPause := min 65535 ((s.nv.up - from_) / 1000) } }))))) ∧
    (∀ im b, s.nv.mainOn = true → s.d.fw.mode = .booting → s.nv.pendingB = some b → bootImage s.nv b = some im → ∃ nv1,
      nv1 = { s.nv with activeB := b, pendingB := none } ∧ exec .boot s = .next { s with
        nv := (raiseCounter im.rollback 3 0 nv1 (bootLog s.nv b { s.d with
          fw := { s.d.fw with mode := .held, bankB := b, image := some im } })).1
        d := (raiseCounter im.rollback 3 0 nv1 (bootLog s.nv b { s.d with
          fw := { s.d.fw with mode := .held, bankB := b, image := some im } })).2 }) ∧
    (∀ b d1, s.nv.mainOn = true → s.d.fw.mode = .booting → b = s.nv.pendingB.getD s.nv.activeB → bootImage s.nv b = none →
      d1 = logPoint s.nv 0 0 0 0x0002 (b2n b) (bankCheck s.nv s.d b) (raiseEv s.nv 0x55 none (b2n b) (bankCheck s.nv s.d b)
        (drawFresh 1 s.d)) →
      (∀ im, bootImage s.nv (!b) = some im → exec .boot s = .next { s with
        nv := (bootFrom (!b) im s.nv d1).1
        d := (bootFrom (!b) im s.nv d1).2 }) ∧
      (bootImage s.nv (!b) = none → ∃ d2,
        d2 = logPoint s.nv 0 0 0 0x0002 (b2n !b) (bankCheck s.nv d1 (!b)) (drawFresh 1 d1) ∧
        exec .boot s = .next { s with d := { d2 with fw := { d2.fw with mode := .recovery, image := none } } })) ∧
    (∀ image, s.nv.mainOn = true → s.d.fw.mode ≠ .booting → fwBusy s.d = false →
      (securityUp s.d = false → exec (.pldmFirmwareUpdate false image) s = .next { s with
        d := fwDoneAt s.nv none stState 1 s.d }) ∧
      (s.d.fw.mode = .recovery → s.nv.pendingB.isSome = true → exec (.pldmFirmwareUpdate true image) s = .next { s with
        d := fwDone s.nv none stOK { s.d with flt := { s.d.flt with resetDue := some 0 } } }) ∧
      (s.d.fw.mode = .recovery → s.nv.pendingB = none → exec (.pldmFirmwareUpdate true image) s = .next { s with
        d := fwDone s.nv none stState s.d }) ∧
      (s.d.fw.mode ≠ .recovery → activateRefused s.nv s.d = true → exec (.pldmFirmwareUpdate true image) s = .next { s with
        d := fwDone s.nv none stState s.d }) ∧
      (s.d.fw.mode ≠ .recovery → activateRefused s.nv s.d = false → s.d.pwr.emergency = true →
        exec (.pldmFirmwareUpdate true image) s = .next { s with
        d := logPoint s.nv 1 0 0 0x1002 s.d.pwr.flags 0 { s.d with fw := { s.d.fw with deferred := some none } } }) ∧
      (s.d.fw.mode ≠ .recovery → activateRefused s.nv s.d = false → s.d.pwr.emergency = false → activationWaits s.d = false →
        exec (.pldmFirmwareUpdate true image) s = .next { s with
        d := logPoint s.nv 2 0 0 0x1001 1 0 { s.d with fw := { s.d.fw with acting := some (none, s.nv.up), deferred := none } } }) ∧
      (s.d.fw.mode ≠ .recovery → activateRefused s.nv s.d = false → s.d.pwr.emergency = false → activationWaits s.d = true →
        exec (.pldmFirmwareUpdate true image) s = .next s)) ∧
    (∀ im, s.nv.mainOn = true → s.d.fw.mode = .booting → s.nv.pendingB = none → bootImage s.nv s.nv.activeB = some im →
      exec .boot s = .next { s with
      d := bootLog s.nv s.nv.activeB { s.d with
        fw := { s.d.fw with mode := .held, bankB := s.nv.activeB, image := some im } } }) ∧
    (∀ image, s.nv.mainOn = true → s.d.fw.mode ≠ .booting → fwBusy s.d = false → securityUp s.d = true →
      exec (.pldmFirmwareUpdate false image) s = .next { s with
        d := { s.d with fw := { s.d.fw with staging := some (none, image) } } })

/-- A crash of the running security, power-management or scheduler core counts and is reported, and leaves the processor
restarting since now, or stopped with a chip reset due where it makes four in its window. The security core's crash ends
the applications and stagings in progress, to be answered at its return; the power-management core's puts the clocks
into the conservative hold. A crash of a cluster control core takes its units and parcels away, resets its cores, makes
the cluster suspect, and leaves it restarting, or stopped and dead. A crash during an activation fails it. A processor
that does not run, or one in boot, is left alone. PROCESSOR_RESTART runs a restarting processor again and reports how
long it was down; the security core then writes the records it owes, and the power-management core ends the hold. -/
def Obligations.ProcessorsCrashAndRestart : Prop :=
  ∀ (s : State) (k : CluNo) (c : Fin 3),
    (∀ (p : Fin 4) (x : Proc) l stop d1 d2 d3, s.d.fw.mode ≠ .booting → p ≠ 3 → x = smGet s.d.fw.procs Proc.init p.val → x.st = .running →
      l = recentCrashes s.nv.up x.recent → stop = decide (4 ≤ l.length) →
      d1 = crashReport s.nv p.val 0 l.length c.val { s.d with fw := { s.d.fw with procs := smPut s.d.fw.procs Proc.init p.val { x with
            st := if stop then .stopped else .restarting
            crashes := min (x.crashes + 1) (2 ^ 16 - 1)
            recent := l
            downFrom := s.nv.up } } } →
      d2 = (if stop then { d1 with flt := { d1.flt with resetDue := some 0 } } else d1) →
      d3 = (if p = 0 then stageCrash (frameCrash d2) else if p = 1 then { d2 with pwr := { d2.pwr with conservative := true } } else d2) →
      (d3.fw.acting = none → exec (.processorCrash p k c) s = .next { s with d := d3 }) ∧
      (d3.fw.acting.isSome = true → exec (.processorCrash p k c) s = .next { s with
        nv := (activationFail p.val 0 s.nv d3).1
        d := (activationFail p.val 0 s.nv d3).2 })) ∧
    (∀ l d1 d2, s.d.fw.mode ≠ .booting → (cluGet s.d k.val).stopped = false → (cluGet s.d k.val).downFrom = none →
      outOfService s.d k.val = false → l = recentCrashes s.nv.up (cluGet s.d k.val).crashes →
      d1 = clearUnits k.val (crashReport s.nv 3 k.val l.length c.val { s.d with
        fw := { s.d.fw with cccCrashes := min (s.d.fw.cccCrashes + 1) (2 ^ 16 - 1) } }) →
      d2 = suspect s.nv 0 k.val 4 (cluMod k.val (fun x => { x with
          crashes := l, bars := smMapV x.bars ⟨[], 0, 0⟩ (fun _ b => { b with arrived := [] })
          sems := smMapV x.sems ⟨0, []⟩ (fun _ m => { m with waiters := [] }) })
        ((List.range 64).foldl (fun d j => coreMod k.val j coreReset d) d1)) →
      ∀ d3, d3 = (if 4 ≤ l.length then
          if (bindGet s.nv (cluMod k.val (fun x => { x with stopped := true }) d2) k.val).fenced
          then cluMod k.val (fun x => { x with stopped := true }) d2
          else declareDead s.nv k.val 4 (cluMod k.val (fun x => { x with stopped := true }) d2)
        else cluMod k.val (fun x => { x with downFrom := some s.nv.up }) d2) →
      (d3.fw.acting = none → exec (.processorCrash 3 k c) s = .next { s with d := d3 }) ∧
      (d3.fw.acting.isSome = true → exec (.processorCrash 3 k c) s = .next { s with
        nv := (activationFail 3 k.val s.nv d3).1
        d := (activationFail 3 k.val s.nv d3).2 })) ∧
    (∀ p : Fin 4, s.d.fw.mode = .booting ∨ canCrash s.d p.val k.val = false → exec (.processorCrash p k c) s = .next s) ∧
    (∀ (p : Fin 4) (x : Proc) d1, p ≠ 3 → x = smGet s.d.fw.procs Proc.init p.val → x.st = .restarting →
      d1 = restartReport s.nv p.val 0 (s.nv.up - x.downFrom) { s.d with fw := { s.d.fw with
        procs := smPut s.d.fw.procs Proc.init p.val { x with st := .running } } } →
      exec (.processorRestart p k) s = .next { s with
        d := if p = 0 then d1.frames.owed.foldl (fun d t => complete s.nv t.1 t.2 0xFFFF 0 d)
              { d1 with frames := { d1.frames with owed := [] } }
            else if p = 1 then { d1 with pwr := { d1.pwr with conservative := false } } else d1 }) ∧
    (∀ p : Fin 4, p ≠ 3 → (smGet s.d.fw.procs Proc.init p.val).st ≠ .restarting → exec (.processorRestart p k) s = .next s) ∧
    (∀ t, (cluGet s.d k.val).downFrom = some t → exec (.processorRestart 3 k) s = .next { s with
      d := restartReport s.nv 3 k.val (s.nv.up - t) (cluMod k.val (fun x => { x with downFrom := none }) s.d) }) ∧
    ((cluGet s.d k.val).downFrom = none → exec (.processorRestart 3 k) s = .next s)

/-- A packet takes effect when it reaches a cage that is up with an empty receive queue (it is counted), or when it stands
first in that queue; d1 is the device then. For this node, within its lifetime, of a held flow (d2 notes its time) or
opening one where there is room, in the flow's window and not seen before: a WRITE whose window checks pass stores its
payload at the window's place, charges the context's LINK_RX, and feeds the BROADCASTs whose block it belongs to; a
WRITE or READ_REQ that fails is refused; a READ_REQ that passes posts READ_DATA with the window's bytes and the poison
of their code words; READ_DATA ends its outstanding read and fills the unit's buffer with its parts; a RESPONSE with a
refusal fails the read whose tag it names, or the owner of the WRITE that holds the tag; a REVOKE_NOTICE counts. Each
then enters the flow's record. A packet already seen is only counted and acknowledged again; one that reaches a queue
with others before it joins the queue; one ahead of the window, for another node, too old or of no flow is dropped, and
a full flow table or an old packet is counted; this holds of collective messages (OP 5) as well. -/
def Obligations.PacketsInOrderLandWithTheirEffect : Prop :=
  (∀ (s : State) (g : CageNo) (q : StavaPacket) (x : RxFlow) (d1 d2 : Device),
    ((cageGet s.d g.val).rxq = [] ∧ cageUp s.d g.val = true ∧ d1 = cageCnt g.val 3 s.d ∨
      ∃ t, (cageGet s.d g.val).rxq = q :: t ∧ d1 = cageMod g.val (fun y => { y with rxq := t }) s.d) →
    q.dstNode.toNat = d1.link.node → inTime d1 q = true →
    (rxGet d1 q.srcNode.toNat q.flow.toNat = some x ∧ d2 = rxPut { x with lastAt := s.nv.up } d1 ∨
      rxGet d1 q.srcNode.toNat q.flow.toNat = none ∧ q.openF = true ∧ d1.link.rx.length < 4096 ∧
        x = ⟨q.srcNode.toNat, q.flow.toNat, q.seq.toNat, [], 0, s.nv.up, false, s.nv.up, 7⟩ ∧ d2 = rxPut x d1) →
    (x.landed.contains q.seq.toNat = false → (q.seq.toNat + 2 ^ 24 - x.ackSeq) % 2 ^ 24 < 256 →
      (∀ e, winCheck d2 q true q.payload.length = none →
        e = acctMod (fld (winDesc d2 q.window.toNat) 8 8) (fun a => { a with linkRx := a.linkRx + q.payload.length })
          (winLand s.nv (winDesc d2 q.window.toNat) q.offset.toNat q.payload d2) →
        exec (.write g q) s = .next { s with
          d := landed s.nv q ((d2.coll.runs.filter fun r =>
              blockLanded q.window.toNat q.offset.toNat q.payload.length r ≠ r).foldl (fun d r => msgWork s.nv r d)
            { e with coll := { e.coll with
              runs := e.coll.runs.map (blockLanded q.window.toNat q.offset.toNat q.payload.length) } }) }) ∧
      (∀ st, winCheck d2 q true q.payload.length = some st → exec (.write g q) s = .next { s with
        d := landed s.nv q (refusePacket s.nv q st d2) }) ∧
      (∀ st, winCheck d2 q false q.length.toNat = some st → exec (.readReq g q) s = .next { s with
        d := landed s.nv q (refusePacket s.nv q st d2) }) ∧
      (responseStatus q = 0 → exec (.response g q) s = .next { s with d := landed s.nv q d2 }) ∧
      (∀ p, responseStatus q ≠ 0 →
        (d2.link.reads.find? fun r => decide (r.tag = q.tag.toNat ∧ r.node = q.srcNode.toNat)) = none →
        ((d2.link.tx.flatMap (·.sent) ++ d2.link.past).find? fun p =>
          decide (p.tag = q.tag.toNat ∧ p.pkt.dstNode = q.srcNode ∧ p.pkt.op = 0)) = some p →
        exec (.response g q) s = .next { s with d := landed s.nv q (ownerFail p (responseStatus q) (packetPlace p) d2) }) ∧
      ((d2.link.reads.find? fun r => decide (r.tag = q.tag.toNat ∧ r.node = q.srcNode.toNat)) = none →
        exec (.readData g q) s = .next { s with d := landed s.nv q d2 }) ∧
      (winCheck d2 q false q.length.toNat = none → exec (.readReq g q) s = .next { s with
        d := landed s.nv q (txPost s.nv q.srcNode.toNat (fld (winDesc d2 q.window.toNat) 8 8 * 16 + q.flow.toNat % 16)
          (TxPacket.plain { dataPacket s.nv d2 (fld (winDesc d2 q.window.toNat) 8 8) q.srcNode.toNat (q.flow.toNat % 16) 2 with
            status := if (winBytes d2 (winDesc d2 q.window.toNat) q.offset.toNat q.length.toNat).2.isEmpty then 0 else 3
            tag := q.tag
            payload := (winBytes d2 (winDesc d2 q.window.toNat) q.offset.toNat q.length.toNat).1
            poison := (winBytes d2 (winDesc d2 q.window.toNat) q.offset.toNat q.length.toNat).2 })
          (winCharge s.nv (winDesc d2 q.window.toNat) q.offset.toNat q.length.toNat d2)) }) ∧
      (∀ r, (d2.link.reads.find? fun r => decide (r.tag = q.tag.toNat ∧ r.node = q.srcNode.toNat)) = some r → r.unit = none →
        exec (.readData g q) s = .next { s with
          d := landed s.nv q (txPumpAll s.nv (acctMod r.ctx.val (fun a => { a with linkRx := a.linkRx + q.payload.length })
            { d2 with link := { d2.link with reads := d2.link.reads.filter (· ≠ r) } })) }) ∧
      (∀ r k u p t, (d2.link.reads.find? fun r => decide (r.tag = q.tag.toNat ∧ r.node = q.srcNode.toNat)) = some r →
        r.unit = some (k, u) → r.parts = p :: t → exec (.readData g q) s = .next { s with
          d := landed s.nv q (txPumpAll s.nv (unitMod k u
            (partsLand (remoteKey p.1 p.2.1 % 64) r.parts q.payload q.poison)
            (acctMod r.ctx.val (fun a => { a with linkRx := a.linkRx + q.payload.length })
              { d2 with link := { d2.link with reads := d2.link.reads.filter (· ≠ r) } }))) }) ∧
      (∀ r, (d2.link.reads.find? fun r => decide (r.tag = q.tag.toNat ∧ r.node = q.srcNode.toNat)) = some r → q.status ≠ 0 →
        q.status = 1 ∨ q.status = 2 → exec (.response g q) s = .next { s with
          d := landed s.nv q (readFail r (if q.status = 2 then stStale else stWindow) (some (r.node, r.flow, r.seq)) d2) }) ∧
      exec (.revokeNotice g q) s = .next { s with
        d := landed s.nv q (noticeLand q d2) }) ∧
    ∀ c, (c ∈ ([.write g q, .readReq g q, .readData g q, .response g q, .revokeNotice g q] : List Instr) ∨
        ∃ p ∈ ([(0, .partial_), (1, .result), (2, .ready), (3, .allReady), (4, .straggler), (5, .record), (6, .normTotal), (7, .digest),
          (8, .grant), (9, .arrival), (10, .refuse)] : List (Nat × (CageNo → StavaPacket → Instr))),
          q.op = 5 ∧ msgKind q = p.1 ∧ c = p.2 g q) →
      (x.landed.contains q.seq.toNat = true ∨ 2 ^ 23 ≤ (q.seq.toNat + 2 ^ 24 - x.ackSeq) % 2 ^ 24 →
        exec c s = .next { s with
          d := ackSend q.srcNode.toNat q.flow.toNat (linkCnt 5 d2) }) ∧
      (x.landed.contains q.seq.toNat = false → 256 ≤ (q.seq.toNat + 2 ^ 24 - x.ackSeq) % 2 ^ 24 →
        (q.seq.toNat + 2 ^ 24 - x.ackSeq) % 2 ^ 24 < 2 ^ 23 → exec c s = .next { s with d := d2 })) ∧
  (∀ (s : State) (g : CageNo) (q : StavaPacket) (d1 : Device),
    ∀ c, (c ∈ ([.write g q, .readReq g q, .readData g q, .response g q, .revokeNotice g q] : List Instr) ∨
        ∃ p ∈ ([(0, .partial_), (1, .result), (2, .ready), (3, .allReady), (4, .straggler), (5, .record), (6, .normTotal), (7, .digest),
          (8, .grant), (9, .arrival), (10, .refuse)] : List (Nat × (CageNo → StavaPacket → Instr))),
          q.op = 5 ∧ msgKind q = p.1 ∧ c = p.2 g q) →
    ((cageGet s.d g.val).rxq = [] → cageUp s.d g.val = false → exec c s = .next s) ∧
    (∀ h t, (cageGet s.d g.val).rxq = h :: t → h ≠ q → exec c s = .next { s with
      d := if cageUp s.d g.val then rxPush g.val q (cageCnt g.val 3 s.d) else s.d }) ∧
    ((cageGet s.d g.val).rxq = [] ∧ cageUp s.d g.val = true ∧ d1 = cageCnt g.val 3 s.d ∨
        (∃ t, (cageGet s.d g.val).rxq = q :: t ∧ d1 = cageMod g.val (fun y => { y with rxq := t }) s.d) →
      (q.dstNode.toNat ≠ d1.link.node → exec c s = .next { s with d := d1 }) ∧
      (q.dstNode.toNat = d1.link.node → inTime d1 q = false → exec c s = .next { s with d := linkCnt 3 d1 }) ∧
      (q.dstNode.toNat = d1.link.node → inTime d1 q = true → rxGet d1 q.srcNode.toNat q.flow.toNat = none →
        (q.openF = false → exec c s = .next { s with d := d1 }) ∧
        (q.openF = true → 4096 ≤ d1.link.rx.length → exec c s = .next { s with d := linkCnt 4 d1 }))))

/-- An ACK that reaches a cage that is up with an empty receive queue, or stands first in the queue, is applied where it is
for this node and in time, and one too old is counted; behind other packets it joins the queue. The ack timer sends an
ACK 2 µs after the oldest unacknowledged packet. A packet unacknowledged for 20 µs is sent again. A suspension that has
run out ends and puts the pair on probation. A flow idle for 1 ms is forgotten at either side. A flow that has failed
fails the owners of its packets and its reads, leaves, and raises FLOW_FAILED with its node and flow. -/
def Obligations.FlowTimersActAtTheirTimes : Prop :=
  ∀ (s : State) (n f : Nat),
    (∀ (g : CageNo) (q : StavaPacket) (d1 : Device),
      ((cageGet s.d g.val).rxq = [] ∧ cageUp s.d g.val = true ∧ d1 = cageCnt g.val 3 s.d ∨
        ∃ t, (cageGet s.d g.val).rxq = q :: t ∧ d1 = cageMod g.val (fun y => { y with rxq := t }) s.d) →
      (q.dstNode.toNat = d1.link.node → inTime d1 q = true → exec (.ack g q) s = .next { s with d := ackLand s.nv q d1 }) ∧
      (q.dstNode.toNat = d1.link.node → inTime d1 q = false → exec (.ack g q) s = .next { s with d := linkCnt 3 d1 }) ∧
      (q.dstNode.toNat ≠ d1.link.node → exec (.ack g q) s = .next { s with d := d1 })) ∧
    (∀ (g : CageNo) (q : StavaPacket),
      ((cageGet s.d g.val).rxq = [] → cageUp s.d g.val = false → exec (.ack g q) s = .next s) ∧
      (∀ h t, (cageGet s.d g.val).rxq = h :: t → h ≠ q → exec (.ack g q) s = .next { s with
        d := if cageUp s.d g.val then rxPush g.val q (cageCnt g.val 3 s.d) else s.d })) ∧
    (∀ x, rxGet s.d n f = some x → x.unacked ≠ 0 → x.oldest + 2000 ≤ s.nv.up →
      exec (.ackTimer n f) s = .next { s with d := ackSend n f s.d }) ∧
    (∀ seq p, (txGet s.d n f).sent.find? (·.seq = seq) = some p → p.lastAt + 20000 ≤ s.nv.up →
      exec (.retransmitTimeout n f seq) s = .next { s with d := retransmit s.nv n f p s.d }) ∧
    (∀ (g : CageNo) e, (s.d.link.suspended.find? fun e => decide (e.1 = n ∧ e.2.1 = g.val)) = some e → e.2.2 ≤ s.nv.up →
      exec (.suspendExpiry n g) s = .next { s with
        d := txPumpAll s.nv (cageWatchAll s.nv { s.d with link := { s.d.link with
          suspended := s.d.link.suspended.filter (· ≠ e), probation := s.d.link.probation ++ [(n, g.val, 7)] } }) }) ∧
    (∀ x, rxGet s.d n f = some x → x.lastAt + 1000000 ≤ s.nv.up → exec (.flowIdleFree n f true) s = .next { s with
        d := { s.d with link := { s.d.link with rx := s.d.link.rx.filter (· ≠ x) } } }) ∧
    ((txGet s.d n f).sent = [] → (txGet s.d n f).queue = [] → (txGet s.d n f).lastAt + 1000000 ≤ s.nv.up →
      exec (.flowIdleFree n f false) s = .next { s with
        d := { s.d with link := { s.d.link with tx := s.d.link.tx.filter (· ≠ txGet s.d n f) } } }) ∧
    (∀ x d1 d2, (s.d.link.tx.find? fun x => decide (x.node = n ∧ x.flow = f)) = some x → flowFailed s.nv s.d x = true →
      d1 = (x.sent ++ x.queue).foldl (fun d p => ownerFail p stLinkLost none d) s.d →
      d2 = (d1.link.reads.filter fun r => decide (r.node = n ∧ r.flow = f)).foldl (fun d r => readFail r stLinkLost none d) d1 →
      exec (.flowFail n f) s = .next { s with
        d := raiseEv s.nv 0x13 (some (f / 16)) (pack [(0, 10, n), (10, 12, f)]) 0
          (linkCnt 0 { d2 with link := { d2.link with tx := d2.link.tx.filter fun y => !decide (y.node = n ∧ y.flow = f) } }) })

/-- Each cage event moves its cage as R293 says, keeping the rest: enabling a disabled cage by the owner goes to EMPTY or
PRESENT and records ENABLE and ALLOW_HALF, clearing ENABLE goes to DISABLED with reason 1, and another port's write is
counted as denied; RETRAIN of a cage that is up trains it; presence held for 100 ms goes EMPTY to PRESENT; a ready
module with at most 25 W trains, another is DOWN with reason 6; 5 s without a ready module is DOWN with reason 7;
training done is UP; 2 s of training is UP-HALF on a half that has been clean for 100 ms where ALLOW_HALF admits it,
else DOWN with reason 5; loss of signal or alignment is DOWN with its reason, and more than 16 uncorrectable code words
at once, which are counted, with reason 4; a second DOWN trains again; losing presence is EMPTY with reason 8, but for a
disabled or empty cage. A frame counts, and a bad FCS, a pause frame, and a frame of another EtherType or address count
apart; the packet of a good frame joins the receive queue, marked where more than 64 wait, and is dropped and counted
where 256 do. -/
def Obligations.CagesFollowTheirStates : Prop :=
  ∀ (s : State) (g : CageNo),
    (∀ (p : Port) (v : Word), hostWrites s.nv s.d p = true → isOwner s.d p = true → cageFitted s.nv g.val = true →
      (cageGet s.d g.val).st = .disabled → bit v.toNat 0 = true → bit v.toNat 2 = false →
      exec (.cageEnable p g v) s = .next { s with
        d := cageGo s.nv g.val (if (cageGet s.d g.val).present then .present else .empty) 0 0
          (cageMod g.val (fun x => { x with allowHalf := bit v.toNat 1, en := true }) s.d) }) ∧
    (∀ (p : Port) (v : Word), hostWrites s.nv s.d p = true → isOwner s.d p = true → cageFitted s.nv g.val = true →
      (cageGet s.d g.val).st ≠ .disabled → bit v.toNat 0 = true → bit v.toNat 2 = true →
      cageUp (cageMod g.val (fun x => { x with allowHalf := bit v.toNat 1, en := true }) s.d) g.val = true →
      exec (.retrain p g v) s = .next { s with
        d := cageGo s.nv g.val .training 0 0
          (cageMod g.val (fun x => { x with allowHalf := bit v.toNat 1, en := true }) s.d) }) ∧
    (∀ (p : Port) (v : Word) d1 c, hostWrites s.nv s.d p = true → c = .cageEnable p g v ∨ c = .retrain p g v →
      (isOwner s.d p = false → exec c s = .next { s with d := denied s.d }) ∧
      (isOwner s.d p = true → cageFitted s.nv g.val = false → exec c s = .next s) ∧
      (isOwner s.d p = true → cageFitted s.nv g.val = true →
        d1 = cageMod g.val (fun x => { x with allowHalf := bit v.toNat 1, en := bit v.toNat 0 }) s.d →
        ((cageGet s.d g.val).st ≠ .disabled → bit v.toNat 0 = false →
          exec c s = .next { s with
            d := if bit v.toNat 2 ∧ cageUp (cageGo s.nv g.val .disabled 0 1 d1) g.val then
              cageGo s.nv g.val .training 0 0 (cageGo s.nv g.val .disabled 0 1 d1) else cageGo s.nv g.val .disabled 0 1 d1 }) ∧
        (((cageGet s.d g.val).st = .disabled ∧ bit v.toNat 0 = false) ∨ ((cageGet s.d g.val).st ≠ .disabled ∧ bit v.toNat 0 = true) →
          bit v.toNat 2 = false →
          exec c s = .next { s with d := d1 }))) ∧
    (cageFitted s.nv g.val = true → (cageGet (cageMod g.val (fun x => { x with present := true }) s.d) g.val).st = .empty →
      exec (.presenceHeld g) s = .next { s with
        d := cageGo s.nv g.val .present 0 0 (cageMod g.val (fun x => { x with present := true }) s.d) }) ∧
    (∀ copper w, (cageGet s.d g.val).st = .present → exec (.moduleReady g copper w) s = .next { s with
        d := if copper ∨ w ≤ 25 then cageGo s.nv g.val .training 0 0 s.d else cageGo s.nv g.val .down 0 6 s.d }) ∧
    ((cageGet s.d g.val).st = .present → (cageGet s.d g.val).since + 5000000000 ≤ s.nv.up →
      exec (.cmisTimeout g) s = .next { s with d := cageGo s.nv g.val .down 0 7 s.d }) ∧
    ((cageGet s.d g.val).st = .training → exec (.trainingDone g) s = .next { s with d := cageGo s.nv g.val .up 0 0 s.d }) ∧
    ((cageGet s.d g.val).st = .training → (cageGet s.d g.val).since + 2000000000 ≤ s.nv.up →
      (∀ l u, (cageGet s.d g.val).allowHalf = true →
        (100000000 ≤ l → exec (.trainingTimeout g ⟨l, u⟩) s = .next { s with d := cageGo s.nv g.val .upHalf 0 0 s.d }) ∧
        (l < 100000000 → 100000000 ≤ u →
          exec (.trainingTimeout g ⟨l, u⟩) s = .next { s with d := cageGo s.nv g.val .upHalf 1 0 s.d })) ∧
      (∀ l u, (cageGet s.d g.val).allowHalf = false ∨ (l < 100000000 ∧ u < 100000000) →
        exec (.trainingTimeout g ⟨l, u⟩) s = .next { s with d := cageGo s.nv g.val .down 0 5 s.d })) ∧
    (∀ w, cageUp s.d g.val = true →
      exec (.linkLoss g ⟨2, w⟩) s = .next { s with d := cageGo s.nv g.val .down 0 2 s.d } ∧
      exec (.linkLoss g ⟨3, w⟩) s = .next { s with d := cageGo s.nv g.val .down 0 3 s.d } ∧
      (∀ l d1, l = (List.replicate (min w 17) s.nv.up ++
          (cageGet s.d g.val).fecs.filter fun u => s.nv.up < u + 1000000).take 17 →
        d1 = cageMod g.val (fun x => { x with fecs := l, cnt := smMod x.cnt 0 1 fun m => min (2 ^ 32 - 1) (m + w) }) s.d →
        exec (.linkLoss g ⟨4, w⟩) s = .next { s with
          d := if 16 < l.length then cageGo s.nv g.val .down 0 4 (cageMod g.val (fun x => { x with fecs := [] }) d1) else d1 })) ∧
    ((cageGet s.d g.val).st = .down → (cageGet s.d g.val).since + 1000000000 ≤ s.nv.up →
      exec (.downTimeout g) s = .next { s with d := cageGo s.nv g.val .training 0 0 s.d }) ∧
    (∀ d1, d1 = cageMod g.val (fun x => { x with present := false }) s.d →
      ((cageGet d1 g.val).st ≠ .disabled → (cageGet d1 g.val).st ≠ .empty → exec (.presenceLost g) s = .next { s with
        d := cageGo s.nv g.val .empty 0 8 d1 }) ∧
      ((cageGet d1 g.val).st = .disabled ∨ (cageGet d1 g.val).st = .empty →
        exec (.presenceLost g) s = .next { s with d := d1 })) ∧
    (cageFitted s.nv g.val = true → (cageGet (cageMod g.val (fun x => { x with present := true }) s.d) g.val).st ≠ .empty →
      exec (.presenceHeld g) s = .next { s with d := cageMod g.val (fun x => { x with present := true }) s.d }) ∧
    (∀ f : EtherFrame, cageUp s.d g.val = true →
      (f.fcsOk = false → exec (.frameReceive g f) s = .next { s with d := cageCnt g.val 5 (cageCnt g.val 3 s.d) }) ∧
      (f.fcsOk = true → f.pause = true →
        exec (.frameReceive g f) s = .next { s with d := cageCnt g.val 7 (cageCnt g.val 3 s.d) }) ∧
      (f.fcsOk = true → f.pause = false → f.etherType.toNat ≠ s.d.link.etherType ∨
        f.dstMac.toNat ≠ macAddr s.d.link.fabric s.d.link.node g.val →
        exec (.frameReceive g f) s = .next { s with d := cageCnt g.val 6 (cageCnt g.val 3 s.d) }) ∧
      (f.fcsOk = true → f.pause = false → f.etherType.toNat = s.d.link.etherType →
        f.dstMac.toNat = macAddr s.d.link.fabric s.d.link.node g.val → packetOf f.body f.poison = none →
        exec (.frameReceive g f) s = .next { s with d := cageCnt g.val 3 s.d }) ∧
      (∀ q, f.fcsOk = true → f.pause = false → f.etherType.toNat = s.d.link.etherType →
        f.dstMac.toNat = macAddr s.d.link.fabric s.d.link.node g.val → packetOf f.body f.poison = some q →
        (∀ n d1, n = (cageGet s.d g.val).rxq.length → n < 256 → d1 = cageMod g.val (fun x => { x with
            rxq := x.rxq ++ [{ q with cmark := q.cmark || decide (64 < n) }] }) (cageCnt g.val 3 s.d) →
          exec (.frameReceive g f) s = .next { s with d := if 64 < n then cageCnt g.val 9 d1 else d1 }) ∧
        (256 ≤ (cageGet s.d g.val).rxq.length →
          exec (.frameReceive g f) s = .next { s with d := cageCnt g.val 8 (cageCnt g.val 3 s.d) })))

/-- The owner's write of LINK_WINTAB_HI commits both halves when 4 MiB exist there and no window is valid, clears the table
and sets READY. WINDOW_OPEN of a Palette window, or of one whose range is mapped in a live context, keeps the slot's
generation and stores the descriptor of its record with the opening time; of another it ends with NO_RESOURCE.
LINK_WINTAB_HI is refused, its stage dropped, in every other case. WINDOW_REVOKE clears VALID, moves the generation on
by one, sends the notice where the window names a node, and completes OK. -/
def Obligations.WindowsOpenAndAreRevoked : Prop :=
  ∀ (s : State),
    (∀ (p : Port) (v : Word), hostWrites s.nv s.d p = true → isOwner s.d p = true → s.d.link.valid = [] →
      dpaOk s.d.mem (v.toNat % 4096 * 2 ^ 32 + s.d.link.wintabStage.getD (s.d.link.wintab % 2 ^ 32)) (2 ^ 22) = true →
      exec (.linkWintabHi p v) s = .next { s with
        d := { s.d with
          link := { s.d.link with
            wintab := v.toNat % 4096 * 2 ^ 32 + s.d.link.wintabStage.getD (s.d.link.wintab % 2 ^ 32)
            wintabStage := none, ready := true }
          mem := dClear (v.toNat % 4096 * 2 ^ 32 + s.d.link.wintabStage.getD (s.d.link.wintab % 2 ^ 32)) (2 ^ 22) s.d.mem } }) ∧
    (∀ (t : Nat) (x : Taken) (v : Nat), stateStatus s.nv s.d x.ring x.entry = 0 → freshTaken s.d 0x06 t = some x →
      v = dNat s.d.mem (eArg x.entry 1) 64 →
      bit v 3 = true ∨ (ctxLive s.d (fld v 8 8) = true ∧
        ∃ ps, vSpan s.d.mem (ctxGet s.d (fld v 8 8)).root (bit v 2) (fld v 64 52) (winSize v) = .ok ps) →
      exec (.windowOpen t) s = .next { s with
        d := complete s.nv t stOK 0xFFFF 0 (winPut (eArg x.entry 0)
          (pack [(0, 1, 1), (1, 3, fld v 1 3), (8, 8, fld v 8 8), (16, 16, fld (winDesc s.d (eArg x.entry 0)) 16 16),
            (32, 32, fld v 32 32), (64, 52, fld v 64 52), (128, 41, fld v 128 41), (192, 21, fld v 192 21),
            (224, 16, fld v 224 16), (256, 64, s.d.time.now)]) s.d) }) ∧
    (∀ (t : Nat) (x : Taken) (v : Nat), stateStatus s.nv s.d x.ring x.entry = 0 → freshTaken s.d 0x06 t = some x →
      v = dNat s.d.mem (eArg x.entry 1) 64 → bit v 3 = false →
      ctxLive s.d (fld v 8 8) = false ∨
        (∃ e, vSpan s.d.mem (ctxGet s.d (fld v 8 8)).root (bit v 2) (fld v 64 52) (winSize v) = .error e) →
      exec (.windowOpen t) s = .next { s with d := complete s.nv t stNoResource 0xFFFF 0 s.d }) ∧
    (∀ (p : Port) (v : Word), hostWrites s.nv s.d p = true → isOwner s.d p = true →
      s.d.link.valid ≠ [] ∨ dpaOk s.d.mem (v.toNat % 4096 * 2 ^ 32 + s.d.link.wintabStage.getD (s.d.link.wintab % 2 ^ 32)) (2 ^ 22) = false →
      exec (.linkWintabHi p v) s = .next { s with d := { s.d with link := { s.d.link with wintabStage := none } } }) ∧
    (∀ (p : Port) (v : Word), hostWrites s.nv s.d p = true → isOwner s.d p = false →
      exec (.linkWintabHi p v) s = .next { s with d := denied s.d }) ∧
    (∀ (t : Nat) (x : Taken), stateStatus s.nv s.d x.ring x.entry = 0 → freshTaken s.d 0x07 t = some x →
      bit (winDesc s.d (eArg x.entry 0)) 202 = false → ∃ v, v = winDesc s.d (eArg x.entry 0) ∧
      exec (.windowRevoke t) s = .next { s with
        d := txPumpAll s.nv (complete s.nv t stOK 0xFFFF 0 (noticeQueue s.nv (fld v 8 8) (fld v 192 10) (eArg x.entry 0) (fld v 16 16)
          (winPut (eArg x.entry 0) (putFld (putBit v 0 false) 16 16 (fld v 16 16 + 1)) s.d))) }) ∧
    (∀ (t : Nat) (x : Taken), stateStatus s.nv s.d x.ring x.entry = 0 → freshTaken s.d 0x07 t = some x →
      bit (winDesc s.d (eArg x.entry 0)) 202 = true →
      exec (.windowRevoke t) s = .next { s with
        d := txPumpAll s.nv (complete s.nv t stOK 0xFFFF 0 (winPut (eArg x.entry 0)
          (putFld (putBit (winDesc s.d (eArg x.entry 0)) 0 false) 16 16 (fld (winDesc s.d (eArg x.entry 0)) 16 16 + 1)) s.d)) })

/-- A checked SLICE_TABLE takes the place of one that waits and waits for its boundary, at least LEAD plus 200 µs away; one
that fails its check ends with the check, and one during a reclaim with STATE_MISMATCH. A checked RECLAIM has every
resident depart that its table does not keep, and records deadline and table; it waits for an application of its
partition and an activation. A reclaim with nobody left departing puts its table in force, tells whether it was late,
and returns what it kept. A due boundary puts its slice in force, completes the command of a new table, begins the
departures, lists the arrivals, and sends the notices of a coordinated slice. A departure begins LEAD and the overrun of
the context's last slice before its boundary; a departing context with no unit and no stage in flight leaves residency.
A unit still running one tile budget after the departure began is abandoned. A context listed to arrive does so once
there is room. A notice that has not come 1 ms after the boundary is given up, with NOTICE_MISSING under FALLBACK. -/
def Obligations.SlicesSwitchContextsAtBoundaries : Prop :=
  ∀ (s : State) (p : PartNo) (c : CtxNo),
    (∀ t x tab d1 a, stateStatus s.nv s.d x.ring x.entry = 0 → freshTaken s.d 0x11 t = some x →
      tableCheck s.d (ePartition x.entry) (eArg x.entry 0) = .ok tab → (schedGet s.d (ePartition x.entry)).reclaim = none →
      d1 = dropNext s.nv (ePartition x.entry) s.d →
      a = boundaryTime tab (nextBoundary tab (d1.time.now + (tab.lead + 200) * 1000)) →
      exec (.sliceTable t) s = .next { s with
        d := markBegun t (schedMod (ePartition x.entry) (fun y => { y with
          next := some (tab, t, a), boundary := if y.table.isSome then min y.boundary a else a }) d1) }) ∧
    (∀ t x, stateStatus s.nv s.d x.ring x.entry = 0 → freshTaken s.d 0x11 t = some x →
      (∀ i st, tableCheck s.d (ePartition x.entry) (eArg x.entry 0) = .error (i, st) →
        exec (.sliceTable t) s = .next { s with d := complete s.nv t st i 0 s.d }) ∧
      (∀ tab r, tableCheck s.d (ePartition x.entry) (eArg x.entry 0) = .ok tab →
        (schedGet s.d (ePartition x.entry)).reclaim = some r →
        exec (.sliceTable t) s = .next { s with d := complete s.nv t stState 2 0 s.d })) ∧
    (∀ t x, stateStatus s.nv s.d x.ring x.entry = 0 → freshTaken s.d 0x10 t = some x →
      (applying s.d (ePartition x.entry) = true ∨ s.d.fw.acting.isSome = true → exec (.reclaim t) s = .next s) ∧
      (∀ i st, applying s.d (ePartition x.entry) = false → s.d.fw.acting = none →
        tableCheck s.d (ePartition x.entry) (eArg x.entry 0) = .error (i, st) →
        exec (.reclaim t) s = .next { s with d := complete s.nv t st i 0 s.d })) ∧
    (∀ t x tab, stateStatus s.nv s.d x.ring x.entry = 0 → freshTaken s.d 0x10 t = some x →
      applying s.d (ePartition x.entry) = false → s.d.fw.acting = none →
      tableCheck s.d (ePartition x.entry) (eArg x.entry 0) = .ok tab →
      ∀ d1 stay out, d1 = abandonTests (ePartition x.entry) (dropNext s.nv (ePartition x.entry) s.d) →
        stay = ((sliceAt tab d1.time.now).map fun n => sliceResidents d1 (ePartition x.entry) (sliceOf tab n)).getD [] →
        out = ((residents d1 (ePartition x.entry)).filter fun c => !stay.contains c && (ctxGet d1 c).departing.isNone) →
        exec (.reclaim t) s = .next { s with
          d := markBegun t (schedMod (ePartition x.entry) (fun y => { y with
            table := none, next := none, incoming := [], evicted := [], notice := none, boundary := 0
            reclaim := some ⟨t, tab, eTime x.entry,
              ((residents d1 (ePartition x.entry)).filter fun c => (ctxGet d1 c).departing.isSome) ++ out, 0, 0⟩ })
            (out.foldl (fun d c => beginDeparture c d.time.now none d) d1)) }) ∧
    (∀ r, (schedGet s.d p.val).reclaim = some r → r.departing = [] → procUp s.d 2 = true →
      ∀ n d1 d2, n = sliceAt r.table s.d.time.now →
        d1 = schedMod p.val (fun y => { y with
          reclaim := none, table := some r.table, entry := n.getD 0 % r.table.slices.length, number := n.getD 0
          incoming := ((n.map fun n => sliceResidents s.d p.val (sliceOf r.table n)).getD []).filter fun c => !resident s.d c
          boundary := boundaryTime r.table ((n.map (· + 1)).getD 0) }) s.d →
        d2 = (if r.deadline < s.d.time.now then raiseEv s.nv 0x42 none p.val (s.d.time.now - r.deadline) d1 else d1) →
        exec (.reclaimComplete p) s = .next { s with
          d := complete s.nv r.tag stOK 0xFFFF
            (pack [(0, 32, r.kept / 1024), (32, 8, r.gone), (40, 1, b2n (decide (r.deadline < s.d.time.now)))])
            (logPoint s.nv 2 2 0 0x3003 p.val (r.kept / 1024) d2) }) ∧
    (∀ t n y d0 d1 d2 after done, upcoming s.d p.val = some (t, n) → firmwareRuns s.d = true → y = schedGet s.d p.val →
      y.reclaim = none → applying s.d p.val = false → y.boundary ≤ s.d.time.now →
      d0 = ((residents s.d p.val).filter fun c => !(sliceResidents s.d p.val (sliceOf t n)).contains c).foldl
        (fun d c => beginDeparture c (boundaryTime t n - t.lead * 1000) (some (boundaryTime t n)) d) s.d →
      after = boundaryTime t (n + 1) → done = (y.next.bind fun e => if e.2.2 ≤ y.boundary then some e.2.1 else none) →
      d1 = schedMod p.val (fun z => { z with
          table := some t, entry := n % t.slices.length, number := n, evicted := []
          next := if done.isSome then none else z.next
          incoming := (sliceResidents s.d p.val (sliceOf t n)).filter fun c =>
            !(resident d0 c && (ctxGet d0 c).departing.isNone)
          notice := if needsNotice d0 t (sliceOf t n) then some (boundaryTime t n) else none
          boundary := if done.isSome then after else (z.next.map fun e => min after e.2.2).getD after }) d0 →
      d2 = logPoint s.nv 3 2 0 0x3002 p.val n (if (sliceOf t n).coord then sendNotices s.nv t n d1 else d1) →
      exec (.sliceBoundary p) s = .next { s with d := (done.map fun tag => complete s.nv tag stOK 0xFFFF 0 d2).getD d2 }) ∧
    (∀ d1, (departureDue s.d c.val = none ∧ d1 = s.d) ∨
        (∃ t b use, departureDue s.d c.val = some (t, b, use) ∧
          d1 = if firmwareRuns s.d = true ∧ applying s.d (ctxGet s.d c.val).part.val = false then
              ctxMod c.val (fun x => { x with overrun := x.overrun - use }) (beginDeparture c.val t (some b) s.d)
            else s.d) →
      exec (.departure c) s = .next { s with
        d := if (ctxGet d1 c.val).departing.isSome = true ∧ departReady d1 c.val = true ∧ procUp d1 2 = true then
            finishDeparture s.nv c.val d1
          else d1 }) ∧
    (∀ (k : CluNo) u r t, unitGet s.d k.val u = some r → (ctxGet s.d r.ctx.val).departing = some t →
      t + cdiv (tileBudget s.d (ctxGet s.d r.ctx.val).part.val * 1600000) (halfMhz s.d (halfOf k.val)) ≤ s.d.time.now →
      exec (.departureAbandon k u) s = .next { s with d := abandonUnit k.val u s.d }) ∧
    ((schedGet s.d (ctxGet s.d c.val).part.val).incoming.contains c.val = true → (ctxGet s.d c.val).st = .bound →
      ((residents s.d (ctxGet s.d c.val).part.val).all fun y => (ctxGet s.d y).departing.isNone) = true →
      firmwareRuns s.d = true →
      (residents s.d (ctxGet s.d c.val).part.val).length < maxResident s.d (ctxGet s.d c.val).part.val →
      ((schedGet s.d (ctxGet s.d c.val).part.val).notice = none ∨ s.d.time.fallback = false ∨ noticeSeen s.d (ctxGet s.d c.val).part.val = true) →
      exec (.contextArrival c) s = .next { s with
        d := arrive s.nv c.val (schedMod (ctxGet s.d c.val).part.val (fun y => { y with notice := none }) s.d) }) ∧
    (∀ t, (schedGet s.d p.val).notice = some t → t + 1000000 ≤ s.d.time.now → ∃ d1,
      d1 = schedMod p.val (fun y => { y with notice := none }) s.d ∧
      exec (.noticeTimeout p) s = .next { s with
        d := if s.d.time.fallback = true ∧ noticeSeen s.d p.val = false then
            raiseEv s.nv 0x44 none p.val (schedGet s.d p.val).number d1
          else d1 })

/-- For a taken entry whose state check passes: STACK_RETIRE adds the stack to the fused list, loses its contents, records
it RETIRED, appends the fuse-log record and completes OK. FUSE_WRITE with a well-formed record for a new mask and a
change left sets OWN_POLICY.MASK, counts the change, and logs it; otherwise it ends with MALFORMED, STATE_MISMATCH or
NO_RESOURCE and the number of the check. TEST_PACKAGE with a good header and signature installs the package, and ends
with MALFORMED or SIGNATURE_INVALID without. ESCALATE level 1 tears the context down, 2 resets an engine, 3 a partition,
4 asks for a chip reset and 5 for a power cycle. -/
def Obligations.FusesChangeOnlyByTheirCommands : Prop :=
  ∀ (s : State) (t : Nat) (x : Taken), stateStatus s.nv s.d x.ring x.entry = 0 →
    (freshTaken s.d 0x20 t = some x → ∀ r, r = fuseAppend 2 (s.nv.retired.length + 1) 1 x.port.val 0
          (eArg x.entry 0) { s.nv with retired := s.nv.retired ++ [eArg x.entry 0] }
          (setHealth { s.nv with retired := s.nv.retired ++ [eArg x.entry 0] } 3 (eArg x.entry 0) .retired 10
            { s.d with mem := stackOff (eArg x.entry 0) s.d.mem }) →
      exec (.stackRetire t) s = .next { s with
        nv := r.1
        d := complete r.1 t stOK 0xFFFF 0 (checkReplace r.1 r.2) }) ∧
    (freshTaken s.d 0x21 t = some x → ∀ mask, mask ≠ 0 → mask ≠ s.nv.policyMask → s.nv.policyChanges < 8 →
      dNat s.d.mem (eArg x.entry 0) 64 = pack [(0, 4, 4), (32, 4, mask)] → fld (dNat s.d.mem (eArg x.entry 0) 64) 32 4 = mask →
      ∀ r, r = fuseAppend 4 (s.nv.policyChanges + 1) 1 x.port.val s.nv.policyMask mask
          { s.nv with policyMask := mask, policyChanges := s.nv.policyChanges + 1 } s.d →
        exec (.fuseWrite t) s = .next { s with
          nv := r.1
          d := complete r.1 t stOK 0xFFFF 0 r.2 }) ∧
    (freshTaken s.d 0x21 t = some x → ∀ w mask, w = dNat s.d.mem (eArg x.entry 0) 64 → mask = fld w 32 4 →
      (w ≠ pack [(0, 4, 4), (32, 4, mask)] ∨ mask = 0 →
        exec (.fuseWrite t) s = .next { s with d := complete s.nv t stMalformed 2 0 s.d }) ∧
      (w = pack [(0, 4, 4), (32, 4, mask)] → mask ≠ 0 → mask = s.nv.policyMask →
        exec (.fuseWrite t) s = .next { s with d := complete s.nv t stState 3 0 s.d }) ∧
      (w = pack [(0, 4, 4), (32, 4, mask)] → mask ≠ 0 → mask ≠ s.nv.policyMask → 8 ≤ s.nv.policyChanges →
        exec (.fuseWrite t) s = .next { s with d := complete s.nv t stNoResource 4 0 s.d })) ∧
    (freshTaken s.d 0x22 t = some x → packageHeader (dNat s.d.mem (eArg x.entry 0) 64) = none →
      exec (.testPackage t) s = .next { s with d := complete s.nv t stMalformed 0xFFFF 0 s.d }) ∧
    (freshTaken s.d 0x22 t = some x → ∀ p, packageHeader (dNat s.d.mem (eArg x.entry 0) 64) = some p →
      (Config.factorySignature (dRead s.d.mem (eArg x.entry 0) (dNat s.d.mem (eArg x.entry 0 + 12) 4)) = true →
        exec (.testPackage t) s = .next { s with
          d := complete s.nv t stOK 0xFFFF 0 { s.d with flt := { s.d.flt with pkg := some p } } }) ∧
      (Config.factorySignature (dRead s.d.mem (eArg x.entry 0) (dNat s.d.mem (eArg x.entry 0 + 12) 4)) = false →
        exec (.testPackage t) s = .next { s with d := complete s.nv t stSignature 0xFFFF 0 s.d })) ∧
    (freshTaken s.d 0x23 t = some x →
      (eArg x.entry 0 = 1 → exec (.escalate t) s = .next { s with
        d := startTeardown s.nv (eContext x.entry) 0 none (markBegun t s.d) }) ∧
      (eArg x.entry 0 = 2 → exec (.escalate t) s = .next { s with
        d := engineEscalate s.nv (eArg x.entry 1) 0 (some t) (markBegun t s.d) }) ∧
      (eArg x.entry 0 = 3 → exec (.escalate t) s = .next { s with
        d := partitionEscalate s.nv (ePartition x.entry) (some t) (markBegun t s.d) }) ∧
      (eArg x.entry 0 = 4 → exec (.escalate t) s = .next { s with
        d := complete s.nv t stOK 0xFFFF 0 { s.d with flt := { s.d.flt with resetDue := some 0 } } }) ∧
      (eArg x.entry 0 = 5 → exec (.escalate t) s = .next { s with
        d := complete s.nv t stOK 0xFFFF 0 { s.d with flt := { s.d.flt with cycleDue := true } } }))

/-- A torn-down context with nothing outstanding completes its collectives here with CONTEXT_TORN_DOWN, writes its FINAL
accounting record and the records of its commands, quiesces, loses its grant, and raises CONTEXT_DOWN. After 200 µs the
clusters that still hold it are reset. When its quiescence has passed the number is FREE with every field at its reset.
A hung activity counts, faults the context with HANG and writes a dump. An engine reset that has not ended in 1 ms makes
the cluster dead and escalates to its partition, where no reset of it runs; a partition reset that has not in 10 ms asks
for a chip reset. A chip reset happens under main power when it is due or commanded; a power cycle that is due, or asked
for by a boot that has not ended in 5 s, asserts PCYC_REQ#. -/
def Obligations.TeardownHangAndResetsRunTheirCourse : Prop :=
  ∀ (s : State) (c : CtxNo) (k : CluNo),
    ((ctxGet s.d c.val).st = .tearing → tearReady s.nv s.d c.val = true →
      exec (.teardownComplete c) s = .next { s with
        d := raiseEv s.nv 0x03 (some c.val) (genOf s.nv c.val) (ctxGet s.d c.val).faultStatus
          (ctxMod c.val (fun y => { y with st := .quiescing, ringEn := false, grant := 0, prog := none, tearFrom := s.nv.up })
            (tearRecords s.nv c.val (acctWrite s.nv c.val 1 (collTornAll s.nv
              { s.d with link := { s.d.link with reads := s.d.link.reads.filter fun r => r.ctx.val ≠ c.val } })))) }) ∧
    ((ctxGet s.d c.val).st = .tearing → (ctxGet s.d c.val).tearFrom + 200000 ≤ s.nv.up →
      exec (.teardownTimeout c) s = .next { s with
        d := (holders s.d c.val).foldl
          (fun d k => if (cluGet d k).reset.isSome then d else engineEscalate s.nv k 0 none d) s.d }) ∧
    ((ctxGet s.d c.val).st = .quiescing → quiesceEnd s.nv s.d c.val ≤ s.nv.up →
      exec (.quiescenceEnd c) s = .next { s with d := ctxMod c.val (fun _ => Ctx.init) s.d }) ∧
    (∀ n k stream u rep, hung s.d c.val = some (n, k, stream, u, rep) → resident s.d c.val = true →
      exec (.hang c) s = .next { s with
        d := (dumpWrite s.nv 1 0x0C c.val k (fltCnt 2 (faultCtx s.nv c.val
          ⟨0x0C, stHang, 5, some k, none, some (stream, u, rep), 0, n, (ctxGet s.d c.val).prog.map (·.tag)⟩ s.d))).1 }) ∧
    (∀ a e p, (cluGet s.d k.val).reset = some (a, e) → a + 1000000 ≤ s.nv.up → s.nv.up < e →
      partOf (declareDead s.nv k.val 3 s.d) k.val = some p →
      (schedGet (declareDead s.nv k.val 3 s.d) p).reset = none →
      exec (.engineResetTimeout k) s = .next { s with
        d := partitionEscalate s.nv p none (declareDead s.nv k.val 3 s.d) }) ∧
    (∀ a e, (cluGet s.d k.val).reset = some (a, e) → a + 1000000 ≤ s.nv.up → s.nv.up < e →
      partOf (declareDead s.nv k.val 3 s.d) k.val = none ∨
        (∃ p n, partOf (declareDead s.nv k.val 3 s.d) k.val = some p ∧ (schedGet (declareDead s.nv k.val 3 s.d) p).reset = some n) →
      exec (.engineResetTimeout k) s = .next { s with d := declareDead s.nv k.val 3 s.d }) ∧
    (∀ (p : PartNo) a, (schedGet s.d p.val).reset = some a → a + 10000000 ≤ s.nv.up →
      exec (.partitionResetTimeout p) s = .next { s with
        d := { s.d with flt := { s.d.flt with resetDue := some 0 } } }) ∧
    (∀ cause passed, s.nv.mainOn = true → cause ≠ 0 ∨ s.d.flt.resetDue.isSome = true →
      exec (.chipReset cause passed) s = .next { s with
        nv := (chipResetGo passed s.nv s.d).1
        d := (chipResetGo passed s.nv s.d).2 }) ∧
    (s.nv.mainOn = true → s.d.flt.cycleDue = true ∨ (bootLate s.nv s.d = true ∧ s.nv.pcycReq = false) → exec .powerCycle s = .next { s with
      nv := { s.nv with pcycReq := true }
      d := mgmtPush 3 3 (pwrCount 5 (escalation s.nv 5 0 0 { s.d with flt := { s.d.flt with cycleDue := false } })) })

/-- A run that is due on an eligible cluster with the package installed counts and lasts RUN_US. Its clean end passes every
unit of the package; a failure counts and fails the cluster, and the array where one is named. An interrupted run is
abandoned and counted. A suspect untested for an hour raises TEST_STARVED. A healthy lane above 10 ppm becomes suspect;
a suspect one whose test is due passes below 1 ppm and fails at or above it. The owner's write of FLT_LOG_HI commits the
base where 256 KiB exist, and leaves it otherwise; another port's is counted as denied. -/
def Obligations.TestsRunOnIdleUnits : Prop :=
  ∀ (s : State) (k : CluNo),
    (∀ p, s.d.flt.pkg = some p → testEligible s.nv s.d k.val (p.runUs * 1000) = true → firmwareRuns s.d = true →
      securityUp s.d = true → ((testUnits p k.val).any fun u => testDue s.nv s.d u.1 u.2) = true →
      exec (.testRun k) s = .next { s with
        d := chargeNone 15 p.runUs (fltCnt 7
          (cluMod k.val (fun x => { x with test := some (s.nv.up + p.runUs * 1000) }) s.d)) }) ∧
    (∀ e p, (cluGet s.d k.val).test = some e → s.d.flt.pkg = some p → e ≤ s.nv.up →
      exec (.testRunEnd k none) s = .next { s with
        d := (testUnits p k.val).foldl (fun d u => unitPass s.nv u.1 u.2 d)
          (cluMod k.val (fun x => { x with test := none }) s.d) } ∧
      exec (.testRunEnd k (some none)) s = .next { s with
        d := unitFail s.nv 0 k.val (fltCnt 8 (cluMod k.val (fun x => { x with test := none }) s.d)) } ∧
      ∀ a : Fin 3, exec (.testRunEnd k (some (some a))) s = .next { s with
        d := unitFail s.nv 0 k.val (unitFail s.nv 1 (3 * k.val + a.val)
          (fltCnt 8 (cluMod k.val (fun x => { x with test := none }) s.d))) }) ∧
    (testInterrupted s.d k.val = true → (cluGet s.d k.val).test.isSome = true →
      exec (.testRunAbandon k) s = .next { s with
        d := fltCnt 9 (cluMod k.val (fun x => { x with test := none }) s.d) }) ∧
    ((healthGet s.d 0 k.val).st = .suspect →
      max (healthGet s.d 0 k.val).starvedAt (healthGet s.d 0 k.val).eligibleAt + 3600000000000 ≤ s.nv.up →
      exec (.testStarved k) s = .next { s with
        d := raiseEv s.nv 0x25 none (k.val * 16)
          ((s.nv.up - (healthGet s.d 0 k.val).testedAt.getD (healthGet s.d 0 k.val).suspectAt) / 60000000000)
          (healthMod 0 k.val (fun u => { u with starvedAt := s.nv.up }) s.d) }) ∧
    (∀ (l : Fin 64) ppm, (healthGet s.d 2 l.val).st = .healthy → 10 < ppm →
      exec (.linkLaneTest l ppm) s = .next { s with d := suspect s.nv 2 l.val 6 s.d }) ∧
    (∀ (l : Fin 64) ppm, ((healthGet s.d 2 l.val).st = .healthy → ppm ≤ 10 → exec (.linkLaneTest l ppm) s = .next s) ∧
      ((healthGet s.d 2 l.val).st = .suspect → testDue s.nv s.d 2 l.val = true → exec (.linkLaneTest l ppm) s = .next { s with
        d := if ppm < 1 then unitPass s.nv 2 l.val s.d else unitFail s.nv 2 l.val s.d })) ∧
    (∀ (p : Port) (v : Word), hostWrites s.nv s.d p = true → isOwner s.d p = false →
      exec (.fltLogHi p v) s = .next { s with d := denied s.d }) ∧
    (∀ (p : Port) (v : Word), hostWrites s.nv s.d p = true → isOwner s.d p = true →
      exec (.fltLogHi p v) s = .next { s with
        d := { s.d with flt := { s.d.flt with
          log := if dpaOk s.d.mem (v.toNat % 4096 * 2 ^ 32 + s.d.flt.logStage.getD (s.d.flt.log % 2 ^ 32)) 262144 then
            v.toNat % 4096 * 2 ^ 32 + s.d.flt.logStage.getD (s.d.flt.log % 2 ^ 32) else s.d.flt.log
          logStage := none } } })

/-- The earliest SUBMIT of a context without a program, its gate open, whose program passes the checks, admits it with
nothing started; a gated one does so when its gate opens, and before that or out of turn it waits. A program that fails
a check is refused with the check's status and INDEX, and a poisoned word read for the checks faults the context. A
FORWARD or RECOMPUTE block begins at its CHECKPOINT_BEGIN with no stream active and notes the time; CHECKPOINT_END
writes the block record with one more restart count, closes the block, and stops the program on a mismatch where HALT
asks for it; a record slot that cannot be read faults the context. A program with no active stream and its end or its
stop reached completes with its status, its index, and PREEMPTS, MISMATCH and NONFINITE. -/
def Obligations.ProgramsAreAdmittedAndEnd : Prop :=
  ∀ (s : State) (c : CtxNo),
    (∀ t x h es, stateStatus s.nv s.d x.ring x.entry = 0 → freshTaken s.d 0x40 t = some x → x.ring = some c →
      submitTurn s.d c.val t = true → gateOpen s.d c.val x.entry = true →
      admitProgram s.nv s.d c.val (eArg x.entry 0 % 2 ^ 52) = .ok (h, es) →
      exec (.submit t) s = .next { s with
        d := ctxMod c.val (fun x => { x with
          prog := some ⟨t, h, es, 0, 0, none, [], [], none, false, false, 0⟩ })
          (markBegun t (logPoint s.nv 3 2 0 0x3001 (pack [(0, 8, c.val), (16, 16, ((takenGet s.d t).map cmdId).getD 0)]) h.entries s.d)) } ∧
      (eWaitEn x.entry = true → exec (.submitGateOpen t) s = .next { s with
        d := ctxMod c.val (fun x => { x with
          prog := some ⟨t, h, es, 0, 0, none, [], [], none, false, false, 0⟩ })
          (markBegun t (logPoint s.nv 3 2 0 0x3001 (pack [(0, 8, c.val), (16, 16, ((takenGet s.d t).map cmdId).getD 0)]) h.entries s.d)) })) ∧
    (∀ t x st i, stateStatus s.nv s.d x.ring x.entry = 0 → freshTaken s.d 0x40 t = some x → x.ring = some c →
      submitTurn s.d c.val t = true → gateOpen s.d c.val x.entry = true →
      admitProgram s.nv s.d c.val (eArg x.entry 0 % 2 ^ 52) = .error (.refuse st i) →
      exec (.submit t) s = .next { s with d := complete s.nv t st i 0 s.d } ∧
      (eWaitEn x.entry = true → exec (.submitGateOpen t) s = .next { s with d := complete s.nv t st i 0 s.d })) ∧
    (∀ t x f, stateStatus s.nv s.d x.ring x.entry = 0 → freshTaken s.d 0x40 t = some x → x.ring = some c →
      submitTurn s.d c.val t = true → gateOpen s.d c.val x.entry = true →
      admitProgram s.nv s.d c.val (eArg x.entry 0 % 2 ^ 52) = .error (.fault f) →
      exec (.submit t) s = .next { s with d := faultCtx s.nv c.val { f with tag := some t } s.d } ∧
      (eWaitEn x.entry = true →
        exec (.submitGateOpen t) s = .next { s with d := faultCtx s.nv c.val { f with tag := some t } s.d })) ∧
    (∀ t x, stateStatus s.nv s.d x.ring x.entry = 0 → freshTaken s.d 0x40 t = some x → x.ring = some c →
      submitTurn s.d c.val t = false ∨ gateOpen s.d c.val x.entry = false →
      exec (.submit t) s = .next s ∧ exec (.submitGateOpen t) s = .next s) ∧
    (∀ g m b e, (ctxGet s.d c.val).prog = some g → g.entries[g.next]? = some (.marker m) → g.block = some b → m.kind = 2 →
      g.runs = [] → g.stop = none → mayDeal s.d c.val = true → ctxRead s.d c.val 1 (recordAt g m.blockSlot + 4) 4 = .error e →
      exec (.checkpointEnd c) s = .next { s with d := faultCtx s.nv c.val e s.d }) ∧
    (∀ g m, (ctxGet s.d c.val).prog = some g → g.entries[g.next]? = some (.marker m) → m.kind = 1 → g.runs = [] →
      g.stop = none → mayDeal s.d c.val = true → exec (.checkpointBegin c) s = .next { s with
        d := progMod c.val (fun g => { g with next := g.next + 1, block := some ⟨g.next, m, s.d.time.now, 0⟩ }) s.d }) ∧
    (∀ g m b bs n, (ctxGet s.d c.val).prog = some g → g.entries[g.next]? = some (.marker m) → g.block = some b → m.kind = 2 →
      g.runs = [] → g.stop = none → mayDeal s.d c.val = true →
      ctxRead s.d c.val 1 (recordAt g m.blockSlot + 4) 4 = .ok bs →
      slotClusters s.d c.val g (((blockStreams g b.idx).filter (·.1.mismatch)).map (·.2)) = .ok n →
      exec (.checkpointEnd c) s = .next { s with
        d := progMod c.val (fun y => { y with
          next := y.next + 1, block := none
          stop := if b.marker.halt && !((blockStreams g b.idx).filter (·.1.mismatch)).isEmpty then some (stMismatch, y.next)
            else y.stop })
          (ctxWrite s.nv c.val 1 (recordAt g m.blockSlot)
            (toBytes 256 (blockRec b (blockStreams g b.idx) n (ofBytes bs / 65536 + 1) s.d.time.now))
            (readCharge s.nv c.val (recordAt g m.blockSlot) 4 s.d)) }) ∧
    (∀ g, (ctxGet s.d c.val).prog = some g → progEnded g = true → ctxLive s.d c.val = true → procUp s.d 2 = true →
      exec (.programComplete c) s = .next { s with
        d := complete s.nv g.tag (progStatus g).1 (progStatus g).2
          (pack [(0, 16, g.preempts), (16, 1, b2n g.mismatch), (17, 1, b2n g.nonfinite)])
          (ctxMod c.val (fun x => { x with prog := none }) s.d) })

/-- With its dependence met and the context's work allowed, the next entry starts: a pass-through stream completes at once
with its statistics record; a SORT entry takes a Tally slot of its home with all its move units to deal. Once everything
of an active stream has committed, its record slot is compared, written and marked, with an event where it does not
match. A list or record slot that cannot be read faults the context, named with the stream. A stream or SORT entry that
is over writes its statistics record with its status, gives its Tally slot back, and joins the completed entries, which
keep its mismatch, skips and mispredicts; a failed one stops the program with its status and index. -/
def Obligations.EntriesStartRecordAndComplete : Prop :=
  ∀ (s : State) (c : CtxNo) (g : Prog), (ctxGet s.d c.val).prog = some g →
    (∀ x slot k src dst gov, mayDeal s.d c.val = true → g.stop = none → g.runs.length < 8 →
      g.entries[g.next]? = some (.stream x slot k src dst gov) → depMet g x.depKind x.depStream = true → govDone g gov = true →
      x.passThrough = true → exec (.streamStart c) s = .next { s with
        d := statsWrite s.nv c.val g x.stream
          (statsRec c.val x.stream 0 0 0 (runWaited g (StreamRun.new g.next 0 0 (modeNow g) s.d.time.now [] false 0)) s.d.time.now)
          (progMod c.val (fun y => { y with
            next := y.next + 1, waited := 0, done := y.done ++ [⟨y.next, 0, false, false, false, 0, 0⟩] }) s.d) }) ∧
    (∀ x slot kn src dst gov k n counts st, mayDeal s.d c.val = true → g.stop = none → g.runs.length < 8 →
      g.entries[g.next]? = some (.stream x slot kn src dst gov) → depMet g x.depKind x.depStream = true → govDone g gov = true →
      x.passThrough = false → partCluster s.d (ctxGet s.d c.val).part.val x.home = some k → freeSlot s.d k = some n →
      govCounts s.d c.val gov = .ok (counts, st) → (usesSpill x && spillBusy g) = false →
      exec (.streamStart c) s = .next { s with
        d := streamInit s.nv c.val k g ⟨x, perExpert x gov, slot, kn, src, dst, gov⟩ (entryStart c.val k n x.stream (unitCount x gov)
          (StreamRun.new g.next k n (modeNow g) s.d.time.now counts true st) s.d) }) ∧
    (∀ x k n, mayDeal s.d c.val = true → g.stop = none → g.runs.length < 8 → g.entries[g.next]? = some (.sort x) →
      depMet g x.depKind x.depStream = true → partCluster s.d (ctxGet s.d c.val).part.val x.home = some k →
      freeSlot s.d k = some n → exec (.streamStart c) s = .next { s with
        d := entryStart c.val k n x.stream (moveUnits x) (StreamRun.new g.next k n (modeNow g) s.d.time.now []
          (x.op ≠ 0 && !awaitsRows x) 0) s.d }) ∧
    (∀ idx r i bs zeros, runGet s.d c.val idx = some r → streamInfo s.d c.val idx = some i → resident s.d c.val = true →
      has i.x 7 = true → r.recorded = false → allCommitted s.d c.val r = true → r.remoteStatus = 0 →
      ctxRead s.d c.val 1 (recordAt g i.x.recordSlot) 256 = .ok bs → zeroTiles s.d c.val i = .ok zeros →
      (compareRef i r (ofBytes bs)).2.1 = false → exec (.recordSlotWrite c idx) s = .next { s with
        d := runMod c.val idx (fun y => { y with
            recorded := true, compared := (compareRef i r (ofBytes bs)).1, mismatch := false
            noref := (compareRef i r (ofBytes bs)).2.2 })
          (ctxWriteAs s.nv (forStream (some r.home) i.x.stream) c.val 1 (recordAt g i.x.recordSlot)
            (toBytes 256 (slotEnd i r zeros (putFld (ofBytes bs) 224 32 (statusEnd i r (ofBytes bs)))))
            (readCharge s.nv c.val (recordAt g i.x.recordSlot) 256 s.d)) }) ∧
    (∀ idx r i bs zeros w, runGet s.d c.val idx = some r → streamInfo s.d c.val idx = some i → resident s.d c.val = true →
      has i.x 7 = true → r.recorded = false → allCommitted s.d c.val r = true → r.remoteStatus = 0 →
      ctxRead s.d c.val 1 (recordAt g i.x.recordSlot) 256 = .ok bs → zeroTiles s.d c.val i = .ok zeros →
      (compareRef i r (ofBytes bs)).2.1 = true →
      w = slotEnd i r zeros (putFld (ofBytes bs) 224 32 (statusEnd i r (ofBytes bs))) →
      exec (.recordSlotWrite c idx) s = .next { s with
        d := mismatchEvent s.nv c.val g i w (runMod c.val idx (fun y => { y with
            recorded := true, compared := (compareRef i r (ofBytes bs)).1, mismatch := true
            noref := (compareRef i r (ofBytes bs)).2.2 })
          (ctxWriteAs s.nv (forStream (some r.home) i.x.stream) c.val 1 (recordAt g i.x.recordSlot) (toBytes 256 w)
            (readCharge s.nv c.val (recordAt g i.x.recordSlot) 256 s.d))) }) ∧
    (∀ idx r i f, runGet s.d c.val idx = some r → streamInfo s.d c.val idx = some i → resident s.d c.val = true →
      has i.x 7 = true → r.recorded = false → allCommitted s.d c.val r = true → r.remoteStatus = 0 →
      ctxRead s.d c.val 1 (recordAt g i.x.recordSlot) 256 = .error f →
      exec (.recordSlotWrite c idx) s = .next { s with
        d := faultCtx s.nv c.val { f with clu := some r.home, stream := some (i.x.stream, 0, false) } s.d }) ∧
    (∀ x slot kn src dst gov k n f, mayDeal s.d c.val = true → g.stop = none → g.runs.length < 8 →
      g.entries[g.next]? = some (.stream x slot kn src dst gov) → depMet g x.depKind x.depStream = true → govDone g gov = true →
      x.passThrough = false → partCluster s.d (ctxGet s.d c.val).part.val x.home = some k → freeSlot s.d k = some n →
      govCounts s.d c.val gov = .error f →
      exec (.streamStart c) s = .next { s with
        d := faultCtx s.nv c.val { f with clu := some k, stream := some (x.stream, 0, false) } s.d }) ∧
    (∀ idx r, runGet s.d c.val idx = some r → resident s.d c.val = true → r.saved = none → r.remoteStatus ≠ 0 →
      refusalOpen s.d c.val r = false → ∃ d0, exec (.streamComplete c idx) s = .next { s with
        d := dropUnits c.val idx (progMod c.val (fun y => { y with
          runs := y.runs.filter (·.idx ≠ idx)
          done := y.done ++ [⟨idx, r.remoteStatus, r.mismatch, r.noref, r.compared, r.skipped, r.mispredicts⟩]
          mismatch := y.mismatch || r.mismatch
          nonfinite := y.nonfinite || r.remoteStatus == stNonfinite
          stop := if y.stop.isNone then some (r.remoteStatus, idx) else y.stop }) d0) } ∧
        d0 = cluMod r.home (fun x => { x with slots := smMod x.slots TallySlot.init r.slot slotFree })
          (statsWrite s.nv c.val g ((entryStream g idx).getD 0) (statsRec c.val ((entryStream g idx).getD 0) r.remoteStatus
            (slotOf s.d r).done (slotOf s.d r).reissued r r.lastTime) s.d)) ∧
    (∀ idx r, runGet s.d c.val idx = some r → resident s.d c.val = true → r.saved = none → r.remoteStatus = 0 →
      refusalOpen s.d c.val r = false → entryOver s.d c.val r = true → exec (.streamComplete c idx) s = .next { s with
        d := dropUnits c.val idx (progMod c.val (fun y => { y with
          runs := y.runs.filter (·.idx ≠ idx)
          done := y.done ++ [⟨idx, runStatus r, r.mismatch, r.noref, r.compared, r.skipped, r.mispredicts⟩]
          mismatch := y.mismatch || r.mismatch
          nonfinite := y.nonfinite || runStatus r == stNonfinite })
          (cluMod r.home (fun x => { x with slots := smMod x.slots TallySlot.init r.slot slotFree })
          (statsWrite s.nv c.val g ((entryStream g idx).getD 0) (statsRec c.val ((entryStream g idx).getD 0) (runStatus r)
            (slotOf s.d r).done (slotOf s.d r).reissued r r.lastTime) s.d))) })

/-- A cluster without a claim whose partition has no lost copy claims the next unit of the entry that R44 picks; Tally
counts it as dealt and its predictions are read. A lost staged copy is taken up before a new unit. A claimed SORT move
unit with room starts at the lowest free place; a claimed stream unit, its predictions read, with room and a free digest
unit where it holds one, starts with its digest unit, its Palette range, its spill area and, for an EXCHANGE source, its
reads. A unit that has run, drained, and whose writes and remote transactions are over commits: its digest, its map bits
and its counts go to its stream, DONE counts it but for a repair unit and a combined tile, and it leaves its cluster.
BUBBLE_START moves a record on to its next bubble and counts one that is not filled. CORE_CONTEXT_CHANGE hands the cores
to a context with a Glaze unit there when no parcel of another is left. -/
def Obligations.UnitsAreClaimedStartedAndCommitted : Prop :=
  ∀ (s : State) (k : CluNo),
    (∀ c r n rep u, (cluGet s.d k.val).claimed = none → takesUnits s.nv s.d k.val = true →
      (partOf s.d k.val).bind (lostCopy s.d) = none → claimFrom s.d k.val = some (c, r) → nextUnit s.d r = (n, rep) →
      u = { UnitRun.new (claimCtx c) r.idx n rep false (((descGet s.d c r.idx).map arrayKind).getD 0) s.d.mem.quota [] none with
        predRead := rep || !((streamInfo s.d c r.idx).map fun i =>
          decide (i.slot.predAddr ≠ 0) && (i.x.speculate || i.x.zmapSkip)).getD false } →
      exec (.unitClaim k) s = .next { s with
        d := predTry s.nv k.val claimPlace (cluMod k.val (fun x => { x with
          claimed := some u, claimOrder := c :: without x.claimOrder c }) (dealt c r n rep s.d)) }) ∧
    (∀ c idx tile, (cluGet s.d k.val).claimed = none → takesUnits s.nv s.d k.val = true →
      (partOf s.d k.val).bind (lostCopy s.d) = some (c, idx, tile) →
      exec (.unitClaim k) s = .next { s with
        d := runMod c idx (fun r => { r with copier := smPut r.copier 0 tile (k.val + 1) }) s.d }) ∧
    (∀ q d, predTry s.nv k.val claimPlace s.d = d → (cluGet d k.val).claimed = some q → takesUnits s.nv d k.val = true →
      mayDeal d q.ctx.val = true → fitsOn d k.val q.ctx.val q.idx = true → streamInfo d q.ctx.val q.idx = none →
      exec (.unitStart k) s = .next { s with
        d := cluMod k.val (claimPut (freePlace (cluGet d k.val)) { q with qpc := d.mem.quota }) d }) ∧
    (∀ q i d d1 d2 dig place, predTry s.nv k.val claimPlace s.d = d → (cluGet d k.val).claimed = some q →
      takesUnits s.nv d k.val = true → mayDeal d q.ctx.val = true → fitsOn d k.val q.ctx.val q.idx = true →
      streamInfo d q.ctx.val q.idx = some i → unitStartOk d k.val q.ctx i.x = true →
      dig = (if holdsDigest i.x then freeDigest d k.val else none) → place = freePlace (cluGet d k.val) →
      d1 = (if has i.x 6 then coreChange k.val q.ctx else id)
        (cluMod k.val (claimPut place { q with qpc := d.mem.quota, dig := dig }) d) →
      d2 = (dig.map fun g => digestStart k.val g q.ctx.val i.slot.poly i.x.stream q.unit q.repair d1).getD d1 →
      exec (.unitStart k) s = .next { s with
        d := (if exSource i.x then exchangeIn s.nv k.val place q.ctx i (unitRegion i q.unit q.repair false) else id)
          (spillTake s.nv k.val q.ctx.val i (q.unit, q.repair) (palTake k.val i.x.palBase (palUsed i.x i.y) d2)) }) ∧
    (∀ u r d0 d1, unitGet s.d k.val u = some r → unitOver s.d k.val u = true →
      unitWrites (cluGet s.d k.val) u = false → unitOwes s.d k.val u = false →
      d0 = ((streamInfo s.d r.ctx.val r.idx).map fun i => mapClear s.nv r.ctx.val i r.nonzero s.d).getD s.d →
      d1 = runMod r.ctx.val r.idx (runCommit k.val d0.time.now (descGet d0 r.ctx.val r.idx) r) (digestEnd k.val r d0) →
      (r.repair = false → r.combine = false → exec (.unitCommit k u) s = .next { s with
        d := lastDone s.nv r.ctx.val r.idx (unitLeave k.val u r (slotMod r.ctx.val r.idx (fun x => { x with done := x.done + 1 }) d1)) }) ∧
      (r.repair = true → r.combine = false → exec (.unitCommit k u) s = .next { s with
        d := lastDone s.nv r.ctx.val r.idx (unitLeave k.val u r (repairClose s.nv r.ctx.val r d1)) }) ∧
      (r.repair = false → r.combine = true → exec (.unitCommit k u) s = .next { s with
        d := lastDone s.nv r.ctx.val r.idx (slotMod r.ctx.val r.idx (fun x => { x with
            combining := (unitsOn (unitLeave k.val u r d1) k.val).any fun q => q.2.combine && q.2.ctx = r.ctx && q.2.idx == r.idx })
          (unitLeave k.val u r d1)) })) ∧
    (∀ (c : CtxNo) i b, (ctxGet s.d c.val).bubbles[i]? = some b → b.next < b.count →
      (bubbleSpan b b.next).1 ≤ s.d.time.now → ∃ d1, d1 = ctxMod c.val (fun x => { x with
          bubbles := lMod x.bubbles i (fun b => { b with next := if b.period = 0 then b.count else b.next + 1 }) }) s.d ∧
        exec (.bubbleStart c i) s = .next { s with
          d := if bubbleFills s.d c.val b b.next then d1
            else { d1 with coll := { d1.coll with cnt := smMod d1.coll.cnt 0 7 (satInc 32) } } }) ∧
    (∀ c : CtxNo, takesUnits s.nv s.d k.val = true → resident s.d c.val = true → wantsCores s.d k.val c.val = true →
      otherParcels s.d k.val c.val = false → (cluGet s.d k.val).coreCtx ≠ some c →
      exec (.coreContextChange k c) s = .next { s with d := loadCores k.val c (saveCores k.val s.d) })

/-- The next pass of a unit, its words landed unpoisoned and room in the accumulator, adds its k-block sums, moves on, and
charges its cycles; a bound pass likewise to its bounds. A closed strip of a part unit goes to its part slot, one with
Glaze first waits for cores, and any other drains through Varnish; a ROW unit's row goes to a core and, its parcel over,
drains in row order; a move unit's landed row is written. A word that landed poisoned faults the context at the pass
that uses it. The parts of a tile, all committed, combine in order on the home, with its digest unit and cores where the
stream has them. A staged tile is copied once. LIST_PHASE writes the lists made from the routing records, RECEIVE ends
when every arrival word has the tag, and a move unit whose lists serve moves its rows; lists that do not serve fail the
entry, and what cannot be read faults the context. -/
def Obligations.PassesDrainsAndCombinations : Prop :=
  ∀ (s : State) (k : CluNo),
    (∀ u r i p d cnt rows cyc r1 a b, predTry s.nv k.val u s.d = d → unitInfo d k.val u = some (r, i) →
      cnt = countsOf d r.ctx.val r.idx → (unitPasses i r cnt)[r.pos]? = some p →
      (∀ b, (unitBounds i r (trusted d r.ctx.val r.idx))[r.bpos]? = some b → p.chunk ≤ b.chunk) → r.predRead = true →
      (∀ w ∈ passX i (regionOf i r) cnt r.pred p ++ passW i (regionOf i r) cnt r.pred p ++ (if r.pos = 0 then initWords i r else []),
        w ∈ r.have_ ∧ w ∉ r.bad) → hasRoom d k.val i r p = true →
      rows = passRows i (regionOf i r) cnt r.pred p → cyc = passCycles i.x rows.length →
      r1 = trimBufs i cnt (trusted d r.ctx.val r.idx) { accStart i r with
        acc := passSums i (regionOf i r) (accStart i r) cnt p, pos := r.pos + 1 } →
      a = spillWait r.ctx.val i r cnt p (unitMod k.val u (fun _ => r1) d) → b = easelWait k.val i r r1 cnt p cyc a.2 →
      exec (.pass k u) s = .next { s with
        d := arrayTook s.nv k.val u i r1 (passBlock i r cnt p) (if rateOf i.x = 3 then 2 else 1) cyc
          (if rateOf i.x = 0 then 8 else if rateOf i.x = 1 then 2 else 1) (rateOf i.x) (a.1 + b.1) rows b.2 }) ∧
    (∀ u r i b d cnt r1, predTry s.nv k.val u s.d = d → unitInfo d k.val u = some (r, i) →
      cnt = countsOf d r.ctx.val r.idx → (unitBounds i r (trusted d r.ctx.val r.idx))[r.bpos]? = some b →
      (∀ p, (unitPasses i r cnt)[r.pos]? = some p → b.chunk < p.chunk) → r.predRead = true →
      (∀ w ∈ boundX i (regionOf i r) cnt b ++ boundW i (regionOf i r) cnt b, w ∈ r.have_ ∧ w ∉ r.bad) →
      r1 = trimBufs i cnt (trusted d r.ctx.val r.idx) { r with bound := boundSums i (regionOf i r) r cnt b, bpos := r.bpos + 1 } →
      exec (.boundPass k u) s = .next { s with
        d := arrayTook s.nv k.val u i r1 (boundBlock i r cnt b) 2 (boundCycles r.kind) 1 5 0
          ((List.range 128).map fun j => b.tile / mapS i * 128 + j) (unitMod k.val u (fun _ => r1) d) }) ∧
    (∀ u strip r i z r1 d, predTry s.nv k.val u s.d = d → unitInfo d k.val u = some (r, i) → has i.x 5 = true →
      r.predRead = true → (∀ w ∈ (if r.moved then [] else initWords i r) ++ maskWords i r, w ∈ r.have_ ∧ w ∉ r.bad) →
      stripSet i (regionOf i r) strip = some z → (stripNos (regionOf i r) z).any r.drained.contains = false →
      closedSet i (regionOf i r) r (countsOf d r.ctx.val r.idx) (trusted d r.ctx.val r.idx) z = true →
      r1 = accStart i r →
      (i.x.ksplit ≠ 0 → r1.combine = false → exec (.stripDrain k u strip) s = .next { s with
        d := exchangeEnd s.nv k.val u (progressed s.nv r.ctx.val (unitMod k.val u (releaseSet (regionOf i r) z)
          (drainPart s.nv k.val u i (regionOf i r) r1 z (unitMod k.val u (fun _ => r1) d)))) }) ∧
      (i.x.ksplit = 0 ∨ r1.combine = true → has i.x 6 = true →
        (stripNos (regionOf i r) z).all r1.sent.contains = false →
        elementParcels i (regionOf i r) r1 (countsOf d r.ctx.val r.idx) d.fresh z ≠ [] →
        (cluGet d k.val).coreCtx = some r1.ctx → exec (.stripDrain k u strip) s = .next { s with
        d := exchangeEnd s.nv k.val u (cluMod k.val (fun x => { x with
            parcels := x.parcels ++ elementParcels i (regionOf i r) r1 (countsOf d r.ctx.val r.idx) d.fresh z })
          (unitMod k.val u (fun _ => { r1 with
            sent := r1.sent ++ stripNos (regionOf i r) z
            parcelsLeft := r1.parcelsLeft +
              (elementParcels i (regionOf i r) r1 (countsOf d r.ctx.val r.idx) d.fresh z).length }) d)) }) ∧
      (i.x.ksplit = 0 ∨ r1.combine = true → has i.x 6 = false ∨ (stripNos (regionOf i r) z).all r1.sent.contains = true ∨
          elementParcels i (regionOf i r) r1 (countsOf d r.ctx.val r.idx) d.fresh z = [] →
        (parcelOpen d k.val r1 fun p =>
          z.rows.contains p.row && z.strips.contains ((p.col - (regionOf i r).c0) / 8)) = false →
        exec (.stripDrain k u strip) s = .next { s with
        d := exchangeEnd s.nv k.val u (progressed s.nv r.ctx.val (drainOut s.nv k.val u i (regionOf i r) r1
          (countsOf d r.ctx.val r.idx) (trusted d r.ctx.val r.idx) z (unitMod k.val u (fun _ => r1) d))) })) ∧
    (∀ u q r i d, predTry s.nv k.val u s.d = d → unitInfo d k.val u = some (r, i) → has i.x 5 = false → isRow i.x = true →
      q < (regionOf i r).nr → r.drained.contains q = false →
      (r.sent.contains q = false → (List.range q).all r.sent.contains = true → (cluGet d k.val).coreCtx = some r.ctx →
        (∀ w ∈ plainWords i r ((regionOf i r).r0 + q) ++ maskWords i r, w ∈ r.have_ ∧ w ∉ r.bad) →
        exec (.stripDrain k u q) s = .next { s with d := exchangeEnd s.nv k.val u (rowDeliver k.val u q i r d) }) ∧
      (r.sent.contains q = true → (List.range q).all r.drained.contains = true →
        (parcelOpen d k.val r fun p => p.row == (regionOf i r).r0 + q) = false →
        exec (.stripDrain k u q) s = .next { s with
        d := exchangeEnd s.nv k.val u (progressed s.nv r.ctx.val (rowFinish s.nv k.val u q i r d)) })) ∧
    (∀ u q r i d, predTry s.nv k.val u s.d = d → unitInfo d k.val u = some (r, i) → has i.x 5 = false → isRow i.x = false →
      q < (regionOf i r).nr → r.drained.contains q = false →
      (exSource i.x = true → (d.link.reads.any fun x => x.unit = some (k.val, u)) = false ∧ r.bad = []) →
      (∀ w ∈ plainWords i r ((regionOf i r).r0 + q) ++ maskWords i r, w ∈ r.have_ ∧ w ∉ r.bad) →
      exec (.stripDrain k u q) s = .next { s with
        d := exchangeEnd s.nv k.val u (progressed s.nv r.ctx.val (moveFinish s.nv k.val u q i r d)) }) ∧
    (∀ (c : CtxNo) idx tile r i f, runGet s.d c.val idx = some r → streamInfo s.d c.val idx = some i → mayDeal s.d c.val = true →
      takesUnits s.nv s.d r.home = true → mayCombine s.d c.val idx tile r i = true →
      (has i.x 6 = true → coresServe s.d r.home c = true) →
      combineRows s.d c.val i (unitRegion i tile false true)
        ((List.range (unitRegion i tile false true).nr).map ((unitRegion i tile false true).r0 + ·)) [] = .ok f →
      ∀ dig d1 d2, dig = (if i.x.digest then freeDigest s.d r.home else none) → (i.x.digest = true → dig.isSome = true) →
      d1 = (if has i.x 6 then coreChange r.home c else id) (cluMod r.home (fun x => { x with
            units := smPut x.units none (freePlace (cluGet s.d r.home))
              (some { UnitRun.new c idx tile false true 0 s.d.mem.quota [] dig with acc := f, moved := true }) }) s.d) →
      d2 = (dig.map fun n => digestStart r.home n c.val i.slot.poly i.x.stream tile false d1).getD d1 →
      exec (.partCombine c idx tile) s = .next { s with
        d := slotMod c.val idx (fun x => { x with combining := true }) (moved c.val
          (wordsLen 0 (4 * (unitRegion i tile false true).nc) * (unitRegion i tile false true).nr * partsOf i.y) 0 d2) }) ∧
    (∀ u r i p d cnt w, predTry s.nv k.val u s.d = d → unitInfo d k.val u = some (r, i) →
      cnt = countsOf d r.ctx.val r.idx → (unitPasses i r cnt)[r.pos]? = some p →
      (∀ b, (unitBounds i r (trusted d r.ctx.val r.idx))[r.bpos]? = some b → p.chunk ≤ b.chunk) → r.predRead = true →
      (∀ w ∈ passX i (regionOf i r) cnt r.pred p ++ passW i (regionOf i r) cnt r.pred p ++ (if r.pos = 0 then initWords i r else []),
        w ∈ r.have_) → hasRoom d k.val i r p = true →
      (passX i (regionOf i r) cnt r.pred p ++ passW i (regionOf i r) cnt r.pred p ++ (if r.pos = 0 then initWords i r else [])).find?
        (fun w => r.bad.contains w) = some w →
      exec (.pass k u) s = .next { s with d := faultCtx s.nv r.ctx.val (unitPoison d k.val i r w) d }) ∧
    (∀ u r i b d cnt w, predTry s.nv k.val u s.d = d → unitInfo d k.val u = some (r, i) →
      cnt = countsOf d r.ctx.val r.idx → (unitBounds i r (trusted d r.ctx.val r.idx))[r.bpos]? = some b →
      (∀ p, (unitPasses i r cnt)[r.pos]? = some p → b.chunk < p.chunk) → r.predRead = true →
      (∀ w ∈ boundX i (regionOf i r) cnt b ++ boundW i (regionOf i r) cnt b, w ∈ r.have_) →
      (boundX i (regionOf i r) cnt b ++ boundW i (regionOf i r) cnt b).find? (fun w => r.bad.contains w) = some w →
      exec (.boundPass k u) s = .next { s with d := faultCtx s.nv r.ctx.val (unitPoison d k.val i r w) d }) ∧
    (∀ (c : CtxNo) idx r x f, runGet s.d c.val idx = some r → sortInfo s.d c.val idx = some x → r.ready = false →
      (x.op = 0 → mayDeal s.d c.val = true → outOfService s.d r.home = false →
        ctxRead s.d c.val 1 x.routeAddr (4 * (x.t * x.cand)) = .error f →
        exec (.listPhase c idx) s = .next { s with d := faultCtx s.nv c.val (sortFault r x.stream f) s.d }) ∧
      (awaitsRows x = true → resident s.d c.val = true → ctxRead s.d c.val 1 x.srcAddr (4 * x.group) = .error f →
        exec (.receive c idx) s = .next { s with d := faultCtx s.nv c.val (sortFault r x.stream f) s.d })) ∧
    (∀ (c : CtxNo) idx r x bs, runGet s.d c.val idx = some r → sortInfo s.d c.val idx = some x → awaitsRows x = true →
      r.ready = false → resident s.d c.val = true → ctxRead s.d c.val 1 x.srcAddr (4 * x.group) = .ok bs →
      (words4 x.group bs).all (arrivedWord x) = false → exec (.receive c idx) s = .next s) ∧
    (∀ u r x q, unitGet s.d k.val u = some r → sortInfo s.d r.ctx.val r.idx = some x → runGet s.d r.ctx.val r.idx = some q →
      r.moved = false → q.remoteStatus = 0 →
      (listsServe s.d r.ctx.val q x = .ok false →
        exec (.moveUnit k u) s = .next { s with d := remoteFail r.ctx.val r.idx stList none s.d }) ∧
      (∀ f, listsServe s.d r.ctx.val q x = .error f → exec (.moveUnit k u) s = .next { s with
        d := faultCtx s.nv r.ctx.val { f with clu := some k.val, stream := some (x.stream, r.unit, false) } s.d })) ∧
    (∀ (c : CtxNo) idx tile r i n, runGet s.d c.val idx = some r → streamInfo s.d c.val idx = some i → mayDeal s.d c.val = true →
      r.staged.contains tile = true → r.copied.contains tile = false → smGet r.copier 0 tile = n + 1 →
      takesUnits s.nv s.d n = true →
      exec (.resultCopy c idx tile) s = .next { s with
        d := progressed s.nv c.val (runMod c.val idx (fun r => { r with copied := insAsc tile r.copied })
          (copyRows s.nv n c.val i (unitRegion i tile false (i.x.ksplit ≠ 0))
            ((List.range (unitRegion i tile false (i.x.ksplit ≠ 0)).nr).map ((unitRegion i tile false (i.x.ksplit ≠ 0)).r0 + ·))
            s.d)) }) ∧
    (∀ (c : CtxNo) idx r x bs h, runGet s.d c.val idx = some r → sortInfo s.d c.val idx = some x → x.op = 0 → r.ready = false →
      mayDeal s.d c.val = true → outOfService s.d r.home = false →
      ctxRead s.d c.val 1 x.routeAddr (4 * (x.t * x.cand)) = .ok bs → ctxRead s.d c.val 1 x.listAddr 64 = .ok h →
      exec (.listPhase c idx) s = .next { s with
        d := progressed s.nv c.val (runMod c.val idx (fun r => { r with ready := true, idle := 0 })
          (listsWrite s.nv (sortFault r x.stream) c.val x (fld (ofBytes h) 16 16) (placeAll x (words4 (x.t * x.cand) bs))
            (readCharge s.nv c.val x.listAddr 64 (readCharge s.nv c.val x.routeAddr (4 * (x.t * x.cand)) s.d)))) }) ∧
    (∀ (c : CtxNo) idx r x bs, runGet s.d c.val idx = some r → sortInfo s.d c.val idx = some x → awaitsRows x = true →
      r.ready = false → resident s.d c.val = true → ctxRead s.d c.val 1 x.srcAddr (4 * x.group) = .ok bs →
      (words4 x.group bs).all (arrivedWord x) = true →
      exec (.receive c idx) s = .next { s with
        d := progressed s.nv c.val (runMod c.val idx (fun r => { r with ready := true, idle := 0, lastTime := s.d.time.now })
          (readCharge s.nv c.val x.srcAddr (4 * x.group) s.d)) }) ∧
    (∀ u r x q, unitGet s.d k.val u = some r → sortInfo s.d r.ctx.val r.idx = some x → runGet s.d r.ctx.val r.idx = some q →
      r.moved = false → q.remoteStatus = 0 → listsServe s.d r.ctx.val q x = .ok true →
      exec (.moveUnit k u) s = .next { s with
        d := progressed s.nv r.ctx.val (moveRows s.nv k.val u r x
          (unitMod k.val u (fun r => { r with moved := true, idle := 0 }) s.d)) })

/-- A core that issues one of these words does what its row says and nothing else. S-ALU, S-IMM and UPPER write RD and step
to the next instruction; BRANCH steps there or by its offset; JUMP links and goes to its target. An aligned permitted
LOAD puts its data on its way, which LOAD_RETURN writes; an aligned permitted STORE writes its bytes; a LOAD or STORE
that is not faults its context. CSRR reads a CSR, CSRW clears FLAGS bits written as 1. -/
def Obligations.ScalarInstructionsAct : Prop :=
  ∀ (s : State) (k : CluNo) (j : CoreNo) (w : Word) (r : ParcelRun),
    (∀ op rd a b, CoreIssues s.d k.val j.val .sAlu w r (.alu op rd a b) →
      exec (.sAlu k j w) s = .next { s with
        d := coreMod k.val j.val (fun x => pcNext (sPut rd (aluResult op (sReg x a) (sReg x b)) x)) s.d }) ∧
    (∀ op rd a imm, CoreIssues s.d k.val j.val .sImm w r (.imm op rd a imm) →
      exec (.sImm k j w) s = .next { s with
        d := coreMod k.val j.val (fun x => pcNext (sPut rd (aluResult op (sReg x a) (imm.signExtend 32)) x)) s.d }) ∧
    (∀ rd imm, CoreIssues s.d k.val j.val .upper w r (.upper rd imm) →
      exec (.upper k j w) s = .next { s with
        d := coreMod k.val j.val (fun x => pcNext (sPut rd (w32 (imm.toNat * 4096)) x)) s.d }) ∧
    (∀ c a b off, CoreIssues s.d k.val j.val .branch w r (.branch c a b off) →
      exec (.branch k j w) s = .next { s with
        d := coreMod k.val j.val (fun x => { x with
          pc := if branchTaken c (sReg x a) (sReg x b) then x.pc + BitVec.ofInt 32 (4 * off.toInt) else x.pc + 4 }) s.d }) ∧
    (∀ rd a off, CoreIssues s.d k.val j.val .jump w r (.jump rd a off) →
      exec (.jump k j w) s = .next { s with
        d := coreMod k.val j.val (fun x => { sPut rd (x.pc + 4) x with
          pc := (if a = 0 then x.pc else sReg x a) + BitVec.ofInt 32 (4 * off.toInt) }) s.d }) ∧
    (∀ op rd base off a, CoreIssues s.d k.val j.val .load w r (.load op rd base off) →
      a = addrOf (sReg (coreGet s.d k.val j.val) base) off.toInt →
      (coreCheck s.d k.val a (loadBytes op) (loadBytes op) false = none → exec (.load k j w) s = .next { s with
        d := palCharge k.val j.val a (loadBytes op) false r.parcel.ctx (coreMod k.val j.val (fun x => pcNext (if rd = 0 then x else { x with
            loads := x.loads ++ [(rd.toNat, loadValue op (loadRead s.d k.val j.val a (loadBytes op)))] }))
          (loadCapture k.val j.val a s.d)) }) ∧
      (∀ e, coreCheck s.d k.val a (loadBytes op) (loadBytes op) false = some e →
        exec (.load k j w) s = .next { s with d := coreFault s.nv k.val j.val e s.d })) ∧
    (∀ op rs base off a, CoreIssues s.d k.val j.val .store w r (.store op rs base off) →
      a = addrOf (sReg (coreGet s.d k.val j.val) base) off.toInt →
      (coreCheck s.d k.val a (storeBytes op) (storeBytes op) true = none → exec (.store k j w) s = .next { s with
        d := palCharge k.val j.val a (storeBytes op) true r.parcel.ctx (coreMod k.val j.val pcNext
          (coreBytesPut k.val j.val a (toBytes (storeBytes op) (sReg (coreGet s.d k.val j.val) rs).toNat) s.d)) }) ∧
      (∀ e, coreCheck s.d k.val a (storeBytes op) (storeBytes op) true = some e →
        exec (.store k j w) s = .next { s with d := coreFault s.nv k.val j.val e s.d })) ∧
    (∀ rd n, CoreIssues s.d k.val j.val .csrr w r (.csrr rd n) →
      exec (.csrr k j w) s = .next { s with
        d := coreMod k.val j.val (fun x => pcNext (sPut rd (csrValue s.d k.val j.val r.parcel.ctx n.toNat) x))
          (csrCapture k.val j.val n.toNat s.d) }) ∧
    (∀ a n, CoreIssues s.d k.val j.val .csrw w r (.csrw a n) →
      exec (.csrw k j w) s = .next { s with
        d := coreMod k.val j.val (fun x => pcNext { x with flags := x.flags &&& ~~~(BitVec.ofNat 4 (sReg x a).toNat) }) s.d }) ∧
    (∀ l rest, (coreGet s.d k.val j.val).loads = l :: rest →
      exec (.loadReturn k j) s = .next { s with
        d := coreMod k.val j.val (fun x => sPut (BitVec.ofNat 5 l.1) l.2 { x with loads := rest }) s.d })

/-- A core that issues one of these words, its accesses aligned, in the map and permitted, does what its row says, steps to
the next instruction and charges the energy counters. A load or gather fills the active lanes, in lane order; a store or
scatter writes them, the higher lane last; VBCAST, VCVT and V-ALU write their lanes and flags; BLOCK writes the block
made of the words read. A far load goes on its way unless an earlier far store of the core to its place has not been
accepted, a far store goes to the hubs in order unless an earlier far load of its place is on its way; until then the
core waits. An access that is misaligned, outside the map, not permitted or without a translation faults the context. -/
def Obligations.VectorInstructionsAct : Prop :=
  ∀ (s : State) (k : CluNo) (j : CoreNo) (w : Word) (r : ParcelRun) (x : Core), x = coreGet s.d k.val j.val →
    (∀ op ty pred vd va vb vc, CoreIssues s.d k.val j.val .vAlu w r (.valu op ty pred vd va vb vc) →
      exec (.vAlu k j w) s = .next { s with
        d := vecCharge (laneBits ty / 8) r.parcel.ctx (coreMod k.val j.val (fun x => pcNext (valuCore op ty pred vd va vb vc x)) s.d) }) ∧
    (∀ pred vd base wd off a, CoreIssues s.d k.val j.val .vld w r (.vld pred vd base wd off) → a = vecAddr x base wd off →
      (vecCheck s.d k.val a wd.bytes (activeLanes x pred) false = none → exec (.vld k j w) s = .next { s with
        d := vecCharge wd.bytes r.parcel.ctx (palCharge k.val j.val a (16 * wd.bytes) false r.parcel.ctx
          (coreMod k.val j.val (fun y => pcNext (vLanes vd pred
            (smGet (lanesLoad k.val j.val wd.bytes ((activeLanes x pred).map fun n => (n, a + n * wd.bytes)) s.d).1 0) y))
            (lanesLoad k.val j.val wd.bytes ((activeLanes x pred).map fun n => (n, a + n * wd.bytes)) s.d).2)) }) ∧
      (∀ e, vecCheck s.d k.val a wd.bytes (activeLanes x pred) false = some e →
        exec (.vld k j w) s = .next { s with d := coreFault s.nv k.val j.val e s.d })) ∧
    (∀ pred vs base wd off a, CoreIssues s.d k.val j.val .vst w r (.vst pred vs base wd off) → a = vecAddr x base wd off →
      (vecCheck s.d k.val a wd.bytes (activeLanes x pred) true = none → exec (.vst k j w) s = .next { s with
        d := vecCharge wd.bytes r.parcel.ctx (palCharge k.val j.val a (16 * wd.bytes)
          (decide (wd.bytes * (activeLanes x pred).length < 32)) r.parcel.ctx (coreMod k.val j.val pcNext (laneStores k.val j.val wd.bytes
            ((activeLanes x pred).map fun n => (a + n * wd.bytes, vLane x vs n)) s.d))) }) ∧
      (∀ e, vecCheck s.d k.val a wd.bytes (activeLanes x pred) true = some e →
        exec (.vst k j w) s = .next { s with d := coreFault s.nv k.val j.val e s.d })) ∧
    (∀ pred vd base vidx wd, CoreIssues s.d k.val j.val .vgather w r (.vgather pred vd base vidx wd) →
      (gatherCheck s.d k.val x base vidx wd (activeLanes x pred) false = none → exec (.vgather k j w) s = .next { s with
        d := vecCharge wd.bytes r.parcel.ctx (coreMod k.val j.val (fun y => pcNext (vLanes vd pred
            (smGet (lanesLoad k.val j.val wd.bytes ((activeLanes x pred).map fun n => (n, gatherAddr x base vidx wd n)) s.d).1 0) y))
          ((activeLanes x pred).foldl (fun d n => palCharge k.val j.val (gatherAddr x base vidx wd n) wd.bytes false r.parcel.ctx d)
            (lanesLoad k.val j.val wd.bytes ((activeLanes x pred).map fun n => (n, gatherAddr x base vidx wd n)) s.d).2)) }) ∧
      (∀ e, gatherCheck s.d k.val x base vidx wd (activeLanes x pred) false = some e →
        exec (.vgather k j w) s = .next { s with d := coreFault s.nv k.val j.val e s.d })) ∧
    (∀ pred vs base vidx wd, CoreIssues s.d k.val j.val .vscatter w r (.vscatter pred vs base vidx wd) →
      (gatherCheck s.d k.val x base vidx wd (activeLanes x pred) true = none → exec (.vscatter k j w) s = .next { s with
        d := vecCharge wd.bytes r.parcel.ctx (coreMod k.val j.val pcNext (laneStores k.val j.val wd.bytes
            ((activeLanes x pred).map fun n => (gatherAddr x base vidx wd n, vLane x vs n))
          ((activeLanes x pred).foldl (fun d n => palCharge k.val j.val (gatherAddr x base vidx wd n) wd.bytes true r.parcel.ctx d)
            s.d))) }) ∧
      (∀ e, gatherCheck s.d k.val x base vidx wd (activeLanes x pred) true = some e →
        exec (.vscatter k j w) s = .next { s with d := coreFault s.nv k.val j.val e s.d })) ∧
    (∀ pred vd base wd, CoreIssues s.d k.val j.val .vbcast w r (.vbcast pred vd base wd) →
      exec (.vbcast k j w) s = .next { s with
        d := vecCharge wd.bytes r.parcel.ctx (coreMod k.val j.val (fun y => pcNext (vLanes vd pred
          (fun _ => w32 ((sReg y base).toNat % 2 ^ (8 * wd.bytes))) y)) s.d) }) ∧
    (∀ dst src rnd vd va seed z, CoreIssues s.d k.val j.val .vcvt w r (.vcvt dst src rnd vd va seed z) →
      exec (.vcvt k j w) s = .next { s with
        d := vecCharge 4 r.parcel.ctx (coreMod k.val j.val (fun y => pcNext (laneResults vd
          (lanes.map fun n => (n, convertLane dst src rnd (sReg y seed) n (vLane y va n))) y)) s.d) }) ∧
    (∀ fmt dec src dst seed rnd u a b z l t, CoreIssues s.d k.val j.val .block w r (.block fmt dec src dst seed rnd u) →
      a = (sReg x src).toNat → b = (sReg x dst).toNat → z = blockSpans fmt.code dec →
      l = blockLoad k.val j.val a z.1.1 s.d → t = blockResult fmt.code dec rnd u (sReg x seed) l.1 →
      (coreCheck s.d k.val a z.1.1 z.1.2 false = none → coreCheck s.d k.val b z.2.1 z.2.2 true = none →
        exec (.block k j w) s = .next { s with
          d := vecCharge 4 r.parcel.ctx (palCharge k.val j.val a z.1.1 false r.parcel.ctx
            (palCharge k.val j.val b z.2.1 (decide (z.2.1 < 32)) r.parcel.ctx
              (coreMod k.val j.val (fun y => pcNext (addFlags t.2 y)) (coreBytesPut k.val j.val b t.1 l.2)))) }) ∧
      (∀ e, (coreCheck s.d k.val a z.1.1 z.1.2 false).or (coreCheck s.d k.val b z.2.1 z.2.2 true) = some e →
        exec (.block k j w) s = .next { s with d := coreFault s.nv k.val j.val e s.d })) ∧
    (∀ pred vd base va o es, CoreIssues s.d k.val j.val .fld w r (.fld pred vd base va o) →
      es = (if activeLanes x pred = [] then [] else [(16 + (pMask x pred).toNat, farAddr x base, 64)]) →
      (farAddr x base % 64 ≠ 0 →
        exec (.fld k j w) s = .next { s with d := coreFault s.nv k.val j.val ⟨2, farAddr x base, 64⟩ s.d }) ∧
      (farAddr x base % 64 = 0 → ∀ d, d = farFill s.nv k.val r.parcel.ctx.val false es s.d →
        (∀ e, farPlaces d k.val r.parcel.ctx.val false es = .error e →
          exec (.fld k j w) s = .next { s with d := coreFaultAs s.nv k.val j.val (vFault e 0) d }) ∧
        (∀ ps, farPlaces d k.val r.parcel.ctx.val false es = .ok ps → exec (.fld k j w) s = .next { s with
          d := if storeAhead d k.val j.val ps then d
            else vecCharge 4 r.parcel.ctx (coreMod k.val j.val (fun y => pcNext (if vd = 0 ∨ es = [] then y else { y with
              fars := y.fars ++ [(vd.toNat, es)] })) d) }))) ∧
    (∀ pred vd base vidx wd es, CoreIssues s.d k.val j.val .fgather w r (.fgather pred vd base vidx wd) →
      es = farElems x pred base vidx wd →
      (∀ e, farMisaligned wd.bytes es = some e →
        exec (.fgather k j w) s = .next { s with d := coreFault s.nv k.val j.val e s.d }) ∧
      (farMisaligned wd.bytes es = none → ∀ d, d = farFill s.nv k.val r.parcel.ctx.val false es s.d →
        (∀ e, farPlaces d k.val r.parcel.ctx.val false es = .error e →
          exec (.fgather k j w) s = .next { s with d := coreFaultAs s.nv k.val j.val (vFault e 0) d }) ∧
        (∀ ps, farPlaces d k.val r.parcel.ctx.val false es = .ok ps → exec (.fgather k j w) s = .next { s with
          d := if storeAhead d k.val j.val ps then d
            else vecCharge wd.bytes r.parcel.ctx (coreMod k.val j.val (fun y => pcNext (if vd = 0 ∨ es = [] then y else { y with
              fars := y.fars ++ [(vd.toNat, es)] })) d) }))) ∧
    (∀ pred vs base va o es, CoreIssues s.d k.val j.val .fst w r (.fst pred vs base va o) →
      es = (if activeLanes x pred = lanes
        then [((0, farAddr x base, 64), lanes.flatMap fun n => toBytes 4 (vLane x vs n).toNat)]
        else (activeLanes x pred).map fun n => ((n, farAddr x base + 4 * n, 4), toBytes 4 (vLane x vs n).toNat)) →
      (farAddr x base % 64 ≠ 0 →
        exec (.fst k j w) s = .next { s with d := coreFault s.nv k.val j.val ⟨2, farAddr x base, 64⟩ s.d }) ∧
      (farAddr x base % 64 = 0 → ∀ d, d = farFill s.nv k.val r.parcel.ctx.val true (es.map (·.1)) s.d →
        (∀ e, farPlaces d k.val r.parcel.ctx.val true (es.map (·.1)) = .error e →
          exec (.fst k j w) s = .next { s with d := coreFaultAs s.nv k.val j.val (vFault e 0) d }) ∧
        (∀ ps, farPlaces d k.val r.parcel.ctx.val true (es.map (·.1)) = .ok ps → exec (.fst k j w) s = .next { s with
          d := if loadAhead (coreGet d k.val j.val) (es.map (·.1)) then d
            else vecCharge 4 r.parcel.ctx (coreMod k.val j.val pcNext (cluMod k.val (fun y => { y with
              writes := y.writes ++ (ps.zip es).map fun p => ⟨r.parcel.ctx, [], some j.val, p.1.2, p.2.2⟩ }) d)) }))) ∧
    (∀ pred vs base vidx wd es, CoreIssues s.d k.val j.val .fscatter w r (.fscatter pred vs base vidx wd) →
      es = (farElems x pred base vidx wd).map (fun e => (e, toBytes wd.bytes (vLane x vs e.1).toNat)) →
      (∀ e, farMisaligned wd.bytes (es.map (·.1)) = some e →
        exec (.fscatter k j w) s = .next { s with d := coreFault s.nv k.val j.val e s.d }) ∧
      (farMisaligned wd.bytes (es.map (·.1)) = none → ∀ d, d = farFill s.nv k.val r.parcel.ctx.val true (es.map (·.1)) s.d →
        (∀ e, farPlaces d k.val r.parcel.ctx.val true (es.map (·.1)) = .error e →
          exec (.fscatter k j w) s = .next { s with d := coreFaultAs s.nv k.val j.val (vFault e 0) d }) ∧
        (∀ ps, farPlaces d k.val r.parcel.ctx.val true (es.map (·.1)) = .ok ps → exec (.fscatter k j w) s = .next { s with
          d := if loadAhead (coreGet d k.val j.val) (es.map (·.1)) then d
            else vecCharge wd.bytes r.parcel.ctx (coreMod k.val j.val pcNext (cluMod k.val (fun y => { y with
              writes := y.writes ++ (ps.zip es).map fun p => ⟨r.parcel.ctx, [], some j.val, p.1.2, p.2.2⟩ }) d)) })))

/-- The oldest waiting parcel goes to the lowest idle core, with its entry registers, once its kernel is in a frame;
KERNEL_LOAD reads its code into a frame, or faults the context where it cannot be read; a shipped kernel runs. SEMWAIT
takes its n when nobody is ahead and the count reaches it, else it queues, and the release serves the first waiter;
SEMPOST adds, and a sum above 65,535 faults. BARRIER joins a generation of equal counts, another count, a count outside
1 to 64 or an absent object faults, and the release frees all arrivals and starts a generation. EVWAIT returns when the
counter has passed, else it waits and EVWAIT_RETURN ends that; an absent counter faults. Until its condition holds, each
of these changes nothing. EVADD, FENCE_FAR and GDONE wait for the core's far stores; FENCE goes on; GDONE ends the
parcel and adds its cycles. -/
def Obligations.ParcelsAndSynchronisation : Prop :=
  ∀ (s : State) (k : CluNo) (j : CoreNo) (w : Word) (r : ParcelRun) (x : Core), x = coreGet s.d k.val j.val →
    (∀ p rest n kd i f, (cluGet s.d k.val).parcels = p :: rest → idleCore s.d k.val = some n → parcelKernel s.d p = some (kd, i) →
      (cluGet s.d k.val).coreCtx = some p.ctx → takesUnits s.nv s.d k.val = true →
      (kd.shipped ≠ 0 → exec (.parcelStart k) s = .next { s with
        d := shippedRun s.nv k.val n i kd p (progressed s.nv p.ctx.val (cluMod k.val (fun x => { x with parcels := rest }) s.d)) }) ∧
      (kd.shipped = 0 → frameOf (cluGet s.d k.val) p.ctx.val i.x.glaze kd = some f → ∃ d1,
        d1 = cluMod k.val (fun x => { x with
            frameUse := x.frameUse + 1
            frames := smMod x.frames none f (Option.map fun q => { q with used := x.frameUse + 1 }) })
          (progressed s.nv p.ctx.val (cluMod k.val (fun x => { x with parcels := rest }) s.d)) ∧
        exec (.parcelStart k) s = .next { s with
          d := coreMod k.val n (parcelCore i kd p f d1.fresh) (drawFresh 0x4000 d1) })) ∧
    ((idleCore s.d k.val = none ∨ (cluGet s.d k.val).parcels = [] ∨ takesUnits s.nv s.d k.val = false ∨
        (∃ p rest, (cluGet s.d k.val).parcels = p :: rest ∧ ((cluGet s.d k.val).coreCtx ≠ some p.ctx ∨
          ∃ kd i, parcelKernel s.d p = some (kd, i) ∧ kd.shipped = 0 ∧ frameOf (cluGet s.d k.val) p.ctx.val i.x.glaze kd = none))) →
      exec (.parcelStart k) s = .next s) ∧
    ((frameFor s.d k.val = none ∨ (cluGet s.d k.val).parcels = [] ∨ takesUnits s.nv s.d k.val = false ∨
        (∃ p rest kd i, (cluGet s.d k.val).parcels = p :: rest ∧ parcelKernel s.d p = some (kd, i) ∧
          (kd.shipped ≠ 0 ∨ (frameOf (cluGet s.d k.val) p.ctx.val i.x.glaze kd).isSome = true))) →
      exec (.kernelLoad k) s = .next s) ∧
    (∀ p rest kd i f, (cluGet s.d k.val).parcels = p :: rest → parcelKernel s.d p = some (kd, i) → frameFor s.d k.val = some f →
      kd.shipped = 0 → frameOf (cluGet s.d k.val) p.ctx.val i.x.glaze kd = none → takesUnits s.nv s.d k.val = true →
      (∀ e, ctxRead s.d p.ctx.val 0 kd.codeAddr (4 * kd.codeWords) = .error e → exec (.kernelLoad k) s = .next { s with
        d := faultCtx s.nv p.ctx.val { e with clu := some k.val, stream := parcelStream s.d k.val p } s.d }) ∧
      ∀ bs, ctxRead s.d p.ctx.val 0 kd.codeAddr (4 * kd.codeWords) = .ok bs →
      exec (.kernelLoad k) s = .next { s with
        d := readCharge s.nv p.ctx.val kd.codeAddr (4 * kd.codeWords) (cluMod k.val (fun x => { x with
          frames := smPut x.frames none f (some ⟨p.ctx.val, i.x.glaze, kd.codeAddr, kd.codeWords, (words4 kd.codeWords bs).map w32, x.frameUse + 1⟩)
          frameUse := x.frameUse + 1 }) (logPoint s.nv 3 3 k.val 0x4001 (pack [(0, 8, p.ctx.val), (8, 8, i.x.glaze)]) k.val s.d)) }) ∧
    (∀ obj a n, CoreIssues s.d k.val j.val .semwait w r (.semwait obj a) → n = (sReg x a).toNat →
      (n = 0 → exec (.semwait k j w) s = .next { s with d := coreMod k.val j.val pcNext s.d }) ∧
      (n ≠ 0 → (semGet s.d k.val obj.toNat).waiters = [] → n ≤ (semGet s.d k.val obj.toNat).count →
        exec (.semwait k j w) s = .next { s with
          d := coreMod k.val j.val pcNext (semMod k.val obj.toNat (fun y => { y with count := y.count - n }) s.d) }) ∧
      (n ≠ 0 → (semGet s.d k.val obj.toNat).waiters ≠ [] ∨ (semGet s.d k.val obj.toNat).count < n →
        exec (.semwait k j w) s = .next { s with
          d := coreMod k.val j.val (fun y => { y with wait := .sem obj.toNat n })
            (semMod k.val obj.toNat (fun y => { y with waiters := y.waiters ++ [(j.val, n)] }) s.d) })) ∧
    (∀ (i : Fin 64) c n rest, (semGet s.d k.val i.val).waiters = (c, n) :: rest → n ≤ (semGet s.d k.val i.val).count →
      exec (.semwaitRelease k i) s = .next { s with
        d := waitEnd k.val (.sem i.val n) c (semMod k.val i.val (fun _ => ⟨(semGet s.d k.val i.val).count - n, rest⟩) s.d) }) ∧
    (∀ i : Fin 64, ((semGet s.d k.val i.val).waiters.head?.all fun p => decide ((semGet s.d k.val i.val).count < p.2)) = true →
      exec (.semwaitRelease k i) s = .next s) ∧
    (∀ obj a n, CoreIssues s.d k.val j.val .sempost w r (.sempost obj a) →
      n = (semGet s.d k.val obj.toNat).count + (sReg x a).toNat →
      (n ≤ 65535 → exec (.sempost k j w) s = .next { s with
        d := coreMod k.val j.val pcNext (semMod k.val obj.toNat (fun y => { y with count := n }) s.d) }) ∧
      (65535 < n → exec (.sempost k j w) s = .next { s with
        d := coreFault s.nv k.val j.val ⟨4, 0, obj.toNat + 256⟩ s.d })) ∧
    (∀ obj a n b, CoreIssues s.d k.val j.val .barrier w r (.barrier obj a) → n = (sReg x a).toNat →
      b = barGet s.d k.val obj.toNat →
      (obj.toNat < 8 → 1 ≤ n → n ≤ 64 → b.arrived = [] ∨ b.n = n → exec (.barrier k j w) s = .next { s with
        d := coreMod k.val j.val (fun y => { y with wait := .bar obj.toNat b.gen })
          (barPut k.val obj.toNat { b with arrived := b.arrived ++ [j.val], n := n } s.d) }) ∧
      (8 ≤ obj.toNat ∨ n = 0 ∨ 64 < n ∨ (b.arrived ≠ [] ∧ b.n ≠ n) → exec (.barrier k j w) s = .next { s with
        d := coreFault s.nv k.val j.val ⟨4, 0, obj.toNat⟩ s.d })) ∧
    (∀ (i : Fin 8) b, b = barGet s.d k.val i.val → b.arrived ≠ [] → b.n ≤ b.arrived.length →
      exec (.barrierRelease k i) s = .next { s with
        d := b.arrived.foldl (fun d c => waitEnd k.val (.bar i.val b.gen) c d) (barPut k.val i.val ⟨[], 0, b.gen + 1⟩ s.d) }) ∧
    (∀ (i : Fin 8) b, b = barGet s.d k.val i.val → b.arrived = [] ∨ b.arrived.length < b.n → exec (.barrierRelease k i) s = .next s) ∧
    (∀ obj a, CoreIssues s.d k.val j.val .evwait w r (.evwait obj a) → 16 ≤ obj.toNat →
      exec (.evwait k j w) s = .next { s with d := coreFault s.nv k.val j.val ⟨1, 0, (encodeCore (.evwait obj a)).toNat⟩ s.d }) ∧
    (∀ obj a, CoreIssues s.d k.val j.val .evadd w r (.evadd obj a) → 16 ≤ obj.toNat →
      exec (.evadd k j w) s = .next { s with d := coreFault s.nv k.val j.val ⟨1, 0, (encodeCore (.evadd obj a)).toNat⟩ s.d }) ∧
    (∀ obj a, CoreIssues s.d k.val j.val .evadd w r (.evadd obj a) → obj.toNat < 16 → farFenced s.d k.val j.val = false →
      exec (.evadd k j w) s = .next s) ∧
    (∀ a b, CoreIssues s.d k.val j.val .gdone w r (.gdone a b) → farFenced s.d k.val j.val = false → exec (.gdone k j w) s = .next s) ∧
    (∀ i v, x.wait = .ev i v → x.run = some r → ctrPassed s.d r.parcel.ctx.val i v = false → exec (.evwaitReturn k j) s = .next s) ∧
    (∀ obj a, CoreIssues s.d k.val j.val .evwait w r (.evwait obj a) → obj.toNat < 16 →
      exec (.evwait k j w) s = .next { s with
        d := if ctrPassed s.d r.parcel.ctx.val obj.toNat (sReg x a) then coreMod k.val j.val pcNext s.d
          else coreMod k.val j.val (fun y => { y with wait := .ev obj.toNat (sReg x a) }) s.d }) ∧
    (∀ i v, x.wait = .ev i v → x.run = some r → ctrPassed s.d r.parcel.ctx.val i v = true →
      exec (.evwaitReturn k j) s = .next { s with d := waitEnd k.val (.ev i v) j.val s.d }) ∧
    (∀ obj a, CoreIssues s.d k.val j.val .evadd w r (.evadd obj a) → obj.toNat < 16 → farFenced s.d k.val j.val = true →
      exec (.evadd k j w) s = .next { s with
        d := coreMod k.val j.val pcNext (ctrAdd r.parcel.ctx.val obj.toNat (sReg x a) s.d) }) ∧
    (∀ a b, CoreIssues s.d k.val j.val .fenceCore w r (.fence a b) →
      exec (.fenceCore k j w) s = .next { s with d := coreMod k.val j.val pcNext s.d }) ∧
    (∀ a b, CoreIssues s.d k.val j.val .fenceFar w r (.fenceFar a b) →
      exec (.fenceFar k j w) s = .next { s with
        d := if farFenced s.d k.val j.val then coreMod k.val j.val pcNext s.d else s.d }) ∧
    (∀ a b, CoreIssues s.d k.val j.val .gdone w r (.gdone a b) → farFenced s.d k.val j.val = true →
      exec (.gdone k j w) s = .next { s with
        d := progressed s.nv r.parcel.ctx.val (coreMod k.val j.val (fun y => { y with run := none, loads := [], fars := [], cycles := 0 })
          (acctMod r.parcel.ctx.val (fun a => { a with core := a.core + x.cycles })
            (parcelEnd k.val r.parcel (if r.isRow then [] else outWords x r.parcel) (x.flags.getLsbD 2) s.d))) })

/-- For every core instruction row: a core without a parcel, or in a wait, issues nothing, and the command changes nothing.
Where the core's pc is misaligned or outside the kernel frames, its context faults with that error. Where the word at
the pc is another one, or is of another row, the command changes nothing. A word of the row that no instruction has is
illegal and faults the context with the word. An instruction whose operands are still on their way waits. LOAD_RETURN
with no load on its way, and EVWAIT_RETURN of a core in no event wait, change nothing. -/
def Obligations.CoreWordsWaitOrFault : Prop :=
  ∀ (s : State) (k : CluNo) (j : CoreNo) (w : Word) (x : Core), x = coreGet s.d k.val j.val →
    (∀ q ∈ ([(.sAlu, .sAlu), (.sImm, .sImm), (.upper, .upper), (.branch, .branch), (.jump, .jump), (.load, .load), (.store,
      .store), (.vAlu, .vAlu), (.vld, .vld), (.vst, .vst), (.vgather, .vgather), (.vscatter, .vscatter), (.vbcast,
      .vbcast), (.vcvt, .vcvt), (.block, .block), (.fld, .fld), (.fst, .fst), (.fgather, .fgather), (.fscatter,
      .fscatter), (.semwait, .semwait), (.sempost, .sempost), (.barrier, .barrier), (.evwait, .evwait), (.evadd,
      .evadd), (.fenceCore, .fenceCore), (.fenceFar, .fenceFar), (.gdone, .gdone), (.csrr, .csrr), (.csrw, .csrw)] :
        List (CoreRow × (CluNo → CoreNo → Word → Instr))),
      (x.run = none ∨ x.wait ≠ .none → exec (q.2 k j w) s = .next s) ∧
      (∀ e, x.run.isSome = true → x.wait = .none → fetchWord s.d k.val x = .error e →
        exec (q.2 k j w) s = .next { s with d := coreFault s.nv k.val j.val e s.d }) ∧
      (∀ v, x.wait = .none → fetchWord s.d k.val x = .ok v → v ≠ w ∨ coreRow w ≠ q.1 → exec (q.2 k j w) s = .next s) ∧
      (x.run.isSome = true → x.wait = .none → fetchWord s.d k.val x = .ok w → coreRow w = q.1 → decodeCore w = none →
        exec (q.2 k j w) s = .next { s with d := coreFault s.nv k.val j.val ⟨1, 0, w.toNat⟩ s.d }) ∧
      (∀ i, fetchWord s.d k.val x = .ok w → decodeCore w = some i → operandsReady x i = false → exec (q.2 k j w) s = .next s)) ∧
    (x.loads = [] → exec (.loadReturn k j) s = .next s) ∧
    ((∀ i v, x.wait ≠ .ev i v) → exec (.evwaitReturn k j) s = .next s)

/-- A user that may take a tag takes one for mapped pieces that its needs hold and that are below quota, and defers the
others; a deferred piece issues once its channel is below quota. An address that cannot be reached faults, an unmapped
one waits. A tag lands: its corrected and uncorrectable errors are recorded, its data reaches its user and the tag is
free. One that a stack does not answer in 100 µs lands uncorrectable. A page walk's translation is cached; a read of an
unmapped page that is needed next faults the context. The oldest write of a cluster becomes visible at its DPA; without
memory there it faults; a partial code word leaves the combining buffer for the hub. Each changes nothing before its
condition holds. A patrol pass ends after 8 hours; an SRAM error re-issues its unit, faults its context, or is only
recorded. -/
def Obligations.MemoryTagsLandAndWrite : Prop :=
  ∀ (s : State) (k : CluNo),
    (∀ user words, (userCtx s.d k.val user = none ∨ words = [] ∨ 32 < words.length ∨ lessEach words (userWants s.d k.val user) ≠ [] ∨
        mayTake s.d k.val user = false ∨ outOfService s.d k.val = true) → exec (.tagTaken k user words) s = .next s) ∧
    (∀ user words c d, userCtx s.d k.val user = some c → words ≠ [] → words.length ≤ 32 →
      lessEach words (userWants s.d k.val user) = [] → mayTake s.d k.val user = true → outOfService s.d k.val = false →
      d = words.foldl (fun d w => xlateFill s.nv k.val c.val (w * 64) false d) s.d →
      (∀ a b, placesOf d k.val c.val words = .error (.unmapped a b) → exec (.tagTaken k user words) s = .next { s with d := d }) ∧
      (∀ e, placesOf d k.val c.val words = .error e → (∀ a b, e ≠ .unmapped a b) → exec (.tagTaken k user words) s = .next { s with
        d := faultCtx s.nv c.val { vFault e (if user.kind = 1 then 0 else 1) with
          clu := some k.val, stream := if user.kind = 0 then unitNamed d k.val user.u else none } d }) ∧
      (∀ ps now late, placesOf d k.val c.val words = .ok ps → now = (ps.filter fun p => !atQuota d k.val user (channelOf p.2.2)) →
        late = (ps.filter fun p => atQuota d k.val user (channelOf p.2.2)).map (·.1) →
        (now = [] ∨ 64 < (userDeferred d k.val user).length + late.length ∨ (late ≠ [] ∧ user.kind ≠ 0) →
          exec (.tagTaken k user words) s = .next { s with d := d }) ∧
        (now ≠ [] → late = [] → (userDeferred d k.val user).length ≤ 64 →
          exec (.tagTaken k user words) s = .next { s with d := tagTake s.nv k.val user c now d }) ∧
        (now ≠ [] → late ≠ [] → user.kind = 0 → (userDeferred d k.val user).length + late.length ≤ 64 →
          exec (.tagTaken k user words) s = .next { s with
            d := tagTake s.nv k.val user c now (unitMod k.val user.u (fun r => { r with deferred := r.deferred ++ late }) d) }))) ∧
    (∀ user, (userCtx s.d k.val user = none ∨ (∃ c a b, userCtx s.d k.val user = some c ∧
          placesOf s.d k.val c.val (userDeferred s.d k.val user) = .error (.unmapped a b)) ∨
        (∃ c ps, userCtx s.d k.val user = some c ∧ placesOf s.d k.val c.val (userDeferred s.d k.val user) = .ok ps ∧
          ((∀ p ∈ ps, atQuota s.d k.val user (channelOf p.2.2) = true) ∨ mayTake s.d k.val user = false))) →
      exec (.deferredPieceIssue k user) s = .next s) ∧
    (∀ user c e, userCtx s.d k.val user = some c → placesOf s.d k.val c.val (userDeferred s.d k.val user) = .error e →
      (∀ a b, e ≠ .unmapped a b) → exec (.deferredPieceIssue k user) s = .next { s with
        d := faultCtx s.nv c.val { vFault e 1 with
          clu := some k.val, stream := if user.kind = 0 then unitNamed s.d k.val user.u else none } s.d }) ∧
    (∀ user c ps now, userCtx s.d k.val user = some c → placesOf s.d k.val c.val (userDeferred s.d k.val user) = .ok ps →
      now = (ps.filter fun p => !atQuota s.d k.val user (channelOf p.2.2)).take 32 → now ≠ [] → mayTake s.d k.val user = true →
      exec (.deferredPieceIssue k user) s = .next { s with
        d := tagTake s.nv k.val user c now
          (unitMod k.val user.u (fun r => { r with deferred := lessEach r.deferred (now.map (·.1)) }) s.d) }) ∧
    (∀ i ecc, ((cluGet s.d k.val).tags[i]?.all fun t => t.landed.isSome) = true → exec (.tagLanded k i ecc) s = .next s) ∧
    (∀ i (stack : Fin 32), (match (cluGet s.d k.val).tags[i]? with
        | some t => t.landed.isSome || decide (s.nv.up < t.at_ + 100000) ||
            (t.words.zip t.dwords).all fun p => decide (p.2 * 64 / 2 ^ 36 ≠ stack.val) || t.lost.contains p.1
        | none => (cluGet s.d k.val).wtags[i - (cluGet s.d k.val).tags.length]?.all fun t => decide (s.nv.up < t.at_ + 100000) ||
            t.pieces.all fun w => decide (writePlace s.d w * 64 / 2 ^ 36 ≠ stack.val)) = true →
      exec (.stackNoAnswer k ⟨i, stack⟩) s = .next s) ∧
    (∀ i ecc t ws d1, (cluGet s.d k.val).tags[i]? = some t → t.landed = none →
      ws = ((t.words.zip t.dwords).filter fun p => !t.lost.contains p.1).map (·.2) →
      d1 = (ecc.filter fun e => ws.contains e.word).foldl
        (fun d e => hbmError s.nv 0 (some t.ctx.val) (if e.fatal then tagAction s.d t else 0) e d)
        (meetErrors s.nv 0 (some t.ctx.val) (tagAction s.d t) ws s.d) →
      exec (.tagLanded k i ecc) s = .next { s with d := tagLand s.nv k.val i t (tagPoison d1.mem t) d1 }) ∧
    (∀ i (stack : Fin 32) t ps t' d1, (cluGet s.d k.val).tags[i]? = some t → t.landed = none → t.at_ + 100000 ≤ s.nv.up →
      ps = ((t.words.zip t.dwords).filter fun p => decide (p.2 * 64 / 2 ^ 36 = stack.val) && !t.lost.contains p.1) → ps ≠ [] →
      t' = { t with lost := t.lost ++ ps.map (·.1) } →
      d1 = cluMod k.val (fun x => { x with tags := lMod x.tags i fun _ => t' })
        (ps.foldl (fun d p => noAnswer s.nv 0 t.ctx.val (tagAction d t) p.2 d) s.d) →
      exec (.stackNoAnswer k ⟨i, stack⟩) s = .next { s with
        d := if t'.lost.length < t'.words.length then d1 else tagLand s.nv k.val i t' t'.words d1 }) ∧
    (∀ i (stack : Fin 32) t j ps left, (cluGet s.d k.val).tags[i]? = none → j = i - (cluGet s.d k.val).tags.length →
      (cluGet s.d k.val).wtags[j]? = some t → t.at_ + 100000 ≤ s.nv.up →
      ps = (t.pieces.filter fun w => decide (writePlace s.d w * 64 / 2 ^ 36 = stack.val)) → ps ≠ [] →
      left = (t.pieces.filter fun w => !decide (writePlace s.d w * 64 / 2 ^ 36 = stack.val)) →
      exec (.stackNoAnswer k ⟨i, stack⟩) s = .next { s with
        d := cluMod k.val (fun x => { x with
            wtags := if left = [] then x.wtags.eraseIdx j else lMod x.wtags j fun t => { t with pieces := left } })
          (ps.foldl (fun d w => memMod (fun m => { m with poison := insAsc (writePlace d w) m.poison })
            (noAnswer s.nv (if w.data.length = 64 then 0 else 1) w.ctx.val 3 (writePlace d w) d)) s.d) }) ∧
    (∀ (c : CtxNo) va wr l, ctxLive s.d c.val = true →
      ((unitsOn s.d k.val).any (fun u => u.2.ctx.val = c.val) || ((cluGet s.d k.val).coreCtx.map (·.val)) == some c.val ||
        ((cluGet s.d k.val).claimed.map (·.ctx.val)) == some c.val) = true →
      xlateHeld s.d k.val c.val va = false →
      walk s.d.mem (ctxGet s.d c.val).root va wr = .ok l →
      exec (.pageWalk k c va wr) s = .next { s with d := xlateKeep s.nv k.val c.val va l s.d }) ∧
    (∀ (c : CtxNo) va wr, (ctxLive s.d c.val = false ∨ ((unitsOn s.d k.val).any (fun u => u.2.ctx.val = c.val) ||
          ((cluGet s.d k.val).coreCtx.map (·.val)) == some c.val || ((cluGet s.d k.val).claimed.map (·.ctx.val)) == some c.val) = false ∨
        xlateHeld s.d k.val c.val va = true) → exec (.pageWalk k c va wr) s = .next s) ∧
    (∀ (c : CtxNo) va wr e, ctxLive s.d c.val = true →
      ((unitsOn s.d k.val).any (fun u => u.2.ctx.val = c.val) || ((cluGet s.d k.val).coreCtx.map (·.val)) == some c.val ||
        ((cluGet s.d k.val).claimed.map (·.ctx.val)) == some c.val) = true →
      xlateHeld s.d k.val c.val va = false → walk s.d.mem (ctxGet s.d c.val).root va wr = .error e →
      exec (.pageWalk k c va wr) s = .next { s with
        d := match e with
          | .unmapped a false => if wr then faultCtx s.nv c.val { vFault (.unmapped a false) 3 with clu := some k.val } s.d else s.d
          | e => faultCtx s.nv c.val { vFault e 3 with clu := some k.val } s.d }) ∧
    (∀ u va r i a b, unitInfo s.d k.val u = some (r, i) →
      (if r.predRead then (needsNext true s.d k.val r i).contains (va / 64) && !r.have_.contains (va / 64)
        else predHolds i r va) = true →
      trans s.d k.val r.ctx.val va false = .error (.unmapped a b) →
      exec (.unmappedReadDue k u va) s = .next { s with
        d := faultCtx s.nv r.ctx.val { vFault (.unmapped a b) 1 with
          clu := some k.val, stream := some (i.x.stream, r.unit, r.repair) } s.d }) ∧
    (∀ u va, ((unitInfo s.d k.val u).all fun q =>
        !(if q.1.predRead then (needsNext true s.d k.val q.1 q.2).contains (va / 64) && !q.1.have_.contains (va / 64)
          else predHolds q.2 q.1 va) || (match trans s.d k.val q.1.ctx.val va false with
            | .error (.unmapped _ _) => false
            | _ => true)) = true → exec (.unmappedReadDue k u va) s = .next s) ∧
    ((cluGet (writesTake s.nv k.val s.d) k.val).wtags = [] → exec (.writeAccept k) s = .next { s with d := writesTake s.nv k.val s.d }) ∧
    (∀ t rest d1, d1 = writesTake s.nv k.val s.d → (cluGet d1 k.val).wtags = t :: rest → t.pieces = [] →
      exec (.writeAccept k) s = .next { s with d := cluMod k.val (fun x => { x with wtags := rest }) d1 }) ∧
    (∀ t rest w ps d1 d2, d1 = writesTake s.nv k.val s.d → (cluGet d1 k.val).wtags = t :: rest → t.pieces = w :: ps →
      d2 = w.units.foldl (fun d u => unitMod k.val u (fun r => { r with idle := 0 }) d)
        (cluMod k.val (fun x => { x with wtags := if ps = [] then rest else { t with pieces := ps } :: rest }) d1) →
      dpaOk d2.mem w.addr w.data.length = false → exec (.writeAccept k) s = .next { s with
        d := faultCtx s.nv w.ctx.val { vFault (.noMemory w.addr) 4 with
          clu := some k.val, stream := w.units.head?.bind (unitNamed d2 k.val) } d2 }) ∧
    (∀ ecc, s.nv.up < s.d.mem.scrubAt + 28800000000000 → exec (.patrolScrub ecc) s = .next s) ∧
    (∀ t rest w ps d1 d2, d1 = writesTake s.nv k.val s.d → (cluGet d1 k.val).wtags = t :: rest → t.pieces = w :: ps →
      d2 = w.units.foldl (fun d u => unitMod k.val u (fun r => { r with idle := 0 }) d)
        (cluMod k.val (fun x => { x with wtags := if ps = [] then rest else { t with pieces := ps } :: rest }) d1) →
      dpaOk d2.mem w.addr w.data.length = true →
      (w.data.length = 64 → exec (.writeAccept k) s = .next { s with
        d := moved w.ctx.val 0 64 (memMod (dWrite w.addr w.data) d2) }) ∧
      (w.data.length ≠ 64 → exec (.writeAccept k) s = .next { s with
        d := moved w.ctx.val 64 64 (memMod (dWrite w.addr w.data)
          (meetErrors s.nv 1 (some w.ctx.val) 3 (touchedWords d2.mem w.addr w.data.length) d2)) })) ∧
    (∀ word, exec (.combiningWriteBack k word) s = .next { s with
      d := cluMod k.val (fun x => { x with
        combining := x.combining.filter (fun p => p.addr / 64 ≠ word)
        writes := x.writes ++ x.combining.filter (fun p => p.addr / 64 = word) }) s.d }) ∧
    (∀ ecc, s.d.mem.scrubAt + 28800000000000 ≤ s.nv.up → exec (.patrolScrub ecc) s = .next { s with
      d := memMod (fun m => { m with scrubPasses := satInc 16 m.scrubPasses, scrubAt := s.nv.up })
        ((ecc.filter fun e => bit s.nv.capMemory (e.word * 64 / 2 ^ 36)).foldl
          (fun d e => hbmError s.nv 2 none (if e.fatal then 3 else 0) e d)
          (meetErrors s.nv 2 none 3 (s.d.mem.latent.map (·.word)) s.d)) }) ∧
    (∀ noted : Nat → Nat → Device, (∀ st off, noted st off = drawFresh 1 (memMod (fun m => { m with
        sramUe := satInc 32 m.sramUe
        synAt := (sramWord k.val st off, s.nv.up, s.d.mem.synHead) ::
          m.synAt.filter fun e => decide (e.1 ≠ sramWord k.val st off) }) s.d)) →
    (∀ st off syn, exec (.sramUncorrectable k st off none syn) s = .next { s with
      d := suspect s.nv 0 k.val 1 (synRecord 4 0 none 4 syn (sramWhere k.val st off) 0xFF 0
        (noted st off)) }) ∧
    (∀ st off (c : CtxNo) syn, ctxLive s.d c.val = false → exec (.sramUncorrectable k st off (some c) syn) s = .next { s with
      d := suspect s.nv 0 k.val 1 (synRecord 4 0 (some c.val) 4 syn (sramWhere k.val st off) 0xFF 0 (noted st off)) }) ∧
    (∀ st off (c : CtxNo) syn u, ctxLive s.d c.val = true → sramUnit s.d k.val st off c.val = some u →
      exec (.sramUncorrectable k st off (some c) syn) s = .next { s with
        d := suspect s.nv 0 k.val 1 (abandonUnit k.val u (synRecord 4 0 (some c.val) 1 syn (sramWhere k.val st off) 0xFF 0
          (noted st off))) }) ∧
    (∀ st off (c : CtxNo) syn, ctxLive s.d c.val = true → sramUnit s.d k.val st off c.val = none →
      exec (.sramUncorrectable k st off (some c) syn) s = .next { s with
        d := suspect s.nv 0 k.val 1 (faultCtx s.nv c.val
          ⟨0x0A, stUncorrectable, 1, some k.val, none, none, 0, s.d.mem.synHead, none⟩
          (synRecord 4 0 (some c.val) 2 syn (sramWhere k.val st off) 0xFF 0
            (noted st off))) }))

/-- VALIDATE makes a set valid when nothing is wrong with it and reports the first error otherwise; INVALIDATE ends a set
that holds no log and drains it, and the drain ends when its accesses have. An invalidation starts unless one runs, and
completes with the caches freed. The dump and syndrome-log addresses are committed when the region lies in a valid set,
and BANK_SEL restarts the bank counters. A member's request joins a delivery, starts one, or waits; the oldest waiting
one starts later; the member accepts landed data; one kept beyond the timeout, or whose delivery is gone, fetches the
chunk itself. A set that is invalid, or that holds a log, is not invalidated; a port that is not the owner is denied;
each of the others changes nothing before its condition holds. -/
def Obligations.MemoryControlAndMulticast : Prop :=
  ∀ (s : State) (p : Port),
    (hostWrites s.nv s.d p = true → isOwner s.d p = true →
      (∀ i : Fin 8, (setGet s.d.mem i.val).valid = false → validateError s.nv s.d.mem i.val = 0 →
        exec (.validate p i) s = .next { s with
          d := setMod i.val (fun x => { x with valid := true, error := 0 }) s.d }) ∧
      (∀ i : Fin 8, (setGet s.d.mem i.val).valid = false → validateError s.nv s.d.mem i.val ≠ 0 →
        exec (.validate p i) s = .next { s with
          d := setMod i.val (fun x => { x with error := validateError s.nv s.d.mem i.val }) s.d }) ∧
      (∀ i : Fin 8, (setGet s.d.mem i.val).valid = true → exec (.validate p i) s = .next { s with
          d := setMod i.val (fun x => { x with error := 0 }) s.d }) ∧
      (∀ i : Fin 8, (setGet s.d.mem i.val).valid = false → exec (.invalidate p i) s = .next { s with
          d := setMod i.val (fun x => { x with error := 0 }) s.d }) ∧
      (∀ i : Fin 8, (setGet s.d.mem i.val).valid = true → s.d.mem.dump / 2199023255552 = i.val ∨ s.d.mem.synlog / 2199023255552 = i.val →
        exec (.invalidate p i) s = .next { s with d := setMod i.val (fun x => { x with error := 5 }) s.d }) ∧
      (∀ v : Word, bit v.toNat 0 = false → exec (.memInvalGo p v) s = .next s) ∧
      (∀ v : Word, 768 ≤ fld v.toNat 0 10 → exec (.memBankSel p v) s = .next s) ∧
      (∀ i : Fin 8, (setGet s.d.mem i.val).valid = true → s.d.mem.dump / 2199023255552 ≠ i.val →
        s.d.mem.synlog / 2199023255552 ≠ i.val →
        exec (.invalidate p i) s = .next { s with
          d := setMod i.val (fun x => { x with valid := false, draining := true, error := 0 }) s.d }) ∧
      (∀ v : Word, bit v.toNat 0 = true → exec (.memInvalGo p v) s = .next { s with
        d := memMod (fun m => if s.d.mem.inval.isSome then { m with invRefused := true }
          else { m with inval := some (m.invAll, m.invCtx, m.invVa, m.invCount) }) s.d }) ∧
      (∀ (v : Word) a, a = v.toNat % 4096 * 4294967296 + s.d.mem.dumpStage.getD (s.d.mem.dump % 4294967296) →
        exec (.memDumpHi p v) s = .next { s with
          d := memMod (fun m => { m with dump := if dpaOk s.d.mem a 67108864 then a else m.dump, dumpStage := none }) s.d }) ∧
      (∀ (v : Word) a, a = v.toNat % 4096 * 4294967296 + s.d.mem.synStage.getD (s.d.mem.synlog % 4294967296) →
        exec (.memSynlogHi p v) s = .next { s with
          d := memMod (fun m => { m with synlog := if dpaOk s.d.mem a 131072 then a else m.synlog, synStage := none }) s.d }) ∧
      (∀ v : Word, fld v.toNat 0 10 < 768 → exec (.memBankSel p v) s = .next { s with
        d := memMod (fun m => { m with
          bankEn := bit v.toNat 31, bankCtx := fld v.toNat 10 8, bankClu := fld v.toNat 0 10, bankCnt := [] }) s.d })) ∧
    (hostWrites s.nv s.d p = true → isOwner s.d p = false → ∀ (i : Fin 8) (v : Word),
      ∀ c ∈ ([.validate p i, .invalidate p i, .memInvalGo p v, .memDumpHi p v, .memSynlogHi p v, .memBankSel p v] : List Instr),
        exec c s = .next { s with d := denied s.d }) ∧
    (∀ i : Fin 8, (setGet s.d.mem i.val).draining = false ∨
        (∃ e ∈ s.d.clus, ∃ t ∈ e.2.tags, t.landed = none ∧ ∃ a ∈ t.dpas, a * 64 / 2199023255552 = i.val) →
      exec (.setDrainEnd i) s = .next s) ∧
    (s.d.mem.inval = none → exec .memInvalComplete s = .next s) ∧
    (∀ q, s.d.mem.inval = some q →
      (∃ e ∈ s.d.clus, (∃ t ∈ e.2.tags, t.landed = none ∧ ∃ w ∈ t.words, invalHits q t.ctx.val (w * 64) 64 = true) ∨
        ∃ w ∈ outWrites e.2 ++ e.2.combining, q.1 = true ∨ q.2.1 = w.ctx.val) → exec .memInvalComplete s = .next s) ∧
    (∀ i : Fin 8, (setGet s.d.mem i.val).draining = true →
      (∀ e ∈ s.d.clus, ∀ t ∈ e.2.tags, t.landed = none → ∀ a ∈ t.dpas, a * 64 / 2199023255552 ≠ i.val) →
      exec (.setDrainEnd i) s = .next { s with d := setMod i.val (fun x => { x with draining := false }) s.d }) ∧
    (∀ q, s.d.mem.inval = some q →
      (∀ e ∈ s.d.clus, (∀ t ∈ e.2.tags, t.landed = none → ∀ w ∈ t.words, invalHits q t.ctx.val (w * 64) 64 = false) ∧
        ∀ w ∈ outWrites e.2 ++ e.2.combining, q.1 = false ∧ q.2.1 ≠ w.ctx.val) →
      exec .memInvalComplete s = .next { s with
        d := memMod (fun m => { m with inval := none, invSeq := wrapInc 16 m.invSeq })
          (clusMap (fun _ x => { x with xlates := x.xlates.filter fun t => !invalHits q t.ctx t.va t.size }) s.d) }) ∧
    (∀ (k : CluNo) u r i src h key, fetchInfo s.d k.val u = some (r, i) → key = chunkKey i r h →
      treeSource s.d (ctxGet s.d r.ctx.val).part.val i.x.wTree = some src →
      chunkDue i r (countsOf s.d r.ctx.val r.idx) (trusted s.d r.ctx.val r.idx) (u == claimPlace) = some h →
      onTree s.d k.val r.ctx.val i = true → r.mcast = none → takesUnits s.nv s.d src = true → ∃ d1,
      d1 = unitMod k.val u (fun x => { x with mcast := some h }) s.d ∧
      (((cluGet d1 src).deliveries.any fun v =>
          decide (v.tree = i.x.wTree ∧ v.ctx = r.ctx ∧ v.idx = r.idx ∧ v.chunk = key) && !v.closed) = true →
        exec (.multicastRequest k u) s = .next { s with
          d := cluMod src (fun x => { x with
            deliveries := x.deliveries.map (fun v =>
              if decide (v.tree = i.x.wTree ∧ v.ctx = r.ctx ∧ v.idx = r.idx ∧ v.chunk = key)
              then { v with members := insAsc k.val v.members } else v)
            tags := x.tags.map (fun g => if g.ctx = r.ctx ∧ g.dlv = some (r.idx, key)
              then { g with waiting := insAsc k.val g.waiting } else g) }) d1 }) ∧
      (((cluGet d1 src).deliveries.any fun v =>
          decide (v.tree = i.x.wTree ∧ v.ctx = r.ctx ∧ v.idx = r.idx ∧ v.chunk = key) && !v.closed) = false →
        ((cluGet d1 src).deliveries.any fun v => decide (v.tree = i.x.wTree ∧ v.ctx = r.ctx ∧ v.idx = r.idx ∧ v.chunk = key)) = true ∨
          2 ≤ (treeDeliveries (cluGet d1 src) i.x.wTree).length → exec (.multicastRequest k u) s = .next { s with
            d := cluMod src (fun x => { x with mcWait := x.mcWait ++ [(i.x.wTree, r.ctx.val, r.idx, key, k.val)] }) d1 }) ∧
      (((cluGet d1 src).deliveries.any fun v => decide (v.tree = i.x.wTree ∧ v.ctx = r.ctx ∧ v.idx = r.idx ∧ v.chunk = key)) = false →
        (treeDeliveries (cluGet d1 src) i.x.wTree).length < 2 →
        exec (.multicastRequest k u) s = .next { s with
          d := deliveryStart src ⟨(ctxGet s.d r.ctx.val).part, i.x.wTree, r.ctx, r.idx, key, [k.val],
            fullW i r (countsOf s.d r.ctx.val r.idx) h, false⟩ d1 })) ∧
    (∀ (k : CluNo) u, ((fetchInfo s.d k.val u).all fun q =>
        decide (q.1.mcast.isSome = true ∨ onTree s.d k.val q.1.ctx.val q.2 = false ∨
          chunkDue q.2 q.1 (countsOf s.d q.1.ctx.val q.1.idx) (trusted s.d q.1.ctx.val q.1.idx) (u == claimPlace) = none ∨
          ((treeSource s.d (ctxGet s.d q.1.ctx.val).part.val q.2.x.wTree).all fun src => !takesUnits s.nv s.d src) = true)) = true →
      exec (.multicastRequest k u) s = .next s) ∧
    (∀ (pn : PartNo) t, ((treeSource s.d pn.val t).all fun src => decide (2 ≤ (treeDeliveries (cluGet s.d src) t).length) ||
        (cluGet s.d src).mcWait.all fun w => decide (w.1 ≠ t) || (cluGet s.d src).deliveries.any fun v =>
          decide (v.tree = t ∧ v.ctx.val = w.2.1 ∧ v.idx = w.2.2.1 ∧ v.chunk = w.2.2.2.1)) = true →
      exec (.multicastDeliveryStart pn t) s = .next s) ∧
    (∀ (pn : PartNo) t src w, treeSource s.d pn.val t = some src → (treeDeliveries (cluGet s.d src) t).length < 2 →
      ((cluGet s.d src).mcWait.find? fun w => decide (w.1 = t) && !(cluGet s.d src).deliveries.any fun v =>
        decide (v.tree = t ∧ v.ctx.val = w.2.1 ∧ v.idx = w.2.2.1 ∧ v.chunk = w.2.2.2.1)) = some w →
      unitOf s.d w.2.2.2.2 w.2.1 w.2.2.1 = none →
      exec (.multicastDeliveryStart pn t) s = .next { s with d := cluMod src (fun x => { x with mcWait := x.mcWait.erase w }) s.d }) ∧
    (∀ (pn : PartNo) t src w r i, treeSource s.d pn.val t = some src → (treeDeliveries (cluGet s.d src) t).length < 2 →
      ((cluGet s.d src).mcWait.find? fun w => decide (w.1 = t) && !(cluGet s.d src).deliveries.any fun v =>
        decide (v.tree = t ∧ v.ctx.val = w.2.1 ∧ v.idx = w.2.2.1 ∧ v.chunk = w.2.2.2.1)) = some w →
      unitOf s.d w.2.2.2.2 w.2.1 w.2.2.1 = some (r, i) → ∃ same : Nat × Nat × Nat × Nat × Nat → Bool,
      same = (fun q => decide (q.1 = t ∧ q.2.1 = w.2.1 ∧ q.2.2.1 = w.2.2.1 ∧ q.2.2.2.1 = w.2.2.2.1)) ∧
      exec (.multicastDeliveryStart pn t) s = .next { s with
        d := deliveryStart src ⟨(ctxGet s.d w.2.1).part, t, r.ctx, r.idx, w.2.2.2.1,
            bitsOf 768 (ofBits (((cluGet s.d src).mcWait.filter same).map (·.2.2.2.2))),
            fullW i r (countsOf s.d w.2.1 r.idx) (w.2.2.2.1 % 2 ^ 24), false⟩
          (cluMod src (fun x => { x with mcWait := x.mcWait.filter (fun q => !same q) }) s.d) }) ∧
    (∀ (k : CluNo) u, ((fetchInfo s.d k.val u).all fun q => q.1.mcast.all fun h =>
        (treeSource s.d (ctxGet s.d q.1.ctx.val).part.val q.2.x.wTree).all fun src =>
          (tagFor (cluGet s.d src) q.1.ctx q.1.idx (chunkKey q.2 q.1 h) k.val).all fun t => t.2.landed.isNone) = true →
      exec (.multicastAccept k u) s = .next s) ∧
    (∀ (k : CluNo) u r i src h n t key left, fetchInfo s.d k.val u = some (r, i) → key = chunkKey i r h →
      treeSource s.d (ctxGet s.d r.ctx.val).part.val i.x.wTree = some src → r.mcast = some h →
      tagFor (cluGet s.d src) r.ctx r.idx key k.val = some (n, t) → t.landed ≠ none → left = without t.waiting k.val → ∃ d1,
      d1 = cluMod src (fun x => sweepDeliveries { x with tags := lMod x.tags n (fun t => { t with waiting := left }) })
        (unitTakes k.val u t.words t.bad t.data s.d) ∧
      exec (.multicastAccept k u) s = .next { s with
        d := if (((cluGet d1 src).tags.any fun t =>
            t.ctx = r.ctx && t.dlv == some (r.idx, key) && t.waiting.contains k.val) ||
            (cluGet d1 src).deliveries.any fun v => decide (v.ctx = r.ctx ∧ v.idx = r.idx ∧ v.chunk = key) && v.words ≠ []) = true
          then d1 else unitMod k.val u (fun r => { r with mcast := none }) d1 }) ∧
    (∀ (k : CluNo) u r i tr src h key, fetchInfo s.d k.val u = some (r, i) → key = chunkKey i r h →
      treeGet s.d (ctxGet s.d r.ctx.val).part.val i.x.wTree = some tr →
      treeSource s.d (ctxGet s.d r.ctx.val).part.val i.x.wTree = some src → r.mcast = some h →
      (((cluGet s.d src).tags.any fun t => t.ctx = r.ctx && t.dlv == some (r.idx, key) && t.waiting.contains k.val &&
        (t.landed.map fun l => decide (l + treeTimeout tr ≤ s.d.time.now)).getD false) = false →
      (((cluGet s.d src).deliveries.any fun v => decide (v.ctx = r.ctx ∧ v.idx = r.idx ∧ v.chunk = key) && v.members.contains k.val) ||
        ((cluGet s.d src).mcWait.any fun w => decide (w.2.1 = r.ctx.val ∧ w.2.2.1 = r.idx ∧ w.2.2.2.1 = key ∧ w.2.2.2.2 = k.val))) = true →
      exec (.multicastTimeout k u) s = .next s) ∧
      (((cluGet s.d src).tags.any fun t => t.ctx = r.ctx && t.dlv == some (r.idx, key) && t.waiting.contains k.val &&
        (t.landed.map fun l => decide (l + treeTimeout tr ≤ s.d.time.now)).getD false) = true ∨
        (((cluGet s.d src).deliveries.any fun v => decide (v.ctx = r.ctx ∧ v.idx = r.idx ∧ v.chunk = key) && v.members.contains k.val) ||
        ((cluGet s.d src).mcWait.any fun w => decide (w.2.1 = r.ctx.val ∧ w.2.2.1 = r.idx ∧ w.2.2.2.1 = key ∧ w.2.2.2.2 = k.val))) = false →
      exec (.multicastTimeout k u) s = .next { s with
        d := runMod r.ctx.val r.idx (fun q => { q with fallback := q.fallback + 1 })
          (unitMod k.val u (fun r => { r with mcast := none, fell := insAsc h r.fell }) (leaveSets k.val r.ctx.val r.idx s.d)) })) ∧
    (∀ (k : CluNo) u, ((fetchInfo s.d k.val u).all fun q => q.1.mcast.isNone ||
        (treeSource s.d (ctxGet s.d q.1.ctx.val).part.val q.2.x.wTree).isNone ||
        (treeGet s.d (ctxGet s.d q.1.ctx.val).part.val q.2.x.wTree).isNone) = true → exec (.multicastTimeout k u) s = .next s)

/-- A SYNC edge's error is the time less what the edge marks: LOCKING becomes LOCKED within 50 ns or is corrected, LOCKED
corrects within 1 us and goes back to LOCKING beyond it; before the first time is armed only the error is kept, and in
UNSET and HOLDOVER an edge changes nothing. The reference takes UNSET and HOLDOVER to LOCKING; its loss takes LOCKING
and LOCKED to HOLDOVER. A whole-millisecond TIME_ARM is armed. A period boundary writes a record of each context whose
counts changed; a snapshot of a live context writes one; the energy scale follows measured over estimated energy. A
runnable standby comes in where every resident is blocked, beside them or in place of the one that departs first; else
nothing changes. -/
def Obligations.TimeAccountingAndLending : Prop :=
  ∀ (s : State),
    (s.d.time.st = .unset ∨ s.d.time.st = .holdover → exec .syncEdge s = .next s) ∧
    (∀ e seen, e = (s.d.time.now : Int) - marks s.nv s.d.time →
      seen = { s.d.time with
        error := e, armed := if (armedNow s.nv s.d.time).isSome then none else s.d.time.armed } →
      (s.d.time.st = .locking → s.d.time.fromUnset = true → (armedNow s.nv s.d.time).isSome = true →
        exec .syncEdge s = .next { s with
          d := timeGo s.nv .locked e { s.d with
            time := { seen with
              now := marks s.nv s.d.time
              acctAt := min s.d.time.acctAt (marks s.nv s.d.time / (s.d.time.acctPeriod * 1000000) * (s.d.time.acctPeriod * 1000000)), fallback := false, slew := 0, slewAcc := 0, half := false } } }) ∧
      (s.d.time.st = .locking → s.d.time.fromUnset = true → armedNow s.nv s.d.time = none → exec .syncEdge s = .next { s with
          d := { s.d with time := { s.d.time with error := e } } }) ∧
      (s.d.time.st = .locking → s.d.time.fromUnset = false → -50 ≤ e → e ≤ 50 → exec .syncEdge s = .next { s with
          d := timeGo s.nv .locked e { s.d with time := { correct e seen with fallback := false } } }) ∧
      (s.d.time.st = .locking → s.d.time.fromUnset = false → e < -50 ∨ 50 < e → exec .syncEdge s = .next { s with
          d := { s.d with time := correct e seen } }) ∧
      (s.d.time.st = .locked → -1000 ≤ e → e ≤ 1000 → exec .syncEdge s = .next { s with
          d := { s.d with time := correct e seen } }) ∧
      (s.d.time.st = .locked → e < -1000 ∨ 1000 < e → exec .syncEdge s = .next { s with
          d := timeGo s.nv .locking e { s.d with
            time := { correct e seen with fallback := true, fromUnset := false } } })) ∧
    (s.d.time.st = .unset → exec .referencePresent s = .next { s with
      d := timeGo s.nv .locking s.d.time.error { s.d with
        time := { s.d.time with refOk := true, syncOk := true, fromUnset := true } } }) ∧
    (s.d.time.st = .holdover → exec .referencePresent s = .next { s with
      d := timeGo s.nv .locking s.d.time.error { s.d with
        time := { s.d.time with refOk := true, syncOk := true, fromUnset := false } } }) ∧
    (s.d.time.st = .locked ∨ s.d.time.st = .locking → exec .referencePresent s = .next { s with
      d := { s.d with time := { s.d.time with refOk := true, syncOk := true } } }) ∧
    (s.d.time.st = .unset ∨ s.d.time.st = .holdover → ∃ a b, (a && b) = false ∧ exec .referenceLost s = .next { s with
      d := drawFresh 1 { s.d with time := { s.d.time with refOk := a, syncOk := b } } }) ∧
    (∀ (p : Port) (v : Word), hostWrites s.nv s.d p = true → isOwner s.d p = false →
      exec (.timeArmHi p v) s = .next { s with d := denied s.d } ∧ exec (.timeAcctSnap p v) s = .next { s with d := denied s.d }) ∧
    (s.d.time.now / (s.d.time.acctPeriod * 1000000) * (s.d.time.acctPeriod * 1000000) ≤ s.d.time.acctAt →
      exec .accountingPeriod s = .next s) ∧
    (∀ measured, s.nv.up < s.d.time.kappaAt + 100000000 → exec (.kappaCalibration measured) s = .next s) ∧
    (∀ measured, s.d.time.kappaAt + 100000000 ≤ s.nv.up → procUp s.d 1 = false → exec (.kappaCalibration measured) s = .next { s with
      d := { s.d with time := { s.d.time with kappaAt := s.nv.up, estimate := 0 } } }) ∧
    (∀ measured, s.d.time.kappaAt + 100000000 ≤ s.nv.up → procUp s.d 1 = true → s.d.time.estimate = 0 → ∃ k, 2048 ≤ k ∧ k ≤ 8192 ∧
      exec (.kappaCalibration measured) s = .next { s with
        d := drawFresh 1 { s.d with time := { s.d.time with
          kappa := k, kappaWindows := satInc 16 s.d.time.kappaWindows, kappaAt := s.nv.up, estimate := 0 } } }) ∧
    (∀ p : PartNo, (((schedGet s.d p.val).table.all fun t => decide (firmwareRuns s.d = false ∨ (schedGet s.d p.val).reclaim.isSome = true ∨
        applying s.d p.val = true ∨ (schedGet s.d p.val).incoming ≠ [] ∨ standbyNext s.d p.val t = none ∨
        ((residents s.d p.val).any fun c => (ctxGet s.d c).departing.isSome || !blocked s.nv s.d c (t.blockUs * 1000)) = true ∨
        (maxResident s.d p.val ≤ (residents s.d p.val).length ∧ (mayEvict s.nv s.d p.val (t.blockUs * 1000) = false ∨
          bestOf (departsBefore s.d) ((residents s.d p.val).filter fun v => !inBubble s.d v) = none))))) = true →
      exec (.allBlocked p) s = .next s) ∧
    (s.d.time.st = .locked ∨ s.d.time.st = .locking → ∃ a b, (a && b) = false ∧ exec .referenceLost s = .next { s with
      d := timeGo s.nv .holdover s.d.time.error (drawFresh 1 { s.d with
        time := { s.d.time with
          refOk := a, syncOk := b, fallback := true, holdovers := satInc 16 s.d.time.holdovers, holdFrom := s.nv.up } }) }) ∧
    (∀ (p : Port) (v : Word) x, hostWrites s.nv s.d p = true → isOwner s.d p = true →
      x = v.toNat * 4294967296 + s.d.time.armStage.getD (s.d.time.arm % 4294967296) →
      exec (.timeArmHi p v) s = .next { s with
        d := { s.d with
          time := if x % 1000000 = 0 then { s.d.time with armed := some (x, s.nv.up), arm := x, armStage := none }
            else { s.d.time with armStage := none } } }) ∧
    (∀ last, last = s.d.time.now / (s.d.time.acctPeriod * 1000000) * (s.d.time.acctPeriod * 1000000) →
      s.d.time.acctAt < last → exec .accountingPeriod s = .next { s with
        d := ((s.d.ctxs.filter fun e => decide (e.2.st ≠ .free ∧ e.2.acct ≠ e.2.acctLast)).map (·.1)).foldl
          (fun d c => acctWrite s.nv c 0 d) { s.d with time := { s.d.time with acctAt := last } } }) ∧
    (∀ (p : Port) (v : Word) c, hostWrites s.nv s.d p = true → isOwner s.d p = true → c = v.toNat % 256 →
      (bit v.toNat 8 = true → ctxLive s.d c = true → exec (.timeAcctSnap p v) s = .next { s with
        d := acctWrite s.nv c 2 { s.d with
          time := { s.d.time with snapCtx := c, snapValid := true, snapSeq := wrapInc 16 s.d.time.snapSeq } } }) ∧
      (bit v.toNat 8 = true → ctxLive s.d c = false → exec (.timeAcctSnap p v) s = .next { s with
        d := { s.d with time := { s.d.time with snapRefused := true } } }) ∧
      (bit v.toNat 8 = false → exec (.timeAcctSnap p v) s = .next { s with
        d := { s.d with time := { s.d.time with snapCtx := c } } })) ∧
    (∀ measured, s.d.time.kappaAt + 100000000 ≤ s.nv.up → procUp s.d 1 = true → s.d.time.estimate ≠ 0 →
      exec (.kappaCalibration measured) s = .next { s with
        d := drawFresh 1 { s.d with
          time := { s.d.time with
            kappa := max 2048 (min 8192 (measured * 4096 / s.d.time.estimate))
            kappaWindows := satInc 16 s.d.time.kappaWindows, kappaAt := s.nv.up, estimate := 0 } } }) ∧
    (∀ (p : PartNo) t c, (schedGet s.d p.val).table = some t → firmwareRuns s.d = true → (schedGet s.d p.val).reclaim = none →
      applying s.d p.val = false → (schedGet s.d p.val).incoming = [] →
      (∀ c ∈ residents s.d p.val, (ctxGet s.d c).departing = none ∧ blocked s.nv s.d c (t.blockUs * 1000) = true) →
      standbyNext s.d p.val t = some c →
      ((residents s.d p.val).length < maxResident s.d p.val →
        exec (.allBlocked p) s = .next { s with d := arrive s.nv c s.d }) ∧
      (∀ v, maxResident s.d p.val ≤ (residents s.d p.val).length → mayEvict s.nv s.d p.val (t.blockUs * 1000) = true →
        bestOf (departsBefore s.d) ((residents s.d p.val).filter fun v => !inBubble s.d v) = some v → ∃ d1,
        d1 = schedMod p.val (fun x => { x with
            evictions := satInc 16 x.evictions, evictAt := some s.nv.up, evicted := x.evicted ++ [v], incoming := [c] })
          (raiseEv s.nv 0x43 (some v) (pack [(0, 4, p.val), (8, 8, v), (16, 8, c), (24, 2, blockedKind s.d v)]) 0 s.d) ∧
        exec (.allBlocked p) s = .next { s with d := beginDeparture v d1.time.now none d1 }))

/-- Standby starts at 47 V and stops below 42 V; TRAY_EN starts main power at 48 to 57 V and an inlet of at most 45 degrees,
else a start refusal is reported; main power goes when TRAY_EN goes, below 46 V, when the module is pulled, or on a trip
at 110 degrees of the die or 100 degrees of a stack. A half takes at most one governor step in 20 us. A partition above
its limit is held off by 1 to 75 percent. A raised flag begins an emergency at 400 MHz with an event, and it ends once
every flag has been clear for 100 ms; the safe state is held until then and until an activation in progress has ended. A
half held below 1,200 MHz for more than an hour, and one that needs its highest voltage entry, each set a bit of MARGIN.
Outside its condition each changes nothing, but for the levels seen and, in standby, the flags. -/
def Obligations.PowerSequencesAndGovernor : Prop :=
  ∀ (s : State),
    (∀ mv nv1, s.nv.standby = false → 47000 ≤ mv →
      nv1 = { s.nv with
        standby := true, vin := mv, gens := [], removal := .idle, removalSource := 0, graceFrom := 0, cagesBefore := 0
        quiescedPin := false, prsnt := true, up := 0 } →
      exec (.standbyStart mv) s = .next { s with
        nv := nv1
        d := Device.afterReset { s.nv with up := 0 } [] [] Kept.init }) ∧
    (∀ mv, s.nv.standby = true ∨ mv < 47000 → exec (.standbyStart mv) s = .next s) ∧
    (∀ mv (inlet : Int) (passed : List Nat), s.nv.standby = false ∨ s.nv.trayEn = true → exec (.mainPowerOn mv ⟨inlet, passed⟩) s = .next s) ∧
    (s.nv.mainOn = false → exec (.mainPowerOff none) s = .next { s with nv := { s.nv with trayEn := false } }) ∧
    (∀ v, s.nv.mainOn = false → v < 46000 → exec (.mainPowerOff (some v)) s = .next { s with nv := { s.nv with vin := v } }) ∧
    (∀ v, 46000 ≤ v → exec (.mainPowerOff (some v)) s = .next s) ∧
    (∀ mv, s.nv.standby = false ∨ 42000 ≤ mv → exec (.standbyStop mv) s = .next s) ∧
    (s.nv.mainOn = false → exec .modulePulled s = .next { s with nv := { s.nv with prsnt := false } }) ∧
    (∀ j t : Int, s.nv.mainOn = false ∨ (j < 1100 ∧ t < 1000) → exec (.thermalTrip j t) s = .next s) ∧
    (∀ (h : HalfNo) (j : Int) dieW more, s.nv.mainOn = false ∨ s.nv.up < smGet s.d.pwr.stepAt 0 h.val + 20000 →
      exec (.governorStep h j dieW more) s = .next s) ∧
    (∀ est, s.nv.mainOn = false → exec (.powerWindow est) s = .next s) ∧
    (∀ i : Fin 6, s.nv.mainOn = false → exec (.emergencyFlagRaised i) s = .next { s with
      d := if s.nv.standby then { s.d with pwr := { s.d.pwr with
        flags := putBit s.d.pwr.flags i.val true, emergency := true, safe := true, clearFrom := s.nv.up } } else s.d }) ∧
    (s.d.pwr.emergency = false ∨ s.d.pwr.flags ≠ 0 ∨ s.nv.up < s.d.pwr.clearFrom + 100000000 → exec .emergencyEnd s = .next s) ∧
    (s.nv.mainOn = false → s.d.pwr.emergency = true → s.d.pwr.flags = 0 → s.d.pwr.clearFrom + 100000000 ≤ s.nv.up →
      s.d.pwr.safe = false ∨ s.d.fw.acting.isSome = true →
      exec .emergencyEnd s = .next { s with d := { s.d with pwr := { s.d.pwr with emergency := false } } }) ∧
    (s.nv.mainOn = true → s.d.pwr.emergency = true → s.d.pwr.flags = 0 → s.d.pwr.clearFrom + 100000000 ≤ s.nv.up →
      s.d.pwr.safe = false ∨ s.d.fw.acting.isSome = true →
      exec .emergencyEnd s = .next { s with
        d := raiseEv s.nv 0x60 none 0 1 { s.d with pwr := { s.d.pwr with emergency := false } } }) ∧
    (∀ e, (e.pwr.safe = true → e.pwr.emergency = false → e.fw.acting = none → ∃ w : Pwr, w = { e.pwr with safe := false } ∧
        safeRelease e = { e with
          pwr := { w with reason := smPut (smPut w.reason 0 0 (clockReason w 0)) 0 1 (clockReason w 1) } }) ∧
      (e.pwr.safe = false ∨ e.pwr.emergency = true ∨ e.fw.acting.isSome = true → safeRelease e = e)) ∧
    (s.nv.mainOn = false → s.d.pwr.emergency = true → s.d.pwr.flags = 0 → s.d.pwr.clearFrom + 100000000 ≤ s.nv.up →
      s.d.pwr.safe = true → s.d.fw.acting = none → ∃ w : Pwr,
      w = { s.d.pwr with emergency := false, safe := false } ∧
      exec .emergencyEnd s = .next { s with d := { s.d with
        pwr := { w with reason := smPut (smPut w.reason 0 0 (clockReason w 0)) 0 1 (clockReason w 1) } } }) ∧
    (∀ m, s.nv.mainOn = false → exec (.marginExhausted m) s = .next s) ∧
    (∀ mv (inlet : Int) (passed : List Nat) nv1, s.nv.standby = true → s.nv.trayEn = false → 48000 ≤ mv → mv ≤ 57000 → inlet ≤ 450 →
      nv1 = { s.nv with
        trayEn := true, vin := mv, mainOn := true, pg := true, pcycReq := false, removal := .idle, removalSource := 0
        quiescedPin := false } →
      exec (.mainPowerOn mv ⟨inlet, passed⟩) s = .next { s with
        nv := nv1
        d := checkReplace nv1 (emergencyStays s.d (retiredHealth nv1 (withholdSpares passed (Device.afterReset nv1 [] [] (keptMessages s.d))))) }) ∧
    (∀ mv (inlet : Int) (passed : List Nat), s.nv.standby = true → s.nv.trayEn = false → mv < 48000 ∨ 57000 < mv ∨ 450 < inlet →
      exec (.mainPowerOn mv ⟨inlet, passed⟩) s = .next { s with
        nv := { s.nv with trayEn := true, vin := mv }
        d := controllerReport 1 s.d }) ∧
    (s.nv.mainOn = true → exec (.mainPowerOff none) s = .next { s with
      nv := { s.nv with trayEn := false, mainOn := false, pg := false, pcycReq := false }
      d := emergencyStays s.d (Device.afterReset { s.nv with trayEn := false } [] [] (keptMessages s.d)) }) ∧
    (∀ v, s.nv.mainOn = true → v < 46000 → exec (.mainPowerOff (some v)) s = .next { s with
      nv := { s.nv with vin := v, mainOn := false, pg := false, pcycReq := false }
      d := emergencyStays s.d (Device.afterReset { s.nv with vin := v } [] [] (keptMessages s.d)) }) ∧
    (∀ mv, s.nv.standby = true → mv < 42000 → exec (.standbyStop mv) s = .next { s with
      nv := { s.nv with standby := false, vin := mv, mainOn := false, pg := false, pcycReq := false }
      d := Device.afterReset { s.nv with standby := false, vin := mv } [] [] Kept.init }) ∧
    (s.nv.mainOn = true → exec .modulePulled s = .next { s with
      nv := { s.nv with prsnt := false, mainOn := false, pg := false, pcycReq := false }
      d := emergencyStays s.d (Device.afterReset { s.nv with prsnt := false } [] [] (keptMessages s.d)) }) ∧
    (∀ j t : Int, s.nv.mainOn = true → 1100 ≤ j ∨ 1000 ≤ t → exec (.thermalTrip j t) s = .next { s with
      nv := { s.nv with mainOn := false, pg := false, pcycReq := false }
      d := controllerReport 2 (emergencyStays s.d (Device.afterReset s.nv [] [] (keptMessages s.d))) }) ∧
    (∀ (h : HalfNo) (j : Int) dieW more d1, s.nv.mainOn = true → smGet s.d.pwr.stepAt 0 h.val + 20000 ≤ s.nv.up →
      d1 = { junctionSeen h.val j s.d with
        pwr := dieStep s.nv.up h.val dieW more (junctionSeen h.val j s.d).pwr } →
      exec (.governorStep h j dieW more) s = .next { s with
        d := clockSet s.nv h.val (clockNext d1.pwr h.val j) d1 }) ∧
    (∀ est, s.nv.mainOn = true → exec (.powerWindow est) s = .next { s with
      d := (est.filter fun e => (partGet s.d e.1).isSome).foldl (fun d e => powerOne e.1 e.2 d) s.d }) ∧
    (∀ p est limit, ((partGet s.d p).map (·.powerW)).getD 0 = limit → ∃ n, n < 75 ∧ powerOne p est s.d =
      drawFresh 1 { s.d with
        pwr := { s.d.pwr with
          part := smPut s.d.pwr.part (0, 0) p (if limit ≠ 0 ∧ limit < est then 1 + n else 0, min 65535 est) } }) ∧
    (∀ (i : Fin 6) d1, s.nv.mainOn = true → d1 = clockSet s.nv 1 400 (clockSet s.nv 0 400 { s.d with
        pwr := { s.d.pwr with
          flags := putBit s.d.pwr.flags i.val true, emergency := true, safe := true, clearFrom := s.nv.up } }) →
      exec (.emergencyFlagRaised i) s = .next { s with
        d := if s.d.pwr.emergency then d1 else raiseEv s.nv 0x60 none d1.pwr.flags 0 (pwrCount 0 d1) }) ∧
    (s.nv.mainOn = true → s.d.pwr.emergency = true → s.d.pwr.flags = 0 → s.d.pwr.clearFrom + 100000000 ≤ s.nv.up →
      s.d.pwr.safe = true → s.d.fw.acting = none → ∃ w : Pwr,
      w = { s.d.pwr with emergency := false, safe := false } ∧
      exec .emergencyEnd s = .next { s with
        d := raiseEv s.nv 0x60 none 0 1 { s.d with
          pwr := { w with reason := smPut (smPut w.reason 0 0 (clockReason w 0)) 0 1 (clockReason w 1) } } }) ∧
    (∀ ms high, s.nv.mainOn = true → exec (.marginExhausted ⟨ms, high⟩) s = .next { s with
      d := checkReplace s.nv { s.d with kept := { s.d.kept with
        margin := s.d.kept.margin ||| ((if 3600000 < ms then 1 else 0) + (if high then 2 else 0)) } } })

/-- A press of 50 ms to 2 s, a REQUEST of the owner, or the tray's request starts a removal that is idle; a press of 5 s, a
CANCEL, or the tray's cancel ends one and restores the cages. QUIESCE_NOW, or the end of the grace time, begins
quiescing: the cages' enables are kept, contexts are torn down and cages disabled; it completes once nothing is left.
Each change is an event; a request, cancel or press in another state or length only counts the press, and a port that is
not the owner is denied. In standby SET_TIME arms a whole-millisecond time, GET_STATUS answers four words, and REMOVAL
answers the new state. -/
def Obligations.RemovalAndManagement : Prop :=
  ∀ (s : State),
    (∀ ms, s.nv.standby = true → 50 ≤ ms → ms ≤ 2000 → s.nv.removal = .idle → exec (.shortPress ms) s = .next { s with
      nv := { s.nv with removal := .pending, removalSource := 0, graceFrom := s.nv.up }
      d := removalEvent .pending 0 s.nv (pwrCount 2 s.d) }) ∧
    (∀ ms, s.nv.standby = true → 50 ≤ ms → ms ≤ 2000 → s.nv.removal ≠ .idle → exec (.shortPress ms) s = .next { s with
      d := pwrCount 2 s.d }) ∧
    (∀ ms, s.nv.standby = false ∨ ms < 50 ∨ 2000 < ms → exec (.shortPress ms) s = .next s) ∧
    (∀ ms, s.nv.standby = true → 5000 ≤ ms → s.nv.removal = .idle → exec (.longPress ms) s = .next { s with d := pwrCount 3 s.d }) ∧
    (∀ ms, s.nv.standby = false ∨ ms < 5000 → exec (.longPress ms) s = .next s) ∧
    (∀ p : Port, hostWrites s.nv s.d p = true → isOwner s.d p = false → ∀ c ∈ ([.request p, .quiesceNow p, .cancel p] : List Instr),
      exec c s = .next { s with d := denied s.d }) ∧
    (s.nv.removal ≠ .pending ∨ s.nv.up < s.nv.graceFrom + s.d.pwr.graceS * 1000000000 → exec .graceTimeout s = .next s) ∧
    (s.nv.removal ≠ .quiescing → exec .quiesceComplete s = .next s) ∧
    (quiesceDone s.nv (quiesceWork s.nv s.d) = false → exec .quiesceComplete s = .next { s with d := quiesceWork s.nv s.d }) ∧
    (s.nv.standby = false → ∀ ns code, exec (.setTime ns) s = .next s ∧ exec .getStatus s = .next s ∧ exec (.removal code) s = .next s) ∧
    (∀ ms, s.nv.standby = true → 5000 ≤ ms → s.nv.removal = .pending → exec (.longPress ms) s = .next { s with
      nv := { s.nv with removal := .idle, quiescedPin := false }
      d := pwrCount 4 (removalEvent .idle 0 s.nv (pwrCount 3 s.d)) }) ∧
    (∀ ms, s.nv.standby = true → 5000 ≤ ms → s.nv.removal = .quiescing ∨ s.nv.removal = .quiesced →
      exec (.longPress ms) s = .next { s with
        nv := { s.nv with removal := .idle, quiescedPin := false }
        d := pwrCount 4 (removalEvent .idle 0 s.nv ((List.range 8).foldl (fun d g => cageRestore s.nv g d) (pwrCount 3 s.d))) }) ∧
    (∀ p : Port, hostWrites s.nv s.d p = true → isOwner s.d p = true →
      (s.nv.removal = .idle → exec (.request p) s = .next { s with
        nv := { s.nv with removal := .pending, removalSource := 1, graceFrom := s.nv.up }
        d := removalEvent .pending 1 s.nv s.d }) ∧
      (s.nv.removal ≠ .idle → exec (.request p) s = .next s) ∧
      (s.nv.removal = .quiescing ∨ s.nv.removal = .quiesced → exec (.quiesceNow p) s = .next s) ∧
      (s.nv.removal = .idle → exec (.cancel p) s = .next s) ∧
      (s.nv.removal = .quiescing ∨ s.nv.removal = .quiesced → exec (.cancel p) s = .next { s with
        nv := { s.nv with removal := .idle, quiescedPin := false }
        d := pwrCount 4 (removalEvent .idle 1 s.nv ((List.range 8).foldl (fun d g => cageRestore s.nv g d) s.d)) }) ∧
      (s.nv.removal = .idle → exec (.quiesceNow p) s = .next { s with
        nv := (quiesceBegin { s.nv with removalSource := 1 } (removalEvent .quiescing 1 s.nv s.d)).1
        d := (quiesceBegin { s.nv with removalSource := 1 } (removalEvent .quiescing 1 s.nv s.d)).2 }) ∧
      (s.nv.removal = .pending → exec (.quiesceNow p) s = .next { s with
        nv := (quiesceBegin s.nv s.d).1
        d := (quiesceBegin s.nv s.d).2 }) ∧
      (s.nv.removal = .pending → exec (.cancel p) s = .next { s with
        nv := { s.nv with removal := .idle, quiescedPin := false }
        d := pwrCount 4 (removalEvent .idle 1 s.nv s.d) })) ∧
    (s.nv.removal = .pending → s.nv.graceFrom + s.d.pwr.graceS * 1000000000 ≤ s.nv.up →
      exec .graceTimeout s = .next { s with
        nv := (quiesceBegin s.nv s.d).1
        d := (quiesceBegin s.nv s.d).2 }) ∧
    (∀ nv d, (quiesceBegin nv d).1 = { nv with
        removal := .quiescing, cagesBefore := ofBits ((List.range 8).filter fun g => (cageGet d g).en) } ∧
      (d.fw.deferred = none → (quiesceBegin nv d).2 = quiesceWork (quiesceBegin nv d).1 d) ∧
      (∀ tag, d.fw.deferred = some tag → (quiesceBegin nv d).2 = quiesceWork (quiesceBegin nv d).1
        (fwDone (quiesceBegin nv d).1 tag stState { d with fw := { d.fw with deferred := none } }))) ∧
    (s.nv.removal = .quiescing → quiesceDone s.nv (quiesceWork s.nv s.d) = true → exec .quiesceComplete s = .next { s with
      nv := { s.nv with removal := .quiesced, quiescedPin := true }
      d := removalEvent .quiesced s.nv.removalSource s.nv (quiesceWork s.nv s.d) }) ∧
    (∀ ns, s.nv.standby = true → s.nv.mainOn = true → ns % 1000000 = 0 → exec (.setTime ns) s = .next { s with
      d := { s.d with
        time := { s.d.time with armed := some (ns, s.nv.up), arm := ns, armStage := none }
        pwr := { s.d.pwr with response := [1] } } }) ∧
    (∀ ns, s.nv.standby = true → s.nv.mainOn = false ∨ ns % 1000000 ≠ 0 → exec (.setTime ns) s = .next { s with
      d := { s.d with pwr := { s.d.pwr with response := [0] } } }) ∧
    (s.nv.standby = true → exec .getStatus s = .next { s with
      d := { s.d with
        pwr := { s.d.pwr with
          response := (if s.nv.mainOn then [pwrStatus s.nv s.d, fltReg s.nv s.d 0x20, fwState s.nv s.d, timeReg s.nv s.d 8]
            else [pwrStatus s.nv s.d, 0, 0, 0]).map w32 } } }) ∧
    (s.nv.standby = true → s.nv.removal = .idle → exec (.removal 1) s = .next { s with
      nv := { s.nv with removal := .pending, removalSource := 2, graceFrom := s.nv.up }
      d := respond [removalCode .pending] (removalEvent .pending 2 s.nv s.d) }) ∧
    (s.nv.standby = true → s.nv.removal = .pending → exec (.removal 0) s = .next { s with
      nv := { s.nv with removal := .idle, quiescedPin := false }
      d := respond [removalCode .idle] (pwrCount 4 (removalEvent .idle 2 s.nv s.d)) }) ∧
    (s.nv.standby = true → s.nv.removal = .pending → exec (.removal 2) s = .next { s with
      nv := (quiesceBegin s.nv s.d).1
      d := respond [removalCode .quiescing] (quiesceBegin s.nv s.d).2 }) ∧
    (s.nv.standby = true → s.nv.removal = .quiescing ∨ s.nv.removal = .quiesced → exec (.removal 0) s = .next { s with
      nv := { s.nv with removal := .idle, quiescedPin := false }
      d := respond [removalCode .idle] (pwrCount 4 (removalEvent .idle 2 s.nv ((List.range 8).foldl (fun d g => cageRestore s.nv g d) s.d))) }) ∧
    (s.nv.standby = true → s.nv.removal = .idle → exec (.removal 2) s = .next { s with
      nv := (quiesceBegin { s.nv with removalSource := 2 } (removalEvent .quiescing 2 s.nv s.d)).1
      d := respond [removalCode .quiescing] (quiesceBegin { s.nv with removalSource := 2 } (removalEvent .quiescing 2 s.nv s.d)).2 }) ∧
    (∀ code, s.nv.standby = true → 2 < code ∨ (code = 0 ∧ s.nv.removal = .idle) ∨ (code = 1 ∧ s.nv.removal ≠ .idle) ∨
        (code = 2 ∧ (s.nv.removal = .quiescing ∨ s.nv.removal = .quiesced)) → exec (.removal code) s = .next { s with
      d := respond [removalCode s.nv.removal] s.d })

/-- A COLLECTIVE whose checks pass is queued and comes into progress where there is room; one that fails a check completes
with its status and index, or faults its context. IDLE_WINDOWS replaces the context's bubbles, or ends in the error met.
A gate whose counter has passed opens: READY goes to the coordinator and the senders. A coordinator that lacks READYs a
straggler time after its gate opened raises STRAGGLER and tells the members; a member that hears nothing for a second
more names the coordinator. A stage starts where it may, works, and ends, with the time of progress. NORM_STEP forms
this member's total and, at member 0, the norm. A collective whose work is over, or that failed, leaves with its
records, counts and DONE_CTR; a norm that failed writes NaN. Before its condition each changes nothing. -/
def Obligations.CollectivesBeginStageAndComplete : Prop :=
  ∀ (s : State),
    (∀ t (x : Taken) c y g, freshTaken s.d 0x41 t = some x → stateStatus s.nv s.d x.ring x.entry = 0 → x.ring = some c →
      collCheck s.nv s.d c.val (eArg x.entry 0 % 2 ^ 52) = .ok (y, g) →
      exec (.collective t) s = .next { s with
        d := collAdmitNext s.nv 64 (markBegun t { s.d with coll := { s.d.coll with
          runs := s.d.coll.runs ++ [CollRun.init c t y g] } }) }) ∧
    (∀ t (x : Taken) c st i, freshTaken s.d 0x41 t = some x → stateStatus s.nv s.d x.ring x.entry = 0 → x.ring = some c →
      collCheck s.nv s.d c.val (eArg x.entry 0 % 2 ^ 52) = .error (.refuse st i) →
      exec (.collective t) s = .next { s with d := complete s.nv t st i 0 s.d }) ∧
    (∀ t (x : Taken) c f, freshTaken s.d 0x41 t = some x → stateStatus s.nv s.d x.ring x.entry = 0 → x.ring = some c →
      collCheck s.nv s.d c.val (eArg x.entry 0 % 2 ^ 52) = .error (.fault f) →
      exec (.collective t) s = .next { s with d := faultCtx s.nv c.val { f with tag := some t } s.d }) ∧
    (∀ t (x : Taken) c, freshTaken s.d 0x42 t = some x → stateStatus s.nv s.d x.ring x.entry = 0 → x.ring = some c →
      exec (.idleWindows t) s = .next { s with
        d := match admRead s.d c.val (eArg x.entry 0 % 2 ^ 52) (32 * (eArg x.entry 1 % 32)) with
          | .error (.fault f) => faultCtx s.nv c.val { f with tag := some t } s.d
          | .error (.refuse st i) => complete s.nv t st i 0 s.d
          | .ok none => complete s.nv t stPage 0xFFFF 0 s.d
          | .ok (some v) =>
            match allSome ((List.range (eArg x.entry 1 % 32)).map fun i => bubbleParse (fld v (256 * i) 256)) with
            | some bs => complete s.nv t stOK 0xFFFF 0 (ctxMod c.val (fun y => { y with bubbles := bs }) s.d)
            | none => complete s.nv t stMalformed 0xFFFF 0 s.d }) ∧
    (∀ (c : CtxNo) t, ((collGet s.d c.val t).all fun r => !r.active || r.gateOpen ||
        (r.desc.waitEn && !ctrPassed s.d c.val r.desc.waitCtr (w32 r.desc.waitValue))) = true →
      exec (.collectiveGateOpen c t) s = .next s) ∧
    (∀ (c : CtxNo) t r f, collGet s.d c.val t = some r → r.active = true → r.gateOpen = false →
      r.desc.waitEn = false ∨ ctrPassed s.d c.val r.desc.waitCtr (w32 r.desc.waitValue) = true → r.desc.op = 6 →
      ownDigest s.d r = .error f →
      exec (.collectiveGateOpen c t) s = .next { s with d := faultCtx s.nv c.val { f with tag := some t } s.d }) ∧
    (∀ (c : CtxNo) t r, collGet s.d c.val t = some r → r.gateOpen = true → r.allReady = false → r.coordinator ≠ r.me →
      r.told = false → r.raised = 0 → r.gateUp + s.d.coll.stragglerMs * 1000000 + 1000000000 ≤ s.nv.up →
      exec (.stragglerTimeout c t) s = .next { s with
        d := stragglerRaise s.nv c.val t [r.coordinator] (collMod c.val t (fun r => { r with raised := 1 }) s.d) }) ∧
    (∀ (c : CtxNo) t, ((collGet s.d c.val t).all fun r => decide (r.gateOpen = false ∨ r.allReady = true ∨
        (r.coordinator = r.me ∧ s.nv.up < r.gateUp + (r.raised + 1) * (s.d.coll.stragglerMs * 1000000)) ∨
        (r.coordinator ≠ r.me ∧ (r.told = true ∨ r.raised ≠ 0 ∨
          s.nv.up < r.gateUp + s.d.coll.stragglerMs * 1000000 + 1000000000)))) = true →
      exec (.stragglerTimeout c t) s = .next s) ∧
    (∀ (c : CtxNo) t, ((collGet s.d c.val t).all fun r => !stageReady s.d r) = true → exec (.collectiveStage c t) s = .next s) ∧
    (∀ (c : CtxNo) t, ((collGet s.d c.val t).all fun r => r.stage.isNone) = true → exec (.collectiveStageEnd c t) s = .next s) ∧
    (∀ (c : CtxNo) t, ((collGet s.d c.val t).all fun r => !r.active || !r.desc.normFinal || decide (r.bad ≠ 0) || !reduceOver r ||
        !setReady s.d c.val t) = true → exec (.normStep c t) s = .next s) ∧
    (∀ (c : CtxNo) t r v, collGet s.d c.val t = some r → r.active = true → r.desc.normFinal = true → r.bad = 0 →
      reduceOver r = true → setReady s.d c.val t = true → smGet r.totals none r.me = some v →
      exec (.normStep c t) s = .next { s with
        d := normDown s.nv c.val t (collMod c.val t (fun r =>
            if r.me = 0 ∧ r.normVal.isNone ∧ (List.range r.size).all (fun m => (smGet r.totals none m).isSome)
            then { r with normVal := some (normOf r) } else r)
          (totalsUp s.nv c.val t s.d)) }) ∧
    (∀ (c : CtxNo) t, ((collGet s.d c.val t).all fun r => !r.open_ || r.stage.isSome || (decide (r.bad = 0) && !collOver s.d r) ||
        (r.desc.normFinal && !setReady s.d c.val t)) = true → exec (.collectiveComplete c t) s = .next s) ∧
    (∀ (c : CtxNo) t r, collGet s.d c.val t = some r → r.open_ = true → r.stage = none → r.desc.normFinal = true →
      setReady s.d c.val t = true → r.bad ≠ 0 ∨ collOver s.d r = true →
      exec (.collectiveComplete c t) s = .next { s with
        d := collFinish s.nv c.val t (if r.bad ≠ 0 ∨ r.clip = none then normClose s.nv c.val t (0x7FC00000, 2) s.d else s.d) }) ∧
    (∀ (c : CtxNo) t r, collGet s.d c.val t = some r → r.active = true → r.gateOpen = false →
      r.desc.waitEn = false ∨ ctrPassed s.d c.val r.desc.waitCtr (w32 r.desc.waitValue) = true → r.desc.op ≠ 6 → ∃ d1,
      d1 = collMod c.val t (fun r => { r with
          gateOpen := true, startTime := s.d.time.now, gateUp := s.nv.up
          records := if holdsNone r then smPut r.records none r.me (some (0, 2 ^ 32 - 1, 0x3FF)) else r.records }) s.d ∧
      exec (.collectiveGateOpen c t) s = .next { s with
        d := readyTake s.nv c.val t r.me
          (collSendAll s.nv r ((r.coordinator :: sendersTo r).eraseDups.filter (· ≠ r.me)) 2 0 0 [] d1) }) ∧
    (∀ (c : CtxNo) t r v, collGet s.d c.val t = some r → r.active = true → r.gateOpen = false →
      r.desc.waitEn = false ∨ ctrPassed s.d c.val r.desc.waitCtr (w32 r.desc.waitValue) = true → r.desc.op = 6 →
      ownDigest s.d r = .ok v → ∃ d1 d2,
      d1 = collMod c.val t (fun r => { r with digests := smPut r.digests none r.me (some v) })
        (readCharge s.nv c.val r.desc.src (if r.desc.mode = 1 then 8 else 256) s.d) ∧
      d2 = collMod c.val t (fun r => { r with
          gateOpen := true, startTime := d1.time.now, gateUp := s.nv.up
          records := if holdsNone r then smPut r.records none r.me (some (0, 2 ^ 32 - 1, 0x3FF)) else r.records }) d1 ∧
      exec (.collectiveGateOpen c t) s = .next { s with
        d := readyTake s.nv c.val t r.me
          (collSendAll s.nv r ((r.coordinator :: sendersTo r).eraseDups.filter (· ≠ r.me)) 2 0 0 [] d2) }) ∧
    (∀ (c : CtxNo) t r m, collGet s.d c.val t = some r → r.gateOpen = true → r.allReady = false → r.coordinator = r.me →
      r.gateUp + (r.raised + 1) * (s.d.coll.stragglerMs * 1000000) ≤ s.nv.up →
      m = (List.range r.size).filter (fun m => !r.readyFrom.contains m) →
      exec (.stragglerTimeout c t) s = .next { s with
        d := collSendAll s.nv r (r.readyFrom.filter (· ≠ r.me)) 4 0 0 (missingMap m)
          (stragglerRaise s.nv c.val t m (collMod c.val t (fun r => { r with raised := r.raised + 1 }) s.d)) }) ∧
    (∀ (c : CtxNo) t r, collGet s.d c.val t = some r → stageReady s.d r = true →
      exec (.collectiveStage c t) s = .next { s with
        d := collWork s.nv c.val t stageFuel (ctxMod c.val (fun x => { x with progressAt := s.nv.up })
          (collMod c.val t (fun r => { r with stage := some s.nv.up, traffic := 0 }) s.d)) }) ∧
    (∀ (c : CtxNo) t r n, collGet s.d c.val t = some r → r.stage = some n →
      exec (.collectiveStageEnd c t) s = .next { s with
        d := stageOverrun s.nv c.val (ctxMod c.val (fun x => { x with progressAt := s.nv.up })
          (collMod c.val t (fun r => { r with stage := none, traffic := 0 }) s.d)) }) ∧
    (∀ (c : CtxNo) t r, collGet s.d c.val t = some r → r.active = true → r.desc.normFinal = true → r.bad = 0 →
      reduceOver r = true → setReady s.d c.val t = true → smGet r.totals none r.me = none →
      exec (.normStep c t) s = .next { s with
        d := normDown s.nv c.val t (collMod c.val t (fun r =>
            if r.me = 0 ∧ r.normVal.isNone ∧ (List.range r.size).all (fun m => (smGet r.totals none m).isSome)
            then { r with normVal := some (normOf r) } else r)
          (totalsUp s.nv c.val t (collMod c.val t (fun x => { x with
            totals := smPut x.totals none x.me (some (normTotal s.d r)) }) s.d))) }) ∧
    (∀ (c : CtxNo) t r, collGet s.d c.val t = some r → r.open_ = true → r.stage = none → r.desc.normFinal = false →
      r.bad ≠ 0 ∨ collOver s.d r = true →
      exec (.collectiveComplete c t) s = .next { s with d := collFinish s.nv c.val t s.d })

/-- For a message of OP 5 that a cage takes and a flow accepts (d1 is the device when the packet is taken from its cage, d0
with the flow's time noted, d2 with the context's LINK_RX added), from the member it names of a collective in progress:
an awaited PARTIAL or RESULT joins the inbox; READY is held, and ALL_READY of the coordinator is; STRAGGLER raises the
event here; a legal RECORD, DIGEST and NORM_TOTAL is recorded; GRANT of the next member and ARRIVAL of an awaited one
are noted; and what the stage in progress can do it does. REFUSE from a node of the group fails the collective with its
status. A message that the collective does not await lands and changes nothing more; one of a collective that is not in
progress, or not from a member of its group, is counted and refused; one of another kind than the command's changes
nothing. -/
def Obligations.CollectiveMessagesLand : Prop :=
  ∀ (s : State) (g : CageNo) (q : StavaPacket) (x : RxFlow) (d1 d0 d2 : Device),
    ((cageGet s.d g.val).rxq = [] ∧ cageUp s.d g.val = true ∧ d1 = cageCnt g.val 3 s.d ∨
      ∃ t, (cageGet s.d g.val).rxq = q :: t ∧ d1 = cageMod g.val (fun y => { y with rxq := t }) s.d) →
    q.dstNode.toNat = d1.link.node → inTime d1 q = true → d0 = rxPut { x with lastAt := s.nv.up } d1 →
    rxGet d1 q.srcNode.toNat q.flow.toNat = some x → x.landed.contains q.seq.toNat = false →
    (q.seq.toNat + 2 ^ 24 - x.ackSeq) % 2 ^ 24 < 256 → q.op = 5 →
    d2 = acctMod ((((msgRuns d0 q).head?).map (·.ctx.val)).getD 256) (fun a => { a with linkRx := a.linkRx + q.payload.length }) d0 →
    (∀ r, (msgRuns d2 q).find? (fun r => fromMember r q) = some r →
      (∀ j e n key, msgKind q = 0 → r.chunk (msgChunk q) = some (j, e, n) → r.desc.reduces = true →
        key = 2 * msgChunk q + (if r.tree then msgMember q - 2 * r.me - 1 else 0) →
        msgMember q ∈ (if r.tree then heapChildren r.size r.me else ringPrev r.size r.me) → key ∈ sumInputs r (msgChunk q) j →
        msgChunk q ∉ r.added → msgElements q = n → q.payload.length = 4 * n → exec (.partial_ g q) s = .next { s with
          d := landed s.nv q (msgWork s.nv r (collMod r.ctx.val r.tag (fun r => { r with
            inbox := smIns r.inbox key (wordsIn n q.payload) }) d2)) }) ∧
      (∀ j e n, msgKind q = 1 → r.chunk (msgChunk q) = some (j, e, n) → r.desc.op = 0 →
        msgMember q ∈ (if r.tree then heapParent r.me else ringPrev r.size r.me) → r.holds j = false →
        msgChunk q ∉ r.results → msgElements q = n → q.payload.length = 4 * n → exec (.result g q) s = .next { s with
          d := landed s.nv q (msgWork s.nv r (collMod r.ctx.val r.tag (fun r => { r with
            resIn := smIns r.resIn (msgChunk q) (wordsIn n q.payload) }) d2)) }) ∧
      (msgKind q = 2 → exec (.ready g q) s = .next { s with
        d := landed s.nv q (msgWork s.nv r (readyTake s.nv r.ctx.val r.tag (msgMember q) d2)) }) ∧
      (msgKind q = 3 → msgMember q = r.coordinator → exec (.allReady g q) s = .next { s with
        d := landed s.nv q (collMod r.ctx.val r.tag (fun r => { r with allReady := true }) d2) }) ∧
      (msgKind q = 4 → msgMember q = r.coordinator → r.gateOpen = true → exec (.straggler g q) s = .next { s with
        d := landed s.nv q (stragglerRaise s.nv r.ctx.val r.tag (bitsOf 1024 (ofBytes q.payload))
          (collMod r.ctx.val r.tag (fun r => { r with told := true }) d2)) }) ∧
      (msgKind q = 5 → r.desc.reduces = true → q.payload.length = 12 →
        (r.tree = true ∧ msgChunk q = 0 ∧ msgMember q ∈ heapParent r.me) ∨
          (r.tree = false ∧ msgChunk q ≠ r.me ∧ msgChunk q < r.size ∧ msgMember q ∈ ringPrev r.size r.me) →
        exec (.record g q) s = .next { s with
          d := landed s.nv q (msgWork s.nv r (collMod r.ctx.val r.tag (fun r => { r with
            records := smPut r.records none (msgChunk q) (some (fld (ofBytes q.payload) 0 32, fld (ofBytes q.payload) 32 32,
              fld (ofBytes q.payload) 64 10)) }) d2)) }) ∧
      (msgKind q = 6 → r.desc.normFinal = true → msgMember q ∈ heapChildren r.size r.me → q.payload.length = 8 →
        msgChunk q < r.size → exec (.normTotal g q) s = .next { s with
          d := landed s.nv q (normStep s.nv r.ctx.val r.tag (totalsUp s.nv r.ctx.val r.tag (collMod r.ctx.val r.tag (fun r => { r with
            totals := smPut r.totals none (msgChunk q)
              (some (w32 (fld (ofBytes q.payload) 0 32), w32 (fld (ofBytes q.payload) 32 32))) }) d2))) }) ∧
      (msgKind q = 7 → r.desc.op = 6 → msgChunk q < r.size → msgMember q ∈ heapParent r.me ++ heapChildren r.size r.me →
        exec (.digest g q) s = .next { s with
          d := landed s.nv q (msgWork s.nv r (collMod r.ctx.val r.tag (fun r => { r with
            digests := smPut r.digests none (msgChunk q)
              (some (if q.payload.length = 8 then some (ofBytes q.payload) else none)) }) d2)) }) ∧
      (msgKind q = 8 → r.desc.op = 5 → msgMember q = permTo r r.me → exec (.grant g q) s = .next { s with
        d := landed s.nv q (msgWork s.nv r (collMod r.ctx.val r.tag (fun r => { r with
          grantsIn := insAsc (msgChunk q) r.grantsIn }) d2)) }) ∧
      (msgKind q = 6 → r.desc.normFinal = true → msgMember q ∈ heapParent r.me → q.payload.length = 4 →
        exec (.normTotal g q) s = .next { s with
          d := landed s.nv q (normDown s.nv r.ctx.val r.tag (collMod r.ctx.val r.tag (fun r => { r with
            normVal := some (w32 (ofBytes q.payload)) }) d2)) }) ∧
      (msgKind q = 0 → ((r.chunk (msgChunk q)).all fun c => decide (r.desc.reduces = false ∨
          msgMember q ∉ (if r.tree then heapChildren r.size r.me else ringPrev r.size r.me) ∨
          2 * msgChunk q + (if r.tree then msgMember q - 2 * r.me - 1 else 0) ∉ sumInputs r (msgChunk q) c.1 ∨
          msgChunk q ∈ r.added ∨ msgElements q ≠ c.2.2 ∨ q.payload.length ≠ 4 * c.2.2)) = true →
        exec (.partial_ g q) s = .next { s with d := landed s.nv q d2 }) ∧
      (msgKind q = 1 → ((r.chunk (msgChunk q)).all fun c => decide (r.desc.op ≠ 0 ∨
          msgMember q ∉ (if r.tree then heapParent r.me else ringPrev r.size r.me) ∨ r.holds c.1 = true ∨
          msgChunk q ∈ r.results ∨ msgElements q ≠ c.2.2 ∨ q.payload.length ≠ 4 * c.2.2)) = true →
        exec (.result g q) s = .next { s with d := landed s.nv q d2 }) ∧
      (msgKind q = 3 → msgMember q ≠ r.coordinator → exec (.allReady g q) s = .next { s with d := landed s.nv q d2 }) ∧
      (msgKind q = 4 → msgMember q ≠ r.coordinator ∨ r.gateOpen = false →
        exec (.straggler g q) s = .next { s with d := landed s.nv q d2 }) ∧
      (msgKind q = 5 → r.desc.reduces = false ∨ q.payload.length ≠ 12 ∨
          (r.tree = true ∧ (msgChunk q ≠ 0 ∨ msgMember q ∉ heapParent r.me)) ∨
          (r.tree = false ∧ (msgChunk q = r.me ∨ r.size ≤ msgChunk q ∨ msgMember q ∉ ringPrev r.size r.me)) →
        exec (.record g q) s = .next { s with d := landed s.nv q d2 }) ∧
      (msgKind q = 6 → r.desc.normFinal = false ∨
          ((msgMember q ∉ heapChildren r.size r.me ∨ q.payload.length ≠ 8 ∨ r.size ≤ msgChunk q) ∧
            (msgMember q ∉ heapParent r.me ∨ q.payload.length ≠ 4)) →
        exec (.normTotal g q) s = .next { s with d := landed s.nv q d2 }) ∧
      (msgKind q = 7 → r.desc.op ≠ 6 ∨ r.size ≤ msgChunk q ∨ msgMember q ∉ heapParent r.me ++ heapChildren r.size r.me →
        exec (.digest g q) s = .next { s with d := landed s.nv q d2 }) ∧
      (msgKind q = 8 → r.desc.op ≠ 5 ∨ msgMember q ≠ permTo r r.me → exec (.grant g q) s = .next { s with d := landed s.nv q d2 }) ∧
      (msgKind q = 9 → msgMember q ∉ moveFrom r → exec (.arrival g q) s = .next { s with d := landed s.nv q d2 }) ∧
      (msgKind q = 9 → msgMember q ∈ moveFrom r → exec (.arrival g q) s = .next { s with
        d := landed s.nv q (msgWork s.nv r (collMod r.ctx.val r.tag (fun r => { r with
          arrivals := insAsc (msgMember q) r.arrivals }) d2)) })) ∧
    (∀ p ∈ ([(0, .partial_), (1, .result), (2, .ready), (3, .allReady), (4, .straggler), (5, .record), (6, .normTotal), (7, .digest), (8, .grant), (9, .arrival)] :
        List (Nat × (CageNo → StavaPacket → Instr))),
      (msgKind q ≠ p.1 → exec (p.2 g q) s = .next s) ∧
      (msgKind q = p.1 → (msgRuns d2 q).find? (fun r => fromMember r q) = none → exec (p.2 g q) s = .next { s with
        d := landed s.nv q (refuseSend s.nv q (if msgRuns d2 q = [] then stStale else stWindow)
          (collCnt (if msgRuns d2 q = [] then 3 else 4) d2)) })) ∧
    (msgKind q ≠ 10 → exec (.refuse g q) s = .next s) ∧
    (msgKind q = 10 → ((msgRuns d0 q).find? fun r => r.group.members.any fun m => decide (m.node = q.srcNode.toNat)) = none →
      exec (.refuse g q) s = .next { s with d := landed s.nv q (collCnt (if msgRuns d0 q = [] then 3 else 4) d0) }) ∧
    (∀ r, msgKind q = 10 → ((msgRuns d0 q).find? fun r => r.group.members.any fun m => decide (m.node = q.srcNode.toNat)) = some r →
      exec (.refuse g q) s = .next { s with
        d := landed s.nv q (collFail r.ctx.val r.tag (msgStatus q) d0) })

/-- A packet of the length its LEN names that an unfenced router receives is accepted exactly when the copy of its source
cluster's binding that its destination holds has its site and epoch and is not fenced, or it comes from a ring port with
epoch 0; any other is counted, with an event for the first in a millisecond, and alters nothing else; one cut to another
length, or for a site that is fenced or no router, changes nothing more. A dead cluster that no application or remap
holds up gives back its units and claim, the contexts whose state was lost fault or restart their block, and it binds to
the spare with the next epoch, or is fenced where none is left. The remap ends with the spare's state clear. -/
def Obligations.FabricPacketsAndRemap : Prop :=
  ∀ (s : State),
    (∀ h bs, headerFits h = true → bs.length + 16 = 64 * h.len.toNat → receives s.d h.dstSite.toNat = true →
      packetOk s.nv s.d h = true → exec (.packetReceive ⟨h, bs⟩) s = .next { s with
      d := { s.d with fabric := { s.d.fabric with accepted := true } } }) ∧
    (∀ h bs, headerFits h = true → bs.length + 16 = 64 * h.len.toNat → receives s.d h.dstSite.toNat = true →
      packetOk s.nv s.d h = false →
      ((s.d.fabric.dropAt.map fun t => decide (s.nv.up / 1000000 = t / 1000000)).getD false) = false → ∃ d1,
      d1 = fltCnt 6 { s.d with fabric := { s.d.fabric with accepted := false } } ∧
      exec (.packetReceive ⟨h, bs⟩) s = .next { s with
        d := raiseEv s.nv 0x22 none (pack [(0, 10, h.srcCluster.toNat), (10, 10, h.srcSite.toNat)]) (smGet d1.flt.cnt 0 6)
          { d1 with fabric := { d1.fabric with dropAt := some s.nv.up } } }) ∧
    (∀ h bs, headerFits h = true → bs.length + 16 = 64 * h.len.toNat → receives s.d h.dstSite.toNat = true →
      packetOk s.nv s.d h = false →
      ((s.d.fabric.dropAt.map fun t => decide (s.nv.up / 1000000 = t / 1000000)).getD false) = true →
      exec (.packetReceive ⟨h, bs⟩) s = .next { s with
        d := fltCnt 6 { s.d with fabric := { s.d.fabric with accepted := false } } }) ∧
    (∀ h bs, headerFits h = true → bs.length + 16 = 64 * h.len.toNat → receives s.d h.dstSite.toNat = false →
      exec (.packetReceive ⟨h, bs⟩) s = .next { s with d := { s.d with fabric := { s.d.fabric with accepted := false } } }) ∧
    (∀ h bs, headerFits h = false ∨ bs.length + 16 ≠ 64 * h.len.toNat → exec (.packetReceive ⟨h, bs⟩) s = .next s) ∧
    (∀ h, packetOk s.nv s.d h = true ↔
      ((h.srcCluster.toNat = 1023 ∧ ringSite h.srcSite.toNat = true ∧ h.epoch.toNat = 0) ∨
        (h.srcCluster.toNat < 768 ∧ h.srcSite.toNat = (copyGet s.nv s.d h.dstSite.toNat h.srcCluster.toNat).site ∧
          h.epoch.toNat = (copyGet s.nv s.d h.dstSite.toNat h.srcCluster.toNat).epoch ∧
          (copyGet s.nv s.d h.dstSite.toNat h.srcCluster.toNat).fenced = false))) ∧
    (∀ (k : CluNo) b d1, (cluGet s.d k.val).dead = true → (cluGet s.d k.val).remap = none → procUp s.d 2 = true →
      remapWaits s.d = false → b = bindGet s.nv s.d k.val →
      d1 = cluMod k.val (fun y => { y with
          dead := false, deliveries := [], mcWait := [], wtags := [], tags := y.tags.map fun t => { t with live := false } })
        (clearUnits k.val (abandonTest k.val s.d)) →
      (∀ site, spareFor s.nv d1 k.val = some site → ∃ d2,
        d2 = rebindGo k.val b ⟨site, (b.epoch + 1) % 256, true, false⟩
          (cluMod k.val (fun y => { y with remap := some (b.site, site, s.nv.up) })
            (stateLost s.nv k.val b.site site d1)) ∧
        exec (.clusterRemap k) s = .next { s with
          d := checkReplace s.nv { d2 with fabric := { d2.fabric with quarantined := insAsc b.site d2.fabric.quarantined } } }) ∧
      (spareFor s.nv d1 k.val = none → ∃ n, n < 1024 ∧ exec (.clusterRemap k) s = .next { s with
          d := checkReplace s.nv (rebindGo k.val b { b with fenced := true } (stateLost s.nv k.val b.site n (drawFresh 1 d1))) })) ∧
    (∀ (k : CluNo) m, (cluGet s.d k.val).remap = some m → boundAll s.nv s.d k.val = true → procUp s.d 2 = true →
      exec (.clusterRemapComplete k) s = .next { s with
        d := coresPut k.val Core.init (cluMod k.val (fun _ => { Cluster.init with
          resetTag := (cluGet s.d k.val).resetTag, reset := (cluGet s.d k.val).reset.map fun r => (r.1, r.1) })
          { s.d with fabric := { s.d.fabric with rebinds := smDel s.d.fabric.rebinds k.val } }) })

/-- An aligned 32-bit write goes to the doorbell, the head register or OWN_CLAIM by their own rights; any other from a port
that is not the owner's is discarded and counted; the owner's goes to PWR_REMOVE or to its register. A write of another
size or of an unaligned place changes nothing. A read of a low half of a split register by a port captures the upper
half as it is then, and the read of the high half returns the captured value and uses it up; a read of 1 or 2 bytes
returns those bytes of the register. -/
def Obligations.RegistersAreWrittenAndCaptured : Prop :=
  ∀ (s : State) (p : Port) (off size : Nat) (v : Word),
    (hostWrites s.nv s.d p = true → off % 4 = 0 →
      (∀ r, bellAt off = some r → exec (.registerWrite p off 4 v) s = .next { s with d := bellWrite p r v s.d }) ∧
      (∀ r, bellAt off = none → headAt off = some r → exec (.registerWrite p off 4 v) s = .next { s with
        d := headPut s.nv p r v s.d }) ∧
      (off = 0x10004 → exec (.registerWrite p off 4 v) s = .next { s with d := claimWrite s.nv p v s.d }) ∧
      (bellAt off = none → headAt off = none → off ≠ 0x10004 → isOwner s.d p = false →
        exec (.registerWrite p off 4 v) s = .next { s with d := denied s.d }) ∧
      (bellAt off = none → headAt off = none → off ≠ 0x10004 → isOwner s.d p = true → off ≠ 0xA00200 →
        exec (.registerWrite p off 4 v) s = .next { s with d := ownerPut s.nv p off v s.d }) ∧
      (off = 0xA00200 → isOwner s.d p = true → exec (.registerWrite p off 4 v) s = .next { s with
        nv := (removePut p v.toNat s.nv s.d).1
        d := (removePut p v.toNat s.nv s.d).2 })) ∧
    (hostWrites s.nv s.d p = false ∨ size ≠ 4 ∨ off % 4 ≠ 0 → exec (.registerWrite p off size v) s = .next s) ∧
    (∀ n, hostReads s.nv s.d p off = false ∨ (n ≠ 1 ∧ n ≠ 2 ∧ n ≠ 4) ∨ off % n ≠ 0 → exec (.capture (.inl p) ⟨off, n⟩) s = .next s) ∧
    (∀ (k : CluNo) (j : CoreNo) n,
      exec (.capture (.inr (k, j)) ⟨2, n⟩) s = .next { s with d := captureDrop (4 + k.val * 64 + j.val) 2 s.d } ∧
      (∀ a, a ≠ 1 → a ≠ 2 → exec (.capture (.inr (k, j)) ⟨a, n⟩) s = .next { s with d := loadCapture k.val j.val a s.d })) ∧
    (hostReads s.nv s.d p off = true → off % 4 = 0 → loRegister off = true → loRegister (off - 4) = false →
      exec (.capture (.inl p) ⟨off, 4⟩) s = .next { s with
        d := capturePut p.val (off + 4) (w32 (regVal s.nv s.d p.val (off + 4)))
          { s.d with rings := { s.d.rings with readValue := w32 (regVal s.nv s.d p.val off) } } }) ∧
    (hostReads s.nv s.d p off = true → off % 4 = 0 → 4 ≤ off → loRegister (off - 4) = true → loRegister off = false →
      exec (.capture (.inl p) ⟨off, 4⟩) s = .next { s with
        d := captureDrop p.val off { s.d with rings := { s.d.rings with
          readValue := captureGet p.val off (w32 (regVal s.nv s.d p.val off)) s.d } } }) ∧
    (∀ n e, hostReads s.nv s.d p off = true → n = 1 ∨ n = 2 ∨ n = 4 → off % n = 0 → e = hostReadReg s.nv p (off / 4 * 4) s.d →
      exec (.capture (.inl p) ⟨off, n⟩) s = .next { s with
        d := { e with rings := { e.rings with
          readValue := w32 (fld e.rings.readValue.toNat (8 * (off % 4)) (8 * n)) } } }) ∧
    (∀ (k : CluNo) (j : CoreNo), exec (.capture (.inr (k, j)) ⟨1, 4⟩) s = .next { s with
      d := capturePut (4 + k.val * 64 + j.val) 2 (w32 (cycleOf s.d k.val / 4294967296)) s.d })

/-- For every command c and state s, the step of s with c at the front of its queue is exec of c on s with the queue's rest.
On an empty queue the block's clock ticks, which is the model's choice (log entry 1). -/
def Obligations.StepRunsTheFrontCommand : Prop :=
  (∀ (c : Instr) (q : List Instr) (s : State), step { s with pending := c :: q } = exec c { s with pending := q }) ∧
    (∀ s : State, s.pending = [] → step s = .next (tick s))

/-- For every command and every state exec answers a next state, never a fault or a refusal, and the queue of the next state
is the one it was given. -/
def Obligations.EveryCommandAnswersAndLeavesTheQueue : Prop :=
  ∀ (c : Instr) (s : State), ∃ t, exec c s = .next t ∧ t.pending = s.pending

/-- In the state after reset no stack is retired, no cluster remapped, the ownership policy unchanged and the fuse log
empty, so each bank is within its size. The empty log is the model's choice (log entry 3). -/
def Obligations.FusesAtReset : Prop :=
  FuseBounds State.reset.nv ∧ State.reset.nv.retired = [] ∧ State.reset.nv.remaps = [] ∧ State.reset.nv.policyChanges = 0

/-- From every state whose fuse banks are within their sizes (4 retired stacks, 48 remaps, 8 policy changes, 256 log
records), every step leaves them so. Retired stacks, remaps and log records are only appended to, the anti-rollback
counter and the count of policy changes do not fall, and the factory fuses stay as they are, whatever the command: a
power loss, a chip reset or an activation among them. -/
def Obligations.FusesOnlyGrowWithinTheirBanks : Prop :=
  ∀ s t : State, FuseBounds s.nv → step s = .next t → FuseBounds t.nv ∧ FuseGrows s.nv t.nv

/-- For every core instruction that R185 to R187 and R191 allow, with every field at every value, the word that encodes it
decodes to it. In the other direction every word that decodes is the encoding of what it decodes to, so no bit of a
legal word is dropped and no two legal words mean the same, and what it decodes to is an allowed instruction. -/
def Obligations.CoreWordsAndInstructionsAgree : Prop :=
  (∀ i : CoreInstr, i.wf = true → decodeCore (encodeCore i) = some i) ∧
    (∀ (w : Word) (i : CoreInstr), decodeCore w = some i → i.wf = true ∧ encodeCore i = w)

/-- At every port and in every state CAP_UNITS reads 0x2018_FF03 on an L8-S module, 0x2018_0F03 on L4-S, 0x2018_FF00 on L8-N
and 0x2018_0F00 on L4-N, and its bits SKETCH and SORT are never present one without the other. -/
def Obligations.UnitCapabilitiesReadTheOptions : Prop :=
  ∀ (nv : NonVol) (d : Device) (p : Port),
    (nv.l4 = false → nv.specN = false → regVal nv d p.val 0x100 = 0x2018FF03) ∧
    (nv.l4 = true → nv.specN = false → regVal nv d p.val 0x100 = 0x20180F03) ∧
    (nv.l4 = false → nv.specN = true → regVal nv d p.val 0x100 = 0x2018FF00) ∧
    (nv.l4 = true → nv.specN = true → regVal nv d p.val 0x100 = 0x20180F00) ∧
    bit (regVal nv d p.val 0x100) 1 = bit (regVal nv d p.val 0x100) 0

/-- On an M24 module whose stacks are all in service, as at the first reset, CAP_MEMORY reads 0x3F3F_3F3F at every port; on
M32 it then reads 0xFFFF_FFFF. Whatever the option, the bit of a stack that is retired reads 0, and the bit of a stack
reads 1 exactly when the option populates it and it is not retired. -/
def Obligations.StackMaskFollowsOptionAndRetirement : Prop :=
  ∀ (nv : NonVol) (d : Device) (p : Port),
    (nv.m24 = true → nv.retired = [] → regVal nv d p.val 0x104 = 0x3F3F3F3F) ∧
    (nv.m24 = false → nv.retired = [] → regVal nv d p.val 0x104 = 0xFFFFFFFF) ∧
    ∀ m : Nat, m < 32 →
      (bit (regVal nv d p.val 0x104) m = true ↔ (nv.m24 = true → m % 8 < 6) ∧ m ∉ nv.retired)

/-- At every port and in every state, every offset of the DEV block other than those of DEV_IDENT, DEV_STEPPING, DEV_OPTION,
CAP_UNITS and CAP_MEMORY reads 0x0000_0000. -/
def Obligations.UnlistedDeviceOffsetsReadZero : Prop :=
  ∀ (nv : NonVol) (d : Device) (p : Port) (off : Nat), off < 0x10000 →
    off ≠ 0x0 → off ≠ 0x4 → off ≠ 0x8 → off ≠ 0x100 → off ≠ 0x104 → regVal nv d p.val off = 0

/-- In the state after reset, at every port and every offset of a word of the register space, the registers with a reset
value other than 0 read the value that their heading gives, OWN_STATE reads the number of the port in PORT, and every
other register and every reserved offset reads 0. The factory fuses are those of the fully fitted part, the model's
choice (log entry 3). -/
def Obligations.RegistersAfterReset : Prop :=
  ∀ (p : Port) (off : Nat), off < 0x1000000 → off % 4 = 0 →
    regVal State.reset.nv State.reset.d p.val off =
      ((([(0x0, 0x0C5D9600), (0x4, 0x00010101), (0x100, 0x2018FF03), (0x104, 0xFFFFFFFF), (0x10000, 0x100 * p.val),
        (0x10008, 0xF), (0x1000C, 0x7D0), (0x20008, 0x8), (0x20020, 0x3E8), (0x2002C, 0x1000), (0x100200, 0x2),
        (0x400000, 0x24A), (0x400004, 0x4), (0x400010, 0xFC000000), (0x400014, 0x17F), (0x400018, 0xFBFE0000),
        (0x40001C, 0x17F), (0x400024, 0x80000), (0x400100, 0xFFFFFFFF), (0x400104, 0x60000000), (0x400108, 0x1),
        (0x600008, 0x88B5), (0x600028, 0x50), (0x700000, 0x1388), (0x800000, 0xFBF80000), (0x800004, 0x17F),
        (0x800020, 0x6300), (0x800024, 0x18), (0xA00000, 0x8000), (0xA00010, 0x06400640), (0xA00014, 0x06400640),
        (0xA00018, 0x47E), (0xA00200, 0x1E0000), (0xA00204, 0x10)] : List (Nat × Nat)).find? (fun e => e.1 = off)).map
          (·.2)).getD 0

/-- For a stream that no SORT governs, the unit of row tile i, column tile j and part p is (i x NT + j) x P + p with
MEM_ORDER 0 and (j x MT + i) x P + p with MEM_ORDER 1; it is below the unit count, and its region is the rows of tile i,
the columns of tile j and the k-blocks of part p. Every output element and k-block lies in the region of exactly one
unit below the unit count. -/
def Obligations.UnitsCoverTheOutputOnce : Prop :=
  ∀ i : StreamInfo, i.gov = none → i.y = i.x → isRow i.y = false → i.y.memOrder < 2 → 0 < i.y.tm → 0 < i.y.tn →
    (∀ a b p, a < mtOf i.y → b < ntOf i.y → p < partsOf i.y → ∃ u,
      u = (if i.y.memOrder = 1 then b * mtOf i.y + a else a * ntOf i.y + b) * partsOf i.y + p ∧
      u < unitCount i.y none ∧
      unitRegion i u false false = ⟨a * i.y.tm, min i.y.tm (i.y.m - a * i.y.tm), b * i.y.tn, min i.y.tn (i.y.n - b * i.y.tn),
        p * kBlocks i.y / partsOf i.y, (p + 1) * kBlocks i.y / partsOf i.y - p * kBlocks i.y / partsOf i.y⟩) ∧
    (∀ r c q, r < i.y.m → c < i.y.n → q < kBlocks i.y → ∃ u, u < unitCount i.y none ∧ ∀ v, v < unitCount i.y none →
      (((unitRegion i v false false).r0 ≤ r ∧ r < (unitRegion i v false false).r0 + (unitRegion i v false false).nr ∧
        (unitRegion i v false false).c0 ≤ c ∧ c < (unitRegion i v false false).c0 + (unitRegion i v false false).nc ∧
        (unitRegion i v false false).b0 ≤ q ∧ q < (unitRegion i v false false).b0 + (unitRegion i v false false).nb) ↔ v = u))

/-- Element i of a row of any format is the b bits from bit b x i of the row read as one little-endian number, b being the
format's element width. An FP4 or INT4 row holds element 0 in the low nibble of its first byte, an FP6 row holds four
elements in every three bytes, and codes packed into a row are read back at their places. -/
def Obligations.RowElementsArePackedWithoutGaps : Prop :=
  (∀ (f i : Nat) (row : List Byte), fmtBits f * i + fmtBits f ≤ 8 * row.length →
      elemCode f (fun o => row.getD o 0) i = fld (ofBytes row) (fmtBits f * i) (fmtBits f)) ∧
    (∀ (f : Nat) (row : List Byte), fmtBits f = 4 → row ≠ [] →
      elemCode f (fun o => row.getD o 0) 0 = (row.getD 0 0).toNat % 16) ∧
    (∀ f n : Nat, fmtBits f = 6 → rowLen f (4 * n) = 3 * n ∨ fmtBlock f = true) ∧
    (∀ (f : Nat) (codes : List Nat) (i : Nat), i < codes.length →
      elemCode f (fun o => (packCodes (fmtBits f) codes).getD o 0) i = codes.getD i 0 % 2 ^ fmtBits f)

/-- A spare chosen for a cluster stands in the spare column of the cluster's half, is not withheld by a reset test or
quarantined, and is the site of no cluster. Among all the free spares of that half its row is the cluster's own or the
nearest to it, and of two equally near the lower row. No spare is chosen exactly when none of the half is free. -/
def Obligations.SparesAreFreeAndNearest : Prop :=
  ∀ (nv : NonVol) (d : Device) (k : CluNo),
    (∀ site, spareFor nv d k.val = some site →
      site % 34 = 16 + halfOf k.val ∧ site / 34 < 24 ∧ site ∉ d.fabric.withheld ∧ site ∉ d.fabric.quarantined ∧
      (∀ c : CluNo, (bindGet nv d c.val).site ≠ site) ∧
      ∀ other ∈ spareSites (halfOf k.val), spareFree nv d other = true → ∃ own a b : Int,
        own = ((bindGet nv d k.val).site / 34 : Nat) ∧ a = (site / 34 : Nat) ∧ b = (other / 34 : Nat) ∧
        ((a - own).natAbs < (b - own).natAbs ∨ ((a - own).natAbs = (b - own).natAbs ∧ a ≤ b))) ∧
    (spareFor nv d k.val = none ↔ ∀ site ∈ spareSites (halfOf k.val), spareFree nv d site = false)

/-- While a removal quiesces or has quiesced the module, an entry that passes the checks of right, version and format gets
STATE_MISMATCH when it is CTX_CREATE, SUBMIT, COLLECTIVE, IDLE_WINDOWS, SLICE_TABLE, RECLAIM, FRAME_APPLY or
FW_ACTIVATE. Every other entry gets the status that it gets in IDLE. -/
def Obligations.RemovalRefusesNewWork : Prop :=
  ∀ (nv : NonVol) (d : Device) (ring : Option CtxNo) (e : Nat),
    nv.removal = .quiescing ∨ nv.removal = .quiesced →
    (eOpcode e ∈ ([0x03, 0x40, 0x41, 0x42, 0x11, 0x10, 0x0A, 0x19] : List Nat) → stateStatus nv d ring e = 0x11 ∧
      ∀ port, (match ring with
          | none => isOwner d port
          | some c => decide (0x40 ≤ eOpcode e) && mayUse d port c.val) = true →
        d.fw.mode = .running → formatOk d ring e = true → entryStatus nv d ring port e = 0x11) ∧
    (eOpcode e ∉ ([0x03, 0x40, 0x41, 0x42, 0x11, 0x10, 0x0A, 0x19] : List Nat) →
      stateStatus nv d ring e = stateStatus { nv with removal := .idle } d ring e)

/-- A write of bytes at a range of device addresses that lies in one valid stripe set reads back byte for byte, in little-
endian order. Every address whose place is not one of the written ones reads as before, the code words not wholly
covered stay poisoned or not as they were, the sets do not change, and the memory's canonical form is kept. -/
def Obligations.MemoryReadsBackWhatWasWritten : Prop :=
  ∀ (m : Mem) (a : Nat) (bs : List Byte), dpaOk m a bs.length = true →
    (∀ s ∈ m.sets, s.mask < 2 ^ 32 ∧ (s.valid = true → s.base + s.size ≤ 24576)) →
    (∀ i, i < bs.length → dByte (dWrite a bs m) (a + i) = bs.getD i 0) ∧
    (∀ x, (∀ i, i < bs.length → physOf m (a + i) ≠ physOf m x) → dByte (dWrite a bs m) x = dByte m x) ∧
    (∀ w, w ∉ wholeWords m a bs.length → (w ∈ (dWrite a bs m).poison ↔ w ∈ m.poison)) ∧
    (dWrite a bs m).sets = m.sets ∧
    (Memory.wf m = true → Memory.wf (dWrite a bs m) = true)

/-- For a valid set, an offset below its capacity lies in the member of number L mod k of its line L, at BASE x 2 MiB + (L
div k) x 2,048 + (offset mod 2,048) in that stack and within the set's band; an offset at or beyond the capacity names
no memory; and two different offsets of the set never name the same place. -/
def Obligations.StripesPlaceEachOffsetOnce : Prop :=
  ∀ (m : Mem) (n : Nat) (s : StripeSet), n < 8 → setGet m n = s → s.valid = true → s.mask < 2 ^ 32 → s.mask ≠ 0 →
    s.base + s.size ≤ 24576 →
    (∀ o, o < 2 ^ 41 → (bitsOf 32 s.mask).length * s.size * 2 ^ 21 ≤ o → physOf m (n * 2 ^ 41 + o) = none) ∧
    (∀ o, o < 2 ^ 41 → o < (bitsOf 32 s.mask).length * s.size * 2 ^ 21 → ∃ stack x, stack < 32 ∧
      s.mask.testBit stack = true ∧
      ((List.range stack).filter s.mask.testBit).length = o / 2048 % (bitsOf 32 s.mask).length ∧
      x = s.base * 2 ^ 21 + o / 2048 / (bitsOf 32 s.mask).length * 2048 + o % 2048 ∧
      s.base * 2 ^ 21 ≤ x ∧ x < (s.base + s.size) * 2 ^ 21 ∧ physOf m (n * 2 ^ 41 + o) = some (stack * 2 ^ 36 + x)) ∧
    (∀ o o' x, o < 2 ^ 41 → o' < 2 ^ 41 → physOf m (n * 2 ^ 41 + o) = some x → physOf m (n * 2 ^ 41 + o') = some x → o = o')

/-- When a core issues a word of S-ALU, S-IMM, UPPER, BRANCH, JUMP or CSRW, the next state differs from the state at most in
that core. In it every scalar register but RD reads as before (every one under BRANCH and CSRW), register 0 reads 0,
FLAGS changes only under CSRW, and its vector registers, predicates, store, parcel, pending loads, barriers and accounts
stay as they are. Every byte of memory and of the Palettes, every other core, every context and every register of the
device reads as before. -/
def Obligations.ScalarInstructionsChangeOnlyTheirCore : Prop :=
  ∀ (s t : State) (k : CluNo) (j : CoreNo) (w : Word) (r : ParcelRun) (rd : BitVec 5) (row : CoreRow) (c : Instr),
    ((∃ op a b, CoreIssues s.d k.val j.val row w r (.alu op rd a b) ∧ row = .sAlu ∧ c = .sAlu k j w) ∨
      (∃ op a imm, CoreIssues s.d k.val j.val row w r (.imm op rd a imm) ∧ row = .sImm ∧ c = .sImm k j w) ∨
      (∃ imm, CoreIssues s.d k.val j.val row w r (.upper rd imm) ∧ row = .upper ∧ c = .upper k j w) ∨
      (∃ q a b off, CoreIssues s.d k.val j.val row w r (.branch q a b off) ∧ row = .branch ∧ rd = 0 ∧ c = .branch k j w) ∨
      (∃ a off, CoreIssues s.d k.val j.val row w r (.jump rd a off) ∧ row = .jump ∧ c = .jump k j w) ∨
      (∃ a n, CoreIssues s.d k.val j.val row w r (.csrw a n) ∧ row = .csrw ∧ rd = 0 ∧ c = .csrw k j w)) →
    exec c s = .next t →
    t = { s with d := { s.d with cores := t.d.cores } } ∧
    (∀ k' : CluNo, ∀ j' : CoreNo, (k' ≠ k ∨ j' ≠ j) → coreGet t.d k'.val j'.val = coreGet s.d k'.val j'.val) ∧
    (∀ q : BitVec 5, q ≠ rd → sReg (coreGet t.d k.val j.val) q = sReg (coreGet s.d k.val j.val) q) ∧
    sReg (coreGet t.d k.val j.val) 0 = 0 ∧
    (row ≠ .csrw → (coreGet t.d k.val j.val).flags = (coreGet s.d k.val j.val).flags) ∧
    coreGet t.d k.val j.val = { coreGet s.d k.val j.val with
      s := (coreGet t.d k.val j.val).s, pc := (coreGet t.d k.val j.val).pc, flags := (coreGet t.d k.val j.val).flags }

/-- When a core issues an aligned STORE whose bytes the core may write, the next state holds the low 1, 2 or 4 bytes of RS2
from the address of base plus offset on, in little-endian order, as every core of the cluster reads them. Every other
byte of the keep, the scratch, the stores and the Palette reads as before, external memory and the core's registers are
unchanged, and the pc goes to the next word. -/
def Obligations.StoresChangeOnlyTheirBytes : Prop :=
  ∀ (s t : State) (k : CluNo) (j : CoreNo) (w : Word) (r : ParcelRun) (op : StoreOp) (rs base : BitVec 5) (off : BitVec 15) (a : Nat),
    CoreIssues s.d k.val j.val .store w r (.store op rs base off) →
    a = addrOf (sReg (coreGet s.d k.val j.val) base) off.toInt →
    coreCheck s.d k.val a (storeBytes op) (storeBytes op) true = none →
    exec (.store k j w) s = .next t →
    (∀ i, i < storeBytes op → coreByte t.d k.val j.val (a + i) =
      BitVec.ofNat 8 ((sReg (coreGet s.d k.val j.val) rs).toNat / 256 ^ i)) ∧
    (∀ x, (coreRegion x = some .keep ∨ coreRegion x = some .scratch ∨ coreRegion x = some .stores ∨
        coreRegion x = some .palette) →
      (∀ i, i < storeBytes op → x ≠ a + i ∧ ¬ (x < 0x4000 ∧ a + i = 0x01000000 + j.val * 0x4000 + x) ∧
        ¬ (a + i < 0x4000 ∧ x = 0x01000000 + j.val * 0x4000 + (a + i))) → coreByte t.d k.val j.val x = coreByte s.d k.val j.val x) ∧
    t.d.mem = s.d.mem ∧ t.nv = s.nv ∧
    (∀ q : BitVec 5, sReg (coreGet t.d k.val j.val) q = sReg (coreGet s.d k.val j.val) q) ∧
    (coreGet t.d k.val j.val).pc = (coreGet s.d k.val j.val).pc + 4

/-- A correction by an error below -100 us steps the counter forward by the error at once. For an error of at most 100 us
either way the counter ends 100,000 nanoseconds per nanosecond of error later, corrected by the error; for an error
above 100 us it has lost the error after twice the error, running at half rate. No nanosecond and no SYNC edge after the
counter has been set takes it back. -/
def Obligations.SystemTimeIsCorrectedAndNeverRunsBackward : Prop :=
  (∀ t : Time, t.now ≤ (slewStep t).now ∧ (slewStep t).now ≤ t.now + 2) ∧
    (∀ (t : Time) (e : Int), e < -100000 → (correct e t).now = t.now + (-e).toNat ∧ (correct e t).slew = 0) ∧
    (∀ (t : Time) (e : Int), -100000 ≤ e → (correct e t).now = t.now) ∧
    (∀ (t : Time) (e : Int), -100000 ≤ e → e ≤ 100000 →
      ((Nat.repeat slewStep (100000 * e.natAbs) (correct e t)).now : Int) = t.now + 100000 * e.natAbs - e ∧
      (Nat.repeat slewStep (100000 * e.natAbs) (correct e t)).slew = 0) ∧
    (∀ (t : Time) (e : Nat), 100000 < e →
      (Nat.repeat slewStep (2 * e) (correct e t)).now = t.now + e ∧ (Nat.repeat slewStep (2 * e) (correct e t)).slew = 0) ∧
    (∀ s t : State, s.d.time.st ≠ .unset → ¬ (s.d.time.st = .locking ∧ s.d.time.fromUnset = true) →
      exec .syncEdge s = .next t → s.d.time.now ≤ t.d.time.now)

/-- For every scalar format, every code of its width, every rounding mode and every random value, writing the value of the
code in the same format gives the code again when the value is a number or an infinity, and the canonical NaN of the
format when it is a NaN. -/
def Obligations.ElementCodesRoundTrip : Prop :=
  ∀ f code mode r : Nat, f < 11 → code < 2 ^ fmtBits f → r < 65536 →
    encodeElem f mode r (decodeElem f code) = if decodeElem f code = .nan then nanCode f else code

/-- A magnitude m x 2^e is rounded to a multiple q of 2^l. What is exact stays. Otherwise q or q - 1 lies below the value
and the other above it: mode 0 takes the nearer, and the even one of two equally near; mode 1 the one toward zero; mode
2 the one toward plus infinity; mode 3 the one toward minus infinity; mode 4 the one away from zero exactly when the
random value is below the first 16 discarded bits. -/
def Obligations.RoundingPicksANeighbour : Prop :=
  ∀ (mode r m : Nat) (neg : Bool) (e l : Int) (q n : Nat), q = roundAt mode neg r m e l →
    (l ≤ e → q = m * 2 ^ (e - l).toNat) ∧
    (e < l → n = 2 ^ (l - e).toNat →
      (m % n = 0 → q * n = m) ∧ q * n < m + n ∧ m < q * n + n ∧
      (mode = 0 → 2 * (q * n - m) ≤ n ∧ 2 * (m - q * n) ≤ n ∧
        (2 * (q * n - m) = n ∨ 2 * (m - q * n) = n → q % 2 = 0)) ∧
      (mode = 1 → q * n ≤ m) ∧
      (mode = 2 → if neg then q * n ≤ m else m ≤ q * n) ∧
      (mode = 3 → if neg then m ≤ q * n else q * n ≤ m) ∧
      (mode = 4 → m % n ≠ 0 → (m < q * n ↔ r < m % n * 65536 / n)))

/-- A detection that names a bound or resident context takes it to TEARING and writes one record into the fault log, or
counts it as discarded where the log has no memory. Every further detection of that context in the resulting state
changes nothing but FLT_CNT 1. No other context changes its state. -/
def Obligations.FirstFaultOfAGenerationOnly : Prop :=
  ∀ (nv : NonVol) (c : CtxNo) (f : FaultAt) (d t : Device),
    (ctxGet d c.val).st = .bound ∨ (ctxGet d c.val).st = .resident → t = faultCtx nv c.val f d →
    (ctxGet t c.val).st = .tearing ∧
    (dpaOk d.mem (d.flt.log + 64 * (d.flt.head % 4096)) 64 = true → t.flt.head = (d.flt.head + 1) % 2 ^ 32) ∧
    (dpaOk d.mem (d.flt.log + 64 * (d.flt.head % 4096)) 64 = false → t.flt.head = d.flt.head) ∧
    (∀ (nv' : NonVol) (f' : FaultAt), faultCtx nv' c.val f' t =
      { t with flt := { t.flt with cnt := smPut t.flt.cnt 0 1 (min (smGet t.flt.cnt 0 1 + 1) (2 ^ 32 - 1)) } }) ∧
    (∀ c' : CtxNo, c' ≠ c → (ctxGet t c'.val).st = (ctxGet d c'.val).st)

/-- A record that finds room joins the end of its ring's queue. Then the oldest n waiting records leave in their order, one
slot each, and what is left is the rest of the queue; either the ring is not enabled, or has no released slot, or
nothing waits. A record that finds the queue full is discarded, and LOST counts it. -/
def Obligations.DeviceRecordsKeepTheirOrder : Prop :=
  ∀ (nv : NonVol) (k : Nat) (rec_ : Nat) (d : Device) (q : DevRing), k < 3 → (devRing d k).gap = 0 →
    q = devRing (pushRec nv k rec_ d) k →
    ((devRing d k).queue.length < queueCap k → ∃ n, n ≤ (devRing d k).queue.length + 1 ∧
      q.queue = ((devRing d k).queue ++ [rec_]).drop n ∧ q.tail % 2 ^ q.log2 = ((devRing d k).tail + n) % 2 ^ (devRing d k).log2 ∧
      q.log2 = (devRing d k).log2 ∧ q.head = (devRing d k).head ∧ q.base = (devRing d k).base ∧
      (q.queue = [] ∨ q.en = false ∨ ringRoom q.log2 q.tail q.head = false)) ∧
    (queueCap k ≤ (devRing d k).queue.length → (devRing d k).en = false →
      q.queue = (devRing d k).queue ∧ q.lost = min ((devRing d k).lost + 1) (2 ^ 32 - 1) ∧ q.tail = (devRing d k).tail)

/-- For a SORT whose tokens and choices fit their fields, the choices placed, dropped and bad together number T x TOPK. No
expert's count exceeds its room, every slot below an expert's count and no other is taken, and every token entry names a
slot whose entry names that token and that choice. -/
def Obligations.SorterListsAgree : Prop :=
  ∀ (s : SortDesc) (route : List Nat) (a : Placing), s.t ≤ 2 ^ 24 → s.topk ≤ 8 → s.topk ≤ s.cand → 0 < s.cap → 0 < s.rounds →
    a = placeAll s route →
    a.placed + a.dropped + a.bad = s.t * s.topk ∧
    (∀ e, smGet a.counts 0 e ≤ roomOf s) ∧
    (∀ e j, e < s.experts → j < sortQ s → ((smGet a.slots none (e * sortQ s + j)).isSome ↔ j < smGet a.counts 0 e)) ∧
    (∀ t r n, t < s.t → r < s.topk → smGet a.toks none (t * s.topk + r) = some n → ∃ v,
      smGet a.slots none n = some v ∧ fld v 0 24 = t ∧ fld v 24 3 = r)

/-- When the clock, the ceiling and the die cap of a half are 50 MHz steps from 400 to 1,600 MHz, GOVERNOR_STEP leaves the
clock such a step. It is 400 MHz in the safe state; otherwise it differs from the clock before by at most 50 MHz, rises
only to at most the ceiling of PWR_CLK, at most 1,000 MHz at the conservative point and only at 95 C or less, and falls
above 95 C unless it is at 400 MHz. Within 20 us of the last change nothing changes. -/
def Obligations.ClocksMoveOneStepWithinTheirCaps : Prop :=
  ∀ (s t : State) (h : HalfNo) (junction : Int) (dieW : Nat) (more : Bool) (now next : Nat), s.nv.mainOn = true →
    (∀ x ∈ ([smGet s.d.pwr.mhz 1600 h.val, smGet s.d.pwr.ceil 1600 h.val, smGet s.d.pwr.dieCap 1600 h.val] : List Nat),
      x % 50 = 0 ∧ 400 ≤ x ∧ x ≤ 1600) →
    exec (.governorStep h junction dieW more) s = .next t →
    now = smGet s.d.pwr.mhz 1600 h.val → next = smGet t.d.pwr.mhz 1600 h.val →
    (s.nv.up < smGet s.d.pwr.stepAt 0 h.val + 20000 → t = s) ∧
    (smGet s.d.pwr.stepAt 0 h.val + 20000 ≤ s.nv.up →
      next % 50 = 0 ∧ 400 ≤ next ∧ next ≤ 1600 ∧
      (s.d.pwr.safe = true → next = 400) ∧
      (s.d.pwr.safe = false → next ≤ now + 50 ∧ now ≤ next + 50 ∧
        (now < next → next ≤ smGet s.d.pwr.ceil 1600 h.val ∧ junction ≤ 950 ∧ (s.d.pwr.conservative = true → next ≤ 1000)) ∧
        (950 < junction → now ≠ 400 → next + 50 = now)))

/-- A 32-bit write of the owner's port to one of the plain RW registers TIME_SYNC_DELAY, FW_LOG_LEVEL, FW_TRACE_MASK,
PART_CTX_SEL, MEM_INVAL_CTX, MEM_INVAL_VA_LO, MEM_INVAL_VA_HI, MEM_INVAL_COUNT, LINK_ROUTE_IDX, LINK_ROUTE_DATA,
LINK_DELAY_MARK, COLL_CTX_SEL and FLT_FUSE_SEL reads back the written fields at that port, with 0 in the reserved bits. -/
def Obligations.PlainRegistersReadBackTheirFields : Prop :=
  ∀ (s t : State) (p : Port) (v : Word) (e : Nat × Word),
    e ∈ ([(0x20018, 0xFFFF), (0x100200, 0x3), (0x100204, 0xFFFF), (0x200400, 0xFF), (0x400040, 0x1FF), (0x400044, 0xFFE00000),
      (0x400048, 0xFFFFF), (0x40004C, 0xFFFFFFFF), (0x600020, 0x3FF), (0x600024, 0xFFFFFFFF), (0x600028, 0xFFFF),
      (0x700010, 0xFF), (0x800040, 0xFF)] : List (Nat × Word)) →
    hostWrites s.nv s.d p = true → isOwner s.d p = true → exec (.registerWrite p e.1 4 v) s = .next t →
    regVal t.nv t.d p.val e.1 = (v &&& e.2).toNat ∧ t.nv = s.nv

/-- For every command of a ring: where no taken entry of its opcode waits to begin under the tag (it was not taken, has
begun, carries another opcode, the scheduler is down, or a firmware activation holds context commands up), the command
changes nothing. Where one waits but the state it needs is gone, it completes with the status of that check and INDEX
0xFFFF, unless its context has left the live states: then its entry goes with the teardown and the command changes
nothing. -/
def Obligations.TakenCommandsBeginOnlyWhereTheyMay : Prop :=
  ∀ (s : State) (t : Nat),
    ∀ p ∈ ([(0x40, .submit), (0x40, .submitGateOpen), (0x41, .collective), (0x42, .idleWindows), (0x23, .escalate), (0x22,
      .testPackage), (0x21, .fuseWrite), (0x20, .stackRetire), (0x02, .version), (0x18, .fwStage), (0x19,
      .fwActivate), (0x08, .keyWrite), (0x09, .frameStage), (0x0A, .frameApply), (0x01, .identify), (0x03,
      .ctxCreate), (0x04, .ctxDestroy), (0x05, .ctxGrant), (0x0B, .handover), (0x0C, .fence), (0x43, .fenceContext),
      (0x06, .windowOpen), (0x07, .windowRevoke), (0x11, .sliceTable), (0x10, .reclaim)] :
        List (Nat × (Nat → Instr))),
      (freshTaken s.d p.1 t = none → exec (p.2 t) s = .next s) ∧
      (∀ x, freshTaken s.d p.1 t = some x → stateStatus s.nv s.d x.ring x.entry ≠ 0 →
        (x.ring = none ∨ (∃ c, x.ring = some c ∧ ctxLive s.d c.val = true) →
          exec (p.2 t) s = .next { s with d := complete s.nv t (stateStatus s.nv s.d x.ring x.entry) 0xFFFF 0 s.d }) ∧
        (∀ c, p.1 = 0x40 ∨ p.1 = 0x41 ∨ p.1 = 0x42 ∨ p.1 = 0x43 → x.ring = some c → ctxLive s.d c.val = false → exec (p.2 t) s = .next s))

/-- Before its time has passed, or out of the state it belongs to, each of these changes nothing: the timers of ownership,
acknowledgement, retransmission, suspension, idle flows, cages, notices, teardown, quiescence, resets and test runs; the
end of a drain, a teardown, a reclaim, a stage or an activation; a boundary, a bubble, a program's end, a hang, a boot,
a power cycle, and a host link without main power. So do the start, record and end of streams and checkpoints, the
claim, start, passes, drains and commit of units, combinations, copies, lists and moves, and the begin of departures,
arrivals and applications, where what each needs is not there. -/
def Obligations.EventsWaitForTheirCondition : Prop :=
  ∀ (s : State),
    (s.d.own.st ≠ .lost ∨ s.nv.up < s.d.own.lossFrom + s.d.own.lossMs * 1000000 → exec .lossTimeout s = .next s) ∧
    (s.d.own.st ≠ .handing ∨ s.nv.up < s.d.own.handFrom + 1000000000 → exec .handoverTimeout s = .next s) ∧
    (s.d.rings.admin.draining = false ∨ (∃ x ∈ s.d.rings.taken, x.ring = none) → exec .drainEnd s = .next s) ∧
    (∀ p : Port, s.nv.mainOn = false → exec (.hostLinkUp p) s = .next s) ∧
    (∀ n f, (∀ x, rxGet s.d n f = some x → x.unacked = 0 ∨ s.nv.up < x.oldest + 2000) →
      exec (.ackTimer n f) s = .next s) ∧
    (∀ n f seq, (∀ p, (txGet s.d n f).sent.find? (·.seq = seq) = some p → s.nv.up < p.lastAt + 20000) →
      exec (.retransmitTimeout n f seq) s = .next s) ∧
    (∀ n (g : CageNo), (∀ e, (s.d.link.suspended.find? fun e => decide (e.1 = n ∧ e.2.1 = g.val)) = some e → s.nv.up < e.2.2) →
      exec (.suspendExpiry n g) s = .next s) ∧
    (∀ n f, (∀ x, rxGet s.d n f = some x → s.nv.up < x.lastAt + 1000000) → exec (.flowIdleFree n f true) s = .next s) ∧
    (∀ n f, (txGet s.d n f).sent ≠ [] ∨ (txGet s.d n f).queue ≠ [] ∨ s.nv.up < (txGet s.d n f).lastAt + 1000000 →
      exec (.flowIdleFree n f false) s = .next s) ∧
    (∀ n f, ((s.d.link.tx.find? fun x => decide (x.node = n ∧ x.flow = f)).all fun x => !flowFailed s.nv s.d x) = true →
      exec (.flowFail n f) s = .next s) ∧
    (∀ g : CageNo, cageFitted s.nv g.val = false → exec (.presenceHeld g) s = .next s) ∧
    (∀ (g : CageNo) copper watts, (cageGet s.d g.val).st ≠ .present → exec (.moduleReady g copper watts) s = .next s) ∧
    (∀ g : CageNo, (cageGet s.d g.val).st ≠ .present ∨ s.nv.up < (cageGet s.d g.val).since + 5000000000 →
      exec (.cmisTimeout g) s = .next s) ∧
    (∀ g : CageNo, (cageGet s.d g.val).st ≠ .training → exec (.trainingDone g) s = .next s) ∧
    (∀ (g : CageNo) c, (cageGet s.d g.val).st ≠ .training ∨ s.nv.up < (cageGet s.d g.val).since + 2000000000 →
      exec (.trainingTimeout g c) s = .next s) ∧
    (∀ g : CageNo, (cageGet s.d g.val).st ≠ .down ∨ s.nv.up < (cageGet s.d g.val).since + 1000000000 →
      exec (.downTimeout g) s = .next s) ∧
    (∀ (g : CageNo) l, cageUp s.d g.val = false → exec (.linkLoss g l) s = .next s) ∧
    (∀ (g : CageNo) f, cageUp s.d g.val = false → exec (.frameReceive g f) s = .next s) ∧
    (∀ p : PartNo, (∀ t, (schedGet s.d p.val).notice = some t → s.d.time.now < t + 1000000) →
      exec (.noticeTimeout p) s = .next s) ∧
    (∀ p : PartNo, upcoming s.d p.val = none ∨ firmwareRuns s.d = false ∨ (schedGet s.d p.val).reclaim.isSome = true ∨
        applying s.d p.val = true ∨ s.d.time.now < (schedGet s.d p.val).boundary → exec (.sliceBoundary p) s = .next s) ∧
    (∀ p : PartNo, ((schedGet s.d p.val).reclaim.all fun r => decide (r.departing ≠ []) || !procUp s.d 2) = true →
      exec (.reclaimComplete p) s = .next s) ∧
    (∀ c : CtxNo, (ctxGet s.d c.val).st ≠ .tearing ∨ tearReady s.nv s.d c.val = false → exec (.teardownComplete c) s = .next s) ∧
    (∀ c : CtxNo, (ctxGet s.d c.val).st ≠ .tearing ∨ s.nv.up < (ctxGet s.d c.val).tearFrom + 200000 →
      exec (.teardownTimeout c) s = .next s) ∧
    (∀ c : CtxNo, (ctxGet s.d c.val).st ≠ .quiescing ∨ s.nv.up < quiesceEnd s.nv s.d c.val → exec (.quiescenceEnd c) s = .next s) ∧
    (∀ c : CtxNo, hung s.d c.val = none ∨ resident s.d c.val = false → exec (.hang c) s = .next s) ∧
    (∀ k : CluNo, (∀ r, (cluGet s.d k.val).reset = some r → s.nv.up < r.1 + 1000000 ∨ r.2 ≤ s.nv.up) →
      exec (.engineResetTimeout k) s = .next s) ∧
    (∀ p : PartNo, (∀ a, (schedGet s.d p.val).reset = some a → s.nv.up < a + 10000000) →
      exec (.partitionResetTimeout p) s = .next s) ∧
    (∀ cause passed, s.nv.mainOn = false ∨ (cause = 0 ∧ s.d.flt.resetDue = none) → exec (.chipReset cause passed) s = .next s) ∧
    (s.nv.mainOn = false ∨ (s.d.flt.cycleDue = false ∧ (bootLate s.nv s.d = false ∨ s.nv.pcycReq = true)) →
      exec .powerCycle s = .next s) ∧
    (s.nv.mainOn = false ∨ s.d.fw.mode ≠ .booting → exec .boot s = .next s) ∧
    (∀ k : CluNo, s.d.flt.pkg = none ∨ firmwareRuns s.d = false ∨ securityUp s.d = false → exec (.testRun k) s = .next s) ∧
    (∀ (k : CluNo) f, s.d.flt.pkg = none ∨ ((cluGet s.d k.val).test.all fun e => decide (s.nv.up < e)) = true →
      exec (.testRunEnd k f) s = .next s) ∧
    (∀ k : CluNo, testInterrupted s.d k.val = false → exec (.testRunAbandon k) s = .next s) ∧
    (∀ k : CluNo, (healthGet s.d 0 k.val).st ≠ .suspect → exec (.testStarved k) s = .next s) ∧
    (s.d.frames.staging = none ∨ securityUp s.d = false → exec .frameStageComplete s = .next s) ∧
    (s.d.fw.staging = none ∨ securityUp s.d = false → exec .fwStageComplete s = .next s) ∧
    (∀ f, s.d.fw.acting = none ∨ (f = none ∧ deviceQuiet s.d = false) → exec (.activationComplete f) s = .next s) ∧
    ((s.d.frames.apps.all fun a => a.frame.isNone) = true ∨ securityUp s.d = false → exec .applicationCommit s = .next s) ∧
    (∀ (c : CtxNo) i, ((ctxGet s.d c.val).bubbles[i]?.all fun b => decide (b.count ≤ b.next ∨ s.d.time.now < (bubbleSpan b b.next).1)) = true →
      exec (.bubbleStart c i) s = .next s) ∧
    (∀ c : CtxNo, ((ctxGet s.d c.val).prog.all fun (g : Prog) => !(progEnded g && ctxLive s.d c.val && procUp s.d 2)) = true →
      exec (.programComplete c) s = .next s) ∧
    (∀ (k : CluNo) (c : CtxNo), takesUnits s.nv s.d k.val = false ∨ resident s.d c.val = false ∨ wantsCores s.d k.val c.val = false ∨
        otherParcels s.d k.val c.val = true → exec (.coreContextChange k c) s = .next s) ∧
    (∀ k : CluNo, (cluGet s.d k.val).dead = false ∨ (cluGet s.d k.val).remap.isSome = true ∨ procUp s.d 2 = false ∨ remapWaits s.d = true →
      exec (.clusterRemap k) s = .next s) ∧
    (∀ k : CluNo, (cluGet s.d k.val).remap = none ∨ boundAll s.nv s.d k.val = false ∨ procUp s.d 2 = false →
      exec (.clusterRemapComplete k) s = .next s) ∧
    (∀ c : CtxNo, ((ctxGet s.d c.val).prog.all fun (g : Prog) => !mayDeal s.d c.val || g.stop.isSome || decide (8 ≤ g.runs.length) ||
        match (g.entries[g.next]? : Option Entry) with
        | some (.stream x _ _ _ _ gov) => !depMet g x.depKind x.depStream || !govDone g gov || (!x.passThrough &&
            (partCluster s.d (ctxGet s.d c.val).part.val x.home).all fun k => (freeSlot s.d k).isNone ||
              (usesSpill x && spillBusy g && (govCounts s.d c.val gov).toOption.isSome))
        | some (.sort y) => !depMet g y.depKind y.depStream ||
            (partCluster s.d (ctxGet s.d c.val).part.val y.home).all fun k => (freeSlot s.d k).isNone
        | _ => true) = true → exec (.streamStart c) s = .next s) ∧
    (∀ c : CtxNo, ((ctxGet s.d c.val).prog.all fun (g : Prog) => decide (g.runs ≠ []) || g.stop.isSome || !mayDeal s.d c.val ||
        match (g.entries[g.next]? : Option Entry) with
        | some (.marker m) => decide (m.kind ≠ 1)
        | _ => true) = true → exec (.checkpointBegin c) s = .next s) ∧
    (∀ c : CtxNo, ((ctxGet s.d c.val).prog.all fun (g : Prog) => decide (g.runs ≠ []) || g.stop.isSome || !mayDeal s.d c.val || g.block.isNone ||
        match (g.entries[g.next]? : Option Entry) with
        | some (.marker m) => decide (m.kind ≠ 2)
        | _ => true) = true → exec (.checkpointEnd c) s = .next s) ∧
    (∀ k : CluNo, (cluGet s.d k.val).claimed.isSome = true ∨ takesUnits s.nv s.d k.val = false ∨
        ((partOf s.d k.val).bind (lostCopy s.d) = none ∧ claimFrom s.d k.val = none) → exec (.unitClaim k) s = .next s) ∧
    (∀ (k : CluNo) d, predTry s.nv k.val claimPlace s.d = d → ((cluGet d k.val).claimed.all fun q => !takesUnits s.nv d k.val ||
        !mayDeal d q.ctx.val || !fitsOn d k.val q.ctx.val q.idx ||
        ((streamInfo d q.ctx.val q.idx).any fun i => !unitStartOk d k.val q.ctx i.x)) = true →
      exec (.unitStart k) s = .next { s with d := d }) ∧
    (∀ (k : CluNo) u, ((unitGet s.d k.val u).all fun _ => !unitOver s.d k.val u || unitWrites (cluGet s.d k.val) u ||
        unitOwes s.d k.val u) = true → exec (.unitCommit k u) s = .next s) ∧
    (∀ (k : CluNo) u d, predTry s.nv k.val u s.d = d → ((unitInfo d k.val u).all fun q =>
        ((unitPasses q.2 q.1 (countsOf d q.1.ctx.val q.1.idx))[q.1.pos]?).all fun p => !q.1.predRead ||
          (((unitBounds q.2 q.1 (trusted d q.1.ctx.val q.1.idx))[q.1.bpos]?).any fun b => decide (b.chunk < p.chunk)) ||
          ((passX q.2 (regionOf q.2 q.1) (countsOf d q.1.ctx.val q.1.idx) q.1.pred p ++
            passW q.2 (regionOf q.2 q.1) (countsOf d q.1.ctx.val q.1.idx) q.1.pred p ++
            (if q.1.pos = 0 then initWords q.2 q.1 else [])).any fun w => !q.1.have_.contains w) ||
          !hasRoom d k.val q.2 q.1 p) = true → exec (.pass k u) s = .next { s with d := d }) ∧
    (∀ (k : CluNo) u d, predTry s.nv k.val u s.d = d → ((unitInfo d k.val u).all fun q =>
        ((unitBounds q.2 q.1 (trusted d q.1.ctx.val q.1.idx))[q.1.bpos]?).all fun b => !q.1.predRead ||
          (((unitPasses q.2 q.1 (countsOf d q.1.ctx.val q.1.idx))[q.1.pos]?).any fun p => decide (p.chunk ≤ b.chunk)) ||
          ((boundX q.2 (regionOf q.2 q.1) (countsOf d q.1.ctx.val q.1.idx) b ++
            boundW q.2 (regionOf q.2 q.1) (countsOf d q.1.ctx.val q.1.idx) b).any fun w => !q.1.have_.contains w)) = true →
      exec (.boundPass k u) s = .next { s with d := d }) ∧
    (∀ (k : CluNo) u strip d, predTry s.nv k.val u s.d = d → unitInfo d k.val u = none →
      exec (.stripDrain k u strip) s = .next { s with d := d }) ∧
    (∀ (k : CluNo) u strip d r i, predTry s.nv k.val u s.d = d → unitInfo d k.val u = some (r, i) →
      (has i.x 5 = true → ((stripSet i (regionOf i r) strip).all fun z =>
        (stripNos (regionOf i r) z).any r.drained.contains || !r.predRead ||
        !((if r.moved then [] else initWords i r) ++ maskWords i r).all r.have_.contains ||
        !closedSet i (regionOf i r) r (countsOf d r.ctx.val r.idx) (trusted d r.ctx.val r.idx) z) = true) →
      (has i.x 5 = false → isRow i.x = true → (regionOf i r).nr ≤ strip ∨ r.drained.contains strip = true ∨
        (r.sent.contains strip = false ∧ ((List.range strip).all r.sent.contains = false ∨ (cluGet d k.val).coreCtx ≠ some r.ctx ∨
          (plainWords i r ((regionOf i r).r0 + strip) ++ maskWords i r).all r.have_.contains = false)) ∨
        (r.sent.contains strip = true ∧ ((List.range strip).all r.drained.contains = false ∨
          parcelOpen d k.val r (fun p => p.row == (regionOf i r).r0 + strip) = true))) →
      (has i.x 5 = false → isRow i.x = false → (regionOf i r).nr ≤ strip ∨ r.drained.contains strip = true ∨
        (exSource i.x = true ∧ (d.link.reads.any fun x => x.unit = some (k.val, u)) = true) ∨
        (plainWords i r ((regionOf i r).r0 + strip) ++ maskWords i r).all r.have_.contains = false) →
      exec (.stripDrain k u strip) s = .next { s with d := exchangeEnd s.nv k.val u d }) ∧
    (∀ (c : CtxNo) idx tile, ((runGet s.d c.val idx).all fun r => (streamInfo s.d c.val idx).all fun i =>
        !mayDeal s.d c.val || !takesUnits s.nv s.d r.home || !mayCombine s.d c.val idx tile r i ||
        (i.x.digest && (freeDigest s.d r.home).isNone) || (has i.x 6 && !coresServe s.d r.home c)) = true →
      exec (.partCombine c idx tile) s = .next s) ∧
    (∀ (c : CtxNo) idx tile, ((runGet s.d c.val idx).all fun r => (streamInfo s.d c.val idx).isNone ||
        !mayDeal s.d c.val || !r.staged.contains tile || r.copied.contains tile || decide (smGet r.copier 0 tile = 0) ||
        !takesUnits s.nv s.d (smGet r.copier 0 tile - 1)) = true → exec (.resultCopy c idx tile) s = .next s) ∧
    (∀ (c : CtxNo) idx, ((runGet s.d c.val idx).all fun r => (ctxGet s.d c.val).prog.isNone || (streamInfo s.d c.val idx).all fun i =>
        !resident s.d c.val || !has i.x 7 || r.recorded || !allCommitted s.d c.val r || decide (r.remoteStatus ≠ 0)) = true →
      exec (.recordSlotWrite c idx) s = .next s) ∧
    (∀ (c : CtxNo) idx, ((runGet s.d c.val idx).all fun r => (ctxGet s.d c.val).prog.isNone || !resident s.d c.val || r.saved.isSome ||
        (decide (r.remoteStatus = 0) && !entryOver s.d c.val r) || refusalOpen s.d c.val r) = true →
      exec (.streamComplete c idx) s = .next s) ∧
    (∀ (c : CtxNo) idx, ((runGet s.d c.val idx).all fun r => (sortInfo s.d c.val idx).all fun x =>
        r.ready || decide (x.op ≠ 0) || !mayDeal s.d c.val || outOfService s.d r.home) = true → exec (.listPhase c idx) s = .next s) ∧
    (∀ (c : CtxNo) idx, ((runGet s.d c.val idx).all fun r => (sortInfo s.d c.val idx).all fun x =>
        r.ready || !awaitsRows x || !resident s.d c.val) = true → exec (.receive c idx) s = .next s) ∧
    (∀ (k : CluNo) u, ((unitGet s.d k.val u).all fun r => (sortInfo s.d r.ctx.val r.idx).isNone || (runGet s.d r.ctx.val r.idx).all fun q =>
        r.moved || decide (q.remoteStatus ≠ 0)) = true → exec (.moveUnit k u) s = .next s) ∧
    (∀ (k : CluNo) u, (∀ r t, unitGet s.d k.val u = some r → (ctxGet s.d r.ctx.val).departing = some t → s.d.time.now <
        t + cdiv (tileBudget s.d (ctxGet s.d r.ctx.val).part.val * 1600000) (halfMhz s.d (halfOf k.val))) →
      exec (.departureAbandon k u) s = .next s) ∧
    (∀ c : CtxNo, (schedGet s.d (ctxGet s.d c.val).part.val).incoming.contains c.val = false ∨ (ctxGet s.d c.val).st ≠ .bound ∨
        ((residents s.d (ctxGet s.d c.val).part.val).all fun y => (ctxGet s.d y).departing.isNone) = false ∨ firmwareRuns s.d = false ∨
        maxResident s.d (ctxGet s.d c.val).part.val ≤ (residents s.d (ctxGet s.d c.val).part.val).length ∨
        ((schedGet s.d (ctxGet s.d c.val).part.val).notice ≠ none ∧ s.d.time.fallback = true ∧
          noticeSeen s.d (ctxGet s.d c.val).part.val = false) → exec (.contextArrival c) s = .next s) ∧
    (securityUp s.d = false ∨ nextApp s.d = none ∨ (∃ a f, nextApp s.d = some a ∧ s.d.frames.slots.getD a.slot none = some f ∧
        ((f.isPartial = false ∧ ((List.range 16).any fun p => (schedGet s.d p).reclaim.isSome) = true) ∨
          (f.isPartial = true ∧ ∃ x l, f.sections = x :: l ∧ (schedGet s.d x.number).reclaim.isSome = true))) →
      exec .frameApplicationStart s = .next s) ∧
    (s.d.fw.deferred = none ∨ s.d.pwr.emergency = true ∨ activationWaits s.d = true → exec .deferredActivationStart s = .next s)
end

