-- ==== Sys2Proof/Laws/Tables.lean ====
section
/-! SUPPORT. Sparse tables: what a read sees after a write, and the canonical form. -/

namespace Sys2Proof.Machine

variable {α : Type}

@[simp] theorem smGet_nil (d : α) (k : Nat) : smGet [] d k = d := rfl

theorem smGet_smDel_self (m : SMap α) (d : α) (k : Nat) : smGet (smDel m k) d k = d := by
  induction m with
  | nil => rfl
  | cons e t ih =>
    obtain ⟨k', v⟩ := e
    by_cases h : k' = k
    · simp [smDel, h, ih]
    · simp [smDel, h, smGet, ih]

theorem smGet_smDel_ne (m : SMap α) (d : α) {k q : Nat} (h : q ≠ k) : smGet (smDel m k) d q = smGet m d q := by
  induction m with
  | nil => rfl
  | cons e t ih =>
    obtain ⟨k', v⟩ := e
    by_cases h1 : k' = k
    · subst h1; simp [smDel, smGet, ih, Ne.symm h]
    · simp [smDel, h1, smGet, ih]

theorem smGet_smIns_self (m : SMap α) (d : α) (k : Nat) (v : α) : smGet (smIns m k v) d k = v := by
  induction m with
  | nil => simp [smIns, smGet]
  | cons e t ih =>
    obtain ⟨k', v'⟩ := e
    by_cases h : k' = k
    · simp [smIns, h, smGet]
    · by_cases h2 : k < k'
      · simp [smIns, h, h2, smGet]
      · simp [smIns, h, h2, smGet, ih]

theorem smGet_smIns_ne (m : SMap α) (d : α) {k q : Nat} (v : α) (h : q ≠ k) :
    smGet (smIns m k v) d q = smGet m d q := by
  induction m with
  | nil => simp [smIns, smGet, Ne.symm h]
  | cons e t ih =>
    obtain ⟨k', v'⟩ := e
    by_cases h1 : k' = k
    · subst h1; simp [smIns, smGet, Ne.symm h]
    · by_cases h2 : k < k'
      · simp [smIns, h1, h2, smGet, Ne.symm h]
      · simp [smIns, h1, h2, smGet, ih]

/-- A table read at the key just written gives what was written. -/
@[simp] theorem smGet_smPut_self [DecidableEq α] (m : SMap α) (d : α) (k : Nat) (v : α) :
    smGet (smPut m d k v) d k = v := by
  unfold smPut
  split
  · next h => rw [smGet_smDel_self, h]
  · exact smGet_smIns_self m d k v

/-- A write leaves every other key as it was. -/
theorem smGet_smPut_ne [DecidableEq α] (m : SMap α) (d : α) {k q : Nat} (v : α) (h : q ≠ k) :
    smGet (smPut m d k v) d q = smGet m d q := by
  unfold smPut
  split
  · exact smGet_smDel_ne m d h
  · exact smGet_smIns_ne m d v h

/-- Both laws of a write in one equation. -/
theorem smGet_smPut [DecidableEq α] (m : SMap α) (d : α) (k q : Nat) (v : α) :
    smGet (smPut m d k v) d q = if q = k then v else smGet m d q := by
  split
  · next h => subst h; exact smGet_smPut_self m d q v
  · next h => exact smGet_smPut_ne m d v h

@[simp] theorem smGet_smMod_self [DecidableEq α] (m : SMap α) (d : α) (k : Nat) (f : α → α) :
    smGet (smMod m d k f) d k = f (smGet m d k) := smGet_smPut_self m d k _

theorem smGet_smMod_ne [DecidableEq α] (m : SMap α) (d : α) {k q : Nat} (f : α → α) (h : q ≠ k) :
    smGet (smMod m d k f) d q = smGet m d q := smGet_smPut_ne m d _ h

/-! ### The canonical form -/

theorem smWfFrom_le [DecidableEq α] {d : α} {m : SMap α} {lo lo' : Nat} (h : smWfFrom d lo m = true) (hl : lo' ≤ lo) :
    smWfFrom d lo' m = true := by
  cases m with
  | nil => rfl
  | cons e t =>
    obtain ⟨k, v⟩ := e
    simp only [smWfFrom, Bool.and_eq_true, decide_eq_true_eq] at h ⊢
    exact ⟨⟨by omega, h.1.2⟩, h.2⟩

theorem smWfFrom_smDel [DecidableEq α] {d : α} (m : SMap α) (k : Nat) {lo : Nat} (h : smWfFrom d lo m = true) :
    smWfFrom d lo (smDel m k) = true := by
  induction m generalizing lo with
  | nil => rfl
  | cons e t ih =>
    obtain ⟨k', v⟩ := e
    simp only [smWfFrom, Bool.and_eq_true, decide_eq_true_eq] at h
    by_cases h1 : k' = k
    · simp only [smDel, h1, if_true]
      exact ih (smWfFrom_le h.2 (by omega))
    · simp only [smDel, h1, if_false, smWfFrom, Bool.and_eq_true, decide_eq_true_eq]
      exact ⟨h.1, ih h.2⟩

theorem smWfFrom_smIns [DecidableEq α] {d : α} (m : SMap α) (k : Nat) (v : α) {lo : Nat} (h : smWfFrom d lo m = true)
    (hk : lo ≤ k) (hv : v ≠ d) : smWfFrom d lo (smIns m k v) = true := by
  induction m generalizing lo with
  | nil => simp [smIns, smWfFrom, hk, hv]
  | cons e t ih =>
    obtain ⟨k', v'⟩ := e
    simp only [smWfFrom, Bool.and_eq_true, decide_eq_true_eq] at h
    by_cases h1 : k' = k
    · subst h1
      simp [smIns, smWfFrom, hk, hv, h.2]
    · by_cases h2 : k < k'
      · simp only [smIns, h1, h2, if_false, if_true, smWfFrom, Bool.and_eq_true, decide_eq_true_eq]
        exact ⟨⟨hk, hv⟩, ⟨by omega, h.1.2⟩, h.2⟩
      · simp only [smIns, h1, h2, if_false, smWfFrom, Bool.and_eq_true, decide_eq_true_eq]
        exact ⟨h.1, ih h.2 (by omega)⟩

/-- A write keeps the canonical form. -/
theorem smWf_smPut [DecidableEq α] {d : α} {m : SMap α} (k : Nat) (v : α) (h : smWf d m = true) :
    smWf d (smPut m d k v) = true := by
  unfold smPut
  split
  · exact smWfFrom_smDel m k h
  · next hv => exact smWfFrom_smIns m k v h (Nat.zero_le k) hv

theorem smWf_smMod [DecidableEq α] {d : α} {m : SMap α} (k : Nat) (f : α → α) (h : smWf d m = true) :
    smWf d (smMod m d k f) = true := smWf_smPut k _ h

theorem smWf_smDel [DecidableEq α] {d : α} {m : SMap α} (k : Nat) (h : smWf d m = true) : smWf d (smDel m k) = true :=
  smWfFrom_smDel m k h

theorem smWfFrom_filter [DecidableEq α] {d : α} (m : SMap α) (p : Nat × α → Bool) {lo : Nat} (h : smWfFrom d lo m = true) :
    smWfFrom d lo (m.filter p) = true := by
  induction m generalizing lo with
  | nil => rfl
  | cons e t ih =>
    obtain ⟨k, v⟩ := e
    simp only [smWfFrom, Bool.and_eq_true, decide_eq_true_eq] at h
    by_cases hp : p (k, v) = true
    · simp only [List.filter, hp, smWfFrom, Bool.and_eq_true, decide_eq_true_eq]
      exact ⟨h.1, ih h.2⟩
    · have hf : p (k, v) = false := by simpa using hp
      simp only [List.filter, hf]
      exact ih (smWfFrom_le h.2 (by omega))

/-- Taking entries out keeps the canonical form. -/
theorem smWf_filter [DecidableEq α] {d : α} {m : SMap α} (p : Nat × α → Bool) (h : smWf d m = true) :
    smWf d (m.filter p) = true := smWfFrom_filter m p h

theorem smGet_above [DecidableEq α] {d : α} (m : SMap α) {lo k : Nat} (h : smWfFrom d lo m = true) (hk : k < lo) :
    smGet m d k = d := by
  induction m generalizing lo with
  | nil => rfl
  | cons e t ih =>
    obtain ⟨k', v⟩ := e
    simp only [smWfFrom, Bool.and_eq_true, decide_eq_true_eq] at h
    have : k' ≠ k := by omega
    simp only [smGet, this, if_false]
    exact ih h.2 (by omega)

/-- Two tables in canonical form that read the same at every key are the same data. -/
theorem smWf_ext [DecidableEq α] {d : α} (m n : SMap α) {lo : Nat} (hm : smWfFrom d lo m = true) (hn : smWfFrom d lo n = true)
    (h : ∀ k, smGet m d k = smGet n d k) : m = n := by
  induction m generalizing n lo with
  | nil =>
    cases n with
    | nil => rfl
    | cons e t =>
      obtain ⟨k, v⟩ := e
      simp only [smWfFrom, Bool.and_eq_true, decide_eq_true_eq] at hn
      exact absurd (by simpa [smGet] using (h k).symm) hn.1.2
  | cons e t ih =>
    obtain ⟨k, v⟩ := e
    simp only [smWfFrom, Bool.and_eq_true, decide_eq_true_eq] at hm
    cases n with
    | nil => exact absurd (by simpa [smGet] using h k) hm.1.2
    | cons e' t' =>
      obtain ⟨k', v'⟩ := e'
      simp only [smWfFrom, Bool.and_eq_true, decide_eq_true_eq] at hn
      have hkk : k = k' := by
        rcases Nat.lt_trichotomy k k' with hl | hl | hl
        · have h1 := h k
          have h2 : k' ≠ k := by omega
          simp only [smGet, if_true, h2, if_false] at h1
          rw [smGet_above t' hn.2 (by omega)] at h1
          exact absurd h1 hm.1.2
        · exact hl
        · have h1 := h k'
          have h2 : k ≠ k' := by omega
          simp only [smGet, if_true, h2, if_false] at h1
          rw [smGet_above t hm.2 (by omega)] at h1
          exact absurd h1.symm hn.1.2
      subst hkk
      have hv : v = v' := by simpa [smGet] using h k
      subst hv
      congr 1
      refine ih t' hm.2 hn.2 fun q => ?_
      by_cases hq : k = q
      · subst hq
        rw [smGet_above t hm.2 (by omega), smGet_above t' hn.2 (by omega)]
      · have := h q
        simpa [smGet, hq] using this

end Sys2Proof.Machine
end

