-- ==== Sys2Proof/Laws/State.lean ====
section
/-! SUPPORT. State: what each named update leaves of the device's fields, and what it makes of the field it changes. -/

namespace Sys2Proof.Machine

variable (d : Device)

/-! ### The fields that an update does not change -/

@[simp] theorem ctxMod_own (c : Nat) (f : Ctx → Ctx) : (ctxMod c f d).own = d.own := rfl
@[simp] theorem ctxMod_rings (c : Nat) (f : Ctx → Ctx) : (ctxMod c f d).rings = d.rings := rfl
@[simp] theorem ctxMod_frames (c : Nat) (f : Ctx → Ctx) : (ctxMod c f d).frames = d.frames := rfl
@[simp] theorem ctxMod_mem (c : Nat) (f : Ctx → Ctx) : (ctxMod c f d).mem = d.mem := rfl
@[simp] theorem ctxMod_clus (c : Nat) (f : Ctx → Ctx) : (ctxMod c f d).clus = d.clus := rfl
@[simp] theorem ctxMod_cores (c : Nat) (f : Ctx → Ctx) : (ctxMod c f d).cores = d.cores := rfl
@[simp] theorem ctxMod_fabric (c : Nat) (f : Ctx → Ctx) : (ctxMod c f d).fabric = d.fabric := rfl
@[simp] theorem ctxMod_link (c : Nat) (f : Ctx → Ctx) : (ctxMod c f d).link = d.link := rfl
@[simp] theorem ctxMod_coll (c : Nat) (f : Ctx → Ctx) : (ctxMod c f d).coll = d.coll := rfl
@[simp] theorem ctxMod_sched (c : Nat) (f : Ctx → Ctx) : (ctxMod c f d).sched = d.sched := rfl
@[simp] theorem ctxMod_time (c : Nat) (f : Ctx → Ctx) : (ctxMod c f d).time = d.time := rfl
@[simp] theorem ctxMod_fw (c : Nat) (f : Ctx → Ctx) : (ctxMod c f d).fw = d.fw := rfl
@[simp] theorem ctxMod_flt (c : Nat) (f : Ctx → Ctx) : (ctxMod c f d).flt = d.flt := rfl
@[simp] theorem ctxMod_kept (c : Nat) (f : Ctx → Ctx) : (ctxMod c f d).kept = d.kept := rfl
@[simp] theorem ctxMod_pwr (c : Nat) (f : Ctx → Ctx) : (ctxMod c f d).pwr = d.pwr := rfl
@[simp] theorem ctxMod_fresh (c : Nat) (f : Ctx → Ctx) : (ctxMod c f d).fresh = d.fresh := rfl

@[simp] theorem cluMod_own (k : Nat) (f : Cluster → Cluster) : (cluMod k f d).own = d.own := rfl
@[simp] theorem cluMod_rings (k : Nat) (f : Cluster → Cluster) : (cluMod k f d).rings = d.rings := rfl
@[simp] theorem cluMod_ctxs (k : Nat) (f : Cluster → Cluster) : (cluMod k f d).ctxs = d.ctxs := rfl
@[simp] theorem cluMod_frames (k : Nat) (f : Cluster → Cluster) : (cluMod k f d).frames = d.frames := rfl
@[simp] theorem cluMod_mem (k : Nat) (f : Cluster → Cluster) : (cluMod k f d).mem = d.mem := rfl
@[simp] theorem cluMod_cores (k : Nat) (f : Cluster → Cluster) : (cluMod k f d).cores = d.cores := rfl
@[simp] theorem cluMod_fabric (k : Nat) (f : Cluster → Cluster) : (cluMod k f d).fabric = d.fabric := rfl
@[simp] theorem cluMod_link (k : Nat) (f : Cluster → Cluster) : (cluMod k f d).link = d.link := rfl
@[simp] theorem cluMod_coll (k : Nat) (f : Cluster → Cluster) : (cluMod k f d).coll = d.coll := rfl
@[simp] theorem cluMod_sched (k : Nat) (f : Cluster → Cluster) : (cluMod k f d).sched = d.sched := rfl
@[simp] theorem cluMod_time (k : Nat) (f : Cluster → Cluster) : (cluMod k f d).time = d.time := rfl
@[simp] theorem cluMod_fw (k : Nat) (f : Cluster → Cluster) : (cluMod k f d).fw = d.fw := rfl
@[simp] theorem cluMod_flt (k : Nat) (f : Cluster → Cluster) : (cluMod k f d).flt = d.flt := rfl
@[simp] theorem cluMod_kept (k : Nat) (f : Cluster → Cluster) : (cluMod k f d).kept = d.kept := rfl
@[simp] theorem cluMod_pwr (k : Nat) (f : Cluster → Cluster) : (cluMod k f d).pwr = d.pwr := rfl
@[simp] theorem cluMod_fresh (k : Nat) (f : Cluster → Cluster) : (cluMod k f d).fresh = d.fresh := rfl

@[simp] theorem coreMod_own (k j : Nat) (f : Core → Core) : (coreMod k j f d).own = d.own := rfl
@[simp] theorem coreMod_rings (k j : Nat) (f : Core → Core) : (coreMod k j f d).rings = d.rings := rfl
@[simp] theorem coreMod_ctxs (k j : Nat) (f : Core → Core) : (coreMod k j f d).ctxs = d.ctxs := rfl
@[simp] theorem coreMod_frames (k j : Nat) (f : Core → Core) : (coreMod k j f d).frames = d.frames := rfl
@[simp] theorem coreMod_mem (k j : Nat) (f : Core → Core) : (coreMod k j f d).mem = d.mem := rfl
@[simp] theorem coreMod_clus (k j : Nat) (f : Core → Core) : (coreMod k j f d).clus = d.clus := rfl
@[simp] theorem coreMod_fabric (k j : Nat) (f : Core → Core) : (coreMod k j f d).fabric = d.fabric := rfl
@[simp] theorem coreMod_link (k j : Nat) (f : Core → Core) : (coreMod k j f d).link = d.link := rfl
@[simp] theorem coreMod_coll (k j : Nat) (f : Core → Core) : (coreMod k j f d).coll = d.coll := rfl
@[simp] theorem coreMod_sched (k j : Nat) (f : Core → Core) : (coreMod k j f d).sched = d.sched := rfl
@[simp] theorem coreMod_time (k j : Nat) (f : Core → Core) : (coreMod k j f d).time = d.time := rfl
@[simp] theorem coreMod_fw (k j : Nat) (f : Core → Core) : (coreMod k j f d).fw = d.fw := rfl
@[simp] theorem coreMod_flt (k j : Nat) (f : Core → Core) : (coreMod k j f d).flt = d.flt := rfl
@[simp] theorem coreMod_kept (k j : Nat) (f : Core → Core) : (coreMod k j f d).kept = d.kept := rfl
@[simp] theorem coreMod_pwr (k j : Nat) (f : Core → Core) : (coreMod k j f d).pwr = d.pwr := rfl
@[simp] theorem coreMod_fresh (k j : Nat) (f : Core → Core) : (coreMod k j f d).fresh = d.fresh := rfl

@[simp] theorem unitMod_own (k u : Nat) (f : UnitRun → UnitRun) : (unitMod k u f d).own = d.own := rfl
@[simp] theorem unitMod_rings (k u : Nat) (f : UnitRun → UnitRun) : (unitMod k u f d).rings = d.rings := rfl
@[simp] theorem unitMod_ctxs (k u : Nat) (f : UnitRun → UnitRun) : (unitMod k u f d).ctxs = d.ctxs := rfl
@[simp] theorem unitMod_frames (k u : Nat) (f : UnitRun → UnitRun) : (unitMod k u f d).frames = d.frames := rfl
@[simp] theorem unitMod_mem (k u : Nat) (f : UnitRun → UnitRun) : (unitMod k u f d).mem = d.mem := rfl
@[simp] theorem unitMod_cores (k u : Nat) (f : UnitRun → UnitRun) : (unitMod k u f d).cores = d.cores := rfl
@[simp] theorem unitMod_fabric (k u : Nat) (f : UnitRun → UnitRun) : (unitMod k u f d).fabric = d.fabric := rfl
@[simp] theorem unitMod_link (k u : Nat) (f : UnitRun → UnitRun) : (unitMod k u f d).link = d.link := rfl
@[simp] theorem unitMod_coll (k u : Nat) (f : UnitRun → UnitRun) : (unitMod k u f d).coll = d.coll := rfl
@[simp] theorem unitMod_sched (k u : Nat) (f : UnitRun → UnitRun) : (unitMod k u f d).sched = d.sched := rfl
@[simp] theorem unitMod_time (k u : Nat) (f : UnitRun → UnitRun) : (unitMod k u f d).time = d.time := rfl
@[simp] theorem unitMod_fw (k u : Nat) (f : UnitRun → UnitRun) : (unitMod k u f d).fw = d.fw := rfl
@[simp] theorem unitMod_flt (k u : Nat) (f : UnitRun → UnitRun) : (unitMod k u f d).flt = d.flt := rfl
@[simp] theorem unitMod_kept (k u : Nat) (f : UnitRun → UnitRun) : (unitMod k u f d).kept = d.kept := rfl
@[simp] theorem unitMod_pwr (k u : Nat) (f : UnitRun → UnitRun) : (unitMod k u f d).pwr = d.pwr := rfl
@[simp] theorem unitMod_fresh (k u : Nat) (f : UnitRun → UnitRun) : (unitMod k u f d).fresh = d.fresh := rfl

@[simp] theorem schedMod_own (p : Nat) (f : PartSched → PartSched) : (schedMod p f d).own = d.own := rfl
@[simp] theorem schedMod_rings (p : Nat) (f : PartSched → PartSched) : (schedMod p f d).rings = d.rings := rfl
@[simp] theorem schedMod_ctxs (p : Nat) (f : PartSched → PartSched) : (schedMod p f d).ctxs = d.ctxs := rfl
@[simp] theorem schedMod_frames (p : Nat) (f : PartSched → PartSched) : (schedMod p f d).frames = d.frames := rfl
@[simp] theorem schedMod_mem (p : Nat) (f : PartSched → PartSched) : (schedMod p f d).mem = d.mem := rfl
@[simp] theorem schedMod_clus (p : Nat) (f : PartSched → PartSched) : (schedMod p f d).clus = d.clus := rfl
@[simp] theorem schedMod_cores (p : Nat) (f : PartSched → PartSched) : (schedMod p f d).cores = d.cores := rfl
@[simp] theorem schedMod_fabric (p : Nat) (f : PartSched → PartSched) : (schedMod p f d).fabric = d.fabric := rfl
@[simp] theorem schedMod_link (p : Nat) (f : PartSched → PartSched) : (schedMod p f d).link = d.link := rfl
@[simp] theorem schedMod_coll (p : Nat) (f : PartSched → PartSched) : (schedMod p f d).coll = d.coll := rfl
@[simp] theorem schedMod_time (p : Nat) (f : PartSched → PartSched) : (schedMod p f d).time = d.time := rfl
@[simp] theorem schedMod_fw (p : Nat) (f : PartSched → PartSched) : (schedMod p f d).fw = d.fw := rfl
@[simp] theorem schedMod_flt (p : Nat) (f : PartSched → PartSched) : (schedMod p f d).flt = d.flt := rfl
@[simp] theorem schedMod_kept (p : Nat) (f : PartSched → PartSched) : (schedMod p f d).kept = d.kept := rfl
@[simp] theorem schedMod_pwr (p : Nat) (f : PartSched → PartSched) : (schedMod p f d).pwr = d.pwr := rfl
@[simp] theorem schedMod_fresh (p : Nat) (f : PartSched → PartSched) : (schedMod p f d).fresh = d.fresh := rfl

@[simp] theorem cageMod_own (g : Nat) (f : Cage → Cage) : (cageMod g f d).own = d.own := rfl
@[simp] theorem cageMod_rings (g : Nat) (f : Cage → Cage) : (cageMod g f d).rings = d.rings := rfl
@[simp] theorem cageMod_ctxs (g : Nat) (f : Cage → Cage) : (cageMod g f d).ctxs = d.ctxs := rfl
@[simp] theorem cageMod_frames (g : Nat) (f : Cage → Cage) : (cageMod g f d).frames = d.frames := rfl
@[simp] theorem cageMod_mem (g : Nat) (f : Cage → Cage) : (cageMod g f d).mem = d.mem := rfl
@[simp] theorem cageMod_clus (g : Nat) (f : Cage → Cage) : (cageMod g f d).clus = d.clus := rfl
@[simp] theorem cageMod_cores (g : Nat) (f : Cage → Cage) : (cageMod g f d).cores = d.cores := rfl
@[simp] theorem cageMod_fabric (g : Nat) (f : Cage → Cage) : (cageMod g f d).fabric = d.fabric := rfl
@[simp] theorem cageMod_coll (g : Nat) (f : Cage → Cage) : (cageMod g f d).coll = d.coll := rfl
@[simp] theorem cageMod_sched (g : Nat) (f : Cage → Cage) : (cageMod g f d).sched = d.sched := rfl
@[simp] theorem cageMod_time (g : Nat) (f : Cage → Cage) : (cageMod g f d).time = d.time := rfl
@[simp] theorem cageMod_fw (g : Nat) (f : Cage → Cage) : (cageMod g f d).fw = d.fw := rfl
@[simp] theorem cageMod_flt (g : Nat) (f : Cage → Cage) : (cageMod g f d).flt = d.flt := rfl
@[simp] theorem cageMod_kept (g : Nat) (f : Cage → Cage) : (cageMod g f d).kept = d.kept := rfl
@[simp] theorem cageMod_pwr (g : Nat) (f : Cage → Cage) : (cageMod g f d).pwr = d.pwr := rfl
@[simp] theorem cageMod_fresh (g : Nat) (f : Cage → Cage) : (cageMod g f d).fresh = d.fresh := rfl

@[simp] theorem memMod_own (f : Mem → Mem) : (memMod f d).own = d.own := rfl
@[simp] theorem memMod_rings (f : Mem → Mem) : (memMod f d).rings = d.rings := rfl
@[simp] theorem memMod_ctxs (f : Mem → Mem) : (memMod f d).ctxs = d.ctxs := rfl
@[simp] theorem memMod_frames (f : Mem → Mem) : (memMod f d).frames = d.frames := rfl
@[simp] theorem memMod_clus (f : Mem → Mem) : (memMod f d).clus = d.clus := rfl
@[simp] theorem memMod_cores (f : Mem → Mem) : (memMod f d).cores = d.cores := rfl
@[simp] theorem memMod_fabric (f : Mem → Mem) : (memMod f d).fabric = d.fabric := rfl
@[simp] theorem memMod_link (f : Mem → Mem) : (memMod f d).link = d.link := rfl
@[simp] theorem memMod_coll (f : Mem → Mem) : (memMod f d).coll = d.coll := rfl
@[simp] theorem memMod_sched (f : Mem → Mem) : (memMod f d).sched = d.sched := rfl
@[simp] theorem memMod_time (f : Mem → Mem) : (memMod f d).time = d.time := rfl
@[simp] theorem memMod_fw (f : Mem → Mem) : (memMod f d).fw = d.fw := rfl
@[simp] theorem memMod_flt (f : Mem → Mem) : (memMod f d).flt = d.flt := rfl
@[simp] theorem memMod_kept (f : Mem → Mem) : (memMod f d).kept = d.kept := rfl
@[simp] theorem memMod_pwr (f : Mem → Mem) : (memMod f d).pwr = d.pwr := rfl
@[simp] theorem memMod_fresh (f : Mem → Mem) : (memMod f d).fresh = d.fresh := rfl

@[simp] theorem acctMod_own (c : Nat) (f : Acct → Acct) : (acctMod c f d).own = d.own := rfl
@[simp] theorem acctMod_rings (c : Nat) (f : Acct → Acct) : (acctMod c f d).rings = d.rings := rfl
@[simp] theorem acctMod_frames (c : Nat) (f : Acct → Acct) : (acctMod c f d).frames = d.frames := rfl
@[simp] theorem acctMod_mem (c : Nat) (f : Acct → Acct) : (acctMod c f d).mem = d.mem := rfl
@[simp] theorem acctMod_clus (c : Nat) (f : Acct → Acct) : (acctMod c f d).clus = d.clus := rfl
@[simp] theorem acctMod_cores (c : Nat) (f : Acct → Acct) : (acctMod c f d).cores = d.cores := rfl
@[simp] theorem acctMod_fabric (c : Nat) (f : Acct → Acct) : (acctMod c f d).fabric = d.fabric := rfl
@[simp] theorem acctMod_link (c : Nat) (f : Acct → Acct) : (acctMod c f d).link = d.link := rfl
@[simp] theorem acctMod_coll (c : Nat) (f : Acct → Acct) : (acctMod c f d).coll = d.coll := rfl
@[simp] theorem acctMod_sched (c : Nat) (f : Acct → Acct) : (acctMod c f d).sched = d.sched := rfl
@[simp] theorem acctMod_time (c : Nat) (f : Acct → Acct) : (acctMod c f d).time = d.time := rfl
@[simp] theorem acctMod_fw (c : Nat) (f : Acct → Acct) : (acctMod c f d).fw = d.fw := rfl
@[simp] theorem acctMod_flt (c : Nat) (f : Acct → Acct) : (acctMod c f d).flt = d.flt := rfl
@[simp] theorem acctMod_kept (c : Nat) (f : Acct → Acct) : (acctMod c f d).kept = d.kept := rfl
@[simp] theorem acctMod_pwr (c : Nat) (f : Acct → Acct) : (acctMod c f d).pwr = d.pwr := rfl
@[simp] theorem acctMod_fresh (c : Nat) (f : Acct → Acct) : (acctMod c f d).fresh = d.fresh := rfl

@[simp] theorem clusMap_own (f : Nat → Cluster → Cluster) : (clusMap f d).own = d.own := rfl
@[simp] theorem clusMap_rings (f : Nat → Cluster → Cluster) : (clusMap f d).rings = d.rings := rfl
@[simp] theorem clusMap_ctxs (f : Nat → Cluster → Cluster) : (clusMap f d).ctxs = d.ctxs := rfl
@[simp] theorem clusMap_frames (f : Nat → Cluster → Cluster) : (clusMap f d).frames = d.frames := rfl
@[simp] theorem clusMap_mem (f : Nat → Cluster → Cluster) : (clusMap f d).mem = d.mem := rfl
@[simp] theorem clusMap_cores (f : Nat → Cluster → Cluster) : (clusMap f d).cores = d.cores := rfl
@[simp] theorem clusMap_fabric (f : Nat → Cluster → Cluster) : (clusMap f d).fabric = d.fabric := rfl
@[simp] theorem clusMap_link (f : Nat → Cluster → Cluster) : (clusMap f d).link = d.link := rfl
@[simp] theorem clusMap_coll (f : Nat → Cluster → Cluster) : (clusMap f d).coll = d.coll := rfl
@[simp] theorem clusMap_sched (f : Nat → Cluster → Cluster) : (clusMap f d).sched = d.sched := rfl
@[simp] theorem clusMap_time (f : Nat → Cluster → Cluster) : (clusMap f d).time = d.time := rfl
@[simp] theorem clusMap_fw (f : Nat → Cluster → Cluster) : (clusMap f d).fw = d.fw := rfl
@[simp] theorem clusMap_flt (f : Nat → Cluster → Cluster) : (clusMap f d).flt = d.flt := rfl
@[simp] theorem clusMap_kept (f : Nat → Cluster → Cluster) : (clusMap f d).kept = d.kept := rfl
@[simp] theorem clusMap_pwr (f : Nat → Cluster → Cluster) : (clusMap f d).pwr = d.pwr := rfl
@[simp] theorem clusMap_fresh (f : Nat → Cluster → Cluster) : (clusMap f d).fresh = d.fresh := rfl

@[simp] theorem coresMap_own (f : Nat → Core → Core) : (coresMap f d).own = d.own := rfl
@[simp] theorem coresMap_rings (f : Nat → Core → Core) : (coresMap f d).rings = d.rings := rfl
@[simp] theorem coresMap_ctxs (f : Nat → Core → Core) : (coresMap f d).ctxs = d.ctxs := rfl
@[simp] theorem coresMap_frames (f : Nat → Core → Core) : (coresMap f d).frames = d.frames := rfl
@[simp] theorem coresMap_mem (f : Nat → Core → Core) : (coresMap f d).mem = d.mem := rfl
@[simp] theorem coresMap_clus (f : Nat → Core → Core) : (coresMap f d).clus = d.clus := rfl
@[simp] theorem coresMap_fabric (f : Nat → Core → Core) : (coresMap f d).fabric = d.fabric := rfl
@[simp] theorem coresMap_link (f : Nat → Core → Core) : (coresMap f d).link = d.link := rfl
@[simp] theorem coresMap_coll (f : Nat → Core → Core) : (coresMap f d).coll = d.coll := rfl
@[simp] theorem coresMap_sched (f : Nat → Core → Core) : (coresMap f d).sched = d.sched := rfl
@[simp] theorem coresMap_time (f : Nat → Core → Core) : (coresMap f d).time = d.time := rfl
@[simp] theorem coresMap_fw (f : Nat → Core → Core) : (coresMap f d).fw = d.fw := rfl
@[simp] theorem coresMap_flt (f : Nat → Core → Core) : (coresMap f d).flt = d.flt := rfl
@[simp] theorem coresMap_kept (f : Nat → Core → Core) : (coresMap f d).kept = d.kept := rfl
@[simp] theorem coresMap_pwr (f : Nat → Core → Core) : (coresMap f d).pwr = d.pwr := rfl
@[simp] theorem coresMap_fresh (f : Nat → Core → Core) : (coresMap f d).fresh = d.fresh := rfl

@[simp] theorem fltCnt_own (k : Nat) : (fltCnt k d).own = d.own := rfl
@[simp] theorem fltCnt_rings (k : Nat) : (fltCnt k d).rings = d.rings := rfl
@[simp] theorem fltCnt_ctxs (k : Nat) : (fltCnt k d).ctxs = d.ctxs := rfl
@[simp] theorem fltCnt_frames (k : Nat) : (fltCnt k d).frames = d.frames := rfl
@[simp] theorem fltCnt_mem (k : Nat) : (fltCnt k d).mem = d.mem := rfl
@[simp] theorem fltCnt_clus (k : Nat) : (fltCnt k d).clus = d.clus := rfl
@[simp] theorem fltCnt_cores (k : Nat) : (fltCnt k d).cores = d.cores := rfl
@[simp] theorem fltCnt_fabric (k : Nat) : (fltCnt k d).fabric = d.fabric := rfl
@[simp] theorem fltCnt_link (k : Nat) : (fltCnt k d).link = d.link := rfl
@[simp] theorem fltCnt_coll (k : Nat) : (fltCnt k d).coll = d.coll := rfl
@[simp] theorem fltCnt_sched (k : Nat) : (fltCnt k d).sched = d.sched := rfl
@[simp] theorem fltCnt_time (k : Nat) : (fltCnt k d).time = d.time := rfl
@[simp] theorem fltCnt_fw (k : Nat) : (fltCnt k d).fw = d.fw := rfl
@[simp] theorem fltCnt_kept (k : Nat) : (fltCnt k d).kept = d.kept := rfl
@[simp] theorem fltCnt_pwr (k : Nat) : (fltCnt k d).pwr = d.pwr := rfl
@[simp] theorem fltCnt_fresh (k : Nat) : (fltCnt k d).fresh = d.fresh := rfl

@[simp] theorem drawFresh_own (n : Nat) : (drawFresh n d).own = d.own := rfl
@[simp] theorem drawFresh_rings (n : Nat) : (drawFresh n d).rings = d.rings := rfl
@[simp] theorem drawFresh_ctxs (n : Nat) : (drawFresh n d).ctxs = d.ctxs := rfl
@[simp] theorem drawFresh_frames (n : Nat) : (drawFresh n d).frames = d.frames := rfl
@[simp] theorem drawFresh_mem (n : Nat) : (drawFresh n d).mem = d.mem := rfl
@[simp] theorem drawFresh_clus (n : Nat) : (drawFresh n d).clus = d.clus := rfl
@[simp] theorem drawFresh_cores (n : Nat) : (drawFresh n d).cores = d.cores := rfl
@[simp] theorem drawFresh_fabric (n : Nat) : (drawFresh n d).fabric = d.fabric := rfl
@[simp] theorem drawFresh_link (n : Nat) : (drawFresh n d).link = d.link := rfl
@[simp] theorem drawFresh_coll (n : Nat) : (drawFresh n d).coll = d.coll := rfl
@[simp] theorem drawFresh_sched (n : Nat) : (drawFresh n d).sched = d.sched := rfl
@[simp] theorem drawFresh_time (n : Nat) : (drawFresh n d).time = d.time := rfl
@[simp] theorem drawFresh_fw (n : Nat) : (drawFresh n d).fw = d.fw := rfl
@[simp] theorem drawFresh_flt (n : Nat) : (drawFresh n d).flt = d.flt := rfl
@[simp] theorem drawFresh_kept (n : Nat) : (drawFresh n d).kept = d.kept := rfl
@[simp] theorem drawFresh_pwr (n : Nat) : (drawFresh n d).pwr = d.pwr := rfl

@[simp] theorem denied_own : (denied d).own = d.own := rfl
@[simp] theorem denied_ctxs : (denied d).ctxs = d.ctxs := rfl
@[simp] theorem denied_frames : (denied d).frames = d.frames := rfl
@[simp] theorem denied_mem : (denied d).mem = d.mem := rfl
@[simp] theorem denied_clus : (denied d).clus = d.clus := rfl
@[simp] theorem denied_cores : (denied d).cores = d.cores := rfl
@[simp] theorem denied_fabric : (denied d).fabric = d.fabric := rfl
@[simp] theorem denied_link : (denied d).link = d.link := rfl
@[simp] theorem denied_coll : (denied d).coll = d.coll := rfl
@[simp] theorem denied_sched : (denied d).sched = d.sched := rfl
@[simp] theorem denied_time : (denied d).time = d.time := rfl
@[simp] theorem denied_fw : (denied d).fw = d.fw := rfl
@[simp] theorem denied_flt : (denied d).flt = d.flt := rfl
@[simp] theorem denied_kept : (denied d).kept = d.kept := rfl
@[simp] theorem denied_pwr : (denied d).pwr = d.pwr := rfl
@[simp] theorem denied_fresh : (denied d).fresh = d.fresh := rfl

@[simp] theorem healthMod_own (kind id : Nat) (f : UnitHealth → UnitHealth) : (healthMod kind id f d).own = d.own := rfl
@[simp] theorem healthMod_rings (kind id : Nat) (f : UnitHealth → UnitHealth) : (healthMod kind id f d).rings = d.rings := rfl
@[simp] theorem healthMod_ctxs (kind id : Nat) (f : UnitHealth → UnitHealth) : (healthMod kind id f d).ctxs = d.ctxs := rfl
@[simp] theorem healthMod_frames (kind id : Nat) (f : UnitHealth → UnitHealth) : (healthMod kind id f d).frames = d.frames := rfl
@[simp] theorem healthMod_mem (kind id : Nat) (f : UnitHealth → UnitHealth) : (healthMod kind id f d).mem = d.mem := rfl
@[simp] theorem healthMod_clus (kind id : Nat) (f : UnitHealth → UnitHealth) : (healthMod kind id f d).clus = d.clus := rfl
@[simp] theorem healthMod_cores (kind id : Nat) (f : UnitHealth → UnitHealth) : (healthMod kind id f d).cores = d.cores := rfl
@[simp] theorem healthMod_fabric (kind id : Nat) (f : UnitHealth → UnitHealth) : (healthMod kind id f d).fabric = d.fabric := rfl
@[simp] theorem healthMod_link (kind id : Nat) (f : UnitHealth → UnitHealth) : (healthMod kind id f d).link = d.link := rfl
@[simp] theorem healthMod_coll (kind id : Nat) (f : UnitHealth → UnitHealth) : (healthMod kind id f d).coll = d.coll := rfl
@[simp] theorem healthMod_sched (kind id : Nat) (f : UnitHealth → UnitHealth) : (healthMod kind id f d).sched = d.sched := rfl
@[simp] theorem healthMod_time (kind id : Nat) (f : UnitHealth → UnitHealth) : (healthMod kind id f d).time = d.time := rfl
@[simp] theorem healthMod_fw (kind id : Nat) (f : UnitHealth → UnitHealth) : (healthMod kind id f d).fw = d.fw := rfl
@[simp] theorem healthMod_kept (kind id : Nat) (f : UnitHealth → UnitHealth) : (healthMod kind id f d).kept = d.kept := rfl
@[simp] theorem healthMod_pwr (kind id : Nat) (f : UnitHealth → UnitHealth) : (healthMod kind id f d).pwr = d.pwr := rfl
@[simp] theorem healthMod_fresh (kind id : Nat) (f : UnitHealth → UnitHealth) : (healthMod kind id f d).fresh = d.fresh := rfl

@[simp] theorem charge_own (cls n c : Nat) : (charge cls n c d).own = d.own := rfl
@[simp] theorem charge_rings (cls n c : Nat) : (charge cls n c d).rings = d.rings := rfl
@[simp] theorem charge_frames (cls n c : Nat) : (charge cls n c d).frames = d.frames := rfl
@[simp] theorem charge_mem (cls n c : Nat) : (charge cls n c d).mem = d.mem := rfl
@[simp] theorem charge_clus (cls n c : Nat) : (charge cls n c d).clus = d.clus := rfl
@[simp] theorem charge_cores (cls n c : Nat) : (charge cls n c d).cores = d.cores := rfl
@[simp] theorem charge_fabric (cls n c : Nat) : (charge cls n c d).fabric = d.fabric := rfl
@[simp] theorem charge_link (cls n c : Nat) : (charge cls n c d).link = d.link := rfl
@[simp] theorem charge_coll (cls n c : Nat) : (charge cls n c d).coll = d.coll := rfl
@[simp] theorem charge_sched (cls n c : Nat) : (charge cls n c d).sched = d.sched := rfl
@[simp] theorem charge_fw (cls n c : Nat) : (charge cls n c d).fw = d.fw := rfl
@[simp] theorem charge_flt (cls n c : Nat) : (charge cls n c d).flt = d.flt := rfl
@[simp] theorem charge_kept (cls n c : Nat) : (charge cls n c d).kept = d.kept := rfl
@[simp] theorem charge_pwr (cls n c : Nat) : (charge cls n c d).pwr = d.pwr := rfl
@[simp] theorem charge_fresh (cls n c : Nat) : (charge cls n c d).fresh = d.fresh := rfl

@[simp] theorem rxPut_own (x : RxFlow) : (rxPut x d).own = d.own := rfl
@[simp] theorem rxPut_rings (x : RxFlow) : (rxPut x d).rings = d.rings := rfl
@[simp] theorem rxPut_ctxs (x : RxFlow) : (rxPut x d).ctxs = d.ctxs := rfl
@[simp] theorem rxPut_frames (x : RxFlow) : (rxPut x d).frames = d.frames := rfl
@[simp] theorem rxPut_mem (x : RxFlow) : (rxPut x d).mem = d.mem := rfl
@[simp] theorem rxPut_clus (x : RxFlow) : (rxPut x d).clus = d.clus := rfl
@[simp] theorem rxPut_cores (x : RxFlow) : (rxPut x d).cores = d.cores := rfl
@[simp] theorem rxPut_fabric (x : RxFlow) : (rxPut x d).fabric = d.fabric := rfl
@[simp] theorem rxPut_coll (x : RxFlow) : (rxPut x d).coll = d.coll := rfl
@[simp] theorem rxPut_sched (x : RxFlow) : (rxPut x d).sched = d.sched := rfl
@[simp] theorem rxPut_time (x : RxFlow) : (rxPut x d).time = d.time := rfl
@[simp] theorem rxPut_fw (x : RxFlow) : (rxPut x d).fw = d.fw := rfl
@[simp] theorem rxPut_flt (x : RxFlow) : (rxPut x d).flt = d.flt := rfl
@[simp] theorem rxPut_kept (x : RxFlow) : (rxPut x d).kept = d.kept := rfl
@[simp] theorem rxPut_pwr (x : RxFlow) : (rxPut x d).pwr = d.pwr := rfl
@[simp] theorem rxPut_fresh (x : RxFlow) : (rxPut x d).fresh = d.fresh := rfl

@[simp] theorem txPut_own (x : TxFlow) : (txPut x d).own = d.own := rfl
@[simp] theorem txPut_rings (x : TxFlow) : (txPut x d).rings = d.rings := rfl
@[simp] theorem txPut_ctxs (x : TxFlow) : (txPut x d).ctxs = d.ctxs := rfl
@[simp] theorem txPut_frames (x : TxFlow) : (txPut x d).frames = d.frames := rfl
@[simp] theorem txPut_mem (x : TxFlow) : (txPut x d).mem = d.mem := rfl
@[simp] theorem txPut_clus (x : TxFlow) : (txPut x d).clus = d.clus := rfl
@[simp] theorem txPut_cores (x : TxFlow) : (txPut x d).cores = d.cores := rfl
@[simp] theorem txPut_fabric (x : TxFlow) : (txPut x d).fabric = d.fabric := rfl
@[simp] theorem txPut_coll (x : TxFlow) : (txPut x d).coll = d.coll := rfl
@[simp] theorem txPut_sched (x : TxFlow) : (txPut x d).sched = d.sched := rfl
@[simp] theorem txPut_time (x : TxFlow) : (txPut x d).time = d.time := rfl
@[simp] theorem txPut_fw (x : TxFlow) : (txPut x d).fw = d.fw := rfl
@[simp] theorem txPut_flt (x : TxFlow) : (txPut x d).flt = d.flt := rfl
@[simp] theorem txPut_kept (x : TxFlow) : (txPut x d).kept = d.kept := rfl
@[simp] theorem txPut_pwr (x : TxFlow) : (txPut x d).pwr = d.pwr := rfl
@[simp] theorem txPut_fresh (x : TxFlow) : (txPut x d).fresh = d.fresh := rfl

@[simp] theorem collMod_own (c t : Nat) (f : CollRun → CollRun) : (collMod c t f d).own = d.own := rfl
@[simp] theorem collMod_rings (c t : Nat) (f : CollRun → CollRun) : (collMod c t f d).rings = d.rings := rfl
@[simp] theorem collMod_ctxs (c t : Nat) (f : CollRun → CollRun) : (collMod c t f d).ctxs = d.ctxs := rfl
@[simp] theorem collMod_frames (c t : Nat) (f : CollRun → CollRun) : (collMod c t f d).frames = d.frames := rfl
@[simp] theorem collMod_mem (c t : Nat) (f : CollRun → CollRun) : (collMod c t f d).mem = d.mem := rfl
@[simp] theorem collMod_clus (c t : Nat) (f : CollRun → CollRun) : (collMod c t f d).clus = d.clus := rfl
@[simp] theorem collMod_cores (c t : Nat) (f : CollRun → CollRun) : (collMod c t f d).cores = d.cores := rfl
@[simp] theorem collMod_fabric (c t : Nat) (f : CollRun → CollRun) : (collMod c t f d).fabric = d.fabric := rfl
@[simp] theorem collMod_link (c t : Nat) (f : CollRun → CollRun) : (collMod c t f d).link = d.link := rfl
@[simp] theorem collMod_sched (c t : Nat) (f : CollRun → CollRun) : (collMod c t f d).sched = d.sched := rfl
@[simp] theorem collMod_time (c t : Nat) (f : CollRun → CollRun) : (collMod c t f d).time = d.time := rfl
@[simp] theorem collMod_fw (c t : Nat) (f : CollRun → CollRun) : (collMod c t f d).fw = d.fw := rfl
@[simp] theorem collMod_flt (c t : Nat) (f : CollRun → CollRun) : (collMod c t f d).flt = d.flt := rfl
@[simp] theorem collMod_kept (c t : Nat) (f : CollRun → CollRun) : (collMod c t f d).kept = d.kept := rfl
@[simp] theorem collMod_pwr (c t : Nat) (f : CollRun → CollRun) : (collMod c t f d).pwr = d.pwr := rfl
@[simp] theorem collMod_fresh (c t : Nat) (f : CollRun → CollRun) : (collMod c t f d).fresh = d.fresh := rfl

@[simp] theorem arrayMod_own (k a : Nat) (f : ArraySt → ArraySt) : (arrayMod k a f d).own = d.own := rfl
@[simp] theorem arrayMod_rings (k a : Nat) (f : ArraySt → ArraySt) : (arrayMod k a f d).rings = d.rings := rfl
@[simp] theorem arrayMod_ctxs (k a : Nat) (f : ArraySt → ArraySt) : (arrayMod k a f d).ctxs = d.ctxs := rfl
@[simp] theorem arrayMod_frames (k a : Nat) (f : ArraySt → ArraySt) : (arrayMod k a f d).frames = d.frames := rfl
@[simp] theorem arrayMod_mem (k a : Nat) (f : ArraySt → ArraySt) : (arrayMod k a f d).mem = d.mem := rfl
@[simp] theorem arrayMod_cores (k a : Nat) (f : ArraySt → ArraySt) : (arrayMod k a f d).cores = d.cores := rfl
@[simp] theorem arrayMod_fabric (k a : Nat) (f : ArraySt → ArraySt) : (arrayMod k a f d).fabric = d.fabric := rfl
@[simp] theorem arrayMod_link (k a : Nat) (f : ArraySt → ArraySt) : (arrayMod k a f d).link = d.link := rfl
@[simp] theorem arrayMod_coll (k a : Nat) (f : ArraySt → ArraySt) : (arrayMod k a f d).coll = d.coll := rfl
@[simp] theorem arrayMod_sched (k a : Nat) (f : ArraySt → ArraySt) : (arrayMod k a f d).sched = d.sched := rfl
@[simp] theorem arrayMod_time (k a : Nat) (f : ArraySt → ArraySt) : (arrayMod k a f d).time = d.time := rfl
@[simp] theorem arrayMod_fw (k a : Nat) (f : ArraySt → ArraySt) : (arrayMod k a f d).fw = d.fw := rfl
@[simp] theorem arrayMod_flt (k a : Nat) (f : ArraySt → ArraySt) : (arrayMod k a f d).flt = d.flt := rfl
@[simp] theorem arrayMod_kept (k a : Nat) (f : ArraySt → ArraySt) : (arrayMod k a f d).kept = d.kept := rfl
@[simp] theorem arrayMod_pwr (k a : Nat) (f : ArraySt → ArraySt) : (arrayMod k a f d).pwr = d.pwr := rfl
@[simp] theorem arrayMod_fresh (k a : Nat) (f : ArraySt → ArraySt) : (arrayMod k a f d).fresh = d.fresh := rfl

@[simp] theorem progMod_own (c : Nat) (f : Prog → Prog) : (progMod c f d).own = d.own := rfl
@[simp] theorem progMod_rings (c : Nat) (f : Prog → Prog) : (progMod c f d).rings = d.rings := rfl
@[simp] theorem progMod_frames (c : Nat) (f : Prog → Prog) : (progMod c f d).frames = d.frames := rfl
@[simp] theorem progMod_mem (c : Nat) (f : Prog → Prog) : (progMod c f d).mem = d.mem := rfl
@[simp] theorem progMod_clus (c : Nat) (f : Prog → Prog) : (progMod c f d).clus = d.clus := rfl
@[simp] theorem progMod_cores (c : Nat) (f : Prog → Prog) : (progMod c f d).cores = d.cores := rfl
@[simp] theorem progMod_fabric (c : Nat) (f : Prog → Prog) : (progMod c f d).fabric = d.fabric := rfl
@[simp] theorem progMod_link (c : Nat) (f : Prog → Prog) : (progMod c f d).link = d.link := rfl
@[simp] theorem progMod_coll (c : Nat) (f : Prog → Prog) : (progMod c f d).coll = d.coll := rfl
@[simp] theorem progMod_sched (c : Nat) (f : Prog → Prog) : (progMod c f d).sched = d.sched := rfl
@[simp] theorem progMod_time (c : Nat) (f : Prog → Prog) : (progMod c f d).time = d.time := rfl
@[simp] theorem progMod_fw (c : Nat) (f : Prog → Prog) : (progMod c f d).fw = d.fw := rfl
@[simp] theorem progMod_flt (c : Nat) (f : Prog → Prog) : (progMod c f d).flt = d.flt := rfl
@[simp] theorem progMod_kept (c : Nat) (f : Prog → Prog) : (progMod c f d).kept = d.kept := rfl
@[simp] theorem progMod_pwr (c : Nat) (f : Prog → Prog) : (progMod c f d).pwr = d.pwr := rfl
@[simp] theorem progMod_fresh (c : Nat) (f : Prog → Prog) : (progMod c f d).fresh = d.fresh := rfl

@[simp] theorem runMod_own (c idx : Nat) (f : StreamRun → StreamRun) : (runMod c idx f d).own = d.own := rfl
@[simp] theorem runMod_rings (c idx : Nat) (f : StreamRun → StreamRun) : (runMod c idx f d).rings = d.rings := rfl
@[simp] theorem runMod_frames (c idx : Nat) (f : StreamRun → StreamRun) : (runMod c idx f d).frames = d.frames := rfl
@[simp] theorem runMod_mem (c idx : Nat) (f : StreamRun → StreamRun) : (runMod c idx f d).mem = d.mem := rfl
@[simp] theorem runMod_clus (c idx : Nat) (f : StreamRun → StreamRun) : (runMod c idx f d).clus = d.clus := rfl
@[simp] theorem runMod_cores (c idx : Nat) (f : StreamRun → StreamRun) : (runMod c idx f d).cores = d.cores := rfl
@[simp] theorem runMod_fabric (c idx : Nat) (f : StreamRun → StreamRun) : (runMod c idx f d).fabric = d.fabric := rfl
@[simp] theorem runMod_link (c idx : Nat) (f : StreamRun → StreamRun) : (runMod c idx f d).link = d.link := rfl
@[simp] theorem runMod_coll (c idx : Nat) (f : StreamRun → StreamRun) : (runMod c idx f d).coll = d.coll := rfl
@[simp] theorem runMod_sched (c idx : Nat) (f : StreamRun → StreamRun) : (runMod c idx f d).sched = d.sched := rfl
@[simp] theorem runMod_time (c idx : Nat) (f : StreamRun → StreamRun) : (runMod c idx f d).time = d.time := rfl
@[simp] theorem runMod_fw (c idx : Nat) (f : StreamRun → StreamRun) : (runMod c idx f d).fw = d.fw := rfl
@[simp] theorem runMod_flt (c idx : Nat) (f : StreamRun → StreamRun) : (runMod c idx f d).flt = d.flt := rfl
@[simp] theorem runMod_kept (c idx : Nat) (f : StreamRun → StreamRun) : (runMod c idx f d).kept = d.kept := rfl
@[simp] theorem runMod_pwr (c idx : Nat) (f : StreamRun → StreamRun) : (runMod c idx f d).pwr = d.pwr := rfl
@[simp] theorem runMod_fresh (c idx : Nat) (f : StreamRun → StreamRun) : (runMod c idx f d).fresh = d.fresh := rfl

/-! ### The field that it does -/

@[simp] theorem ctxMod_ctxs (c : Nat) (f : Ctx → Ctx) : (ctxMod c f d).ctxs = smMod d.ctxs Ctx.init c f := rfl
@[simp] theorem cluMod_clus (k : Nat) (f : Cluster → Cluster) : (cluMod k f d).clus = smMod d.clus Cluster.init k f := rfl
@[simp] theorem coreMod_cores (k j : Nat) (f : Core → Core) :
    (coreMod k j f d).cores = smMod d.cores Core.init (k * 64 + j) f := rfl
@[simp] theorem schedMod_sched (p : Nat) (f : PartSched → PartSched) :
    (schedMod p f d).sched = smMod d.sched PartSched.init p f := rfl
@[simp] theorem memMod_mem (f : Mem → Mem) : (memMod f d).mem = f d.mem := rfl
@[simp] theorem drawFresh_fresh (n : Nat) : (drawFresh n d).fresh = d.fresh + n := rfl

/-! ### Reads of the entry that was updated, and of every other -/

@[simp] theorem ctxGet_ctxMod_self (c : Nat) (f : Ctx → Ctx) : ctxGet (ctxMod c f d) c = f (ctxGet d c) :=
  smGet_smMod_self _ _ _ _
theorem ctxGet_ctxMod_ne {c q : Nat} (f : Ctx → Ctx) (h : q ≠ c) : ctxGet (ctxMod c f d) q = ctxGet d q :=
  smGet_smMod_ne _ _ _ h
@[simp] theorem cluGet_cluMod_self (k : Nat) (f : Cluster → Cluster) : cluGet (cluMod k f d) k = f (cluGet d k) :=
  smGet_smMod_self _ _ _ _
theorem cluGet_cluMod_ne {k q : Nat} (f : Cluster → Cluster) (h : q ≠ k) : cluGet (cluMod k f d) q = cluGet d q :=
  smGet_smMod_ne _ _ _ h
@[simp] theorem coreGet_coreMod_self (k j : Nat) (f : Core → Core) : coreGet (coreMod k j f d) k j = f (coreGet d k j) :=
  smGet_smMod_self _ _ _ _

/-- Two cores are two entries. -/
theorem coreGet_coreMod_ne {k j k' j' : Nat} (f : Core → Core) (hj : j < 64) (hj' : j' < 64) (h : k' ≠ k ∨ j' ≠ j) :
    coreGet (coreMod k j f d) k' j' = coreGet d k' j' :=
  smGet_smMod_ne _ _ _ (by omega)
@[simp] theorem schedGet_schedMod_self (p : Nat) (f : PartSched → PartSched) :
    schedGet (schedMod p f d) p = f (schedGet d p) := smGet_smMod_self _ _ _ _
@[simp] theorem cageGet_cageMod_self (g : Nat) (f : Cage → Cage) : cageGet (cageMod g f d) g = f (cageGet d g) :=
  smGet_smMod_self _ _ _ _

/-- A list in which `x` takes the place of the entries that `p` picks, or else stands at the end, has it as the first one picked. -/
theorem find_put {α : Type} (l : List α) (p : α → Bool) (x : α) (h : p x = true) :
    (if l.any p then l.map (fun y => if p y then x else y) else l ++ [x]).find? p = some x := by
  have miss (t : List α) (e : t.any p = false) : (t ++ [x]).find? p = some x := by
    rw [List.find?_append, List.find?_eq_none.mpr (by simpa using e)]
    simp [h]
  have hit (t : List α) (e : t.any p = true) : (t.map fun y => if p y then x else y).find? p = some x := by
    induction t with
    | nil => simp at e
    | cons y t ih =>
      rw [List.map_cons, List.find?_cons]
      cases hy : p y
      · rw [if_neg (by simp), hy]
        exact ih (by simpa [hy] using e)
      · rw [if_pos rfl, h]
  split
  · exact hit l ‹_›
  · exact miss l (by simpa using ‹¬ l.any p = true›)

@[simp] theorem rxGet_rxPut_self (x : RxFlow) : rxGet (rxPut x d) x.node x.flow = some x := by
  have := find_put d.link.rx (fun y => decide (y.node = x.node ∧ y.flow = x.flow)) x (by simp)
  simp only [decide_eq_true_eq] at this
  exact this

@[simp] theorem txGet_txPut_self (x : TxFlow) : txGet (txPut x d) x.node x.flow = x := by
  have := find_put d.link.tx (fun y => decide (y.node = x.node ∧ y.flow = x.flow)) x (by simp)
  simp only [decide_eq_true_eq] at this
  exact congrArg (·.getD (TxFlow.init x.node x.flow)) this

/-! ### Steps -/

/-- A meaning that acts on the device leaves the queue and what standby power keeps. -/
@[simp] theorem onDev_pending (f : NonVol → Device → Device) (s : State) : (onDev f s).pending = s.pending := rfl
@[simp] theorem onDev_nv (f : NonVol → Device → Device) (s : State) : (onDev f s).nv = s.nv := rfl
@[simp] theorem onDev_d (f : NonVol → Device → Device) (s : State) : (onDev f s).d = f s.nv s.d := rfl
@[simp] theorem onBoth_pending (f : NonVol → Device → NonVol × Device) (s : State) : (onBoth f s).pending = s.pending := rfl
@[simp] theorem onBoth_nv (f : NonVol → Device → NonVol × Device) (s : State) : (onBoth f s).nv = (f s.nv s.d).1 := rfl
@[simp] theorem onBoth_d (f : NonVol → Device → NonVol × Device) (s : State) : (onBoth f s).d = (f s.nv s.d).2 := rfl

/-! ### Register files of a core -/

@[simp] theorem sReg_zero (x : Core) : sReg x 0 = 0 := by simp [sReg]
@[simp] theorem sReg_sPut_self (r : BitVec 5) (v : Word) (x : Core) (h : r ≠ 0) : sReg (sPut r v x) r = v := by
  unfold sReg sPut
  rw [if_neg h, if_neg h]
  exact smGet_smPut_self _ _ _ _

/-- A write of a scalar register leaves every other; register 0 takes no write (R178). -/
theorem sReg_sPut_ne {r q : BitVec 5} (v : Word) (x : Core) (h : q ≠ r) : sReg (sPut r v x) q = sReg x q := by
  unfold sPut
  split
  · rfl
  · unfold sReg
    split
    · rfl
    · exact smGet_smPut_ne _ _ _ (fun e => h (BitVec.eq_of_toNat_eq e))

@[simp] theorem sReg_pcNext (q : BitVec 5) (x : Core) : sReg (pcNext x) q = sReg x q := rfl

end Sys2Proof.Machine
end

