-- ==== Sys2Proof/Laws/Cores.lean ====
section
/-! SUPPORT. The issue of a core's word: everything that it can do, one lemma, and the cases in which a core waits or faults. -/

namespace Sys2Proof.Machine

/-- Everything that the issue of a word can do: nothing (the core runs no parcel, waits, its word is another or its operands are not
there yet), a fault of its context, or the effect of its instruction. -/
theorem coreStep_cases (row : CoreRow) (act : CoreAct) (k j : Nat) (w : Word) (nv : NonVol) (d : Device) :
    coreStep row act k j w nv d = d ∨ (∃ e, coreStep row act k j w nv d = coreFault nv k j e d) ∨
      ∃ r i, CoreIssues d k j row w r i ∧ coreStep row act k j w nv d = act nv k j r.parcel.ctx i d := by
  unfold coreStep CoreIssues
  dsimp only
  split
  · exact .inl rfl
  · next r hr =>
    split
    · exact .inl rfl
    · next hw =>
      split
      · exact .inr (.inl ⟨_, rfl⟩)
      · next v hv =>
        split
        · exact .inl rfl
        · next hrow =>
          simp only [not_or, ne_eq, not_not] at hrow hw
          split
          · exact .inr (.inl ⟨_, rfl⟩)
          · next i hi =>
            split
            · next ho => exact .inr (.inr ⟨r, i, ⟨hr, hw, by rw [hv, hrow.1], hrow.2, hi, ho⟩, rfl⟩)
            · exact .inl rfl

/-- A core that issues a word of a row has the effect of its instruction. -/
theorem coreStep_issues {row : CoreRow} {act : CoreAct} {k j : Nat} {w : Word} {nv : NonVol} {d : Device} {r : ParcelRun}
    {i : CoreInstr} (h : CoreIssues d k j row w r i) : coreStep row act k j w nv d = act nv k j r.parcel.ctx i d := by
  obtain ⟨h1, h2, h3, h4, h5, h6⟩ := h
  simp [coreStep, h1, h2, h3, h4, h5, h6]

/-- A core without a parcel issues nothing. -/
theorem coreStep_idle {row : CoreRow} {act : CoreAct} {k j : Nat} {w : Word} {nv : NonVol} {d : Device}
    (h : (coreGet d k j).run = none) : coreStep row act k j w nv d = d := by simp [coreStep, h]

/-- An illegal word faults the context (R186). -/
theorem coreStep_illegal {row : CoreRow} {act : CoreAct} {k j : Nat} {w : Word} {nv : NonVol} {d : Device} {r : ParcelRun}
    (h1 : (coreGet d k j).run = some r) (h2 : (coreGet d k j).wait = .none)
    (h3 : fetchWord d k (coreGet d k j) = .ok w) (h4 : coreRow w = row) (h5 : decodeCore w = none) :
    coreStep row act k j w nv d = coreFault nv k j ⟨1, 0, w.toNat⟩ d := by
  simp [coreStep, h1, h2, h3, h4, h5]

/-- The step to the next word changes the core's entry only. -/
theorem coreNext_core (k j : Nat) (f : Core → Core) (d : Device) : coreGet (coreNext k j f d) k j = pcNext (f (coreGet d k j)) :=
  coreGet_coreMod_self d k j _

end Sys2Proof.Machine
end

