-- ==== Sys2Proof/Laws/Memory.lean ====
section
/-! SUPPORT. External memory: every operation keeps the canonical form and the stripe sets, and what a byte reads after a write. -/

namespace Sys2Proof.Machine

/-! ### The sets stay, so places stay -/

theorem physOf_congr {m n : Mem} (h : n.sets = m.sets) (a : Nat) : physOf n a = physOf m a := by
  unfold physOf setGet; rw [h]

@[simp] theorem dPut_sets (a : Nat) (b : Byte) (m : Mem) : (dPut a b m).sets = m.sets := by unfold dPut; split <;> rfl
@[simp] theorem dPut_poison (a : Nat) (b : Byte) (m : Mem) : (dPut a b m).poison = m.poison := by unfold dPut; split <;> rfl

@[simp] theorem dPuts_sets (a : Nat) (bs : List Byte) (m : Mem) : (dPuts a bs m).sets = m.sets := by
  induction bs generalizing a m with
  | nil => rfl
  | cons b t ih => simp [dPuts, ih]

@[simp] theorem dWrite_sets (a : Nat) (bs : List Byte) (m : Mem) : (dWrite a bs m).sets = m.sets := by simp [dWrite]

@[simp] theorem spanWrite_sets (ps : List (Nat × Nat)) (bs : List Byte) (m : Mem) : (spanWrite ps bs m).sets = m.sets := by
  induction ps generalizing bs m with
  | nil => rfl
  | cons p t ih => simp [spanWrite, ih]

@[simp] theorem physOf_dPut (a : Nat) (b : Byte) (m : Mem) (x : Nat) : physOf (dPut a b m) x = physOf m x :=
  physOf_congr (dPut_sets a b m) x
@[simp] theorem physOf_dPuts (a : Nat) (bs : List Byte) (m : Mem) (x : Nat) : physOf (dPuts a bs m) x = physOf m x :=
  physOf_congr (dPuts_sets a bs m) x
@[simp] theorem physOf_dWrite (a : Nat) (bs : List Byte) (m : Mem) (x : Nat) : physOf (dWrite a bs m) x = physOf m x :=
  physOf_congr (dWrite_sets a bs m) x

/-! ### The canonical form -/

theorem Memory.wf_dPut (a : Nat) (b : Byte) (m : Mem) (h : Memory.wf m = true) : Memory.wf (dPut a b m) = true := by
  unfold dPut
  split
  · exact smWf_smPut _ _ h
  · exact h

theorem Memory.wf_dPuts (a : Nat) (bs : List Byte) (m : Mem) (h : Memory.wf m = true) : Memory.wf (dPuts a bs m) = true := by
  induction bs generalizing a m with
  | nil => exact h
  | cons b t ih => exact ih _ _ (Memory.wf_dPut a b m h)

theorem Memory.wf_dWrite (a : Nat) (bs : List Byte) (m : Mem) (h : Memory.wf m = true) : Memory.wf (dWrite a bs m) = true :=
  Memory.wf_dPuts a bs m h

theorem Memory.wf_dClear (a len : Nat) (m : Mem) (h : Memory.wf m = true) : Memory.wf (dClear a len m) = true :=
  smWf_filter _ h

theorem Memory.wf_spanWrite (ps : List (Nat × Nat)) (bs : List Byte) (m : Mem) (h : Memory.wf m = true) :
    Memory.wf (spanWrite ps bs m) = true := by
  induction ps generalizing bs m with
  | nil => exact h
  | cons p t ih => exact ih _ _ (Memory.wf_dWrite _ _ m h)

theorem Memory.wf_vWrite {root va : Nat} {bs : List Byte} {m n : Mem} (hw : vWrite m root va bs = .ok n)
    (h : Memory.wf m = true) : Memory.wf n = true := by
  unfold vWrite at hw
  cases hs : vSpan m root true va bs.length with
  | error e => rw [hs] at hw; cases hw
  | ok ps => rw [hs] at hw; cases hw; exact Memory.wf_spanWrite _ _ _ h

/-- Reset memory lists nothing. -/
theorem Memory.wf_reset : Memory.wf State.reset.d.mem = true := rfl

/-! ### Reads after a write -/

/-- A byte written at an address that names a place is read back at every address of that place. -/
theorem dByte_dPut_self {a x p : Nat} (b : Byte) (m : Mem) (ha : physOf m a = some p) (hx : physOf m x = some p) :
    dByte (dPut a b m) x = b := by
  unfold dByte
  rw [physOf_dPut, hx]
  unfold dPut
  rw [ha]
  exact smGet_smPut_self _ _ _ _

/-- A byte whose place is another reads as before. -/
theorem dByte_dPut_ne {a x : Nat} (b : Byte) (m : Mem) (h : physOf m a ≠ physOf m x) : dByte (dPut a b m) x = dByte m x := by
  unfold dByte
  rw [physOf_dPut]
  cases hx : physOf m x with
  | none => rfl
  | some p =>
    unfold dPut
    cases ha : physOf m a with
    | none => rfl
    | some q => exact smGet_smPut_ne _ _ _ (fun e => h (by rw [ha, hx, e]))

theorem dByte_dPuts_ne {a x : Nat} (bs : List Byte) (m : Mem) (h : ∀ i, i < bs.length → physOf m (a + i) ≠ physOf m x) :
    dByte (dPuts a bs m) x = dByte m x := by
  induction bs generalizing a m with
  | nil => rfl
  | cons b t ih =>
    have h0 := h 0 (by simp)
    rw [dPuts, ih (dPut a b m) (fun i hi => ?_), dByte_dPut_ne b m (by simpa using h0)]
    have := h (i + 1) (by simp; omega)
    simpa [Nat.add_assoc, Nat.add_comm 1 i] using this

/-- A write of bytes leaves every byte whose place it does not name. -/
theorem dByte_dWrite_ne {a x : Nat} (bs : List Byte) (m : Mem) (h : ∀ i, i < bs.length → physOf m (a + i) ≠ physOf m x) :
    dByte (dWrite a bs m) x = dByte m x := by
  rw [← dByte_dPuts_ne bs m h]
  rfl

/-- Bytes written at addresses of different places are read back. -/
theorem dByte_dPuts {a : Nat} (bs : List Byte) (m : Mem) (hp : ∀ i, i < bs.length → (physOf m (a + i)).isSome)
    (hd : ∀ i j, i < bs.length → j < bs.length → physOf m (a + i) = physOf m (a + j) → i = j) (i : Nat) (hi : i < bs.length) :
    dByte (dPuts a bs m) (a + i) = bs.getD i 0 := by
  induction bs generalizing a m i with
  | nil => simp at hi
  | cons b t ih =>
    rw [dPuts]
    cases i with
    | zero =>
      obtain ⟨p, hx⟩ := Option.isSome_iff_exists.1 (hp 0 (by simp))
      rw [Nat.add_zero] at hx ⊢
      rw [dByte_dPuts_ne]
      · simpa using dByte_dPut_self b m hx hx
      · intro j hj he
        rw [physOf_dPut, physOf_dPut] at he
        have := hd (j + 1) 0 (by simp; omega) (by simp) (by simpa [Nat.add_assoc, Nat.add_comm 1 j] using he)
        omega
    | succ i =>
      have hi' : i < t.length := by simpa using hi
      have e1 : a + (i + 1) = a + 1 + i := by omega
      rw [e1, ih (dPut a b m) (fun j hj => ?_) (fun j l hj hl he => ?_) i hi']
      · simp
      · rw [physOf_dPut]
        have := hp (j + 1) (by simp; omega)
        simpa [Nat.add_assoc, Nat.add_comm 1 j] using this
      · rw [physOf_dPut, physOf_dPut] at he
        have := hd (j + 1) (l + 1) (by simp; omega) (by simp; omega)
          (by simpa [Nat.add_assoc, Nat.add_comm 1 j, Nat.add_comm 1 l] using he)
        omega

end Sys2Proof.Machine
end

