-- ==== Sys2Proof/Laws/Events.lean ====
section
/-! SUPPORT. Device-written rings, interrupts, events, trace points and health: each of these operations answers the device with
only its rings, the memory that the records go to and a few counters changed. -/

namespace Sys2Proof.Machine

variable (nv : NonVol) (d : Device)

theorem irqRaise_frame (ring : Nat) : irqRaise nv ring d = { d with rings := (irqRaise nv ring d).rings } := by
  unfold irqRaise irqSend; dsimp only; split <;> rfl

theorem devRingMod_frame (k : Nat) (f : DevRing → DevRing) : devRingMod k f d = { d with rings := (devRingMod k f d).rings } := by
  unfold devRingMod; split
  · rfl
  · split <;> rfl

theorem lostEvent_frame (k : Nat) : lostEvent k d = { d with rings := (lostEvent k d).rings } := by
  unfold lostEvent; dsimp only; split
  · rw [devRingMod_frame]
  · rfl

theorem devRingPop_frame (k : Nat) : devRingPop nv k d = { d with rings := (devRingPop nv k d).rings, mem := (devRingPop nv k d).mem } := by
  unfold devRingPop; dsimp only
  split
  · rfl
  · split
    · rw [irqRaise_frame, devRingMod_frame]; rfl
    · rw [devRingMod_frame]

theorem flushRing_frame (k n : Nat) (d : Device) :
    flushRing nv k n d = { d with rings := (flushRing nv k n d).rings, mem := (flushRing nv k n d).mem } := by
  induction n generalizing d with
  | zero => rfl
  | succ n ih =>
    unfold flushRing; dsimp only
    split
    · rw [ih, devRingPop_frame, lostEvent_frame]
    · rw [lostEvent_frame]

theorem pushRec_frame (k r : Nat) : pushRec nv k r d = { d with rings := (pushRec nv k r d).rings, mem := (pushRec nv k r d).mem } := by
  unfold pushRec flushAll; dsimp only
  split
  · rw [flushRing_frame, devRingMod_frame]
  · rw [flushRing_frame, devRingMod_frame]

theorem mgmtPush_frame (cls r : Nat) : mgmtPush cls r d = { d with kept := (mgmtPush cls r d).kept, flt := (mgmtPush cls r d).flt } := by
  unfold mgmtPush; split <;> rfl

/-- Raising an event (R374) changes the rings, the memory of the event ring, the messages to the tray controller and their
count, and nothing else. -/
theorem raiseEv_frame (code : Nat) (c : Option Nat) (a0 a1 : Nat) :
    raiseEv nv code c a0 a1 d = { d with
      rings := (raiseEv nv code c a0 a1 d).rings, mem := (raiseEv nv code c a0 a1 d).mem,
      kept := (raiseEv nv code c a0 a1 d).kept, flt := (raiseEv nv code c a0 a1 d).flt } := by
  unfold raiseEv; dsimp only
  split
  · rw [mgmtPush_frame, pushRec_frame]
  · rw [pushRec_frame]

/-- A trace point (R419) changes the rings, the memory of the log ring and the firmware's count, and nothing else. -/
theorem logPoint_frame (level proc clu point a0 a1 : Nat) :
    logPoint nv level proc clu point a0 a1 d = { d with
      rings := (logPoint nv level proc clu point a0 a1 d).rings, mem := (logPoint nv level proc clu point a0 a1 d).mem,
      fw := (logPoint nv level proc clu point a0 a1 d).fw } := by
  unfold logPoint; split
  · rw [pushRec_frame]
  · rfl

/-- A change of a unit's health (R434) changes the rings, their memory, the kept messages and the fault block. -/
theorem setHealth_frame (kind id : Nat) (st : Health) (reason : Nat) :
    setHealth nv kind id st reason d = { d with
      rings := (setHealth nv kind id st reason d).rings, mem := (setHealth nv kind id st reason d).mem,
      kept := (setHealth nv kind id st reason d).kept, flt := (setHealth nv kind id st reason d).flt } := by
  unfold setHealth; dsimp only
  split
  · rfl
  · rw [raiseEv_frame]; rfl

/-! ### By field -/

@[simp] theorem pushRec_own (k r : Nat) : (pushRec nv k r d).own = d.own := by rw [pushRec_frame]
@[simp] theorem pushRec_ctxs (k r : Nat) : (pushRec nv k r d).ctxs = d.ctxs := by rw [pushRec_frame]
@[simp] theorem pushRec_frames (k r : Nat) : (pushRec nv k r d).frames = d.frames := by rw [pushRec_frame]
@[simp] theorem pushRec_clus (k r : Nat) : (pushRec nv k r d).clus = d.clus := by rw [pushRec_frame]
@[simp] theorem pushRec_cores (k r : Nat) : (pushRec nv k r d).cores = d.cores := by rw [pushRec_frame]
@[simp] theorem pushRec_fabric (k r : Nat) : (pushRec nv k r d).fabric = d.fabric := by rw [pushRec_frame]
@[simp] theorem pushRec_link (k r : Nat) : (pushRec nv k r d).link = d.link := by rw [pushRec_frame]
@[simp] theorem pushRec_coll (k r : Nat) : (pushRec nv k r d).coll = d.coll := by rw [pushRec_frame]
@[simp] theorem pushRec_sched (k r : Nat) : (pushRec nv k r d).sched = d.sched := by rw [pushRec_frame]
@[simp] theorem pushRec_time (k r : Nat) : (pushRec nv k r d).time = d.time := by rw [pushRec_frame]
@[simp] theorem pushRec_fw (k r : Nat) : (pushRec nv k r d).fw = d.fw := by rw [pushRec_frame]
@[simp] theorem pushRec_flt (k r : Nat) : (pushRec nv k r d).flt = d.flt := by rw [pushRec_frame]
@[simp] theorem pushRec_kept (k r : Nat) : (pushRec nv k r d).kept = d.kept := by rw [pushRec_frame]
@[simp] theorem pushRec_pwr (k r : Nat) : (pushRec nv k r d).pwr = d.pwr := by rw [pushRec_frame]
@[simp] theorem pushRec_fresh (k r : Nat) : (pushRec nv k r d).fresh = d.fresh := by rw [pushRec_frame]

@[simp] theorem raiseEv_own (code : Nat) (c : Option Nat) (a0 a1 : Nat) : (raiseEv nv code c a0 a1 d).own = d.own := by rw [raiseEv_frame]
@[simp] theorem raiseEv_ctxs (code : Nat) (c : Option Nat) (a0 a1 : Nat) : (raiseEv nv code c a0 a1 d).ctxs = d.ctxs := by rw [raiseEv_frame]
@[simp] theorem raiseEv_frames (code : Nat) (c : Option Nat) (a0 a1 : Nat) : (raiseEv nv code c a0 a1 d).frames = d.frames := by rw [raiseEv_frame]
@[simp] theorem raiseEv_clus (code : Nat) (c : Option Nat) (a0 a1 : Nat) : (raiseEv nv code c a0 a1 d).clus = d.clus := by rw [raiseEv_frame]
@[simp] theorem raiseEv_cores (code : Nat) (c : Option Nat) (a0 a1 : Nat) : (raiseEv nv code c a0 a1 d).cores = d.cores := by rw [raiseEv_frame]
@[simp] theorem raiseEv_fabric (code : Nat) (c : Option Nat) (a0 a1 : Nat) : (raiseEv nv code c a0 a1 d).fabric = d.fabric := by rw [raiseEv_frame]
@[simp] theorem raiseEv_link (code : Nat) (c : Option Nat) (a0 a1 : Nat) : (raiseEv nv code c a0 a1 d).link = d.link := by rw [raiseEv_frame]
@[simp] theorem raiseEv_coll (code : Nat) (c : Option Nat) (a0 a1 : Nat) : (raiseEv nv code c a0 a1 d).coll = d.coll := by rw [raiseEv_frame]
@[simp] theorem raiseEv_sched (code : Nat) (c : Option Nat) (a0 a1 : Nat) : (raiseEv nv code c a0 a1 d).sched = d.sched := by rw [raiseEv_frame]
@[simp] theorem raiseEv_time (code : Nat) (c : Option Nat) (a0 a1 : Nat) : (raiseEv nv code c a0 a1 d).time = d.time := by rw [raiseEv_frame]
@[simp] theorem raiseEv_fw (code : Nat) (c : Option Nat) (a0 a1 : Nat) : (raiseEv nv code c a0 a1 d).fw = d.fw := by rw [raiseEv_frame]
@[simp] theorem raiseEv_pwr (code : Nat) (c : Option Nat) (a0 a1 : Nat) : (raiseEv nv code c a0 a1 d).pwr = d.pwr := by rw [raiseEv_frame]
@[simp] theorem raiseEv_fresh (code : Nat) (c : Option Nat) (a0 a1 : Nat) : (raiseEv nv code c a0 a1 d).fresh = d.fresh := by rw [raiseEv_frame]

@[simp] theorem logPoint_own (level proc clu point a0 a1 : Nat) : (logPoint nv level proc clu point a0 a1 d).own = d.own := by rw [logPoint_frame]
@[simp] theorem logPoint_ctxs (level proc clu point a0 a1 : Nat) : (logPoint nv level proc clu point a0 a1 d).ctxs = d.ctxs := by rw [logPoint_frame]
@[simp] theorem logPoint_frames (level proc clu point a0 a1 : Nat) : (logPoint nv level proc clu point a0 a1 d).frames = d.frames := by rw [logPoint_frame]
@[simp] theorem logPoint_clus (level proc clu point a0 a1 : Nat) : (logPoint nv level proc clu point a0 a1 d).clus = d.clus := by rw [logPoint_frame]
@[simp] theorem logPoint_cores (level proc clu point a0 a1 : Nat) : (logPoint nv level proc clu point a0 a1 d).cores = d.cores := by rw [logPoint_frame]
@[simp] theorem logPoint_fabric (level proc clu point a0 a1 : Nat) : (logPoint nv level proc clu point a0 a1 d).fabric = d.fabric := by rw [logPoint_frame]
@[simp] theorem logPoint_link (level proc clu point a0 a1 : Nat) : (logPoint nv level proc clu point a0 a1 d).link = d.link := by rw [logPoint_frame]
@[simp] theorem logPoint_coll (level proc clu point a0 a1 : Nat) : (logPoint nv level proc clu point a0 a1 d).coll = d.coll := by rw [logPoint_frame]
@[simp] theorem logPoint_sched (level proc clu point a0 a1 : Nat) : (logPoint nv level proc clu point a0 a1 d).sched = d.sched := by rw [logPoint_frame]
@[simp] theorem logPoint_time (level proc clu point a0 a1 : Nat) : (logPoint nv level proc clu point a0 a1 d).time = d.time := by rw [logPoint_frame]
@[simp] theorem logPoint_flt (level proc clu point a0 a1 : Nat) : (logPoint nv level proc clu point a0 a1 d).flt = d.flt := by rw [logPoint_frame]
@[simp] theorem logPoint_kept (level proc clu point a0 a1 : Nat) : (logPoint nv level proc clu point a0 a1 d).kept = d.kept := by rw [logPoint_frame]
@[simp] theorem logPoint_pwr (level proc clu point a0 a1 : Nat) : (logPoint nv level proc clu point a0 a1 d).pwr = d.pwr := by rw [logPoint_frame]
@[simp] theorem logPoint_fresh (level proc clu point a0 a1 : Nat) : (logPoint nv level proc clu point a0 a1 d).fresh = d.fresh := by rw [logPoint_frame]

@[simp] theorem setHealth_own (kind id : Nat) (st : Health) (reason : Nat) : (setHealth nv kind id st reason d).own = d.own := by rw [setHealth_frame]
@[simp] theorem setHealth_ctxs (kind id : Nat) (st : Health) (reason : Nat) : (setHealth nv kind id st reason d).ctxs = d.ctxs := by rw [setHealth_frame]
@[simp] theorem setHealth_frames (kind id : Nat) (st : Health) (reason : Nat) : (setHealth nv kind id st reason d).frames = d.frames := by rw [setHealth_frame]
@[simp] theorem setHealth_clus (kind id : Nat) (st : Health) (reason : Nat) : (setHealth nv kind id st reason d).clus = d.clus := by rw [setHealth_frame]
@[simp] theorem setHealth_cores (kind id : Nat) (st : Health) (reason : Nat) : (setHealth nv kind id st reason d).cores = d.cores := by rw [setHealth_frame]
@[simp] theorem setHealth_fabric (kind id : Nat) (st : Health) (reason : Nat) : (setHealth nv kind id st reason d).fabric = d.fabric := by rw [setHealth_frame]
@[simp] theorem setHealth_link (kind id : Nat) (st : Health) (reason : Nat) : (setHealth nv kind id st reason d).link = d.link := by rw [setHealth_frame]
@[simp] theorem setHealth_coll (kind id : Nat) (st : Health) (reason : Nat) : (setHealth nv kind id st reason d).coll = d.coll := by rw [setHealth_frame]
@[simp] theorem setHealth_sched (kind id : Nat) (st : Health) (reason : Nat) : (setHealth nv kind id st reason d).sched = d.sched := by rw [setHealth_frame]
@[simp] theorem setHealth_time (kind id : Nat) (st : Health) (reason : Nat) : (setHealth nv kind id st reason d).time = d.time := by rw [setHealth_frame]
@[simp] theorem setHealth_fw (kind id : Nat) (st : Health) (reason : Nat) : (setHealth nv kind id st reason d).fw = d.fw := by rw [setHealth_frame]
@[simp] theorem setHealth_pwr (kind id : Nat) (st : Health) (reason : Nat) : (setHealth nv kind id st reason d).pwr = d.pwr := by rw [setHealth_frame]
@[simp] theorem setHealth_fresh (kind id : Nat) (st : Health) (reason : Nat) : (setHealth nv kind id st reason d).fresh = d.fresh := by rw [setHealth_frame]

/-! ### The memory keeps its form -/

theorem Memory.wf_devRingPop (k : Nat) (h : Memory.wf d.mem = true) : Memory.wf (devRingPop nv k d).mem = true := by
  unfold devRingPop; dsimp only
  split
  · exact h
  · split
    · rw [irqRaise_frame, devRingMod_frame]; exact Memory.wf_dWrite _ _ _ h
    · rw [devRingMod_frame]; exact h

theorem Memory.wf_flushRing (k n : Nat) (d : Device) (h : Memory.wf d.mem = true) : Memory.wf (flushRing nv k n d).mem = true := by
  induction n generalizing d with
  | zero => exact h
  | succ n ih =>
    unfold flushRing; dsimp only
    have h1 : Memory.wf (lostEvent k d).mem = true := by rw [lostEvent_frame]; exact h
    split
    · exact ih _ (Memory.wf_devRingPop nv _ k h1)
    · exact h1

theorem Memory.wf_pushRec (k r : Nat) (h : Memory.wf d.mem = true) : Memory.wf (pushRec nv k r d).mem = true := by
  unfold pushRec flushAll; dsimp only
  split <;> (apply Memory.wf_flushRing; rw [devRingMod_frame]; exact h)

theorem Memory.wf_raiseEv (code : Nat) (c : Option Nat) (a0 a1 : Nat) (h : Memory.wf d.mem = true) :
    Memory.wf (raiseEv nv code c a0 a1 d).mem = true := by
  unfold raiseEv; dsimp only
  split
  · rw [mgmtPush_frame]; exact Memory.wf_pushRec nv _ _ _ h
  · exact Memory.wf_pushRec nv _ _ _ h

end Sys2Proof.Machine
end

