-- ==== Sys2Proof/Laws/PerInstr.lean ====
section
/-! SUPPORT. One lemma per command: a well-formed command of a core row carries a word of that row, so no word passes under two
rows. -/

namespace Sys2Proof

/-- The row and the word of a command that is a core instruction. -/
def Laws.coreOf : Instr → Option (CoreRow × Word)
  | .sAlu _ _ w => some (.sAlu, w)
  | .sImm _ _ w => some (.sImm, w)
  | .upper _ _ w => some (.upper, w)
  | .branch _ _ w => some (.branch, w)
  | .jump _ _ w => some (.jump, w)
  | .load _ _ w => some (.load, w)
  | .store _ _ w => some (.store, w)
  | .vAlu _ _ w => some (.vAlu, w)
  | .vld _ _ w => some (.vld, w)
  | .vst _ _ w => some (.vst, w)
  | .vgather _ _ w => some (.vgather, w)
  | .vscatter _ _ w => some (.vscatter, w)
  | .vbcast _ _ w => some (.vbcast, w)
  | .vcvt _ _ w => some (.vcvt, w)
  | .block _ _ w => some (.block, w)
  | .fld _ _ w => some (.fld, w)
  | .fst _ _ w => some (.fst, w)
  | .fgather _ _ w => some (.fgather, w)
  | .fscatter _ _ w => some (.fscatter, w)
  | .semwait _ _ w => some (.semwait, w)
  | .sempost _ _ w => some (.sempost, w)
  | .barrier _ _ w => some (.barrier, w)
  | .evwait _ _ w => some (.evwait, w)
  | .evadd _ _ w => some (.evadd, w)
  | .fenceCore _ _ w => some (.fenceCore, w)
  | .fenceFar _ _ w => some (.fenceFar, w)
  | .gdone _ _ w => some (.gdone, w)
  | .csrr _ _ w => some (.csrr, w)
  | .csrw _ _ w => some (.csrw, w)
  | _ => none

/-- The family: a well-formed core instruction carries a word of its own row (R185). -/
def Laws.WellFormed.Statement (i : Instr) : Prop := i.wf = true → ∀ x, Laws.coreOf i = some x → coreRow x.2 = x.1

namespace Laws.WellFormed

theorem identify (t : Nat) : Statement (.identify t) := fun _ _ hx => nomatch hx
theorem version (t : Nat) : Statement (.version t) := fun _ _ hx => nomatch hx
theorem ctxCreate (t : Nat) : Statement (.ctxCreate t) := fun _ _ hx => nomatch hx
theorem ctxDestroy (t : Nat) : Statement (.ctxDestroy t) := fun _ _ hx => nomatch hx
theorem ctxGrant (t : Nat) : Statement (.ctxGrant t) := fun _ _ hx => nomatch hx
theorem windowOpen (t : Nat) : Statement (.windowOpen t) := fun _ _ hx => nomatch hx
theorem windowRevoke (t : Nat) : Statement (.windowRevoke t) := fun _ _ hx => nomatch hx
theorem keyWrite (t : Nat) : Statement (.keyWrite t) := fun _ _ hx => nomatch hx
theorem frameStage (t : Nat) : Statement (.frameStage t) := fun _ _ hx => nomatch hx
theorem frameApply (t : Nat) : Statement (.frameApply t) := fun _ _ hx => nomatch hx
theorem frameApplicationStart : Statement (.frameApplicationStart) := fun _ _ hx => nomatch hx
theorem handover (t : Nat) : Statement (.handover t) := fun _ _ hx => nomatch hx
theorem fence (t : Nat) : Statement (.fence t) := fun _ _ hx => nomatch hx
theorem fenceContext (t : Nat) : Statement (.fenceContext t) := fun _ _ hx => nomatch hx
theorem reclaim (t : Nat) : Statement (.reclaim t) := fun _ _ hx => nomatch hx
theorem reclaimComplete (p : PartNo) : Statement (.reclaimComplete p) := fun _ _ hx => nomatch hx
theorem sliceTable (t : Nat) : Statement (.sliceTable t) := fun _ _ hx => nomatch hx
theorem fwStage (t : Nat) : Statement (.fwStage t) := fun _ _ hx => nomatch hx
theorem fwActivate (t : Nat) : Statement (.fwActivate t) := fun _ _ hx => nomatch hx
theorem deferredActivationStart : Statement (.deferredActivationStart) := fun _ _ hx => nomatch hx
theorem stackRetire (t : Nat) : Statement (.stackRetire t) := fun _ _ hx => nomatch hx
theorem fuseWrite (t : Nat) : Statement (.fuseWrite t) := fun _ _ hx => nomatch hx
theorem testPackage (t : Nat) : Statement (.testPackage t) := fun _ _ hx => nomatch hx
theorem escalate (t : Nat) : Statement (.escalate t) := fun _ _ hx => nomatch hx
theorem submit (t : Nat) : Statement (.submit t) := fun _ _ hx => nomatch hx
theorem submitGateOpen (t : Nat) : Statement (.submitGateOpen t) := fun _ _ hx => nomatch hx
theorem collective (t : Nat) : Statement (.collective t) := fun _ _ hx => nomatch hx
theorem idleWindows (t : Nat) : Statement (.idleWindows t) := fun _ _ hx => nomatch hx
theorem entryTake (ring : Option CtxNo) : Statement (.entryTake ring) := fun _ _ hx => nomatch hx
theorem claim (p : Port) (v : Word) : Statement (.claim p v) := fun _ _ hx => nomatch hx
theorem portLost (p : Port) : Statement (.portLost p) := fun _ _ hx => nomatch hx
theorem lossTimeout : Statement (.lossTimeout) := fun _ _ hx => nomatch hx
theorem handoverTimeout : Statement (.handoverTimeout) := fun _ _ hx => nomatch hx
theorem drainEnd : Statement (.drainEnd) := fun _ _ hx => nomatch hx
theorem doorbell (p : Port) (ring : Option CtxNo) (v : Word) : Statement (.doorbell p ring v) := fun _ _ hx => nomatch hx
theorem headWrite (p : Port) (ring : CtxNo ⊕ Fin 4) (v : Word) : Statement (.headWrite p ring v) := fun _ _ hx => nomatch hx
theorem ringCtrl (p : Port) (ring : Fin 4) (v : Word) : Statement (.ringCtrl p ring v) := fun _ _ hx => nomatch hx
theorem apertureAccess (p : Port) (a : Fin 16) (off len : Nat) (data : Option (List Byte)) : Statement (.apertureAccess p a off len data) := fun _ _ hx => nomatch hx
theorem ringAperHi (p q : Port) (a : Fin 16) (v : Word) : Statement (.ringAperHi p q a v) := fun _ _ hx => nomatch hx
theorem capture (r : Port ⊕ (CluNo × CoreNo)) (off : ReadAt) : Statement (.capture r off) := fun _ _ hx => nomatch hx
theorem registerWrite (p : Port) (off size : Nat) (v : Word) : Statement (.registerWrite p off size v) := fun _ _ hx => nomatch hx
theorem streamStart (c : CtxNo) : Statement (.streamStart c) := fun _ _ hx => nomatch hx
theorem unitClaim (k : CluNo) : Statement (.unitClaim k) := fun _ _ hx => nomatch hx
theorem unitStart (k : CluNo) : Statement (.unitStart k) := fun _ _ hx => nomatch hx
theorem pass (k : CluNo) (u : Nat) : Statement (.pass k u) := fun _ _ hx => nomatch hx
theorem boundPass (k : CluNo) (u : Nat) : Statement (.boundPass k u) := fun _ _ hx => nomatch hx
theorem stripDrain (k : CluNo) (u strip : Nat) : Statement (.stripDrain k u strip) := fun _ _ hx => nomatch hx
theorem unitCommit (k : CluNo) (u : Nat) : Statement (.unitCommit k u) := fun _ _ hx => nomatch hx
theorem partCombine (c : CtxNo) (idx tile : Nat) : Statement (.partCombine c idx tile) := fun _ _ hx => nomatch hx
theorem resultCopy (c : CtxNo) (idx tile : Nat) : Statement (.resultCopy c idx tile) := fun _ _ hx => nomatch hx
theorem recordSlotWrite (c : CtxNo) (idx : Nat) : Statement (.recordSlotWrite c idx) := fun _ _ hx => nomatch hx
theorem streamComplete (c : CtxNo) (idx : Nat) : Statement (.streamComplete c idx) := fun _ _ hx => nomatch hx
theorem checkpointBegin (c : CtxNo) : Statement (.checkpointBegin c) := fun _ _ hx => nomatch hx
theorem checkpointEnd (c : CtxNo) : Statement (.checkpointEnd c) := fun _ _ hx => nomatch hx
theorem programComplete (c : CtxNo) : Statement (.programComplete c) := fun _ _ hx => nomatch hx
theorem listPhase (c : CtxNo) (idx : Nat) : Statement (.listPhase c idx) := fun _ _ hx => nomatch hx
theorem moveUnit (k : CluNo) (u : Nat) : Statement (.moveUnit k u) := fun _ _ hx => nomatch hx
theorem receive (c : CtxNo) (idx : Nat) : Statement (.receive c idx) := fun _ _ hx => nomatch hx
theorem parcelStart (k : CluNo) : Statement (.parcelStart k) := fun _ _ hx => nomatch hx
theorem kernelLoad (k : CluNo) : Statement (.kernelLoad k) := fun _ _ hx => nomatch hx
theorem coreContextChange (k : CluNo) (c : CtxNo) : Statement (.coreContextChange k c) := fun _ _ hx => nomatch hx
theorem sAlu (k : CluNo) (j : CoreNo) (w : Word) : Statement (.sAlu k j w) := by rintro h x ⟨⟩; simpa [Instr.wf] using h
theorem sImm (k : CluNo) (j : CoreNo) (w : Word) : Statement (.sImm k j w) := by rintro h x ⟨⟩; simpa [Instr.wf] using h
theorem upper (k : CluNo) (j : CoreNo) (w : Word) : Statement (.upper k j w) := by rintro h x ⟨⟩; simpa [Instr.wf] using h
theorem branch (k : CluNo) (j : CoreNo) (w : Word) : Statement (.branch k j w) := by rintro h x ⟨⟩; simpa [Instr.wf] using h
theorem jump (k : CluNo) (j : CoreNo) (w : Word) : Statement (.jump k j w) := by rintro h x ⟨⟩; simpa [Instr.wf] using h
theorem load (k : CluNo) (j : CoreNo) (w : Word) : Statement (.load k j w) := by rintro h x ⟨⟩; simpa [Instr.wf] using h
theorem store (k : CluNo) (j : CoreNo) (w : Word) : Statement (.store k j w) := by rintro h x ⟨⟩; simpa [Instr.wf] using h
theorem loadReturn (k : CluNo) (j : CoreNo) : Statement (.loadReturn k j) := fun _ _ hx => nomatch hx
theorem vAlu (k : CluNo) (j : CoreNo) (w : Word) : Statement (.vAlu k j w) := by rintro h x ⟨⟩; simpa [Instr.wf] using h
theorem vld (k : CluNo) (j : CoreNo) (w : Word) : Statement (.vld k j w) := by rintro h x ⟨⟩; simpa [Instr.wf] using h
theorem vst (k : CluNo) (j : CoreNo) (w : Word) : Statement (.vst k j w) := by rintro h x ⟨⟩; simpa [Instr.wf] using h
theorem vgather (k : CluNo) (j : CoreNo) (w : Word) : Statement (.vgather k j w) := by rintro h x ⟨⟩; simpa [Instr.wf] using h
theorem vscatter (k : CluNo) (j : CoreNo) (w : Word) : Statement (.vscatter k j w) := by rintro h x ⟨⟩; simpa [Instr.wf] using h
theorem vbcast (k : CluNo) (j : CoreNo) (w : Word) : Statement (.vbcast k j w) := by rintro h x ⟨⟩; simpa [Instr.wf] using h
theorem vcvt (k : CluNo) (j : CoreNo) (w : Word) : Statement (.vcvt k j w) := by rintro h x ⟨⟩; simpa [Instr.wf] using h
theorem block (k : CluNo) (j : CoreNo) (w : Word) : Statement (.block k j w) := by rintro h x ⟨⟩; simpa [Instr.wf] using h
theorem fld (k : CluNo) (j : CoreNo) (w : Word) : Statement (.fld k j w) := by rintro h x ⟨⟩; simpa [Instr.wf] using h
theorem fst (k : CluNo) (j : CoreNo) (w : Word) : Statement (.fst k j w) := by rintro h x ⟨⟩; simpa [Instr.wf] using h
theorem fgather (k : CluNo) (j : CoreNo) (w : Word) : Statement (.fgather k j w) := by rintro h x ⟨⟩; simpa [Instr.wf] using h
theorem fscatter (k : CluNo) (j : CoreNo) (w : Word) : Statement (.fscatter k j w) := by rintro h x ⟨⟩; simpa [Instr.wf] using h
theorem semwait (k : CluNo) (j : CoreNo) (w : Word) : Statement (.semwait k j w) := by rintro h x ⟨⟩; simpa [Instr.wf] using h
theorem semwaitRelease (k : CluNo) (i : Fin 64) : Statement (.semwaitRelease k i) := fun _ _ hx => nomatch hx
theorem sempost (k : CluNo) (j : CoreNo) (w : Word) : Statement (.sempost k j w) := by rintro h x ⟨⟩; simpa [Instr.wf] using h
theorem barrier (k : CluNo) (j : CoreNo) (w : Word) : Statement (.barrier k j w) := by rintro h x ⟨⟩; simpa [Instr.wf] using h
theorem barrierRelease (k : CluNo) (i : Fin 8) : Statement (.barrierRelease k i) := fun _ _ hx => nomatch hx
theorem evwait (k : CluNo) (j : CoreNo) (w : Word) : Statement (.evwait k j w) := by rintro h x ⟨⟩; simpa [Instr.wf] using h
theorem evwaitReturn (k : CluNo) (j : CoreNo) : Statement (.evwaitReturn k j) := fun _ _ hx => nomatch hx
theorem evadd (k : CluNo) (j : CoreNo) (w : Word) : Statement (.evadd k j w) := by rintro h x ⟨⟩; simpa [Instr.wf] using h
theorem fenceCore (k : CluNo) (j : CoreNo) (w : Word) : Statement (.fenceCore k j w) := by rintro h x ⟨⟩; simpa [Instr.wf] using h
theorem fenceFar (k : CluNo) (j : CoreNo) (w : Word) : Statement (.fenceFar k j w) := by rintro h x ⟨⟩; simpa [Instr.wf] using h
theorem gdone (k : CluNo) (j : CoreNo) (w : Word) : Statement (.gdone k j w) := by rintro h x ⟨⟩; simpa [Instr.wf] using h
theorem csrr (k : CluNo) (j : CoreNo) (w : Word) : Statement (.csrr k j w) := by rintro h x ⟨⟩; simpa [Instr.wf] using h
theorem csrw (k : CluNo) (j : CoreNo) (w : Word) : Statement (.csrw k j w) := by rintro h x ⟨⟩; simpa [Instr.wf] using h
theorem tagTaken (k : CluNo) (user : TagUser) (words : List Nat) : Statement (.tagTaken k user words) := fun _ _ hx => nomatch hx
theorem tagLanded (k : CluNo) (i : Nat) (ecc : List EccNote) : Statement (.tagLanded k i ecc) := fun _ _ hx => nomatch hx
theorem deferredPieceIssue (k : CluNo) (user : TagUser) : Statement (.deferredPieceIssue k user) := fun _ _ hx => nomatch hx
theorem unmappedReadDue (k : CluNo) (u va : Nat) : Statement (.unmappedReadDue k u va) := fun _ _ hx => nomatch hx
theorem pageWalk (k : CluNo) (c : CtxNo) (va : Nat) (wr : Bool) : Statement (.pageWalk k c va wr) := fun _ _ hx => nomatch hx
theorem writeAccept (k : CluNo) : Statement (.writeAccept k) := fun _ _ hx => nomatch hx
theorem combiningWriteBack (k : CluNo) (word : Nat) : Statement (.combiningWriteBack k word) := fun _ _ hx => nomatch hx
theorem stackNoAnswer (k : CluNo) (i : NoAnswer) : Statement (.stackNoAnswer k i) := fun _ _ hx => nomatch hx
theorem sramUncorrectable (k : CluNo) (structure_ off : Nat) (owner : Option CtxNo) (syndrome : Nat) : Statement (.sramUncorrectable k structure_ off owner syndrome) := fun _ _ hx => nomatch hx
theorem patrolScrub (ecc : List EccNote) : Statement (.patrolScrub ecc) := fun _ _ hx => nomatch hx
theorem validate (p : Port) (i : Fin 8) : Statement (.validate p i) := fun _ _ hx => nomatch hx
theorem invalidate (p : Port) (i : Fin 8) : Statement (.invalidate p i) := fun _ _ hx => nomatch hx
theorem setDrainEnd (i : Fin 8) : Statement (.setDrainEnd i) := fun _ _ hx => nomatch hx
theorem memInvalGo (p : Port) (v : Word) : Statement (.memInvalGo p v) := fun _ _ hx => nomatch hx
theorem memInvalComplete : Statement (.memInvalComplete) := fun _ _ hx => nomatch hx
theorem memDumpHi (p : Port) (v : Word) : Statement (.memDumpHi p v) := fun _ _ hx => nomatch hx
theorem memSynlogHi (p : Port) (v : Word) : Statement (.memSynlogHi p v) := fun _ _ hx => nomatch hx
theorem memBankSel (p : Port) (v : Word) : Statement (.memBankSel p v) := fun _ _ hx => nomatch hx
theorem multicastRequest (k : CluNo) (u : Nat) : Statement (.multicastRequest k u) := fun _ _ hx => nomatch hx
theorem multicastDeliveryStart (p : PartNo) (tree : Nat) : Statement (.multicastDeliveryStart p tree) := fun _ _ hx => nomatch hx
theorem multicastAccept (k : CluNo) (u : Nat) : Statement (.multicastAccept k u) := fun _ _ hx => nomatch hx
theorem multicastTimeout (k : CluNo) (u : Nat) : Statement (.multicastTimeout k u) := fun _ _ hx => nomatch hx
theorem packetReceive (h : FabricPacket) : Statement (.packetReceive h) := fun _ _ hx => nomatch hx
theorem clusterRemap (k : CluNo) : Statement (.clusterRemap k) := fun _ _ hx => nomatch hx
theorem frameReceive (g : CageNo) (f : EtherFrame) : Statement (.frameReceive g f) := fun _ _ hx => nomatch hx
theorem write (g : CageNo) (q : StavaPacket) : Statement (.write g q) := fun _ _ hx => nomatch hx
theorem readReq (g : CageNo) (q : StavaPacket) : Statement (.readReq g q) := fun _ _ hx => nomatch hx
theorem readData (g : CageNo) (q : StavaPacket) : Statement (.readData g q) := fun _ _ hx => nomatch hx
theorem response (g : CageNo) (q : StavaPacket) : Statement (.response g q) := fun _ _ hx => nomatch hx
theorem revokeNotice (g : CageNo) (q : StavaPacket) : Statement (.revokeNotice g q) := fun _ _ hx => nomatch hx
theorem ack (g : CageNo) (q : StavaPacket) : Statement (.ack g q) := fun _ _ hx => nomatch hx
theorem ackTimer (node flow : Nat) : Statement (.ackTimer node flow) := fun _ _ hx => nomatch hx
theorem retransmitTimeout (node flow seq : Nat) : Statement (.retransmitTimeout node flow seq) := fun _ _ hx => nomatch hx
theorem suspendExpiry (node : Nat) (g : CageNo) : Statement (.suspendExpiry node g) := fun _ _ hx => nomatch hx
theorem flowIdleFree (node flow : Nat) (rx : Bool) : Statement (.flowIdleFree node flow rx) := fun _ _ hx => nomatch hx
theorem flowFail (node flow : Nat) : Statement (.flowFail node flow) := fun _ _ hx => nomatch hx
theorem cageEnable (p : Port) (g : CageNo) (v : Word) : Statement (.cageEnable p g v) := fun _ _ hx => nomatch hx
theorem retrain (p : Port) (g : CageNo) (v : Word) : Statement (.retrain p g v) := fun _ _ hx => nomatch hx
theorem presenceHeld (g : CageNo) : Statement (.presenceHeld g) := fun _ _ hx => nomatch hx
theorem moduleReady (g : CageNo) (copper : Bool) (watts : Nat) : Statement (.moduleReady g copper watts) := fun _ _ hx => nomatch hx
theorem cmisTimeout (g : CageNo) : Statement (.cmisTimeout g) := fun _ _ hx => nomatch hx
theorem trainingDone (g : CageNo) : Statement (.trainingDone g) := fun _ _ hx => nomatch hx
theorem trainingTimeout (g : CageNo) (clean : CleanLanes) : Statement (.trainingTimeout g clean) := fun _ _ hx => nomatch hx
theorem linkLoss (g : CageNo) (loss : LossSeen) : Statement (.linkLoss g loss) := fun _ _ hx => nomatch hx
theorem downTimeout (g : CageNo) : Statement (.downTimeout g) := fun _ _ hx => nomatch hx
theorem presenceLost (g : CageNo) : Statement (.presenceLost g) := fun _ _ hx => nomatch hx
theorem linkWintabHi (p : Port) (v : Word) : Statement (.linkWintabHi p v) := fun _ _ hx => nomatch hx
theorem collectiveGateOpen (c : CtxNo) (t : Nat) : Statement (.collectiveGateOpen c t) := fun _ _ hx => nomatch hx
theorem collectiveStage (c : CtxNo) (t : Nat) : Statement (.collectiveStage c t) := fun _ _ hx => nomatch hx
theorem collectiveStageEnd (c : CtxNo) (t : Nat) : Statement (.collectiveStageEnd c t) := fun _ _ hx => nomatch hx
theorem partial_ (g : CageNo) (q : StavaPacket) : Statement (.partial_ g q) := fun _ _ hx => nomatch hx
theorem result (g : CageNo) (q : StavaPacket) : Statement (.result g q) := fun _ _ hx => nomatch hx
theorem ready (g : CageNo) (q : StavaPacket) : Statement (.ready g q) := fun _ _ hx => nomatch hx
theorem allReady (g : CageNo) (q : StavaPacket) : Statement (.allReady g q) := fun _ _ hx => nomatch hx
theorem straggler (g : CageNo) (q : StavaPacket) : Statement (.straggler g q) := fun _ _ hx => nomatch hx
theorem record (g : CageNo) (q : StavaPacket) : Statement (.record g q) := fun _ _ hx => nomatch hx
theorem normTotal (g : CageNo) (q : StavaPacket) : Statement (.normTotal g q) := fun _ _ hx => nomatch hx
theorem digest (g : CageNo) (q : StavaPacket) : Statement (.digest g q) := fun _ _ hx => nomatch hx
theorem grant (g : CageNo) (q : StavaPacket) : Statement (.grant g q) := fun _ _ hx => nomatch hx
theorem arrival (g : CageNo) (q : StavaPacket) : Statement (.arrival g q) := fun _ _ hx => nomatch hx
theorem refuse (g : CageNo) (q : StavaPacket) : Statement (.refuse g q) := fun _ _ hx => nomatch hx
theorem stragglerTimeout (c : CtxNo) (t : Nat) : Statement (.stragglerTimeout c t) := fun _ _ hx => nomatch hx
theorem normStep (c : CtxNo) (t : Nat) : Statement (.normStep c t) := fun _ _ hx => nomatch hx
theorem collectiveComplete (c : CtxNo) (t : Nat) : Statement (.collectiveComplete c t) := fun _ _ hx => nomatch hx
theorem sliceBoundary (p : PartNo) : Statement (.sliceBoundary p) := fun _ _ hx => nomatch hx
theorem departure (c : CtxNo) : Statement (.departure c) := fun _ _ hx => nomatch hx
theorem departureAbandon (k : CluNo) (u : Nat) : Statement (.departureAbandon k u) := fun _ _ hx => nomatch hx
theorem contextArrival (c : CtxNo) : Statement (.contextArrival c) := fun _ _ hx => nomatch hx
theorem allBlocked (p : PartNo) : Statement (.allBlocked p) := fun _ _ hx => nomatch hx
theorem noticeTimeout (p : PartNo) : Statement (.noticeTimeout p) := fun _ _ hx => nomatch hx
theorem syncEdge : Statement (.syncEdge) := fun _ _ hx => nomatch hx
theorem referencePresent : Statement (.referencePresent) := fun _ _ hx => nomatch hx
theorem referenceLost : Statement (.referenceLost) := fun _ _ hx => nomatch hx
theorem timeArmHi (p : Port) (v : Word) : Statement (.timeArmHi p v) := fun _ _ hx => nomatch hx
theorem accountingPeriod : Statement (.accountingPeriod) := fun _ _ hx => nomatch hx
theorem timeAcctSnap (p : Port) (v : Word) : Statement (.timeAcctSnap p v) := fun _ _ hx => nomatch hx
theorem kappaCalibration (measured : Nat) : Statement (.kappaCalibration measured) := fun _ _ hx => nomatch hx
theorem teardownComplete (c : CtxNo) : Statement (.teardownComplete c) := fun _ _ hx => nomatch hx
theorem teardownTimeout (c : CtxNo) : Statement (.teardownTimeout c) := fun _ _ hx => nomatch hx
theorem quiescenceEnd (c : CtxNo) : Statement (.quiescenceEnd c) := fun _ _ hx => nomatch hx
theorem hang (c : CtxNo) : Statement (.hang c) := fun _ _ hx => nomatch hx
theorem engineResetTimeout (k : CluNo) : Statement (.engineResetTimeout k) := fun _ _ hx => nomatch hx
theorem partitionResetTimeout (p : PartNo) : Statement (.partitionResetTimeout p) := fun _ _ hx => nomatch hx
theorem chipReset (cause : Nat) (passed : List Nat) : Statement (.chipReset cause passed) := fun _ _ hx => nomatch hx
theorem powerCycle : Statement (.powerCycle) := fun _ _ hx => nomatch hx
theorem testRun (k : CluNo) : Statement (.testRun k) := fun _ _ hx => nomatch hx
theorem testRunEnd (k : CluNo) (failed : Option (Option (Fin 3))) : Statement (.testRunEnd k failed) := fun _ _ hx => nomatch hx
theorem testRunAbandon (k : CluNo) : Statement (.testRunAbandon k) := fun _ _ hx => nomatch hx
theorem testStarved (k : CluNo) : Statement (.testStarved k) := fun _ _ hx => nomatch hx
theorem fltLogHi (p : Port) (v : Word) : Statement (.fltLogHi p v) := fun _ _ hx => nomatch hx
theorem boot : Statement (.boot) := fun _ _ hx => nomatch hx
theorem processorCrash (proc : Fin 4) (k : CluNo) (cause : Fin 3) : Statement (.processorCrash proc k cause) := fun _ _ hx => nomatch hx
theorem processorRestart (proc : Fin 4) (k : CluNo) : Statement (.processorRestart proc k) := fun _ _ hx => nomatch hx
theorem standbyStart (mv : Nat) : Statement (.standbyStart mv) := fun _ _ hx => nomatch hx
theorem mainPowerOn (mv : Nat) (start : StartSeen) : Statement (.mainPowerOn mv start) := fun _ _ hx => nomatch hx
theorem mainPowerOff (mv : Option Nat) : Statement (.mainPowerOff mv) := fun _ _ hx => nomatch hx
theorem standbyStop (mv : Nat) : Statement (.standbyStop mv) := fun _ _ hx => nomatch hx
theorem governorStep (h : HalfNo) (junction : Int) (dieW : Nat) (drawsMore : Bool) : Statement (.governorStep h junction dieW drawsMore) := fun _ _ hx => nomatch hx
theorem powerWindow (est : List (Nat × Nat)) : Statement (.powerWindow est) := fun _ _ hx => nomatch hx
theorem emergencyFlagRaised (i : Fin 6) : Statement (.emergencyFlagRaised i) := fun _ _ hx => nomatch hx
theorem emergencyEnd : Statement (.emergencyEnd) := fun _ _ hx => nomatch hx
theorem thermalTrip (junction stack : Int) : Statement (.thermalTrip junction stack) := fun _ _ hx => nomatch hx
theorem shortPress (ms : Nat) : Statement (.shortPress ms) := fun _ _ hx => nomatch hx
theorem longPress (ms : Nat) : Statement (.longPress ms) := fun _ _ hx => nomatch hx
theorem request (p : Port) : Statement (.request p) := fun _ _ hx => nomatch hx
theorem quiesceNow (p : Port) : Statement (.quiesceNow p) := fun _ _ hx => nomatch hx
theorem cancel (p : Port) : Statement (.cancel p) := fun _ _ hx => nomatch hx
theorem graceTimeout : Statement (.graceTimeout) := fun _ _ hx => nomatch hx
theorem quiesceComplete : Statement (.quiesceComplete) := fun _ _ hx => nomatch hx
theorem setTime (ns : Nat) : Statement (.setTime ns) := fun _ _ hx => nomatch hx
theorem getStatus : Statement (.getStatus) := fun _ _ hx => nomatch hx
theorem removal (code : Nat) : Statement (.removal code) := fun _ _ hx => nomatch hx
theorem pldmFirmwareUpdate (activate : Bool) (image : List Byte) : Statement (.pldmFirmwareUpdate activate image) := fun _ _ hx => nomatch hx
theorem hostLinkUp (p : Port) : Statement (.hostLinkUp p) := fun _ _ hx => nomatch hx
theorem applicationCommit : Statement (.applicationCommit) := fun _ _ hx => nomatch hx
theorem activationComplete (failed : Option (Fin 4 × CluNo)) : Statement (.activationComplete failed) := fun _ _ hx => nomatch hx
theorem fwStageComplete : Statement (.fwStageComplete) := fun _ _ hx => nomatch hx
theorem frameStageComplete : Statement (.frameStageComplete) := fun _ _ hx => nomatch hx
theorem clusterRemapComplete (k : CluNo) : Statement (.clusterRemapComplete k) := fun _ _ hx => nomatch hx
theorem bubbleStart (c : CtxNo) (i : Nat) : Statement (.bubbleStart c i) := fun _ _ hx => nomatch hx
theorem linkLaneTest (lane : Fin 64) (errPerMillion : Nat) : Statement (.linkLaneTest lane errPerMillion) := fun _ _ hx => nomatch hx
theorem marginExhausted (margin : MarginSeen) : Statement (.marginExhausted margin) := fun _ _ hx => nomatch hx
theorem modulePulled : Statement (.modulePulled) := fun _ _ hx => nomatch hx

end Laws.WellFormed

/-- The family holds of every command. -/
theorem Laws.wellFormed_all (i : Instr) : Laws.WellFormed.Statement i := by
  intro h x hx
  cases i <;> cases hx <;> simpa [Instr.wf] using h

end Sys2Proof
end

