-- ==== Sys2Proof/Tests/Slice0.lean ====
section
/-! SUPPORT. Tests: for each statement, states and operands that meet its hypotheses, and single steps whose results the spec gives. -/

namespace Sys2Proof.Tests

open Sys2Proof.Machine
set_option Elab.async false

/-! ### Small states -/

/-- A device that runs and is owned by port H0, every host link up. -/
def base : Device := { State.reset.d with
  own := { State.reset.d.own with st := .owned, linkUp := 15 }
  fw := { State.reset.d.fw with mode := .running, image := NonVol.init.bankA, ifAccepted := 1 } }

/-- A state at time `up` of the oscillator. -/
def stAt (up : Nat) (d : Device) : State := { pending := [], nv := { NonVol.init with up := up }, d := d }

/-- `d` with its time block changed. -/
def timed (f : Time → Time) (d : Device) : Device := { d with time := f d.time }

/-- `d` with its ownership changed. -/
def owned (f : Own → Own) (d : Device) : Device := { d with own := f d.own }

/-- `d` with one taken command, of tag 0: its opcode, its other fields and its ring. -/
def taking (ring : Option CtxNo) (op : Nat) (fs : List (Nat × Nat × Nat)) (d : Device) : Device :=
  { d with rings := { d.rings with taken := [⟨0, ring, 0, pack ((0, 8, op) :: fs), false, false⟩], nextTag := 1 } }

/-- The taken command of `taking`. -/
def takenOf (ring : Option CtxNo) (op : Nat) (fs : List (Nat × Nat × Nat)) : Taken := ⟨0, ring, 0, pack ((0, 8, op) :: fs), false, false⟩

/-- Partition 0: two columns by two rows from (0, 0), every station, every format, two residents. -/
def section0 : Section := ⟨0, false, 0, 0, 2, 2, 0xFFFF, 0xFFFF, 0xFF, 2, 0, false, 0, 0, 512, []⟩

/-- `d` with partition 0 running and context 0 resident in it. -/
def resident0 (d : Device) : Device := { d with
  frames := { d.frames with parts := [(0, some section0)], sectionSerial := [(0, 1)], serial := 1 }
  ctxs := [(0, { Ctx.init with st := .resident, ringEn := true, sqLog := 4, cqLog := 4 })] }

/-! ### Hosts and rings -/

/-- `d` with the admin ring changed. -/
def adminRing (f : AdminRing → AdminRing) (d : Device) : Device := { d with rings := { d.rings with admin := f d.rings.admin } }

/-- `d` with bytes of memory written. -/
def wrote (a : Nat) (bs : List Byte) (d : Device) : Device := { d with mem := dWrite a bs d.mem }

theorem witness_ClaimTakesTheDevice :
    (hostWrites (stAt 5 base).nv (owned (fun o => { o with st := .unowned }) base) 0 = true ∧
      ((0xFFFF0C1A : Word).toNat % 65536 = 0x0C1A) ∧ bit NonVol.init.policyMask 3 = true ∧
      (owned (fun o => { o with st := .unowned }) base).own.st = .unowned) ∧
    ((owned (fun o => { o with st := .lost }) base).own.st = .lost ∧ (0 : Port) = base.own.owner) ∧
    ((owned (fun o => { o with st := .handing, target := 3, handTag := some 0 }) base).own.st = .handing ∧
      (3 : Port) = (owned (fun o => { o with st := .handing, target := 3, handTag := some 0 }) base).own.target ∧
      (stAt 999999999 base).nv.up < base.own.handFrom + 1000000000) := by and_intros <;> decide +kernel

theorem witness_OwnershipEventsFollowTheirTimers :
    (stAt 0 base).nv.mainOn = true ∧ base.own.st = .owned ∧
    ((owned (fun o => { o with st := .lost }) base).own.lossFrom + base.own.lossMs * 1000000 ≤ (stAt 2000000000 base).nv.up) ∧
    (base.own.handFrom + 1000000000 ≤ (stAt 1000000000 base).nv.up) ∧
    (adminRing (fun r => { r with draining := true }) base).rings.admin.draining = true ∧
    (base.rings.taken.all fun x => x.ring.isSome) = true := by and_intros <;> decide +kernel

/-- A command that passes the checks of state in `d`, and has not begun. -/
def ready (up : Nat) (d : Device) (ring : Option CtxNo) (op : Nat) (fs : List (Nat × Nat × Nat)) : Bool :=
  stateStatus (stAt up d).nv (taking ring op fs d) ring (takenOf ring op fs).entry = 0 &&
    freshTaken (taking ring op fs d) op 0 = some (takenOf ring op fs)

theorem witness_AdminCommandsOfContextsAndOwnership :
    ready 5 (resident0 base) none 0x01 [(64, 44, 0x40)] = true ∧ ready 5 (resident0 base) none 0x03 [(256, 9, 0x144)] = true ∧
    ready 5 (resident0 base) none 0x03 [(32, 8, 255), (256, 9, 0x44)] = true ∧ ready 5 (resident0 base) none 0x04 [] = true ∧
    ready 5 (resident0 base) none 0x05 [(64, 4, 15)] = true ∧ ready 5 (resident0 base) none 0x0B [(64, 2, 3)] = true ∧
    ready 5 (resident0 base) none 0x0C [] = true ∧ earlierDone (taking none 0x0C [] base) none 0 = true ∧
    ready 5 (resident0 base) (some 0) 0x43 [] = true ∧ earlierDone (taking (some 0) 0x43 [] base) (some 0) 0 = true := by and_intros <;> decide +kernel

/-- Aperture 0 of port H0 in DPA mode, writable, at DPA 0. -/
def aper0 (d : Device) : Device := { d with rings := { d.rings with apers := [(0, { Aperture.init with mode := 1, write := true })] } }

theorem witness_HostWritesOfRingsAndApertures :
    hostWrites (stAt 5 base).nv base 0 = true ∧
    (mayUse (resident0 base) 0 0 = true ∧ ctxLive (resident0 base) 0 = true ∧ (ctxGet (resident0 base) 0).ringEn = true ∧
      (15 : Word).toNat % 4096 < 2 ^ (ctxGet (resident0 base) 0).sqLog) ∧
    (isOwner base 0 = true ∧ (adminRing (fun r => { r with en := true, log2 := 4 }) base).rings.admin.en = true ∧
      (0 : Word).toNat % 4096 < 2 ^ (adminRing (fun r => { r with en := true, log2 := 4 }) base).rings.admin.log2) ∧
    mayUse (resident0 base) 1 0 = false ∧
    aperSpan (aper0 base) 0 0 0x1FFFFF 1 true = some [(0x1FFFFF, 1)] ∧ aperSpan (aper0 base) 0 0 0 64 false = some [(0, 64)] ∧
    aperSpan (aper0 base) 0 1 0 64 true = none ∧ aperSpan (aper0 base) 0 1 0 64 false = none ∧ isOwner base 1 = false ∧
    bit (0x1F01 : Word).toNat 0 = true ∧
    ({ base with rings := { base.rings with evRing := { DevRing.init with en := true } } } : Device).rings.evRing.en = true := by
  and_intros <;> decide +kernel

/-- `d` with the admin ring enabled at DPA 4096, 16 entries, one entry of opcode `op` waiting. -/
def ring1 (op : Nat) (d : Device) : Device :=
  wrote 4096 (toBytes 64 op) (adminRing (fun r => { r with en := true, log2 := 4, base := 1, sqTail := 1 }) d)

theorem witness_EntriesAreTakenFromTheRings_admin :
    schedulerUp (ring1 0x0C base) = true ∧ (ring1 0x0C base).rings.admin.en = true ∧
    (ring1 0x0C base).rings.admin.sqHead ≠ (ring1 0x0C base).rings.admin.sqTail ∧
    dpaOk (ring1 0x0C base).mem 4096 64 = true ∧ eOpcode (dNat (ring1 0x0C base).mem 4096 64) = 0x0C ∧
    roomFor (ring1 0x0C base) none 0x0C 4 0 0 = true := by and_intros <;> decide +kernel

/-- A page table for context 0 that maps its first 1 GiB to DPA 0 on, writable: root at DPA 0x10000. -/
def mapped0 (d : Device) : Device :=
  wrote 0x20000 (toBytes 8 7) (wrote 0x10000 (toBytes 8 0x20001) { d with ctxs := smMod d.ctxs Ctx.init 0 fun x => { x with root := 0x10000 } })

/-- Context 0's ring at its virtual address 0x30000, with one entry of opcode `op` waiting. -/
def ctxRing1 (op : Nat) : Device :=
  wrote 0x30000 (toBytes 64 op) (mapped0 { (resident0 base) with ctxs := smMod (resident0 base).ctxs Ctx.init 0 fun x => { x with
    ring := 0x30000, sqTail := 1 } })

theorem witness_EntriesAreTakenFromTheRings_context :
    ctxLive (ctxRing1 0x43) 0 = true ∧ (ctxGet (ctxRing1 0x43) 0).ringEn = true ∧
    (ctxGet (ctxRing1 0x43) 0).sqHead ≠ (ctxGet (ctxRing1 0x43) 0).sqTail ∧
    vRead (ctxRing1 0x43).mem 0x10000 0x30000 64 = .ok (toBytes 64 0x43) ∧
    roomFor (ctxRing1 0x43) (some 0) (eOpcode (ofBytes (toBytes 64 0x43))) 4 0 0 = true ∧ slotFault (ctxRing1 0x43) 0 0x43 = none := by and_intros <;> decide +kernel

/-! ### Frames and firmware -/

/-- `d` with its frame state changed. -/
def framed (f : FrameSt → FrameSt) (d : Device) : Device := { d with frames := f d.frames }

/-- A full Frame without partitions. -/
def frame0 : Frame := ⟨false, 2, 256, 0, some State.reset.d.frames.glob, []⟩

theorem witness_FrameCommandsStageApplyAndCommit :
    ready 5 base none 0x08 [(64, 1, 1), (128, 44, 0x1000)] = true ∧ ready 5 base none 0x09 [(64, 44, 0x1000), (128, 2, 3)] = true ∧
    securityUp base = true ∧ base.frames.staging = none ∧
    dNat (wrote 0x1008 (toBytes 4 256) base).mem (0x1000 + 8) 4 = 256 ∧
    dNat (wrote 0x1008 (toBytes 4 131072) base).mem (0x1000 + 8) 4 = 131072 ∧ ready 5 base none 0x0A [(128, 2, 3)] = true ∧
    (stageCheck NonVol.init base (toBytes 256 0)) = .error (2, stMalformed) ∧
    nextApp (framed (fun f => { f with apps := [⟨0, 1, none, false⟩] }) base) = some ⟨0, 1, none, false⟩ ∧
    (framed (fun f => { f with slots := [none, some frame0, none, none] }) base).frames.slots.getD 1 none = some frame0 ∧
    fullOk base = true ∧ ((List.range 16).all fun p => (schedGet base p).reclaim.isNone) = true ∧
    ((framed (fun f => { f with apps := [⟨0, 1, some frame0, true⟩] }) base).frames.apps.find? (·.committed)) = some ⟨0, 1, some frame0, true⟩ ∧
    ((taking none 0x0A [(128, 2, 3)] base).rings.taken.all fun y => decide (0 ≤ y.tag)) = true ∧
    ((framed (fun f => { f with apps := [⟨0, 1, some frame0, false⟩] }) base).frames.apps.find? fun a => a.frame.isSome) =
      some ⟨0, 1, some frame0, false⟩ ∧
    commitReady (framed (fun f => { f with apps := [⟨0, 1, some frame0, false⟩] }) base) frame0 = true := by
  and_intros <;> decide +kernel

/-- `d` with its firmware changed. -/
def fwed (f : Fw → Fw) (d : Device) : Device := { d with fw := f d.fw }

/-- A stored image with a later version. -/
def image2 : Image := ⟨0x01000001, 0, 1, 2, 1, 1⟩

theorem witness_FirmwareStagesActivatesAndBoots :
    ready 5 (fwed (fun f => { f with mode := .held }) base) none 0x02 [(64, 32, 1)] = true ∧
    base.fw.image = some ⟨0x01000000, 0, 1, 1, 1, 1⟩ ∧ eArg (takenOf none 0x02 [(64, 32, 1)]).entry 0 = 1 ∧
    eArg (takenOf none 0x02 [(64, 32, 0)]).entry 0 < 1 ∧ 1 < eArg (takenOf none 0x02 [(64, 32, 2)]).entry 0 ∧
    ready 5 base none 0x18 [(64, 44, 0x1000)] = true ∧ fwBusy base = false ∧
    dNat (wrote 0x101C (toBytes 4 4096) base).mem (0x1000 + 0x1C) 4 = 4096 ∧
    dNat (wrote 0x101C (toBytes 4 33554432) base).mem (0x1000 + 0x1C) 4 = 33554432 ∧
    ready 5 base none 0x19 [] = true ∧
    activateRefused { NonVol.init with bankB := some image2, pendingB := some true } base = false ∧ activationWaits base = false ∧
    (fwed (fun f => { f with deferred := some none }) base).fw.deferred = some none ∧ base.pwr.emergency = false ∧
    (fwed (fun f => { f with acting := some (none, 0) }) base).fw.acting.isSome = true ∧ deviceQuiet base = true ∧
    fwBusy base = false ∧ base.fw.mode ≠ .booting ∧
    State.reset.d.fw.mode = .booting ∧ State.reset.nv.pendingB = none ∧
    bootImage State.reset.nv State.reset.nv.activeB = some ⟨0x01000000, 0, 1, 1, 1, 1⟩ := by and_intros <;> decide +kernel

/-- Whichever way the sections read back, one of the clauses about the end of an activation speaks of it. -/
theorem witness_FirmwareStagesActivatesAndBoots_handoff :
    (∃ d, handoffGo NonVol.init base = (none, d)) ∨ ∃ p k d, handoffGo NonVol.init base = (some (p, k), d) := by
  obtain ⟨x, d⟩ := handoffGo NonVol.init base
  cases x with
  | none => exact .inl ⟨d, rfl⟩
  | some p => exact .inr ⟨p.1, p.2, d, rfl⟩

theorem witness_ProcessorsCrashAndRestart :
    base.fw.mode ≠ .booting ∧ base.fw.acting = none ∧ (smGet base.fw.procs Proc.init 1).st = .running ∧
    (recentCrashes 600000000001 [1, 2, 3]).length = 3 ∧
    (smGet (fwed (fun f => { f with procs := [(2, { Proc.init with st := .restarting })] }) base).fw.procs Proc.init 2).st = .restarting ∧
    (cluGet ({ base with clus := [(767, { Cluster.init with downFrom := some 0 })] } : Device) 767).downFrom = some 0 := by and_intros <;> decide +kernel
/-! ### Links and windows -/

/-- `d` with its link state changed. -/
def linked (f : Link → Link) (d : Device) : Device := { d with link := f d.link }

/-- Cage 0 in a state, since time 0. -/
def caged (st : CageSt) (d : Device) : Device := linked (fun l => { l with cages := [(0, { Cage.init with en := true, allowHalf := true, st := st, present := true })] }) d

/-- A DATA packet of node 0 on flow 0x10, key and generations 0. -/
def packet (op : Nat) (payload : List Byte) : StavaPacket := { version := 1, type := 0, openF := false, ordered := false, cmark := false, echo := false, srcNode := 0, dstNode := 0, flow := 0x10, seq := 1, ackSeq := 0, sendTime := 0, op := BitVec.ofNat 4 op, status := 1, srcCtx := 0, srcGen := 0, window := 0, winGen := 0, key := 0, tag := 7, offset := 0, length := 4, sack := 0, tail := [], payload := payload, poison := [] }

/-- Cage 0 up, the receive flow of node 0 known, and one read of tag 7 waiting. -/
def receiving (unit : Option (Nat × Nat)) : Device :=
  linked (fun l => { l with
    rx := [⟨0, 0x10, 1, [], 1, 0, false, 0, 0⟩], reads := [⟨7, 0, 0x10, 0, 0, unit, [(0, 0, 64)], 3⟩], ready := true, wintab := 0x400000 })
    (caged .up (mapped0 (resident0 base)))

/-- `receiving` with window 0 open at virtual address 0x200000 of context 0, 4,096 bytes, read and write, for any node and context. -/
def opened : Device :=
  wrote 0x400000 (toBytes 64 (pack [(0, 3, 7), (64, 52, 0x200000), (128, 41, 4096), (202, 1, 1), (211, 1, 1), (212, 1, 1)])) (receiving none)

/-- The receive flow of node 0, of which the packets before sequence number 1 have landed. -/
def flow0 : RxFlow := ⟨0, 0x10, 1, [], 1, 0, false, 0, 0⟩

/-- `opened` once the packet has left the cage and the flow has noted its time. -/
def opened2 : Device := rxPut { flow0 with lastAt := 100000 } (cageCnt 0 3 { opened with time := { opened.time with now := 100000 } })

theorem witness_PacketsInOrderLandWithTheirEffect :
    ((cageGet opened 0).rxq = [] ∧ cageUp opened 0 = true) ∧
    (cageGet (cageMod 0 (fun y => { y with rxq := [packet 0 []] }) opened) 0).rxq = packet 0 [] :: [] ∧
    (packet 0 []).dstNode.toNat = (cageCnt 0 3 opened).link.node ∧ inTime opened2 (packet 0 []) = true ∧
    rxGet (cageCnt 0 3 opened) 0 0x10 = some flow0 ∧ flow0.landed.contains 1 = false ∧ (1 + 2 ^ 24 - 1) % 2 ^ 24 < 256 ∧
    (256 + 2 ^ 24 - 1) % 2 ^ 24 = 255 ∧ 2 ^ 23 ≤ (0 + 2 ^ 24 - 1) % 2 ^ 24 ∧ [1].contains (packet 0 []).seq.toNat = true ∧
    winCheck opened2 (packet 0 []) true 4096 = none ∧ winCheck opened2 (packet 0 []) true 4097 = some 1 ∧
    winCheck opened2 (packet 1 []) false 4 = none ∧
    ((receiving none).link.reads.find? fun r => decide (r.tag = 7 ∧ r.node = 0)) = some ⟨7, 0, 0x10, 0, 0, none, [(0, 0, 64)], 3⟩ ∧
    ((receiving (some (0, 1))).link.reads.find? fun r => decide (r.tag = 7 ∧ r.node = 0)) =
      some ⟨7, 0, 0x10, 0, 0, some (0, 1), [(0, 0, 64)], 3⟩ ∧
    (packet 3 []).status ≠ 0 ∧ (packet 3 []).status = 1 := by and_intros <;> decide +kernel

/-- A sent packet of sequence 5, sent `n` times, last at time 0. -/
def sent5 (n : Nat) : TxPacket := ⟨5, packet 0 [], 0, 0, 0, n, none, none, none, 3⟩

theorem witness_FlowTimersActAtTheirTimes :
    ((cageGet opened 0).rxq = [] ∧ cageUp opened 0 = true) ∧ inTime opened2 (packet 0 []) = true ∧
    rxGet opened 0 0x10 = some flow0 ∧ flow0.unacked ≠ 0 ∧ flow0.lastAt + 1000000 ≤ (stAt 1000000 base).nv.up ∧ 0 + 2000 ≤ (stAt 2000 base).nv.up ∧
    ((txGet (linked (fun l => { l with tx := [⟨0, 0x10, true, 6, [sent5 1], [], 16, 0, 0, 0, none, 0⟩] }) base) 0 0x10).sent.find?
      (·.seq = 5)) = some (sent5 1) ∧ (sent5 1).lastAt + 20000 ≤ (stAt 20000 base).nv.up ∧
    ((linked (fun l => { l with suspended := [(3, 7, 9)] }) base).link.suspended.find? fun e => decide (e.1 = 3 ∧ e.2.1 = 7)) =
      some (3, 7, 9) ∧
    (txGet base 1023 4095).sent = [] ∧ (txGet base 1023 4095).queue = [] ∧
    (txGet base 1023 4095).lastAt + 1000000 ≤ (stAt 1000000 base).nv.up ∧
    flowFailed (stAt 20000 base).nv base ⟨0, 0x10, true, 6, [sent5 8], [], 16, 0, 0, 0, none, 0⟩ = true ∧
    flowFailed (stAt 19999 base).nv base ⟨0, 0x10, true, 6, [sent5 8], [], 16, 0, 0, 0, none, 0⟩ = false := by and_intros <;> decide +kernel

/-- A good frame for cage 0 of node 0, with an acknowledgement. -/
def frame1 : EtherFrame :=
  { fcsOk := true, dstMac := BitVec.ofNat 48 (macAddr 0 0 0), srcMac := 0, tag := none, etherType := 0x88B5, pause := false
    body := headerBytes48 { packet 0 [] with type := 1 }, poison := [] }

theorem witness_CagesFollowTheirStates :
    hostWrites (stAt 5 base).nv base 0 = true ∧ isOwner base 0 = true ∧ cageFitted NonVol.init 7 = true ∧
    (cageGet base 7).st = .disabled ∧ bit (3 : Word).toNat 0 = true ∧ bit (3 : Word).toNat 2 = false ∧
    bit (5 : Word).toNat 2 = true ∧ cageUp (cageMod 0 (fun x => { x with allowHalf := false, en := true }) (caged .upHalf base)) 0 = true ∧
    (cageGet (cageMod 0 (fun x => { x with present := true }) (caged .empty base)) 0).st = .empty ∧
    (cageGet (caged .present base) 0).st = .present ∧ (cageGet (caged .present base) 0).since + 5000000000 ≤ (stAt 5000000000 base).nv.up ∧
    (cageGet (caged .training base) 0).st = .training ∧ (cageGet (caged .training base) 0).allowHalf = true ∧
    (cageGet (caged .training base) 0).since + 2000000000 ≤ (stAt 2000000000 base).nv.up ∧ cageUp (caged .up base) 0 = true ∧
    (cageGet (caged .down base) 0).st = .down ∧ (cageGet (caged .down base) 0).since + 1000000000 ≤ (stAt 1000000000 base).nv.up ∧
    (cageGet (cageMod 0 (fun x => { x with present := false }) (caged .up base)) 0).st = .up ∧
    100000000 ≤ 100000000 ∧ 99999999 < 100000000 ∧ (cageGet (cageMod 0 (fun x => { x with allowHalf := false }) (caged .training base)) 0).allowHalf = false ∧
    (({ frame1 with fcsOk := false } : EtherFrame).fcsOk = false ∧ ({ frame1 with pause := true } : EtherFrame).pause = true) ∧
    (frame1.etherType.toNat = base.link.etherType ∧ frame1.dstMac.toNat = macAddr base.link.fabric base.link.node 0 ∧
      (packetOf frame1.body frame1.poison).isSome = true) ∧
    (List.replicate 255 (packet 0 [])).length < 256 ∧ 256 ≤ (List.replicate 256 (packet 0 [])).length ∧
    16 < ((List.replicate (min 17 17) 5 ++ ([] : List Nat)).take 17).length ∧ ¬ 16 < ((List.replicate (min 16 17) 5 ++ ([] : List Nat)).take 17).length := by and_intros <;> decide +kernel

theorem witness_WindowsOpenAndAreRevoked :
    base.link.valid = [] ∧ dpaOk base.mem ((1 : Word).toNat % 4096 * 2 ^ 32 + base.link.wintabStage.getD (base.link.wintab % 2 ^ 32)) (2 ^ 22) = true ∧
    ready 5 (wrote 0x1000 (toBytes 64 (pack [(0, 4, 0xF), (8, 8, 0)])) (linked (fun l => { l with ready := true, wintab := 0x400000 }) (resident0 base))) none 0x06
      [(64, 16, 1), (128, 44, 0x1000)] = true ∧
    bit (dNat (wrote 0x1000 (toBytes 64 (pack [(0, 4, 0xF), (8, 8, 0)])) base).mem 0x1000 64) 3 = true ∧
    ready 5 opened none 0x07 [(64, 16, 0)] = true ∧ bit (winDesc opened 0) 202 = true := by and_intros <;> decide +kernel

/-! ### Schedules and lending -/

/-- A slice table at DPA 0x1000: one slice of 1 ms with context 0 resident, saved at DPA 0x2000000. -/
def tableBytes : List Byte :=
  toBytes 64 (pack [(0, 7, 1), (8, 7, 1), (32, 32, 1000)]) ++ toBytes 32 (pack [(32, 4, 1), (64, 8, 0)]) ++
    toBytes 16 (pack [(0, 8, 0), (64, 44, 0x2000000)])

/-- The device that holds `tableBytes`. -/
def tabled : Device := wrote 0x1000 tableBytes (resident0 base)

/-- What the table says. -/
def table1 : SliceTable := ⟨20, 1000, 0, 0, 0, [⟨0, false, [0], []⟩], [(0, 0x2000000)], none⟩

/-- `d` with partition 0's scheduler changed. -/
def scheduled (f : PartSched → PartSched) (d : Device) : Device := schedMod 0 f d

/-- `d` with context 0 changed. -/
def ctxed (f : Ctx → Ctx) (d : Device) : Device := ctxMod 0 f d

/-- A reclaim with nothing left to depart. -/
def reclaim1 : Reclaim := ⟨0, table1, 0, [], 1, 1⟩

/-- A unit of context 0 that runs. -/
def unit0 : UnitRun := UnitRun.new 0 0 0 false false 1 4 [] none

/-- `d` with `unit0` on cluster 0 as running unit 0. -/
def running0 (d : Device) : Device := { d with clus := [(0, { Cluster.init with units := [(0, some unit0)] })] }

theorem witness_SlicesSwitchContextsAtBoundaries :
    ready 5 tabled none 0x11 [(64, 44, 0x1000)] = true ∧ tableCheck tabled 0 0x1000 = .ok table1 ∧
    (schedGet tabled 0).next = none ∧ ready 5 tabled none 0x10 [(64, 44, 0x1000)] = true ∧ applying tabled 0 = false ∧
    tabled.fw.acting = none ∧ procUp base 2 = true ∧
    (schedGet (scheduled (fun x => { x with reclaim := some reclaim1 }) tabled) 0).reclaim = some reclaim1 ∧ reclaim1.departing = [] ∧
    ((residents tabled 0).all fun y => (ctxGet tabled y).departing.isNone) = true ∧ (schedGet tabled 0).reclaim = none ∧
    upcoming (scheduled (fun x => { x with table := some table1, boundary := 1000000 }) tabled) 0 = some (table1, 1) ∧
    firmwareRuns tabled = true ∧ (sliceOf table1 1).coord = false ∧
    departureDue (ctxed (fun x => { x with departing := some 0 }) tabled) 0 = none ∧
    departReady (ctxed (fun x => { x with departing := some 0 }) tabled) 0 = true ∧
    unitGet (running0 tabled) 0 0 = some unit0 ∧ tileBudget tabled 0 = 0 ∧ halfMhz tabled 0 = 1600 ∧
    (schedGet (scheduled (fun x => { x with incoming := [0] }) tabled) 0).incoming.contains 0 = true ∧
    (ctxGet (ctxed (fun x => { x with st := .bound }) tabled) 0).st = .bound ∧
    (residents (ctxed (fun x => { x with st := .bound }) tabled) 0).length < maxResident tabled 0 ∧
    (schedGet (scheduled (fun x => { x with notice := some 0 }) tabled) 0).notice = some 0 ∧ noticeSeen tabled 0 = false := by
  and_intros <;> decide +kernel

/-! ### Faults, resets and tests -/

/-- A test package of 1 ms for clusters and arrays. -/
def package1 : TestPkg := ⟨1, 1000, 3⟩

/-- `d` with its fault block changed. -/
def faulted (f : Flt → Flt) (d : Device) : Device := { d with flt := f d.flt }

theorem witness_FusesChangeOnlyByTheirCommands :
    ready 5 { base with mem := { base.mem with sets := List.replicate 8 StripeSet.init } } none 0x20 [(64, 5, 31)] = true ∧
    ready 5 base none 0x21 [(64, 44, 0x1000)] = true ∧ NonVol.init.policyChanges < 8 ∧
    dNat (wrote 0x1000 (toBytes 64 (pack [(0, 4, 4), (32, 4, 1)])) base).mem 0x1000 64 = pack [(0, 4, 4), (32, 4, 1)] ∧
    ready 5 base none 0x22 [(64, 44, 0x1000)] = true ∧
    packageHeader (pack [(0, 32, 0x5450594F), (32, 16, 1), (64, 32, 1), (96, 32, 4096), (128, 16, 1000), (144, 2, 3)]) = some package1 ∧
    ready 5 (resident0 base) none 0x23 [(64, 3, 1)] = true ∧ ready 5 (resident0 base) none 0x23 [(64, 3, 2), (128, 10, 767)] = true ∧
    ready 5 (resident0 base) none 0x23 [(64, 3, 3)] = true ∧ ready 5 base none 0x23 [(64, 3, 4)] = true ∧
    ready 5 base none 0x23 [(64, 3, 5)] = true := by and_intros <;> decide +kernel

theorem witness_TeardownHangAndResetsRunTheirCourse :
    (ctxGet (ctxed (fun x => { x with st := .tearing }) (resident0 base)) 0).st = .tearing ∧
    tearReady (stAt 5 base).nv (ctxed (fun x => { x with st := .tearing }) (resident0 base)) 0 = true ∧
    (ctxGet (resident0 base) 0).tearFrom + 200000 ≤ (stAt 200000 base).nv.up ∧
    quiesceEnd (stAt 100000 base).nv (ctxed (fun x => { x with st := .quiescing }) (resident0 base)) 0 = 100000 ∧
    hung (running0 (resident0 base)) 0 = some (0, 0, 0, 0, false) ∧ resident (running0 (resident0 base)) 0 = true ∧
    (cluGet ({ (resident0 base) with clus := [(0, { Cluster.init with reset := some (0, 1000001) })] } : Device) 0).reset = some (0, 1000001) ∧
    partOf (declareDead (stAt 1000000 base).nv 0 3 (resident0 base)) 0 = some 0 ∧
    (schedGet (declareDead (stAt 1000000 base).nv 0 3 (resident0 base)) 0).reset = none ∧
    (schedGet (scheduled (fun x => { x with reset := some 0 }) (resident0 base)) 0).reset = some 0 ∧
    (stAt 0 base).nv.mainOn = true ∧ (faulted (fun f => { f with cycleDue := true }) base).flt.cycleDue = true ∧
    (faulted (fun f => { f with resetDue := some 1 }) base).flt.resetDue.isSome = true := by and_intros <;> decide +kernel

theorem witness_TestsRunOnIdleUnits :
    (faulted (fun f => { f with pkg := some package1 }) base).flt.pkg = some package1 ∧
    testEligible (stAt 0 base).nv base 767 1000000 = true ∧ firmwareRuns base = true ∧ securityUp base = true ∧
    ((testUnits package1 767).any fun u => testDue (stAt 0 base).nv base u.1 u.2) = true ∧
    (cluGet ({ base with clus := [(767, { Cluster.init with test := some 9 })] } : Device) 767).test = some 9 ∧
    testInterrupted (resident0 base) 0 = true ∧
    (healthGet (faulted (fun f => { f with units := [(healthKey 0 767, { UnitHealth.init with st := .suspect })] }) base) 0 767).st = .suspect ∧
    max 0 ((none : Option Nat).getD 0) + 3600000000000 ≤ (stAt 3600000000000 base).nv.up ∧
    (healthGet base 2 63).st = .healthy ∧ hostWrites (stAt 5 base).nv base 0 = true := by and_intros <;> decide +kernel
/-! ### Programs and streams -/

/-- A context that owns 1 GiB of memory at its own addresses. -/
def owner0 : Device := mapped0 (resident0 base)

/-- A stream of BF16 rows: FWD, ACC, Varnish; one output row of 8, a reduction of 128. -/
def desc0 : StreamDesc := { stream := 3, spillOk := false, passThrough := false, xposeFetch := false, digest := false, zmapSkip := false, speculate := false, zmapRecord := false, pathLen := 5, arrayOp := 1, path := [0, 3, 5, 7, 8], pathWord := 0x87530, wAddr := 0x200000, wFmt := 1, wPitch := 1, xAddr := 0x210000, xFmt := 1, xPitch := 4, yAddr := 0x220000, yFmt := 1, yPitch := 1, m := 1, round := 0, ksplit := 0, k := 128, wTree := 0, n := 8, glaze := 0, tm := 1, tn := 8, tk := 128, tp := 1, memOrder := 0, palOrder := 0, home := 0, depStream := 0, depKind := 0, palBase := 0, palSize := 64, recordSlot := 0 }

/-- A stream record slot of zeros. -/
def slot0 : SlotP := ⟨0, 0, 0, 0, 0, 0⟩

/-- The entry of a stream that no SORT governs. -/
def entry0 (x : StreamDesc) : Entry := .stream x slot0 none none none none

/-- The stream of entry 0, started, with its Tally slot 0 in cluster 0. -/
def run0 : StreamRun := StreamRun.new 0 0 0 2 0 [] false 0

/-- A program of those entries, `next` of them started, with those streams active. -/
def prog0 (es : List Entry) (next : Nat) (runs : List StreamRun) : Prog := ⟨0, ⟨es.length, 0x300000, 16, 0x310000, 0x320000⟩, es, next, 0, none, runs, [], none, false, false, 0⟩

/-- The device whose context 0 runs that program. -/
def programmed (g : Prog) : Device := ctxed (fun x => { x with prog := some g }) owner0

/-- A checkpoint marker. -/
def marker (kind : Nat) : Marker := ⟨kind, 0, false, false, 0, 0, 1⟩

/-- A SORT descriptor of operation `op`: 2 tokens, 1 choice of 2 candidates, 2 experts with room for 1. -/
def sort0 (op : Nat) : SortDesc := { stream := 4, op := op, scale := false, policy := 1, topk := 1, cand := 2, experts := 2, t := 2, rounds := 1, routeAddr := 0x230000, srcAddr := 0x240000, srcFmt := 1, srcPitch := 1, dstAddr := 0x250000, dstFmt := 1, dstPitch := 1, listAddr := 0x260000, cap := 1, self := 0, rowLen := 8, wStride := 0, group := 1, home := 0, depStream := 0, depKind := 0, tag := 5 }

theorem witness_ProgramsAreAdmittedAndEnd :
    ready 5 owner0 (some 0) 0x40 [(64, 52, 0x1000)] = true ∧
    submitTurn (taking (some 0) 0x40 [(64, 52, 0x1000)] owner0) 0 0 = true ∧
    gateOpen owner0 0 (takenOf (some 0) 0x40 [(64, 52, 0x1000), (324, 1, 1)]).entry = true ∧
    eWaitEn (takenOf (some 0) 0x40 [(64, 52, 0x1000), (324, 1, 1)]).entry = true ∧
    admitProgram NonVol.init (wrote 0x1000 (toBytes 64 1) owner0) 0 0x1000 = .ok (⟨1, 0, 0, 0, 0⟩, [.finish]) ∧
    admitProgram NonVol.init owner0 0 0x1000 = .error (.refuse stMalformed 0xFFFF) ∧
    (ctxGet (programmed (prog0 [.marker (marker 1)] 0 [])) 0).prog = some (prog0 [.marker (marker 1)] 0 []) ∧
    (prog0 [.marker (marker 1)] 0 []).entries[(prog0 [.marker (marker 1)] 0 []).next]? = some (.marker (marker 1)) ∧
    mayDeal (programmed (prog0 [.marker (marker 1)] 0 [])) 0 = true ∧
    ctxRead (programmed (prog0 [.marker (marker 2)] 0 [])) 0 1 (recordAt (prog0 [.marker (marker 2)] 0 []) 1 + 4) 4 = .ok [0, 0, 0, 0] ∧
    slotClusters (programmed (prog0 [.marker (marker 2)] 0 [])) 0 (prog0 [.marker (marker 2)] 0 []) [] = .ok 0 ∧
    progEnded (prog0 [.finish] 0 []) = true ∧ ctxLive (programmed (prog0 [.finish] 0 [])) 0 = true := by and_intros <;> decide +kernel

theorem witness_EntriesStartRecordAndComplete :
    mayDeal (programmed (prog0 [entry0 desc0] 0 [])) 0 = true ∧
    (prog0 [entry0 desc0] 0 []).entries[(prog0 [entry0 desc0] 0 []).next]? = some (entry0 desc0) ∧
    depMet (prog0 [entry0 desc0] 0 []) 0 0 = true ∧ govDone (prog0 [entry0 desc0] 0 []) none = true ∧
    partCluster (programmed (prog0 [entry0 desc0] 0 [])) 0 0 = some 0 ∧ freeSlot (programmed (prog0 [entry0 desc0] 0 [])) 0 = some 0 ∧
    govCounts (programmed (prog0 [entry0 desc0] 0 [])) 0 none = .ok ([], 0) ∧
    (usesSpill desc0 && spillBusy (prog0 [entry0 desc0] 0 [])) = false ∧
    govCounts (programmed (prog0 [entry0 desc0] 0 [])) 0 (some (sort0 0)) = .ok ([], stList) ∧
    depMet (prog0 [.sort (sort0 0)] 0 []) 0 0 = true ∧
    runGet (programmed (prog0 [entry0 desc0] 1 [run0])) 0 0 = some run0 ∧
    streamInfo (programmed (prog0 [entry0 desc0] 1 [run0])) 0 0 = some ⟨desc0, desc0, slot0, none, none, none, none⟩ ∧
    refusalOpen (programmed (prog0 [entry0 desc0] 1 [run0])) 0 { run0 with remoteStatus := 5 } = false ∧ run0.saved = none ∧
    ({ run0 with remoteStatus := 5 } : StreamRun).remoteStatus ≠ 0 ∧ ({ desc0 with passThrough := true } : StreamDesc).passThrough = true ∧
    has desc0 7 = true ∧ allCommitted { (programmed (prog0 [entry0 desc0] 1 [run0])) with clus := [(0, { Cluster.init with slots := [(0, ⟨3, 0, true, false, 1, 1, 1, 0, 0⟩)] })] } 0 run0 = true ∧
    zeroTiles (programmed (prog0 [entry0 desc0] 1 [run0])) 0 ⟨desc0, desc0, slot0, none, none, none, none⟩ = .ok 0 ∧
    (compareRef ⟨desc0, desc0, slot0, none, none, none, none⟩ run0 0).2.1 = false ∧
    entryOver { (programmed (prog0 [entry0 desc0] 1 [{ run0 with recorded := true }])) with clus := [(0, { Cluster.init with slots := [(0, ⟨3, 0, true, false, 1, 1, 1, 0, 0⟩)] })] } 0 { run0 with recorded := true } = true := by
  and_intros <;> decide +kernel
/-! ### Units -/

/-- What admission knows of such a stream. -/
def info (x : StreamDesc) : StreamInfo := ⟨x, x, slot0, none, none, none, none⟩

/-- Context 0 runs one started stream of descriptor `x`; cluster 0 holds its Tally slot with one unit, claimed or running. -/
def working (x : StreamDesc) (r : StreamRun) (next done : Nat) (claim : Option UnitRun) (us : SMap (Option UnitRun)) : Device :=
  { (programmed (prog0 [entry0 x] 1 [r])) with
    clus := [(0, { Cluster.init with claimed := claim, units := us, slots := [(0, ⟨3, 0, true, false, next, 1, done, 0, 0⟩)] })] }

/-- Every word that the stream's one unit reads. -/
def allWords : List Nat := (List.range 4).map (0x210000 / 64 + ·) ++ (List.range 128).map (0x200000 / 64 + ·)

/-- Unit 0 with its operands landed, all its passes run or none. -/
def unitAt (pos : Nat) (drained sent : List Nat) : UnitRun := { unit0 with pos := pos, have_ := allWords, drained := drained, sent := sent }

/-- A move stream of one row. -/
def move0 : StreamDesc := { desc0 with arrayOp := 0, path := [0, 8], pathLen := 2 }

/-- A ROW stream of one row under kernel slot 1. -/
def rows0 : StreamDesc := { desc0 with arrayOp := 0, path := [0, 6, 7, 8], pathLen := 4, glaze := 1 }

/-- A predicting stream: SKETCH before the array. -/
def sketch0 : StreamDesc := { desc0 with path := [0, 11, 3, 5, 7, 8], pathLen := 6, speculate := true }

/-- Context 0 runs a started SORT entry of operation `op`, one of whose move units cluster 0 has claimed. -/
def sortClaimed (op : Nat) : Device :=
  { (programmed (prog0 [.sort (sort0 op)] 1 [run0])) with
    clus := [(0, { Cluster.init with claimed := some unit0, slots := [(0, ⟨4, 0, true, false, 1, 1, 0, 0, 0⟩)] })] }

theorem witness_UnitsAreClaimedStartedAndCommitted :
    (cluGet (working desc0 run0 0 0 none []) 0).claimed = none ∧ takesUnits NonVol.init (working desc0 run0 0 0 none []) 0 = true ∧
    claimFrom (working desc0 { run0 with ready := true } 0 0 none []) 0 = some (0, { run0 with ready := true }) ∧ nextUnit (working desc0 run0 0 0 none []) run0 = (0, false) ∧
    streamInfo (working desc0 run0 0 0 none []) 0 0 = some (info desc0) ∧
    ((partOf (working desc0 run0 0 0 none []) 0).bind (lostCopy (working desc0 run0 0 0 none []))) = none ∧
    ((partOf (working desc0 { run0 with staged := [0] } 1 1 none []) 0).bind (lostCopy (working desc0 { run0 with staged := [0] } 1 1 none []))) =
      some (0, 0, 0) ∧
    predTry NonVol.init 0 claimPlace (working desc0 run0 1 0 (some unit0) []) = working desc0 run0 1 0 (some unit0) [] ∧
    predTry NonVol.init 0 claimPlace (sortClaimed 0) = sortClaimed 0 ∧ (cluGet (sortClaimed 0) 0).claimed = some unit0 ∧
    fitsOn (sortClaimed 0) 0 0 0 = true ∧ mayDeal (sortClaimed 0) 0 = true ∧ streamInfo (sortClaimed 0) 0 0 = none ∧
    (cluGet (working desc0 run0 1 0 (some unit0) []) 0).claimed = some unit0 ∧
    fitsOn (working desc0 run0 1 0 (some unit0) []) 0 0 0 = true ∧ mayDeal (working desc0 run0 1 0 none []) 0 = true ∧
    holdsDigest desc0 = false ∧ has desc0 6 = false ∧ exSource desc0 = false ∧
    unitStartOk (working desc0 run0 1 0 (some unit0) []) 0 0 desc0 = true ∧
    unitOver (working desc0 run0 1 0 none [(0, some (unitAt 1 [0] []))]) 0 0 = true ∧
    unitWrites (cluGet (working desc0 run0 1 0 none [(0, some (unitAt 1 [0] []))]) 0) 0 = false ∧
    unitOwes (working desc0 run0 1 0 none [(0, some (unitAt 1 [0] []))]) 0 0 = false ∧
    (ctxGet (ctxed (fun x => { x with bubbles := [⟨0, 1000, 0, 1, 0, true, 0⟩] }) owner0) 0).bubbles[0]? = some ⟨0, 1000, 0, 1, 0, true, 0⟩ ∧
    (bubbleSpan ⟨0, 1000, 0, 1, 0, true, 0⟩ 0).1 ≤ owner0.time.now ∧
    wantsCores (working rows0 run0 1 0 (some unit0) []) 0 0 = true ∧
    otherParcels (working rows0 run0 1 0 (some unit0) []) 0 0 = false := by and_intros <;> decide +kernel

/-- The one pass of the stream. -/
def pass0 : PassAt := ⟨0, 0, 0, 0⟩

theorem witness_PassesDrainsAndCombinations_array :
    predTry NonVol.init 0 0 (working desc0 run0 1 0 none [(0, some (unitAt 0 [] []))]) = working desc0 run0 1 0 none [(0, some (unitAt 0 [] []))] ∧
    (unitAt 0 [] []).predRead = true ∧ (unitAt 0 [] []).bad = [] ∧ maskWords (info desc0) (unitAt 0 [] []) = [] ∧ initWords (info desc0) (unitAt 0 [] []) = [] ∧
    maskWords { (info desc0) with slot := { slot0 with maskKind := 1, maskAddr := 0x210000 } } (unitAt 0 [] []) = [0x210000 / 64] ∧
    unitInfo (working desc0 run0 1 0 none [(0, some (unitAt 0 [] []))]) 0 0 = some (unitAt 0 [] [], info desc0) ∧
    (unitPasses (info desc0) (unitAt 0 [] []) []).length = 1 ∧ (unitBounds (info desc0) (unitAt 0 [] []) false)[0]? = none ∧
    ((unitPasses (info desc0) (unitAt 0 [] []) []).all fun p =>
      (passX (info desc0) (regionOf (info desc0) (unitAt 0 [] [])) [] [] p ++ passW (info desc0) (regionOf (info desc0) (unitAt 0 [] [])) [] [] p ++
        initWords (info desc0) (unitAt 0 [] [])).all allWords.contains &&
      hasRoom (working desc0 run0 1 0 none [(0, some (unitAt 0 [] []))]) 0 (info desc0) (unitAt 0 [] []) p) = true ∧
    (unitBounds (info sketch0) { unit0 with pred := [0] } false).length = 1 ∧
    (unitPasses (info sketch0) { unit0 with pred := [0], pos := 1 } [])[1]? = none ∧
    has desc0 5 = true ∧ stripSet (info desc0) (regionOf (info desc0) (unitAt 1 [] [])) 0 = some ⟨0, [0], [0]⟩ ∧
    closedSet (info desc0) (regionOf (info desc0) (unitAt 1 [] [])) (unitAt 1 [] []) [] false ⟨0, [0], [0]⟩ = true ∧
    (parcelOpen (working desc0 run0 1 0 none [(0, some (unitAt 1 [] []))]) 0 (unitAt 1 [] []) fun _ => true) = false ∧
    ({ desc0 with ksplit := 1 } : StreamDesc).ksplit ≠ 0 ∧ (unitAt 1 [] []).combine = false ∧
    elementParcels (info { desc0 with path := [0, 3, 5, 6, 7, 8] }) (regionOf (info desc0) (unitAt 1 [] [])) (unitAt 1 [] []) [] 0 ⟨0, [0], [0]⟩ ≠ [] := by
  and_intros <;> decide +kernel

theorem witness_PassesDrainsAndCombinations_rows :
    unitInfo (working rows0 run0 1 0 none [(0, some (unitAt 0 [] []))]) 0 0 = some (unitAt 0 [] [], info rows0) ∧
    has rows0 5 = false ∧ isRow rows0 = true ∧ 0 < (regionOf (info rows0) (unitAt 0 [] [])).nr ∧
    ((plainWords (info rows0) (unitAt 0 [] []) 0).all allWords.contains) = true ∧
    (parcelOpen (working rows0 run0 1 0 none [(0, some (unitAt 0 [] [0]))]) 0 (unitAt 0 [] [0]) fun _ => true) = false ∧
    isRow move0 = false ∧ exSource move0 = false ∧ ((plainWords (info move0) (unitAt 0 [] []) 0).all allWords.contains) = true ∧
    exSource { move0 with path := [9, 8] } = true ∧ (base.link.reads.any fun x => x.unit = some (0, 0)) = false := by
  and_intros <;> decide +kernel

/-- Context 0 runs a started SORT entry of operation `op`. -/
def sorting (op : Nat) : Device :=
  { (programmed (prog0 [.sort (sort0 op)] 1 [run0])) with
    clus := [(0, { Cluster.init with units := [(0, some unit0)], slots := [(0, ⟨4, 0, true, false, 0, 1, 0, 0, 0⟩)] })] }

theorem witness_PassesDrainsAndCombinations_tiles :
    mayCombine (working { desc0 with ksplit := 1, k := 256 } { run0 with committed := [0, 1] } 2 2 none []) 0 0 0 { run0 with committed := [0, 1] }
      (info { desc0 with ksplit := 1, k := 256 }) = true ∧
    (combineRows (working { desc0 with ksplit := 1, k := 256 } run0 2 2 none []) 0 (info { desc0 with ksplit := 1, k := 256 })
      (unitRegion (info { desc0 with ksplit := 1, k := 256 }) 0 false true) [0] []).toOption.isSome = true ∧
    smGet ({ run0 with staged := [0], copier := [(0, 1)] } : StreamRun).copier 0 0 = 0 + 1 ∧ takesUnits NonVol.init (sorting 0) 0 = true ∧
    ({ run0 with staged := [0] } : StreamRun).staged.contains 0 = true ∧ ({ run0 with staged := [0] } : StreamRun).copied.contains 0 = false ∧
    sortInfo (sorting 0) 0 0 = some (sort0 0) ∧ run0.ready = false ∧ mayDeal (sorting 0) 0 = true ∧ outOfService (sorting 0) 0 = false ∧
    (ctxRead (sorting 0) 0 1 (sort0 0).routeAddr 16).toOption = some (List.replicate 16 0) ∧
    (ctxRead (sorting 0) 0 1 (sort0 0).listAddr 64).toOption.isSome = true ∧
    ((words4 1 (toBytes 4 0x10005)).all (arrivedWord (sort0 3))) = true ∧ awaitsRows (sort0 3) = true ∧ awaitsRows (sort0 2) = false ∧
    awaitsRows { sort0 2 with group := 2 } = true ∧ resident (sorting 3) 0 = true ∧
    unitGet (sorting 0) 0 0 = some unit0 ∧ listsServe (sorting 0) 0 run0 (sort0 0) = .ok true := by and_intros <;> decide +kernel
/-! ### Cores -/

/-- The parcel that core 0 runs, of context 0. -/
def parcel0 : ParcelRun := ⟨⟨0, 0, 0, 0, 0, 1, [], [], 0, 0, 0⟩, 0, 0, 1, true⟩

/-- Cluster 0 with core 0 at the start of kernel frame 0, which holds the words `ws`; `f` changes the core. -/
def coreAt (ws : List Word) (f : Core → Core) : Device :=
  { owner0 with
    clus := [(0, { Cluster.init with coreCtx := some 0, frames := [(0, some ⟨0, 1, 0x100000, ws.length, ws, 0⟩)], xlates := [⟨0, 0, 2 ^ 30, 0, true⟩] })]
    cores := [(0, f { Core.init with run := some parcel0, pc := 0x04000000 })] }

/-- Core 0 issues the word of `i` under its row. -/
def issues (f : Core → Core) (row : CoreRow) (i : CoreInstr) : Bool :=
  (coreGet (coreAt [encodeCore i] f) 0 0).run = some parcel0 && (coreGet (coreAt [encodeCore i] f) 0 0).wait = .none &&
    fetchWord (coreAt [encodeCore i] f) 0 (coreGet (coreAt [encodeCore i] f) 0 0) = .ok (encodeCore i) &&
    coreRow (encodeCore i) = row && decodeCore (encodeCore i) = some i &&
    operandsReady (coreGet (coreAt [encodeCore i] f) 0 0) i

/-- What `issues` says is what the statements ask. -/
theorem issues_core {f : Core → Core} {row : CoreRow} {i : CoreInstr} (h : issues f row i = true) :
    CoreIssues (coreAt [encodeCore i] f) 0 0 row (encodeCore i) parcel0 i := by
  simp only [issues, Bool.and_eq_true, decide_eq_true_eq] at h
  obtain ⟨⟨⟨⟨⟨h1, h2⟩, h3⟩, h4⟩, h5⟩, h6⟩ := h
  exact ⟨h1, h2, h3, h4, h5, h6⟩

/-- The device at which core 0 issues `i` with scalar registers `s`. -/
def at0 (s : SMap Word) (i : CoreInstr) : Device := coreAt [encodeCore i] fun x => { x with s := s }

theorem witness_ScalarInstructionsAct_issue :
    (([(.sAlu, .alu .max 31 30 29), (.sAlu, .alu .add 0 0 0), (.sImm, .imm .add 1 2 0x800), (.upper, .upper 3 0xFFFFF),
      (.branch, .branch .geu 1 2 0x7FFF), (.jump, .jump 1 0 1), (.load, .load .lbu 1 2 0x4000), (.store, .store .sb 1 2 0),
      (.csrr, .csrr 4 1), (.csrw, .csrw 4 4)] : List (CoreRow × CoreInstr)).all fun e => issues id e.1 e.2) = true := by decide +kernel

theorem witness_ScalarInstructionsAct_addresses :
    coreCheck (at0 [] (.load .lw 1 0 0)) 0 0x3FFC 4 4 false = none ∧ coreCheck (at0 [] (.load .lw 1 0 0)) 0 0x3FFE 4 4 false = some ⟨2, 0x3FFE, 4⟩ ∧
    coreCheck (at0 [] (.load .lw 1 0 0)) 0 0x4000 4 4 false = some ⟨3, 0x4000, 0⟩ ∧
    addrOf (sReg (coreGet (at0 [(2, 0x4000)] (.load .lw 1 2 0x7FFC)) 0 0) 2) (0x7FFC : BitVec 15).toInt = 0x3FFC ∧
    coreCheck (at0 [] (.store .sw 1 0 0)) 0 0x03000000 4 4 true = some ⟨3, 0x03000000, 0⟩ ∧
    coreCheck (at0 [] (.store .sw 1 0 0)) 0 0 4 4 true = none ∧
    (coreGet (coreAt [] fun x => { x with loads := [(1, 7)] }) 0 0).loads = (1, 7) :: [] := by and_intros <;> decide +kernel

theorem witness_VectorInstructionsAct_issue :
    (([(.vAlu, .valu .vmov .int8 3 15 14 13 12), (.vld, .vld 0 1 2 .w32 0), (.vst, .vst 0 1 2 .w8 0xFF), (.vgather, .vgather 1 2 3 4 .w16),
      (.vscatter, .vscatter 1 2 3 4 .w16), (.vbcast, .vbcast 0 1 2 .w32), (.vcvt, .vcvt .bf16 .fp32 .stochastic 1 2 3 false),
      (.block, .block .mxfp8 false 1 2 3 .nearest false), (.fld, .fld 0 1 2 0 .w32), (.fst, .fst 0 1 2 0 .w32),
      (.fgather, .fgather 0 1 2 3 .w32), (.fscatter, .fscatter 0 1 2 3 .w32)] : List (CoreRow × CoreInstr)).all fun e => issues id e.1 e.2) =
      true := by decide +kernel

/-- A core whose far base is 0x100000 and whose masks are full. -/
def far0 (i : CoreInstr) : Device := at0 [(2, 0x100000)] i

theorem witness_VectorInstructionsAct_addresses :
    vecCheck (at0 [] (.vld 0 1 0 .w32 0)) 0 0 4 lanes false = none ∧ vecCheck (at0 [] (.vld 0 1 0 .w32 0)) 0 2 4 lanes false = some ⟨2, 2, 4⟩ ∧
    vecCheck (at0 [] (.vst 0 1 0 .w32 0)) 0 0x3FC4 4 lanes true = some ⟨3, 0x3FC4, 0⟩ ∧
    gatherCheck (at0 [] (.vgather 0 1 0 2 .w16)) 0 Core.init 0 2 .w16 lanes false = none ∧
    (gatherCheck (at0 [] (.vgather 0 1 2 2 .w16)) 0 { Core.init with s := [(2, 0x4000)] } 2 2 .w16 lanes true).isSome = true ∧
    coreCheck (at0 [] (.block .mxfp8 false 1 2 3 .nearest false)) 0 0 128 4 false = none ∧
    coreCheck (at0 [] (.block .mxfp8 false 1 2 3 .nearest false)) 0 0 33 1 true = none ∧
    coreCheck (at0 [] (.block .mxfp8 false 1 2 3 .nearest false)) 0 0x3FE0 33 1 true ≠ none ∧
    farMisaligned 64 [((16 + 0xFFFF, 0x100000, 64) : FarElem)] = none ∧
    (farPlaces (far0 (.fld 0 1 2 0 .w32)) 0 0 false [((16 + 0xFFFF, 0x100000, 64) : FarElem)]).toOption =
      some [((16 + 0xFFFF, 0x100000, 64), 0x100000)] ∧
    storeAhead (far0 (.fld 0 1 2 0 .w32)) 0 0 [((16, 0x100000, 64), 0x100000)] = false ∧
    farAddr (coreGet (far0 (.fst 0 1 2 0 .w32)) 0 0) 2 = 0x100000 ∧
    loadAhead (coreGet (far0 (.fst 0 1 2 0 .w32)) 0 0) [((0, 0x100000, 64) : FarElem)] = false ∧
    farMisaligned 4 (farElems (coreGet (far0 (.fgather 0 1 2 3 .w32)) 0 0) 0 2 3 .w32) = none ∧
    (farPlaces (far0 (.fscatter 0 1 2 3 .w32)) 0 0 true (farElems (coreGet (far0 (.fscatter 0 1 2 3 .w32)) 0 0) 0 2 3 .w32)).toOption.isSome = true := by
  and_intros <;> decide +kernel

/-- A device whose cluster 0 has a parcel waiting for kernel slot 1, with the kernel of that entry. -/
def parcelled (shipped : Nat) (frames : SMap (Option KernelFrame)) : Device :=
  { (programmed (prog0 [.stream rows0 slot0 (some ⟨0x100000, 1, 0, shipped, 0, 0, 0⟩) none none none] 1 [run0])) with
    clus := [(0, { Cluster.init with coreCtx := some 0, parcels := [parcel0.parcel], frames := frames })] }

theorem witness_ParcelsAndSynchronisation_parcels :
    (cluGet (parcelled 3 []) 0).parcels = [parcel0.parcel] ∧ idleCore (parcelled 3 []) 0 = some 0 ∧
    (parcelKernel (parcelled 3 []) parcel0.parcel).isSome = true ∧ takesUnits NonVol.init (parcelled 3 []) 0 = true ∧
    frameOf (cluGet (parcelled 0 [(3, some ⟨0, 1, 0x100000, 1, [], 0⟩)]) 0) 0 1 ⟨0x100000, 1, 0, 0, 0, 0, 0⟩ = some 3 ∧
    frameOf (cluGet (parcelled 0 [(3, some ⟨0, 1, 0x100040, 1, [], 0⟩)]) 0) 0 1 ⟨0x100000, 1, 0, 0, 0, 0, 0⟩ = none ∧
    frameFor (parcelled 0 []) 0 = some 0 ∧ (ctxRead (parcelled 0 []) 0 0 0x100000 4).toOption = some [0, 0, 0, 0] := by
  and_intros <;> decide +kernel

theorem witness_ParcelsAndSynchronisation_issue :
    (([(.semwait, .semwait 63 1), (.sempost, .sempost 0 1), (.barrier, .barrier 7 1), (.evwait, .evwait 15 1), (.evadd, .evadd 15 1),
      (.fenceCore, .fence 0 0), (.fenceFar, .fenceFar 0 0), (.gdone, .gdone 0 0)] : List (CoreRow × CoreInstr)).all fun e =>
      issues (fun x => { x with s := [(1, 64)] }) e.1 e.2) = true := by decide +kernel

/-- Cluster 0 with its semaphores and barriers. -/
def objects (sems : SMap Sem) (bars : SMap Barrier) : Device := { owner0 with clus := [(0, { Cluster.init with sems := sems, bars := bars })] }

theorem witness_ParcelsAndSynchronisation_objects :
    (sReg (coreGet (at0 [] (.semwait 0 1)) 0 0) 1).toNat = 0 ∧ 1 ≤ (semGet (objects [(63, ⟨1, []⟩)] []) 0 63).count ∧
    (semGet (objects [(63, ⟨0, [(5, 1)]⟩)] []) 0 63).waiters = (5, 1) :: [] ∧ (semGet (objects [] []) 0 0).count < 1 ∧
    1 ≤ (semGet (objects [(63, ⟨1, [(5, 1)]⟩)] []) 0 63).count ∧ 65534 + 1 ≤ 65535 ∧ 65535 < 65535 + 1 ∧
    (barGet (objects [] []) 0 7).arrived = [] ∧ (barGet (objects [] [(7, ⟨[0, 1], 2, 0⟩)]) 0 7).arrived ≠ [] ∧
    (barGet (objects [] [(7, ⟨[0, 1], 2, 0⟩)]) 0 7).n ≠ 64 ∧
    (barGet (objects [] [(7, ⟨[0, 1], 2, 0⟩)]) 0 7).n ≤ (barGet (objects [] [(7, ⟨[0, 1], 2, 0⟩)]) 0 7).arrived.length ∧
    (coreGet (coreAt [] fun x => { x with wait := .ev 15 0 }) 0 0).wait = .ev 15 0 ∧ ctrPassed owner0 0 15 0 = true ∧
    farFenced (at0 [] (.evadd 15 1)) 0 0 = true := by and_intros <;> decide +kernel
/-! ### Memory -/

/-- A cluster 0 whose unit 0 of the stream `desc0` has landed nothing yet. -/
def fetching : Device := working desc0 run0 1 0 none [(0, some unit0)]

/-- A unit of a move stream of one row, its row not read. -/
def moving : Device := working move0 run0 1 0 none [(0, some unit0)]

/-- A tag of that unit in flight, of one code word. -/
def tag0 : Tag := ⟨⟨0, 0⟩, 0, [0x200000 / 64], [0x200000 / 64], [0x200000 / 64], 0, [], none, [], none, [], [], true⟩

/-- `d` with cluster 0 changed. -/
def clus0 (f : Cluster → Cluster) (d : Device) : Device := cluMod 0 f d

/-- A write of 4 bytes at DPA 0x220000 for unit `u`. -/
def write0 (us : List Nat) : WriteReq := ⟨0, us, none, 0x220000, [1, 2, 3, 4]⟩

theorem witness_MemoryTagsLandAndWrite_take :
    userCtx fetching 0 ⟨0, 0⟩ = some 0 ∧ (lessEach [0x210000 / 64] (userWants moving 0 ⟨0, 0⟩)).isEmpty = true ∧
    mayTake moving 0 ⟨0, 0⟩ = true ∧ outOfService moving 0 = false := by and_intros <;> decide +kernel

theorem witness_MemoryTagsLandAndWrite_places :
    placesOf fetching 0 0 [0x200000 / 64] = .ok [(0x200000 / 64, 0x200000 / 64, ((physOf fetching.mem 0x200000).getD 0) / 64)] ∧
    (placesOf fetching 0 0 ((List.range 32).map (0x210000 / 64 + ·))).toOption.isSome = true ∧
    atQuota fetching 0 ⟨0, 0⟩ (channelOf (((physOf fetching.mem 0x200000).getD 0) / 64)) = false := by
  and_intros <;> decide +kernel

theorem witness_MemoryTagsLandAndWrite_deferred :
    (userDeferred (working desc0 run0 1 0 none [(0, some { unit0 with deferred := List.range 64 })]) 0 ⟨0, 0⟩).length = 64 ∧
    (userDeferred fetching 0 ⟨0, 0⟩).length ≤ 64 := by and_intros <;> decide +kernel

theorem witness_MemoryTagsLandAndWrite_others :
    userCtx (working desc0 run0 1 0 none [(0, some { unit0 with deferred := [0x200000 / 64] })]) 0 ⟨0, 0⟩ = some 0 ∧
    ((placesOf (working desc0 run0 1 0 none [(0, some { unit0 with deferred := [0x200000 / 64] })]) 0 0 [0x200000 / 64]).toOption.getD []).length = 1 ∧
    mayTake (working desc0 run0 1 0 none [(0, some { unit0 with deferred := [0x200000 / 64] })]) 0 ⟨0, 0⟩ = true ∧
    (cluGet (clus0 (fun x => { x with tags := [tag0] }) fetching) 0).tags[0]? = some tag0 ∧ tag0.landed = none ∧
    (((tag0.words.zip tag0.dwords).filter fun p => decide (p.2 * 64 / 2 ^ 36 = 0) && !tag0.lost.contains p.1) ≠ [] ∧
      (tag0.lost ++ [0x200000 / 64]).length = tag0.words.length) ∧ tag0.at_ + 100000 ≤ (stAt 100000 fetching).nv.up ∧
    ctxLive fetching 0 = true ∧ ((unitsOn fetching 0).any fun u => u.2.ctx.val = 0) = true ∧
    xlateHeld fetching 0 0 0x200000 = false ∧ (cluGet (clus0 (fun x => { x with wtags := [⟨none, 0, [write0 []]⟩] }) fetching) 0).tags[0]? = none ∧
    (cluGet (clus0 (fun x => { x with wtags := [⟨none, 0, [write0 []]⟩] }) fetching) 0).wtags[0 - 0]? = some ⟨none, 0, [write0 []]⟩ ∧
    ([write0 []].filter fun w => decide (writePlace fetching w * 64 / 2 ^ 36 = writePlace fetching (write0 []) * 64 / 2 ^ 36)) ≠ [] ∧
    writePlace fetching (write0 []) * 64 / 2 ^ 36 < 32 ∧
    walk fetching.mem (ctxGet fetching 0).root 0x200000 true = .ok ⟨0, 2 ^ 30, 0, true⟩ ∧
    unitInfo (working { desc0 with wAddr := 2 ^ 30 } run0 1 0 none [(0, some unit0)]) 0 0 = some (unit0, info { desc0 with wAddr := 2 ^ 30 }) ∧
    (2 ^ 30 / 64 ∈ needsNext true (working { desc0 with wAddr := 2 ^ 30 } run0 1 0 none [(0, some unit0)]) 0 unit0 (info { desc0 with wAddr := 2 ^ 30 })) ∧
    predHolds { (info sketch0) with slot := { slot0 with predAddr := 2 ^ 30 } } unit0 (2 ^ 30) = true ∧
    trans (working { desc0 with wAddr := 2 ^ 30 } run0 1 0 none [(0, some unit0)]) 0 0 (2 ^ 30) false = .error (.unmapped (2 ^ 30) 2) ∧
    (((cluGet (writesTake NonVol.init 0 (clus0 (fun x => { x with writes := [write0 [0]] }) fetching)) 0).wtags.head?).map (·.pieces)) =
      some [write0 [0]] ∧
    dpaOk (writesTake NonVol.init 0 (clus0 (fun x => { x with writes := [write0 [0]] }) fetching)).mem 0x220000 4 = true ∧
    fetching.mem.scrubAt + 28800000000000 ≤ (stAt 28800000000000 fetching).nv.up ∧
    sramUnit fetching 0 1 0 0 = some 0 ∧ sramUnit fetching 0 0 0 0 = none := by and_intros <;> decide +kernel

/-- The device with stripe sets `ss`. -/
def striped (ss : List StripeSet) (d : Device) : Device := { d with mem := { d.mem with sets := ss } }

/-- Partition 0 has tree 1, whose source is cluster 0 and whose members are clusters 0 and 1. -/
def treed (d : Device) : Device :=
  framed (fun f => { f with parts := [(0, some { section0 with trees := [⟨0, 0, 3⟩] })] }) d

/-- A stream whose weights come over tree 1; its unit waits for the delivery of chunk 0. -/
def treeUnit (d : List Delivery) (ts : List Tag) (m : Option Nat) : Device :=
  clus0 (fun x => { x with deliveries := d, tags := ts })
    (treed (working { desc0 with wTree := 1 } run0 1 0 none [(0, some { unit0 with mcast := m })]))

/-- The chunk's name. -/
def key0 : Nat := chunkKey (info { desc0 with wTree := 1 }) unit0 0

/-- The delivery of that chunk to cluster 0, and its tag, landed at time 5. -/
def delivery0 : Delivery := ⟨0, 1, 0, 0, key0, [0], [], false⟩
def treeTag : Tag := { tag0 with user := ⟨2, 1⟩, dlv := some (0, key0), waiting := [0], landed := some 5 }

theorem witness_MemoryControlAndMulticast_sets :
    hostWrites NonVol.init base 0 = true ∧ isOwner base 0 = true ∧
    (setGet (striped [⟨1, 0, 24576, false, false, 0⟩] base).mem 0).valid = false ∧
    validateError NonVol.init (striped [⟨1, 0, 24576, false, false, 0⟩] base).mem 0 = 0 ∧
    validateError NonVol.init (striped [⟨1, 1, 24576, false, false, 0⟩] base).mem 0 = 3 ∧
    validateError NonVol.init (striped [⟨0, 0, 24576, false, false, 0⟩] base).mem 0 = 2 ∧
    validateError NonVol.init (striped [⟨1, 0, 100, false, false, 0⟩, ⟨1, 100, 100, true, false, 0⟩] base).mem 0 = 0 ∧
    validateError NonVol.init (striped [⟨1, 0, 101, false, false, 0⟩, ⟨1, 100, 100, true, false, 0⟩] base).mem 0 = 4 ∧
    (setGet (striped [⟨1, 0, 12288, true, false, 0⟩, ⟨1, 12288, 100, true, false, 0⟩] base).mem 1).valid = true ∧
    base.mem.dump / 2199023255552 ≠ 1 ∧ base.mem.synlog / 2199023255552 ≠ 1 ∧ bit (1 : Word).toNat 0 = true ∧
    fld (0xFFFFFEFF : Word).toNat 0 10 = 767 ∧
    (setGet (striped [⟨1, 0, 12288, true, true, 0⟩] base).mem 0).draining = true ∧ base.clus = [] ∧
    ({ base with mem := { base.mem with inval := some (false, 0, 0, 1) } } : Device).mem.inval = some (false, 0, 0, 1) := by
  and_intros <;> decide +kernel

theorem witness_MemoryControlAndMulticast_trees :
    fetchInfo (treeUnit [] [] none) 0 0 = some (unit0, info { desc0 with wTree := 1 }) ∧
    treeSource (treeUnit [] [] none) 0 1 = some 0 ∧
    chunkDue (info { desc0 with wTree := 1 }) unit0 (countsOf (treeUnit [] [] none) 0 0) (trusted (treeUnit [] [] none) 0 0) (0 == claimPlace) = some 0 ∧
    onTree (treeUnit [] [] none) 0 0 (info { desc0 with wTree := 1 }) = true ∧ unit0.mcast = none ∧
    takesUnits NonVol.init (treeUnit [] [] none) 0 = true ∧
    (cluGet (unitMod 0 0 (fun x => { x with mcast := some 0 }) (treeUnit [] [] none)) 0).deliveries = [] ∧
    ((cluGet (unitMod 0 0 (fun x => { x with mcast := some 0 }) (treeUnit [delivery0] [] none)) 0).deliveries.any fun v =>
      decide (v.tree = 1 ∧ v.ctx = unit0.ctx ∧ v.idx = unit0.idx ∧ v.chunk = key0) && !v.closed) = true ∧
    ((cluGet (clus0 (fun x => { x with mcWait := [(1, 0, 0, key0, 0)] }) (treeUnit [] [] (some 0))) 0).mcWait.find? fun w => decide (w.1 = 1)) =
      some (1, 0, 0, key0, 0) ∧
    (unitOf (treeUnit [] [] (some 0)) 0 0 0).isSome = true ∧
    tagFor (cluGet (treeUnit [delivery0] [treeTag] (some 0)) 0) 0 0 key0 0 = some (0, treeTag) ∧ treeTag.landed ≠ none ∧
    without treeTag.waiting 0 = [] ∧ treeGet (treeUnit [] [] none) 0 1 = some ⟨0, 0, 3⟩ ∧
    ((cluGet (treeUnit [delivery0] [treeTag] (some 0)) 0).tags.any fun t => t.ctx = 0 && t.dlv == some (0, key0) && t.waiting.contains 0 &&
      (t.landed.map fun l => decide (l + treeTimeout ⟨0, 0, 3⟩ ≤ (timed (fun t => { t with now := 20005 }) base).time.now)).getD false) = true ∧
    ((cluGet (treeUnit [delivery0] [treeTag] (some 0)) 0).tags.any fun t => t.ctx = 0 && t.dlv == some (0, key0) && t.waiting.contains 0 &&
      (t.landed.map fun l => decide (l + treeTimeout ⟨0, 0, 3⟩ ≤ (timed (fun t => { t with now := 20004 }) base).time.now)).getD false) = false := by
  and_intros <;> decide +kernel
/-! ### Time and power -/

theorem witness_TimeAccountingAndLending_edges :
    base.time.st = .unset ∧ (timed (fun t => { t with st := .locking, fromUnset := true, armed := some (7000000, 0) }) base).time.st = .locking ∧
    (armedNow (stAt 100000 base).nv (timed (fun t => { t with armed := some (7000000, 0) }) base).time).isSome = true ∧
    (armedNow (stAt 99999 base).nv (timed (fun t => { t with armed := some (7000000, 0) }) base).time).isSome = false ∧
    marks (stAt 100000 base).nv (timed (fun t => { t with armed := some (7000000, 0), syncDelay := 9 }) base).time = 7000009 ∧
    ((timed (fun t => { t with now := 3000050 }) base).time.now : Int) - marks NonVol.init (timed (fun t => { t with now := 3000050 }) base).time = 50 ∧
    ((timed (fun t => { t with now := 2999949 }) base).time.now : Int) - marks NonVol.init (timed (fun t => { t with now := 2999949 }) base).time = -51 ∧
    ((timed (fun t => { t with now := 3001000 }) base).time.now : Int) - marks NonVol.init (timed (fun t => { t with now := 3001000 }) base).time = 1000 ∧
    ((timed (fun t => { t with now := 2998999 }) base).time.now : Int) - marks NonVol.init (timed (fun t => { t with now := 2998999 }) base).time = -1001 ∧
    (1000000 : Word).toNat * 4294967296 % 1000000 = 0 ∧ ((0 : Word).toNat * 4294967296 + (some 1000001).getD 0) % 1000000 ≠ 0 ∧
    base.time.acctAt < (timed (fun t => { t with now := 1000000000 }) base).time.now / (base.time.acctPeriod * 1000000) * (base.time.acctPeriod * 1000000) ∧
    bit (0x100 : Word).toNat 8 = true ∧ ctxLive owner0 0 = true ∧ ctxLive owner0 255 = false ∧ bit (0xFF : Word).toNat 8 = false ∧
    base.time.kappaAt + 100000000 ≤ (stAt 100000000 base).nv.up ∧ procUp base 1 = true ∧
    (timed (fun t => { t with estimate := 1 }) base).time.estimate ≠ 0 := by and_intros <;> decide +kernel

/-- Two bound contexts: 0 resident and blocked since time 0, 1 with a program to deal, and the table with 1 on standby; `n` may reside. -/
def lending (n : Nat) : Device :=
  framed (fun f => { f with parts := [(0, some { section0 with maxResident := n })] })
    (scheduled (fun x => { x with table := some { table1 with blockUs := 20, slices := [⟨1000, false, [0], [1]⟩] }, boundary := 1000000 })
      { owner0 with ctxs := owner0.ctxs ++ [(1, { Ctx.init with st := .bound, prog := some { (prog0 [entry0 desc0] 0 []) with tag := 1 } })] })

theorem witness_TimeAccountingAndLending_lending :
    (schedGet (lending 2) 0).table = some { table1 with blockUs := 20, slices := [⟨1000, false, [0], [1]⟩] } ∧ firmwareRuns (lending 2) = true ∧
    (schedGet (lending 2) 0).reclaim = none ∧ applying (lending 2) 0 = false ∧ (schedGet (lending 2) 0).incoming = [] ∧
    residents (lending 2) 0 = [0] ∧ (ctxGet (lending 2) 0).departing = none ∧ blocked (stAt 20000 base).nv (lending 2) 0 20000 = true ∧
    blocked (stAt 19999 base).nv (lending 2) 0 20000 = false ∧
    standbyNext (lending 2) 0 { table1 with blockUs := 20, slices := [⟨1000, false, [0], [1]⟩] } = some 1 ∧
    (residents (lending 2) 0).length < maxResident (lending 2) 0 ∧ maxResident (lending 1) 0 ≤ (residents (lending 1) 0).length ∧
    standbyNext (lending 1) 0 { table1 with blockUs := 20, slices := [⟨1000, false, [0], [1]⟩] } = some 1 ∧
    mayEvict (stAt 20000 base).nv (lending 1) 0 20000 = true ∧ bestOf (departsBefore (lending 1)) (residents (lending 1) 0) = some 0 := by
  and_intros <;> decide +kernel

/-- Non-volatile state in standby, main power off or on, with a removal state. -/
def nvAt (on : Bool) (r : Removal) : NonVol := { NonVol.init with standby := true, mainOn := on, trayEn := on, removal := r }

theorem witness_PowerSequencesAndGovernor :
    ({ NonVol.init with standby := false } : NonVol).standby = false ∧ 47000 ≤ 47000 ∧ (nvAt false .idle).standby = true ∧
    (nvAt false .idle).trayEn = false ∧ (48000 ≤ 57000 ∧ 57000 ≤ 57000 ∧ (450 : Int) ≤ 450) ∧ (47999 < 48000 ∨ 57000 < 47999 ∨ (450 : Int) < 451) ∧
    (nvAt true .idle).mainOn = true ∧ 45999 < 46000 ∧ 41999 < 42000 ∧ ((1100 : Int) ≤ 1100 ∨ (1000 : Int) ≤ 999) ∧
    smGet base.pwr.stepAt 0 1 + 20000 ≤ (stAt 20000 base).nv.up ∧
    ((partGet (framed (fun f => { f with parts := [(0, some { section0 with powerW := 1 })] }) base) 0).map (·.powerW)).getD 0 = 1 ∧
    ({ base with pwr := { base.pwr with emergency := true } } : Device).pwr.emergency = true ∧
    base.pwr.clearFrom + 100000000 ≤ (stAt 100000000 base).nv.up ∧ 3600000 < 3600001 := by and_intros <;> decide +kernel

theorem witness_RemovalAndManagement :
    (nvAt true .idle).standby = true ∧ 50 ≤ 2000 ∧ (nvAt true .idle).removal = .idle ∧ (nvAt true .pending).removal = .pending ∧
    (nvAt true .quiescing).removal = .quiescing ∧ hostWrites NonVol.init base 0 = true ∧ isOwner base 0 = true ∧
    (nvAt true .pending).graceFrom + base.pwr.graceS * 1000000000 ≤ (stAt (base.pwr.graceS * 1000000000) base).nv.up ∧
    base.fw.deferred = none ∧ quiesceDone (nvAt true .quiescing) (quiesceWork (nvAt true .quiescing) base) = true ∧
    1700000000000000000 % 1000000 = 0 ∧ ((nvAt false .idle).mainOn = false ∨ 1000000 % 1000000 ≠ 0) ∧ 1000001 % 1000000 ≠ 0 := by
  and_intros <;> decide +kernel
/-! ### Collectives -/

/-- The words of a collective descriptor: `op` and `mode`, COUNT, SRC 0x100000, DST 0x110000, the group at 0x120000, the record at 0x130000. -/
def collWords (op mode count : Nat) : Nat :=
  pack [(0, 4, op), (4, 1, mode), (32, 32, count), (64, 46, 0x4000), (128, 46, 0x4400), (192, 46, 0x4800), (384, 46, 0x4C00)]

/-- A group of `n` members: this module, then context 0 of nodes 1 and up. -/
def group0 (self : Nat) (n : Nat) : Group := ⟨self, 0, 0, (List.range n).map fun m => ⟨m, 0, 0, (m + 1) % n, 0, 0, 0⟩⟩

/-- A device that holds the descriptor at 0x100000 − 64 and a group record of one member. -/
def bucketed (op mode count : Nat) : Device :=
  wrote 0xFFFC0 (toBytes 64 (collWords op mode count)) (wrote 0x120000 (toBytes 64 1) owner0)

/-- The collective of that descriptor, in progress for a group of `n`, member `self`; `f` changes it. -/
def coll0 (op mode count self n : Nat) (f : CollRun → CollRun) : CollRun :=
  f { CollRun.init 0 9 (collDesc (collWords op mode count)) (group0 self n) with active := true }

/-- The device at which that collective is in progress. -/
def collecting (r : CollRun) : Device := { owner0 with coll := { owner0.coll with runs := [r] } }

theorem witness_CollectivesBeginStageAndComplete_commands :
    ready 5 (bucketed 0 0 4) (some 0) 0x41 [(64, 52, 0xFFFC0)] = true ∧
    collCheck NonVol.init (bucketed 0 0 4) 0 0xFFFC0 = .ok (collDesc (collWords 0 0 4), group0 0 1) ∧
    collCheck NonVol.init (bucketed 7 0 4) 0 0xFFFC0 = .error (.refuse stMalformed 1) ∧
    collCheck NonVol.init (collecting (coll0 0 0 4 0 1 id)) 0 0xFFFC0 = .error (.refuse stMalformed 1) ∧
    eArg (takenOf (some 0) 0x41 [(64, 52, 0xFFFC0)]).entry 0 % 2 ^ 52 = 0xFFFC0 ∧
    ready 5 owner0 (some 0) 0x42 [(64, 52, 0x1000), (128, 5, 1)] = true ∧
    admRead (wrote 0x1000 (toBytes 32 (pack [(64, 32, 500), (128, 16, 1)])) owner0) 0 0x1000 32 = .ok (some (pack [(64, 32, 500), (128, 16, 1)])) ∧
    allSome ((List.range 1).map fun i => bubbleParse (fld (pack [(64, 32, 500), (128, 16, 1)]) (256 * i) 256)) =
      some [⟨0, 500, 0, 1, 0, false, 0⟩] := by and_intros <;> decide +kernel

theorem witness_CollectivesBeginStageAndComplete_stages :
    collGet (collecting (coll0 0 0 4 0 2 id)) 0 9 = some (coll0 0 0 4 0 2 id) ∧ (coll0 0 0 4 0 2 id).gateOpen = false ∧
    (coll0 0 0 4 0 2 id).desc.waitEn = false ∧ (coll0 6 1 0 0 2 id).desc.op = 6 ∧
    ownDigest (collecting (coll0 6 1 0 0 2 id)) (coll0 6 1 0 0 2 id) = .ok (some 0) ∧
    ownDigest (collecting (coll0 6 0 0 0 2 id)) (coll0 6 0 0 0 2 id) = .ok none ∧
    (coll0 0 0 4 0 2 id).coordinator = 0 ∧ (coll0 0 0 4 0 2 id).gateUp + (0 + 1) * (base.coll.stragglerMs * 1000000) ≤ (stAt 5000000000 base).nv.up ∧
    stageReady (collecting (coll0 0 0 4 0 1 fun r => { r with gateOpen := true })) (coll0 0 0 4 0 1 fun r => { r with gateOpen := true }) = true ∧
    (coll0 0 0 4 0 1 fun r => { r with stage := some 5 }).stage = some 5 ∧
    (coll0 0 0 4 0 1 fun r => { r with desc := { r.desc with norm := true, normFinal := true } }).desc.normFinal = true ∧
    reduceOver (coll0 0 0 4 0 1 fun r => { r with added := [0], results := [0], records := [(0, some (0, 0, 0))] }) = true ∧
    setReady (collecting (coll0 0 0 4 0 1 id)) 0 9 = true ∧ smGet (coll0 0 0 4 0 1 id).totals none 0 = none ∧
    collOver (collecting (coll0 0 0 4 0 1 id)) (coll0 0 0 4 0 1 fun r => { r with
      gateOpen := true, added := [0], results := [0], records := [(0, some (0, 0, 0))] }) = true ∧
    (coll0 0 0 4 0 1 fun r => { r with bad := 2 }).bad ≠ 0 := by and_intros <;> decide +kernel

/-- A message of node 1 about TAG 0 of group 0: its kind, the sender's member number, the chunk, the elements, and its payload. -/
def message (kind member chunk elements : Nat) (payload : List Byte) : StavaPacket := { packet 5 payload with
  srcNode := 1
  tail := [0, BitVec.ofNat 32 (kind * 4096 + member * 65536), BitVec.ofNat 32 chunk, BitVec.ofNat 32 elements, 0] }

/-- The device with cage 0 up, node 1's flow known, and the collective in progress. -/
def messaged (r : CollRun) : Device :=
  linked (fun l => { l with rx := [⟨1, 0x10, 1, [], 1, 0, false, 0, 0⟩] }) (caged .up (collecting r))

/-- The message is the next of its flow, in time, and finds that collective, whose member sent it. -/
def heard (r : CollRun) (q : StavaPacket) : Bool :=
  cageUp (messaged r) 0 && decide (q.dstNode.toNat = (messaged r).link.node) && inTime (messaged r) q &&
    rxGet (cageCnt 0 3 (messaged r)) 1 0x10 == some ⟨1, 0x10, 1, [], 1, 0, false, 0, 0⟩ && decide ((q.seq.toNat + 2 ^ 24 - 1) % 2 ^ 24 < 256) &&
    (msgRuns (messaged r) q).find? (fun r => fromMember r q) == some r

theorem witness_CollectiveMessagesLand_heard :
    ((([message 0 1 0 2 (List.replicate 8 0), message 1 1 1 2 (List.replicate 8 0), message 2 1 0 0 [], message 5 1 1 0 (List.replicate 12 0)] :
      List StavaPacket).all (heard (coll0 0 0 4 0 2 id))) &&
      heard (coll0 0 0 4 0 2 fun r => { r with gateOpen := true, desc := { r.desc with tag := 1 } })
        { (message 3 1 0 0 []) with tail := [0, BitVec.ofNat 32 (1 + 3 * 4096 + 65536), 0, 0, 0] } &&
      heard (coll0 0 1 4 0 3 fun r => { r with desc := { r.desc with norm := true, normFinal := true } }) (message 6 1 1 0 (List.replicate 8 0)) &&
      heard (coll0 6 1 0 0 3 id) (message 7 1 1 0 (List.replicate 8 0)) && heard (coll0 5 0 64 0 2 id) (message 8 1 0 0 []) &&
      heard (coll0 4 0 64 0 2 id) (message 9 1 0 0 [])) = true := by decide +kernel

theorem witness_CollectiveMessagesLand_contents :
    (message 0 1 0 2 []).op = 5 ∧ msgKind (message 0 1 0 2 []) = 0 ∧ (coll0 0 0 4 0 2 id).chunk 0 = some (0, 0, 2) ∧ (coll0 0 0 4 0 2 id).desc.reduces = true ∧
    (coll0 0 0 4 0 2 id).tree = false ∧ 1 ∈ ringPrev 2 0 ∧ 2 * 0 + 0 ∈ sumInputs (coll0 0 0 4 0 2 id) 0 0 ∧
    msgElements (message 0 1 0 2 []) = 2 ∧ (List.replicate 8 (0 : Byte)).length = 4 * 2 ∧
    1 ∈ heapChildren 3 0 ∧ 2 * 0 + (1 - 2 * 0 - 1) ∈ sumInputs (coll0 0 1 4 0 3 id) 0 0 ∧ (coll0 0 1 4 0 3 id).chunk 0 = some (0, 0, 4) ∧
    msgKind (message 1 1 1 2 []) = 1 ∧ (coll0 0 0 4 0 2 id).chunk 1 = some (1, 2, 2) ∧ (coll0 0 0 4 0 2 id).holds 1 = false ∧
    msgChunk (message 1 1 1 2 []) = 1 ∧ 0 ∈ heapParent 1 ∧ (coll0 0 1 4 1 3 id).holds 0 = false ∧
    (coll0 0 0 4 0 2 fun r => { r with desc := { r.desc with tag := 1 } }).coordinator = 1 ∧ msgMember (message 3 1 0 0 []) = 1 ∧
    msgKind (message 4 1 0 0 []) = 4 ∧ (coll0 0 0 4 0 2 fun r => { r with gateOpen := true }).gateOpen = true ∧
    (1 ≠ (coll0 0 0 4 0 2 id).me ∧ msgChunk (message 5 1 1 0 []) = 1) ∧ msgChunk (message 5 0 0 0 []) = 0 ∧
    permTo (coll0 5 0 64 0 2 id) 0 = 1 ∧ 1 ∈ moveFrom (coll0 4 0 64 0 2 id) ∧ msgKind (message 10 1 0 0 []) = 10 ∧
    ((msgRuns (messaged (coll0 0 0 4 0 2 id)) (message 10 1 0 0 [])).find? fun r => r.group.members.any fun m => decide (m.node = 1)) =
      some (coll0 0 0 4 0 2 id) ∧ msgRuns owner0 (message 0 1 0 2 []) = [] := by and_intros <;> decide +kernel
/-! ### Fabric, registers, fuses -/

/-- A fabric header of a device site at a cluster's home site or at a ring site. -/
def header (site cluster epoch : Nat) : FabricHeader :=
  { vc := 0, kind := 0, len := 1, srcSite := BitVec.ofNat 10 site, dstSite := 0, srcCluster := BitVec.ofNat 10 cluster, epoch := BitVec.ofNat 8 epoch, context := 0, ctxValid := false }

/-- Cluster 0 dead. -/
def dead0 : Device := { base with clus := [(0, { Cluster.init with dead := true })] }

/-- Every spare of the West half quarantined. -/
def noSpare : Device := { dead0 with fabric := { dead0.fabric with quarantined := spareSites 0 } }

theorem witness_FabricPacketsAndRemap :
    packetOk NonVol.init base (header 816 1023 0) = true ∧ packetOk NonVol.init base (header 883 1023 0) = true ∧
    packetOk NonVol.init base (header 884 1023 0) = false ∧ packetOk NonVol.init base (header 0 0 0) = true ∧ packetOk NonVol.init base (header 0 0 1) = false ∧
    packetOk NonVol.init base (header (homeSite 767) 767 0) = true ∧
    ((base.fabric.dropAt.map fun t => decide ((stAt 5 base).nv.up / 1000000 = t / 1000000)).getD false) = false ∧
    (cluGet dead0 0).dead = true ∧ (cluGet dead0 0).remap = none ∧ procUp dead0 2 = true ∧ remapWaits dead0 = false ∧
    headerFits (header 0 0 0) = true ∧ headerFits { header 0 0 0 with vc := 2, len := 5 } = true ∧ headerFits { header 0 0 0 with vc := 1, len := 2 } = false ∧
    headerFits { header 0 0 0 with vc := 2, len := 6 } = false ∧ (List.replicate 48 (0 : Byte)).length + 16 = 64 * (header 0 0 0).len.toNat ∧
    receives base 0 = true ∧ receives base 883 = true ∧
    boundAll (stAt 1000000 base).nv { base with fabric := { base.fabric with rebinds := [(0, some ⟨816, some 0⟩)] } } 0 = true ∧
    spareFor NonVol.init (cluMod 0 (fun y => { y with dead := false }) (clearUnits 0 (abandonTest 0 dead0))) 0 = some 16 ∧
    spareFor NonVol.init (cluMod 0 (fun y => { y with dead := false }) (clearUnits 0 (abandonTest 0 noSpare))) 0 = none ∧
    (cluGet (clus0 (fun x => { x with remap := some (0, 16, 5) }) base) 0).remap = some (0, 16, 5) := by and_intros <;> decide +kernel

theorem witness_SparesAreFreeAndNearest :
    spareFor NonVol.init base 0 = some 16 ∧ spareFor NonVol.init base 767 = some (23 * 34 + 17) ∧ spareFor NonVol.init noSpare 0 = none ∧
    spareFree NonVol.init base (23 * 34 + 16) = true := by and_intros <;> decide +kernel

theorem witness_RegistersAreWrittenAndCaptured :
    hostWrites NonVol.init base 0 = true ∧ hostReads NonVol.init base 0 0x20000 = true ∧ bellAt 0x50FF0 = some (some 255) ∧ bellAt 0x4000C = some none ∧
    headAt 0x50004 = some (.inl 0) ∧ headAt 0x4014C = some (.inr 3) ∧ bellAt 0xA00000 = none ∧ headAt 0xA00000 = none ∧
    isOwner base 1 = false ∧ isOwner base 0 = true ∧ loRegister 0x20000 = true ∧ loRegister (0x20000 - 4) = false ∧ loRegister 0x20004 = false ∧
    hostReads NonVol.init base 0 0x20003 = true ∧ 0x20003 % 1 = 0 ∧ 0x20002 % 2 = 0 ∧ 4 ≤ 0x20004 ∧ 0x20002 % 4 ≠ 0 ∧ (2 ≠ 4 ∨ 0 % 4 ≠ 0) := by and_intros <;> decide +kernel

/-- Fuses with one retired stack and one remap. -/
def fused : NonVol := { NonVol.init with retired := [31], remaps := [(5, 16)], policyChanges := 8 }

theorem witness_FusesOnlyGrowWithinTheirBanks : FuseBounds fused ∧ (fused.retired = [31] ∧ fused.remaps.length ≤ 48) := by
  refine ⟨⟨?_, ?_, ?_, ?_⟩, ?_, ?_⟩ <;> decide +kernel

theorem witness_CoreWordsAndInstructionsAgree :
    (CoreInstr.imm .add 31 0 0xFFF).wf = true ∧ (CoreInstr.store .sb 1 2 0x7FFF).wf = true ∧
    (decodeCore 0x78090000).isSome = true := by and_intros <;> decide +kernel

/-! ### Rules over data -/

theorem witness_UnitCapabilitiesReadTheOptions :
    State.reset.nv.l4 = false ∧ State.reset.nv.specN = false ∧ ({ NonVol.init with l4 := true } : NonVol).l4 = true ∧
    ({ NonVol.init with specN := true } : NonVol).specN = true := by and_intros <;> decide +kernel

theorem witness_StackMaskFollowsOptionAndRetirement :
    ({ NonVol.init with m24 := true } : NonVol).m24 = true ∧ NonVol.init.retired = [] ∧ 31 < 32 ∧ fused.retired ≠ [] := by and_intros <;> decide +kernel

theorem witness_UnlistedDeviceOffsetsReadZero : 0xFFFC < 0x10000 ∧ 0xC < 0x10000 ∧ 0xC ≠ 0x8 := by decide

theorem witness_RegistersAfterReset : 0xFFFFFC < 0x1000000 ∧ 0xFFFFFC % 4 = 0 ∧ 0 % 4 = 0 := by decide

theorem witness_UnitsCoverTheOutputOnce :
    (info desc0).gov = none ∧ (info desc0).y = (info desc0).x ∧ isRow (info desc0).y = false ∧ (info desc0).y.memOrder < 2 ∧
    (0 < mtOf desc0 ∧ 0 < ntOf desc0 ∧ 0 < partsOf desc0) ∧ (0 < desc0.m ∧ 7 < desc0.n ∧ kBlocks desc0 - 1 < kBlocks desc0) := by
  and_intros <;> decide +kernel

theorem witness_RowElementsArePackedWithoutGaps :
    fmtBits 5 * 1 + fmtBits 5 ≤ 8 * [0xAB, 0xCD].length ∧ (fmtBits 5 = 6 ∧ fmtBlock 5 = false) ∧ fmtBits 7 = 4 ∧ 1 < [3, 5].length := by and_intros <;> decide +kernel

theorem witness_RemovalRefusesNewWork :
    (nvAt true .quiescing).removal = .quiescing ∧ (nvAt true .quiesced).removal = .quiesced ∧ eOpcode (pack [(0, 8, 0x40)]) = 0x40 ∧
    mayUse owner0 0 0 = true ∧ owner0.fw.mode = .running ∧ formatOk owner0 (some 0) (pack [(0, 8, 0x40), (64, 52, 0x1000)]) = true ∧
    isOwner base 0 = true ∧ eOpcode (pack [(0, 8, 4)]) ∉ ([0x03, 0x40, 0x41, 0x42, 0x11, 0x10, 0x0A, 0x19] : List Nat) := by
  and_intros <;> decide +kernel

theorem witness_MemoryReadsBackWhatWasWritten :
    dpaOk base.mem 0x17FFFFFFFFC 4 = true ∧ dpaOk base.mem 0x17FFFFFFFFC 5 = false ∧
    (∀ s ∈ base.mem.sets, s.mask < 2 ^ 32 ∧ (s.valid = true → s.base + s.size ≤ 24576)) ∧ Memory.wf base.mem = true ∧
    0x40 ∉ wholeWords base.mem 0 64 ∧ physOf base.mem 0 ≠ physOf base.mem 64 := by and_intros <;> decide +kernel

theorem witness_StripesPlaceEachOffsetOnce :
    (setGet base.mem 0).valid = true ∧ (setGet base.mem 0).mask < 2 ^ 32 ∧ (setGet base.mem 0).mask ≠ 0 ∧ (setGet base.mem 0).base + (setGet base.mem 0).size ≤ 24576 ∧
    (bitsOf 32 (setGet base.mem 0).mask).length * (setGet base.mem 0).size * 2 ^ 21 < 2 ^ 41 ∧
    (physOf base.mem ((bitsOf 32 (setGet base.mem 0).mask).length * (setGet base.mem 0).size * 2 ^ 21 - 1)).isSome = true := by
  and_intros <;> decide +kernel

theorem witness_ScalarInstructionsChangeOnlyTheirCore :
    CoreIssues (coreAt [encodeCore (.alu .add 1 2 3)] id) 0 0 .sAlu (encodeCore (.alu .add 1 2 3)) parcel0 (.alu .add 1 2 3) ∧
    CoreIssues (coreAt [encodeCore (.imm .add 1 2 3)] id) 0 0 .sImm (encodeCore (.imm .add 1 2 3)) parcel0 (.imm .add 1 2 3) ∧
    CoreIssues (coreAt [encodeCore (.upper 1 2)] id) 0 0 .upper (encodeCore (.upper 1 2)) parcel0 (.upper 1 2) ∧
    CoreIssues (coreAt [encodeCore (.branch .eq 1 2 3)] id) 0 0 .branch (encodeCore (.branch .eq 1 2 3)) parcel0 (.branch .eq 1 2 3) ∧
    CoreIssues (coreAt [encodeCore (.jump 1 2 3)] id) 0 0 .jump (encodeCore (.jump 1 2 3)) parcel0 (.jump 1 2 3) ∧
    CoreIssues (coreAt [encodeCore (.csrw 1 4)] id) 0 0 .csrw (encodeCore (.csrw 1 4)) parcel0 (.csrw 1 4) := by
  exact ⟨issues_core (by decide +kernel), issues_core (by decide +kernel), issues_core (by decide +kernel), issues_core (by decide +kernel),
    issues_core (by decide +kernel), issues_core (by decide +kernel)⟩

theorem witness_StoresChangeOnlyTheirBytes :
    CoreIssues (coreAt [encodeCore (.store .sw 1 0 0x3FFC)] id) 0 0 .store (encodeCore (.store .sw 1 0 0x3FFC)) parcel0 (.store .sw 1 0 0x3FFC) ∧
    coreCheck (coreAt [encodeCore (.store .sw 1 0 0x3FFC)] id) 0 0x3FFC (storeBytes .sw) (storeBytes .sw) true = none ∧
    addrOf (sReg (coreGet (coreAt [encodeCore (.store .sw 1 0 0x3FFC)] id) 0 0) 0) (0x3FFC : BitVec 15).toInt = 0x3FFC := by
  refine ⟨issues_core (by decide +kernel), ?_, ?_⟩ <;> decide +kernel

theorem witness_SystemTimeIsCorrectedAndNeverRunsBackward :
    ((-100001 : Int) < -100000) ∧ ((-100000 : Int) ≤ 100000) ∧ 100000 < 100001 ∧
    (timed (fun t => { t with st := .locked }) base).time.st ≠ .unset ∧
    (timed (fun t => { t with st := .locking }) base).time.fromUnset = false := by and_intros <;> decide +kernel

theorem witness_ElementCodesRoundTrip : 10 < 11 ∧ 15 < 2 ^ fmtBits 10 ∧ 0xFFFFFFFF < 2 ^ fmtBits 0 ∧ decodeElem 1 0x7FFF = .nan ∧ decodeElem 10 15 ≠ .nan := by
  and_intros <;> decide +kernel

theorem witness_RoundingPicksANeighbour : ((0 : Int) ≤ 0) ∧ ((-3 : Int) < 0) ∧ 8 = 2 ^ ((0 : Int) - (-3)).toNat ∧ 16 % 8 = 0 ∧ 17 % 8 ≠ 0 ∧ (4 : Nat) = 4 := by decide

theorem witness_FirstFaultOfAGenerationOnly :
    (ctxGet owner0 0).st = .resident ∧ dpaOk owner0.mem (owner0.flt.log + 64 * (owner0.flt.head % 4096)) 64 = true ∧
    dpaOk owner0.mem 0x17FFFFFFFFF 64 = false ∧
    dpaOk ({ owner0 with flt := { owner0.flt with log := 0x17FFFFFFFFF } } : Device).mem (0x17FFFFFFFFF + 64 * 0) 64 = false := by and_intros <;> decide +kernel

theorem witness_DeviceRecordsKeepTheirOrder :
    (devRing base 2).gap = 0 ∧ (devRing base 2).queue.length < queueCap 2 ∧ queueCap 0 = 256 ∧ (devRing base 0).en = false ∧
    queueCap 0 ≤ (devRing { base with rings := { base.rings with evRing := { DevRing.init with queue := List.replicate 256 0 } } } 0).queue.length := by
  and_intros <;> decide +kernel

theorem witness_SorterListsAgree :
    (sort0 0).t ≤ 2 ^ 24 ∧ (sort0 0).topk ≤ 8 ∧ (sort0 0).topk ≤ (sort0 0).cand ∧ 0 < (sort0 0).cap ∧ 0 < (sort0 0).rounds ∧ 1 < (sort0 0).experts ∧
    0 < sortQ (sort0 0) ∧ smGet (placeAll (sort0 0) (List.replicate 4 0)).toks none 0 = some 0 := by and_intros <;> decide +kernel

theorem witness_ClocksMoveOneStepWithinTheirCaps :
    (stAt 20000 base).nv.mainOn = true ∧ smGet base.pwr.mhz 1600 0 = 1600 ∧ smGet base.pwr.ceil 1600 0 % 50 = 0 ∧ smGet base.pwr.dieCap 1600 0 % 50 = 0 ∧
    400 ≤ smGet base.pwr.ceil 1600 0 ∧ smGet base.pwr.ceil 1600 0 ≤ 1600 ∧ 400 ≤ smGet base.pwr.dieCap 1600 0 ∧ smGet base.pwr.dieCap 1600 0 ≤ 1600 ∧
    smGet base.pwr.stepAt 0 0 + 20000 ≤ (stAt 20000 base).nv.up ∧ base.pwr.safe = false ∧ ((950 : Int) < 951) ∧
    (stAt 19999 base).nv.up < smGet base.pwr.stepAt 0 0 + 20000 := by and_intros <;> decide +kernel

theorem witness_PlainRegistersReadBackTheirFields :
    hostWrites NonVol.init base 0 = true ∧ isOwner base 0 = true ∧
    regVal NonVol.init (ownerPut NonVol.init 0 0x100200 0xFFFFFFFF base) 0 0x100200 = 3 := by and_intros <;> decide +kernel
/-! ### Words of the spec -/

/-- Some constructor of each check, ill-formed, is refused. -/
theorem test_ill_formed_commands_are_refused :
    ([.sAlu 0 0 0xB7000000, .vld 0 0 0xB7000000, .gdone 0 0 0x78090000, .apertureAccess 0 0 0 0 none, .apertureAccess 0 0 0xFFFFFFFF 2 none,
      .apertureAccess 0 0 0 2 (some [1]), .capture (.inl 0) ⟨2, 4⟩, .capture (.inl 0) ⟨1, 2⟩, .capture (.inl 0) ⟨0, 8⟩, .capture (.inl 0) ⟨0x4000000, 1⟩, .capture (.inr (0, 0)) ⟨0, 4⟩,
      .registerWrite 0 0 3 0, .registerWrite 0 2 4 0, .registerWrite 0 0x4000000 4 0,
      .write 0 { packet 0 [] with type := 1 }, .write 0 (packet 1 []), .readReq 0 { packet 1 [] with length := 2 },
      .readReq 0 { packet 1 [] with length := 4100 }, .readReq 0 { packet 1 [] with length := 6 }, .ack 0 (packet 0 [1]), .linkLoss 0 ⟨1, 0⟩, .linkLoss 0 ⟨5, 0⟩,
      .sramUncorrectable 0 4 0 none 0, .ready 0 (packet 5 []), .ready 0 (message 3 1 0 0 []),
      .partial_ 0 { message 0 1 0 2 [] with tail := [0, 0x04010000, 0, 2, 0] }, .partial_ 0 { message 0 1 0 2 [] with tail := [0, 0x10000, 0, 0x800, 0] }] :
      List Instr).all (fun c => !c.wf) = true := by decide +kernel

theorem test_well_formed_commands_are_accepted :
    ([.sAlu 0 0 0, .gdone 0 0 0xB7000000, .vbcast 0 0 0x78090000, .capture (.inl 0) ⟨4, 4⟩, .capture (.inl 0) ⟨3, 1⟩, .capture (.inr (0, 0)) ⟨1, 4⟩, .registerWrite 0 4 4 0, .write 0 (packet 0 [1]),
      .readReq 0 (packet 1 []), .ready 0 (message 2 1 0 0 []), .linkLoss 0 ⟨4, 17⟩, .apertureAccess 0 0 0 2 (some [1, 2])] : List Instr).all (·.wf) = true := by
  decide +kernel

/-- The words of the rectifier kernel (07, worked example). -/
theorem test_rectifier_words_decode :
    decodeCore 0x78090000 = some (.vbcast 0 1 4 .w32) ∧ decodeCore 0x70100040 = some (.vld 0 2 0 .w32 0x40) ∧
    decodeCore 0x72100048 = some (.vst 0 2 0 .w32 0x48) ∧ decodeCore 0x64002420 = some (.valu .vcmple .fp32 0 1 2 1 0) ∧
    decodeCore 0x64824040 = some (.valu .vsel .fp32 1 2 0 2 0) ∧ decodeCore 0xB7000000 = some (.gdone 0 0) ∧
    ([0x78090000, 0x70100040, 0x72100048, 0x64002420, 0x64824040, 0xB7000000] : List Word).map coreRow = [.vbcast, .vld, .vst, .vAlu, .vAlu, .gdone] := by
  and_intros <;> decide +kernel

/-- The block has no instruction encoding of a processor's kind: no row gives bits. -/
theorem test_no_row_gives_bits : decodeTableWord 32 0xB7000000 = none ∧ State.reset.withFetchWord 32 0xB7000000 = State.reset := ⟨rfl, rfl⟩

/-! ### Number formats (03, sample conversions) -/

/-- An FP32 word converted to each of FP8-E4M3, FP8-E5M2, FP6-E3M2, FP6-E2M3, FP4-E2M1 and BF16 under rounding mode 0. -/
def sampled (w : Nat) : List Nat := [3, 4, 5, 6, 7, 1].map fun f => encodeElem f 0 0 (decodeElem 0 w)

theorem test_sample_conversions :
    sampled 0x3F800000 = [0x38, 0x3C, 0x0C, 0x08, 0x2, 0x3F80] ∧ sampled 0x40300000 = [0x43, 0x42, 0x12, 0x13, 0x5, 0x4030] ∧
    sampled 0xC0A66666 = [0xCA, 0xC5, 0x35, 0x3A, 0xF, 0xC0A6] ∧ sampled 0x3E99999A = [0x2A, 0x35, 0x05, 0x02, 0x1, 0x3E9A] ∧
    sampled 0x43960000 = [0x79, 0x5D, 0x1F, 0x1F, 0x7, 0x4396] ∧ sampled 0x447A0000 = [0x7E, 0x64, 0x1F, 0x1F, 0x7, 0x447A] ∧
    sampled 0x3A83126F = [0x01, 0x14, 0x00, 0x00, 0x0, 0x3A83] ∧ sampled 0x7F800000 = [0x7E, 0x7C, 0x1F, 0x1F, 0x7, 0x7F80] ∧
    sampled 0x7FC00000 = [0x7F, 0x7E, 0x00, 0x00, 0x0, 0x7FC0] := by and_intros <;> decide +kernel

theorem test_sample_conversions_narrowed :
    ([3, 4, 5, 6, 7, 1].map fun f => narrowed f (decodeElem 0 0x7F800000)) = [true, false, true, true, true, false] ∧
    ([3, 4, 5, 6, 7, 1].map fun f => narrowed f (decodeElem 0 0x7FC00000)) = [false, false, true, true, true, false] ∧
    ([3, 4, 5, 6, 7, 1].map fun f => narrowed f (decodeElem 0 0x447A0000)) = [false, false, false, false, false, false] := by and_intros <;> decide +kernel

/-- The block examples: MXFP4 with amax 3.1, BQ8-S with amax 0.75, BQ8-U with amax 0.04. -/
theorem test_block_conversions :
    ((encodeBlock 0xD 0 false [0] ([0x40466666].map (decodeElem 0))).1.take 1, (encodeBlock 0xD 0 false [0] ([0x40466666].map (decodeElem 0))).2) = ([0x7], [126]) ∧
    (encodeBlock 0xF 0 false [0, 0, 0] ([0x3F400000, 0xBE4CCCCD, 0x3A83126F].map (decodeElem 0))).1.take 3 = [0x60, 0xE6, 0x00] ∧
    (encodeBlock 0xF 0 false [0, 0, 0] ([0x3F400000, 0xBE4CCCCD, 0x3A83126F].map (decodeElem 0))).2.take 1 = [126] ∧
    (encodeBlock 0xF 0 true [0, 0] ([0x3D23D70A, 0x3A03126F].map (decodeElem 0))).1.take 2 = [0xA4, 0x02] ∧
    (encodeBlock 0xF 0 true [0, 0] ([0x3D23D70A, 0x3A03126F].map (decodeElem 0))).2.take 1 = [122] := by and_intros <;> decide +kernel

/-! ### Tilings (02, 04, 05, 06: worked examples) -/

/-- The up-projection of layer 17. -/
def stream41 : StreamDesc := { desc0 with stream := 41, digest := true, zmapRecord := true, path := [0, 1, 3, 5, 7, 8], pathLen := 6, pathWord := 0x00875310, wAddr := 0x4100000000, wFmt := 3, wPitch := 145, xAddr := 0x4300000000, xFmt := 3, xPitch := 54, yAddr := 0x4500000000, yFmt := 1, yPitch := 290, m := 6144, k := 3456, n := 9250, tm := 256, tn := 112, tk := 384, tp := 256, palSize := 276 }

theorem test_up_projection_tiling :
    residency stream41 = 28672 ∧ footprint stream41 = 276 * 1024 ∧ issueCount stream41 = 96784 ∧
    (residency { stream41 with tn := 256 }, footprint { stream41 with tn := 256 }, issueCount { stream41 with tn := 256 }) = (65536, 384 * 1024, 221200) ∧
    (residency { stream41 with tn := 128 }, footprint { stream41 with tn := 128 }, issueCount { stream41 with tn := 128 }) = (32768, 288 * 1024, 110608) ∧
    (mtOf stream41, ntOf stream41, chunkCount stream41, unitCount stream41 none) = (24, 83, 9, 1992) ∧
    ((extents stream41 none).map (·.2)).take 3 = [21233664, 32071650, 114032580] ∧
    unitRegion (info stream41) 1000 false false = ⟨3072, 256, 448, 112, 0, 27⟩ ∧ unitRegion (info stream41) 1991 false false = ⟨5888, 256, 9184, 66, 0, 27⟩ := by
  and_intros <;> decide +kernel

/-- The input gradient of that projection. -/
def stream118 : StreamDesc := { stream41 with stream := 118, digest := false, zmapRecord := false, arrayOp := 2, path := [0, 1, 2, 4, 5, 7, 8], pathLen := 7, pathWord := 0x08754210, xAddr := 0x4700000000, xFmt := 4, xPitch := 145, yAddr := 0x4900000000, yPitch := 108, k := 9250, n := 3456, wTree := 1, tm := 64, tn := 344, tk := 640, tp := 64, memOrder := 1, palOrder := 2, palSize := 510 }

theorem test_input_gradient_tiling :
    chunkCount stream118 = 15 ∧ residency stream118 = 22016 ∧ xChunk stream118 = 40 * 1024 ∧ wChunk stream118 = 215 * 1024 ∧ footprint stream118 = 510 * 1024 ∧
    issueCount stream118 = 100464 ∧ unitCount stream118 none = 1056 ∧ unitRegion (info stream118) 395 false false = ⟨704, 64, 1376, 344, 0, 73⟩ ∧
    unitRegion (info stream118) 1055 false false = ⟨6080, 64, 3440, 16, 0, 73⟩ := by and_intros <;> decide +kernel

/-- The up-projection of the 40-expert layer, under its DISPATCH stream. -/
def sort500 : SortDesc := { sort0 0 with stream := 500, policy := 1, topk := 3, cand := 5, experts := 40, t := 6144, rounds := 1, cap := 512, rowLen := 3456 }
def stream501 : StreamDesc := { desc0 with stream := 501, path := [0, 10, 1, 3, 5, 6, 7, 8], pathLen := 8, wFmt := 3, wPitch := 18, xFmt := 3, xPitch := 54, yFmt := 3, yPitch := 18, m := 512, k := 3456, n := 1152, tm := 256, tp := 256, tk := 384, tn := 96, palSize := 264 }

theorem test_expert_tiling :
    residency stream501 = 24576 ∧ footprint stream501 = 264 * 1024 ∧ issueCount stream501 = 82960 ∧ unitCount stream501 (some sort500) = 960 ∧
    sortQ sort500 = 512 := by and_intros <;> decide +kernel
/-! ### Single steps and single operations with the spec's own results -/

/-- The device after a command, and one register of it read from port `p`. -/
def after (c : Instr) (s : State) : State := match exec c s with
  | .next t => t
  | _ => s
def readAfter (c : Instr) (s : State) (p off : Nat) : Nat := regVal (after c s).nv (after c s).d p off

/-- The election of 13's worked example: MASK 0b0110, H0 ignored, H1 owner; OWN_STATE as each port reads it. -/
theorem test_election :
    readAfter (.claim 0 0x0C1A) ⟨[], { NonVol.init with policyMask := 6 }, owned (fun o => { o with st := .unowned }) base⟩ 0 0x10000 = 0 ∧
    readAfter (.claim 1 0x0C1A) ⟨[], { NonVol.init with policyMask := 6 }, owned (fun o => { o with st := .unowned }) base⟩ 1 0x10000 = 0x00010111 ∧
    readAfter (.claim 1 0x0C1A) ⟨[], { NonVol.init with policyMask := 6 }, owned (fun o => { o with st := .unowned }) base⟩ 2 0x10000 = 0x00010211 := by
  and_intros <;> decide +kernel

/-- The two sections of 12's worked example, words 0x00 to 0x18. -/
theorem test_section_words :
    sectionFields (pack [(0, 32, 3), (32, 32, 0x00040F0B), (64, 32, 0x200B0FEB), (96, 32, 0x0000020F), (128, 32, 0x00010094), (160, 32, 0xE6), (192, 32, 0x100)]) [] =
      ⟨3, false, 0, 0, 12, 16, 0xFEB, 0x200B, 0x0F, 2, 20, true, 256, 230, 256, []⟩ ∧
    sectionFields (pack [(0, 32, 3), (32, 32, 0x00080F0B), (64, 32, 0x801B0FFF), (96, 32, 0x000004FF), (128, 32, 0x00000040), (160, 32, 0x118), (192, 32, 0x330)]) [] =
      ⟨3, false, 0, 0, 12, 16, 0xFFF, 0x801B, 0xFF, 4, 64, false, 0, 280, 816, []⟩ := by and_intros <;> decide +kernel

/-- The closing bucket of 11's worked example. -/
def bucket0 : Nat := pack [(0, 32, 0x000000F0), (32, 32, 1052256), (256, 32, 0x3C800000), (288, 32, 0x3F800000), (448, 32, 0x310), (480, 32, 19)]

theorem test_closing_bucket :
    ((collDesc bucket0).op, (collDesc bucket0).mode, (collDesc bucket0).norm, (collDesc bucket0).normFinal, (collDesc bucket0).skipNonfinite) = (0, 1, true, true, true) ∧
    ((collDesc bucket0).waitCtr, (collDesc bucket0).doneCtr, (collDesc bucket0).waitEn, (collDesc bucket0).doneEn, (collDesc bucket0).waitValue) = (0, 1, true, true, 19) ∧
    collFormat bucket0 = true ∧ (CollRun.init 0 0 (collDesc bucket0) (group0 0 64)).allChunks.length = 1028 ∧
    (CollRun.init 0 0 (collDesc bucket0) (group0 0 64)).chunk 1027 = some (0, 1051648, 608) := by and_intros <;> decide +kernel

/-- Kept bytes of 14's worked example, and the remap of 16's: cluster 36 at site 38, its spare 50. -/
theorem test_kept_bytes_and_spare :
    keptBytes 192 192 = 53481472 ∧ keptBytes (192 * 4) 192 = 62918656 ∧ homeSite 36 = 38 ∧ spareFor NonVol.init base 36 = some 50 := by and_intros <;> decide +kernel

/-- The digest of the message "123456789" under each polynomial: the check values commonly published for these codes. -/
def digest9 (p : Nat) : Nat := crcPart p 9 0 [0x31, 0x32, 0x33, 0x34, 0x35, 0x36, 0x37, 0x38, 0x39] ^^^ crcZeros p 9

theorem test_digest_check_values :
    digest9 0 = 0x6C40DF5F0B497347 ∧ digest9 1 = 0xE3069283 ∧ digest9 2 = 0xCBF43926 ∧ digest9 3 = 0x29B1 ∧
    crcPart 0 9 0 [0x31, 0x32, 0x33] ^^^ crcPart 0 9 3 [0x34, 0x35, 0x36, 0x37, 0x38, 0x39] = crcPart 0 9 0 [0x31, 0x32, 0x33, 0x34, 0x35, 0x36, 0x37, 0x38, 0x39] := by
  and_intros <;> decide +kernel

/-- SECOND: three tokens want expert 0, which has room for one; the second goes to expert 1, the third finds both full. -/
theorem test_overflow_takes_the_next_candidate :
    placeAll { sort0 0 with t := 3 } [0, 1, 0, 1, 0, 1] =
      ⟨[(0, 1), (1, 1)], [(0, some 0), (1, some (pack [(0, 24, 1), (27, 1, 1)]))], [(0, some 0), (1, some 1)], [(1, 0), (2, 0)], 2, 1, 0, 1, 0⟩ := by
  decide +kernel

/-- Scalar register `q` of core 0 after it issues `i` under the command `c`, with registers `s`. -/
def scalarAfter (c : Word → Instr) (i : CoreInstr) (s : SMap Word) (q : BitVec 5) : Nat :=
  (sReg (coreGet (after (c (encodeCore i)) ⟨[], NonVol.init, at0 s i⟩).d 0 0) q).toNat
def pcAfter (c : Word → Instr) (i : CoreInstr) (s : SMap Word) : Nat :=
  (coreGet (after (c (encodeCore i)) ⟨[], NonVol.init, at0 s i⟩).d 0 0).pc.toNat

theorem test_scalar_results :
    scalarAfter (.sAlu 0 0) (.alu .add 3 1 2) [(1, 0xFFFFFFFF), (2, 2)] 3 = 1 ∧ scalarAfter (.sAlu 0 0) (.alu .sra 1 1 2) [(1, 0x80000000), (2, 4)] 1 = 0xF8000000 ∧
    scalarAfter (.sAlu 0 0) (.alu .mulhu 3 1 1) [(1, 0xFFFFFFFF)] 3 = 0xFFFFFFFE ∧ scalarAfter (.sAlu 0 0) (.alu .slt 3 1 2) [(1, 0xFFFFFFFF), (2, 0)] 3 = 1 ∧
    scalarAfter (.sAlu 0 0) (.alu .add 0 1 2) [(1, 1), (2, 2)] 0 = 0 ∧
    scalarAfter (.upper 0 0) (.upper 3 0x12345) [] 3 = 0x12345000 ∧ pcAfter (.branch 0 0) (.branch .eq 1 2 0x7FFF) [] = 0x04000000 - 4 ∧
    pcAfter (.branch 0 0) (.branch .ne 1 2 0x7FFF) [] = 0x04000004 ∧ scalarAfter (.jump 0 0) (.jump 1 0 2) [] 1 = 0x04000004 := by
  and_intros <;> decide +kernel

/-- The rectifier's two vector instructions on 1.0, −1.0 and a NaN against +0: only −1.0 is replaced, the NaN stays. -/
def rectifying (i : CoreInstr) : Device := coreAt [encodeCore i] fun x => { x with v := [(32, 0x3F800000), (33, 0xBF800000), (34, 0x7FC00000)], p := [(1, 2)] }

theorem test_rectifier_keeps_nan :
    (smGet (coreGet (after (.vAlu 0 0 0x64002420) ⟨[], NonVol.init, rectifying (.valu .vcmple .fp32 0 1 2 1 0)⟩).d 0 0).p 0 1).toNat % 8 = 2 ∧
    ((List.range 3).map fun n => (smGet (coreGet (after (.vAlu 0 0 0x64824040) ⟨[], NonVol.init, rectifying (.valu .vsel .fp32 1 2 0 2 0)⟩).d 0 0).v 0 (32 + n)).toNat) =
      [0x3F800000, 0, 0x7FC00000] := by and_intros <;> decide +kernel

/-- A step takes the front command; on an empty queue a nanosecond passes. -/
theorem test_steps :
    (match step { (stAt 5 (owned (fun o => { o with st := .unowned }) base)) with pending := [.claim 2 0x0C1A, .boot] } with
      | .next t => decide (t.d.own.owner = 2 ∧ t.pending = [.boot])
      | _ => false) = true ∧
    (match step (stAt 5 base) with
      | .next t => decide (t.nv.up = (stAt 5 base).nv.up + 1 ∧ t.pending = [])
      | _ => false) = true := by and_intros <;> decide +kernel
/-! ### The other forms of the commands: refusals, waits and faults -/

theorem witness_ClaimTakesTheDevice_forms :
    hostWrites NonVol.init (owned (fun o => { o with linkUp := 1 }) base) 1 = false ∧ (0x0C1B : Word).toNat % 65536 ≠ 0x0C1A ∧
    bit ({ NonVol.init with policyMask := 6 } : NonVol).policyMask 0 = false ∧ base.own.st = .owned ∧
    ((owned (fun o => { o with st := .lost }) base).own.st = .lost ∧ (1 : Port) ≠ base.own.owner) ∧
    ((owned (fun o => { o with st := .handing, target := 3 }) base).own.st = .handing ∧ (2 : Port) ≠ 3 ∧
      base.own.handFrom + 1000000000 ≤ (stAt 1000000000 base).nv.up) := by and_intros <;> decide +kernel

theorem witness_OwnershipEventsFollowTheirTimers_forms :
    (owned (fun o => { o with st := .unowned }) base).own.st = .unowned ∧ ((1 : Port) ≠ base.own.owner ∧ base.own.st = .owned) ∧
    ((owned (fun o => { o with st := .handing, target := 3, handTag := some 9 }) base).own.st = .handing ∧
      (owned (fun o => { o with st := .handing, target := 3, handTag := some 9 }) base).own.handTag = some 9 ∧
      (0 : Port) = base.own.owner ∧ (3 : Port) ≠ base.own.owner) := by and_intros <;> decide +kernel

/-- `base` with the event ring changed. -/
def evRinged (f : DevRing → DevRing) : Device := { base with rings := { base.rings with evRing := f base.rings.evRing } }

theorem witness_HostWritesOfRingsAndApertures_forms :
    (mayUse (resident0 base) 0 0 = true ∧ (15 : Word).toNat % 4096 < 2 ^ (ctxGet (resident0 base) 0).cqLog ∧
      2 ^ (ctxGet (resident0 base) 0).sqLog ≤ (16 : Word).toNat % 4096) ∧ ctxLive (resident0 base) 255 = false ∧
    base.rings.admin.en = false ∧ (0 : Word).toNat % 4096 < 2 ^ base.rings.admin.log2 ∧ 2 ^ base.rings.admin.log2 ≤ (4095 : Word).toNat % 4096 ∧
    ((1 : Fin 4) ≠ 0 ∧ 2 ^ (devRing (evRinged fun r => { r with log2 := 4 }) (1 - 1)).log2 ≤ (16 : Word).toNat % 4096 ∧
      (15 : Word).toNat % 4096 < 2 ^ (devRing (evRinged fun r => { r with log2 := 4 }) (1 - 1)).log2) ∧
    (adminRing (fun r => { r with draining := true }) base).rings.admin.draining = true ∧ base.rings.admin.draining = false ∧
    bit (0x41 : Word).toNat 0 = true ∧ bit (0x40 : Word).toNat 0 = false ∧ fld (0x41 : Word).toNat 4 4 = 4 ∧
    dpaOk base.mem (0 * 4096) (96 * 2 ^ 4) = true ∧ (adminRing (fun r => { r with en := true }) base).rings.admin.en = true ∧
    ((evRinged id).rings.evRing.en = false ∧ (devRing (evRinged fun r => { r with en := true }) 0).en = true ∧
      dpaOk (evRinged id).mem (0 * 4096) (recSize 0 * 2 ^ 12) = true) := by and_intros <;> decide +kernel

theorem witness_EntriesAreTakenFromTheRings_forms :
    dpaOk (adminRing (fun r => { r with base := 0xFFFFFFFF }) (ring1 0x0C base)).mem (0xFFFFFFFF * 4096 + 64 * 0) 64 = false ∧
    base.rings.admin.en = false ∧ (adminRing (fun r => { r with sqHead := 3, sqTail := 3 }) base).rings.admin.sqHead = 3 ∧
    roomFor (ring1 0x0C base) none 0x0C 4 0 1 = false ∧
    ctxLive (ctxRing1 0x43) 255 = false ∧
    (match vRead (ctxRing1 0x43).mem 0x10000 0x40000000 64 with
      | .error e => e = .unmapped 0x40000000 false
      | .ok _ => false) = true ∧
    roomFor (ctxRing1 0x43) (some 0) 0x43 4 0 1 = false ∧
    (slotFault { (ctxRing1 0x43) with ctxs := smMod (ctxRing1 0x43).ctxs Ctx.init 0 fun x => { x with ring := 0x40000000 - 1024 } } 0 0x43).isSome = true := by and_intros <;> decide +kernel

/-- `base` with the security processor restarting. -/
def insecure : Device := fwed (fun f => { f with procs := [(0, { Proc.init with st := .restarting })] }) base

/-- A partial Frame of section 0, and `base` at which it has been taken into slot 1, the application waiting or begun. -/
def frame0p : Frame := ⟨true, 2, 256, 0, none, [section0]⟩
def appSlots (f : Option Frame) (a : Application) : Device := framed (fun q => { q with slots := [none, f, none, none], apps := [a] }) base

theorem witness_FrameCommandsStageApplyAndCommit_forms :
    (ready 5 insecure none 0x09 [(64, 44, 0x1000), (128, 2, 3)] = true ∧ securityUp insecure = false) ∧
    (framed (fun f => { f with staging := some (9, 0, []) }) base).frames.staging ≠ none ∧ dNat base.mem (0x1000 + 8) 4 < 256 ∧
    ready 5 insecure none 0x0A [(128, 2, 3)] = true ∧
    (freshTaken { base with rings := { base.rings with taken := [⟨0, none, 0, 0x0A, false, false⟩, ⟨1, none, 0, 0x0A, false, false⟩] } } 0x0A 1).isSome = true ∧
    (nextApp (appSlots (some frame0p) ⟨0, 1, none, false⟩) = some ⟨0, 1, none, false⟩ ∧
      (appSlots (some frame0p) ⟨0, 1, none, false⟩).frames.slots.getD 1 none = some frame0p ∧ frame0p.sections = section0 :: [] ∧
      (schedGet (appSlots (some frame0p) ⟨0, 1, none, false⟩) 0).reclaim = none) ∧
    partialOk (appSlots (some frame0p) ⟨0, 1, none, false⟩) section0 = true ∧
    partialOk (appSlots (some frame0p) ⟨0, 1, none, false⟩) { section0 with remove := true } = false ∧
    (appSlots none ⟨0, 1, none, false⟩).frames.slots.getD 1 none = none ∧ fullOk (resident0 base) = false ∧
    (((appSlots none ⟨0, 1, some frame0p, false⟩).frames.apps.find? fun a => a.frame.isSome) = some ⟨0, 1, some frame0p, false⟩ ∧
      commitReady (appSlots none ⟨0, 1, some frame0p, false⟩) frame0p = true) := by and_intros <;> decide +kernel

theorem witness_FirmwareStagesActivatesAndBoots_forms :
    ready 5 (fwed (fun f => { f with mode := .recovery }) base) none 0x02 [(64, 32, 1)] = true ∧
    ready 5 insecure none 0x18 [(64, 44, 0x1000)] = true ∧ fwBusy (fwed (fun f => { f with staging := some (none, []) }) base) = true ∧
    dNat base.mem (0x1000 + 0x1C) 4 < 4096 ∧ (imageCheck NonVol.init []).isSome = true ∧
    ready 5 (fwed (fun f => { f with mode := .recovery }) base) none 0x19 [] = true ∧
    ({ NonVol.init with pendingB := some true } : NonVol).pendingB.isSome = true ∧ NonVol.init.pendingB = none ∧
    activateRefused NonVol.init base = true ∧
    ({ base with pwr := { base.pwr with emergency := true } } : Device).pwr.emergency = true ∧
    activationWaits (framed (fun f => { f with apps := [⟨0, 1, some frame0, false⟩] }) base) = true ∧
    (fwed (fun f => { f with acting := some (none, 0) }) base).fw.acting.isSome = true ∧
    pendingImage { NonVol.init with bankB := some image2, pendingB := some true } = some image2 ∧
    (({ State.reset.nv with bankB := some image2, pendingB := some true } : NonVol).pendingB = some true ∧
      bootImage { State.reset.nv with bankB := some image2, pendingB := some true } true = some image2) ∧
    (bootImage { State.reset.nv with bankA := none } false = none ∧ bootImage { State.reset.nv with bankA := none } true = none) ∧
    bootImage { State.reset.nv with pendingB := some true } false = some ⟨0x01000000, 0, 1, 1, 1, 1⟩ := by and_intros <;> decide +kernel

theorem witness_ProcessorsCrashAndRestart_forms :
    ((smGet base.fw.procs Proc.init 0).st = .running ∧ 4 ≤ (recentCrashes 600000000000 [1, 2, 3, 4]).length ∧ (2 : Fin 4) ≠ 3) ∧
    (fwed (fun f => { f with acting := some (none, 0) }) base).fw.acting.isSome = true ∧
    ((cluGet base 767).stopped = false ∧ (cluGet base 767).downFrom = none ∧ outOfService base 767 = false) ∧
    (State.reset.d.fw.mode = .booting ∧ canCrash insecure 0 767 = false ∧
      canCrash { base with clus := [(767, { Cluster.init with stopped := true })] } 3 767 = false) ∧
    ((smGet base.fw.procs Proc.init 2).st ≠ .restarting ∧ (cluGet base 767).downFrom = none) := by and_intros <;> decide +kernel

theorem witness_PacketsInOrderLandWithTheirEffect_forms :
    (rxGet (cageCnt 0 3 (caged .up base)) 0 0x10 = none ∧ ({ packet 0 [] with openF := true } : StavaPacket).openF = true ∧
      (cageCnt 0 3 (caged .up base)).link.rx.length < 4096) ∧
    winCheck opened2 (packet 1 []) false 4097 = some 1 ∧ responseStatus { packet 3 [] with status := 0 } = 0 ∧
    responseStatus { packet 3 [] with status := 2 } = stStale ∧
    ((opened2.link.reads.find? fun r => decide (r.tag = 8 ∧ r.node = 0)) = none ∧
      ((opened2.link.tx.flatMap (·.sent) ++ [sent5 1]).find? fun p => decide (p.tag = 3 ∧ p.pkt.dstNode = 0 ∧ p.pkt.op = 0)).isSome = true) ∧
    ({ packet 3 [] with status := 2 } : StavaPacket).status ≠ 0 ∧
    (flow0.landed.contains 257 = false ∧ 256 ≤ (257 + 2 ^ 24 - 1) % 2 ^ 24 ∧ (257 + 2 ^ 24 - 1) % 2 ^ 24 < 2 ^ 23) ∧
    ((cageGet (caged .down base) 0).rxq = [] ∧ cageUp (caged .down base) 0 = false) ∧
    ((cageGet (cageMod 0 (fun y => { y with rxq := [packet 1 []] }) opened) 0).rxq = packet 1 [] :: [] ∧ packet 1 [] ≠ packet 0 []) ∧
    ({ packet 0 [] with dstNode := 1 } : StavaPacket).dstNode.toNat ≠ (cageCnt 0 3 opened).link.node ∧
    inTime (timed (fun t => { t with now := 100001 }) opened) (packet 0 []) = false ∧ (packet 0 []).openF = false ∧
    4096 ≤ (linked (fun l => { l with rx := List.replicate 4096 { flow0 with node := 1 } }) base).link.rx.length := by and_intros <;> decide +kernel

theorem witness_FlowTimersActAtTheirTimes_forms :
    inTime (timed (fun t => { t with now := 100001 }) opened) (packet 0 []) = false ∧
    ({ packet 0 [] with dstNode := 1 } : StavaPacket).dstNode.toNat ≠ (cageCnt 0 3 opened).link.node ∧
    ((cageGet (caged .down base) 0).rxq = [] ∧ cageUp (caged .down base) 0 = false) ∧
    ((cageGet (cageMod 0 (fun y => { y with rxq := [packet 1 []] }) opened) 0).rxq = packet 1 [] :: [] ∧ packet 1 [] ≠ packet 0 []) ∧
    ((linked (fun l => { l with tx := [⟨3, 0x10, true, 6, [sent5 8], [], 16, 0, 0, 0, none, 0⟩] }) base).link.tx.find? fun x =>
      decide (x.node = 3 ∧ x.flow = 0x10)).isSome = true := by and_intros <;> decide +kernel

theorem witness_CagesFollowTheirStates_forms :
    (hostWrites NonVol.init base 1 = true ∧ isOwner base 1 = false) ∧ cageFitted NonVol.init 0 = true ∧
    ((cageGet (caged .up base) 0).st ≠ .disabled ∧ bit (4 : Word).toNat 0 = false ∧ bit (4 : Word).toNat 2 = true) ∧
    ((cageGet (caged .disabled base) 0).st = .disabled ∧ bit (0 : Word).toNat 0 = false ∧ bit (0 : Word).toNat 2 = false) ∧
    ((cageGet (caged .present base) 0).st = .present ∧ (26 : Nat) > 25 ∧ (25 : Nat) ≤ 25) ∧
    ((cageGet (cageMod 0 (fun x => { x with present := false }) (caged .empty base)) 0).st = .empty) ∧
    (cageGet (cageMod 0 (fun x => { x with present := true }) (caged .up base)) 0).st ≠ .empty ∧
    (frame1.fcsOk = true ∧ frame1.pause = false ∧ frame1.dstMac.toNat ≠ macAddr 1 0 0) ∧
    ({ frame1 with etherType := 0x0800 } : EtherFrame).etherType.toNat ≠ base.link.etherType ∧
    packetOf ({ frame1 with body := [] } : EtherFrame).body [] = none ∧
    ((cageGet (cageMod 0 (fun x => { x with rxq := List.replicate 65 (packet 0 []) }) (caged .up base)) 0).rxq.length = 65 ∧ 64 < 65 ∧ 65 < 256) := by
  and_intros <;> decide +kernel

theorem witness_WindowsOpenAndAreRevoked_forms :
    ((bit (dNat (wrote 0x1000 (toBytes 64 (pack [(0, 4, 7), (8, 8, 0), (64, 52, 0x200000), (128, 41, 4096)])) owner0).mem 0x1000 64) 3 = false ∧
      (vSpan owner0.mem (ctxGet owner0 0).root true 0x200000 4096).toOption.isSome = true) ∧
      ctxLive owner0 0 = true) ∧
    ctxLive base 0 = false ∧ (vSpan owner0.mem (ctxGet owner0 0).root true 0x40000000 4096).toOption = none ∧
    (linked (fun l => { l with valid := [5] }) base).link.valid ≠ [] ∧
    dpaOk base.mem ((4095 : Word).toNat % 4096 * 2 ^ 32) (2 ^ 22) = false ∧
    (hostWrites NonVol.init base 1 = true ∧ isOwner base 1 = false) ∧
    bit (winDesc (wrote 0x400000 (toBytes 64 (pack [(0, 3, 7)])) opened) 0) 202 = false := by and_intros <;> decide +kernel

/-- The device whose partition 0 has a table whose slice 0 is coordinated, for member 1 of a group. -/
def coordTable : SliceTable := { table1 with slices := [⟨0, true, [0], []⟩] }

theorem witness_SlicesSwitchContextsAtBoundaries_forms :
    tableCheck base 0 0x1000 = .error (1, stMalformed) ∧
    ((schedGet (scheduled (fun x => { x with reclaim := some reclaim1 }) tabled) 0).reclaim = some reclaim1) ∧
    applying (appSlots none ⟨0, 1, some frame0p, false⟩) 0 = true ∧ (fwed (fun f => { f with acting := some (none, 0) }) base).fw.acting.isSome = true ∧
    (tableCheck tabled 0 0x1000 = .ok table1 ∧ applying tabled 0 = false ∧ tabled.fw.acting = none ∧
      (residents tabled 0).filter (fun c => ((ctxGet tabled c).departing.isNone)) = [0]) ∧
    reclaim1.deadline < (timed (fun t => { t with now := 5 }) tabled).time.now ∧ ¬ reclaim1.deadline < tabled.time.now ∧
    (upcoming (scheduled (fun x => { x with table := some table1, boundary := 1000000 }) tabled) 0 = some (table1, 1) ∧
      (schedGet (scheduled (fun x => { x with table := some table1, boundary := 1000000 }) tabled) 0).boundary ≤
        (timed (fun t => { t with now := 1000000 }) tabled).time.now) ∧
    upcoming (scheduled (fun x => { x with next := some (table1, 4, 1000000), boundary := 1000000 }) tabled) 0 = some (table1, 1) ∧
    (sliceOf coordTable 1).coord = true ∧
    (departureDue (scheduled (fun x => { x with table := some { table1 with slices := [⟨0, false, [], []⟩] }, boundary := 1000000 })
      (timed (fun t => { t with now := 1000000 }) tabled)) 0).isSome = true ∧
    departReady (ctxed (fun x => { x with departing := some 0 }) (running0 tabled)) 0 = false ∧
    tabled.time.fallback = true ∧ (timed (fun t => { t with fallback := false }) tabled).time.fallback = false ∧
    0 + 1000000 ≤ (timed (fun t => { t with now := 1000000 }) tabled).time.now := by and_intros <;> decide +kernel

theorem witness_FusesChangeOnlyByTheirCommands_forms :
    dNat base.mem 0x1000 64 ≠ pack [(0, 4, 4), (32, 4, fld (dNat base.mem 0x1000 64) 32 4)] ∧
    fld (pack [(0, 4, 4), (32, 4, 15)]) 32 4 = NonVol.init.policyMask ∧ (15 : Nat) ≠ 0 ∧ (1 : Nat) ≠ NonVol.init.policyMask ∧
    8 ≤ ({ NonVol.init with policyChanges := 8 } : NonVol).policyChanges ∧ packageHeader (dNat base.mem 0x1000 64) = none ∧
    (packageHeader (pack [(0, 32, 0x5450594F), (32, 16, 1), (64, 32, 1), (96, 32, 4096), (128, 16, 1000), (144, 2, 3)])).isSome = true := by
  and_intros <;> decide +kernel

theorem witness_TeardownHangAndResetsRunTheirCourse_forms :
    partOf (declareDead (stAt 1000000 base).nv 767 3 (resident0 base)) 767 = none ∧
    (partOf (declareDead (stAt 1000000 base).nv 0 3 (scheduled (fun x => { x with reset := some 0 }) (resident0 base))) 0 = some 0 ∧
      (schedGet (declareDead (stAt 1000000 base).nv 0 3 (scheduled (fun x => { x with reset := some 0 }) (resident0 base))) 0).reset = some 0) ∧
    bootLate (stAt 6000000000 base).nv { (fwed (fun f => { f with mode := .booting }) base) with kept := { base.kept with resetAt := [0] } } = true ∧
    NonVol.init.pcycReq = false ∧ base.flt.resetDue = none := by and_intros <;> decide +kernel

theorem witness_TestsRunOnIdleUnits_forms :
    ((healthGet base 2 0).st = .healthy ∧ (10 : Nat) ≤ 10) ∧
    ((healthGet (faulted (fun f => { f with units := [(healthKey 2 0, { UnitHealth.init with st := .suspect })] }) base) 2 0).st = .suspect ∧
      testDue NonVol.init (faulted (fun f => { f with units := [(healthKey 2 0, { UnitHealth.init with st := .suspect })] }) base) 2 0 = true) ∧
    (hostWrites NonVol.init base 1 = true ∧ isOwner base 1 = false) ∧
    dpaOk base.mem ((0 : Word).toNat % 4096 * 2 ^ 32) 262144 = true ∧ dpaOk base.mem ((4095 : Word).toNat % 4096 * 2 ^ 32) 262144 = false := by
  and_intros <;> decide +kernel

/-- `d` with the code word at DPA `a` poisoned. -/
def poisoned (a : Nat) (d : Device) : Device := { d with mem := { d.mem with poison := touchedWords d.mem a 1 } }

theorem witness_ProgramsAreAdmittedAndEnd_forms :
    submitTurn (taking (some 0) 0x40 [(64, 52, 0x1000)] (programmed (prog0 [.finish] 0 []))) 0 0 = false ∧
    gateOpen owner0 0 (takenOf (some 0) 0x40 [(64, 52, 0x1000), (324, 1, 1), (352, 32, 5)]).entry = false ∧
    (match admitProgram NonVol.init (poisoned 0x1000 owner0) 0 0x1000 with
      | .error (.fault _) => true
      | _ => false) = true ∧
    ((ctxRead (programmed (prog0 [.marker (marker 2)] 0 [])) 0 1 0x40000000 4).toOption = none) := by and_intros <;> decide +kernel

theorem witness_EntriesStartRecordAndComplete_forms :
    (prog0 [entry0 { desc0 with passThrough := true }] 0 []).entries[0]? = some (entry0 { desc0 with passThrough := true }) ∧
    (compareRef (info { desc0 with digest := true }) { run0 with mode := 1 } (pack [(225, 1, 1), (256, 64, 5)])).2.1 = true ∧
    (ctxRead (programmed (prog0 [entry0 desc0] 1 [run0])) 0 1 (recordAt (prog0 [entry0 desc0] 1 [run0]) desc0.recordSlot) 256).toOption.isSome = true ∧
    (ctxRead (programmed (prog0 [entry0 desc0] 1 [run0])) 0 1 0x40000000 256).toOption = none ∧
    (govCounts (programmed (prog0 [entry0 desc0] 0 [])) 0 (some { sort0 0 with listAddr := 0x40000000 })).toOption = none ∧
    (prog0 [.sort (sort0 0)] 0 []).entries[0]? = some (.sort (sort0 0)) := by and_intros <;> decide +kernel

theorem witness_UnitsAreClaimedStartedAndCommitted_forms :
    (unitOver (working desc0 run0 1 0 none [(0, some { unitAt 1 [0] [] with repair := true })]) 0 0 = true ∧
      unitOwes (working desc0 run0 1 0 none [(0, some { unitAt 1 [0] [] with repair := true })]) 0 0 = false ∧
      ({ unitAt 1 [0] [] with repair := true } : UnitRun).combine = false) ∧
    (unitOver (working { desc0 with ksplit := 1, k := 256 } run0 2 2 none [(0, some { unitAt 1 [0] [] with combine := true, moved := true })]) 0 0 = true ∧
      ({ unitAt 1 [0] [] with combine := true } : UnitRun).repair = false) ∧
    ((ctxGet (ctxed (fun x => { x with bubbles := [⟨0, 1000, 0, 1, 0, true, 0⟩] }) owner0) 0).bubbles[0]? = some ⟨0, 1000, 0, 1, 0, true, 0⟩ ∧ 0 < 1) ∧
    (holdsDigest { desc0 with digest := true } = true ∧ (freeDigest (working desc0 run0 1 0 (some unit0) []) 0).isSome = true) ∧
    unitStartOk (working { desc0 with digest := true } run0 1 0 (some unit0) []) 0 0 { desc0 with digest := true } = true ∧
    exSource { move0 with path := [9, 8] } = true ∧ (cluGet (working rows0 run0 1 0 (some unit0) []) 0).coreCtx ≠ some 0 := by and_intros <;> decide +kernel

theorem witness_PassesDrainsAndCombinations_forms :
    ((passX (info desc0) (regionOf (info desc0) (unitAt 0 [] [])) [] [] pass0).find? fun w => [0x210000 / 64].contains w) = some (0x210000 / 64) ∧
    (((unitBounds (info sketch0) { unit0 with pred := [0] } false).flatMap fun b => boundX (info sketch0) (regionOf (info sketch0) unit0) [] b).find?
      fun w => [0x210000 / 64].contains w) = some (0x210000 / 64) ∧
    (freeDigest (working { desc0 with ksplit := 1, k := 256, digest := true } { run0 with committed := [0, 1] } 2 2 none []) 0).isSome = true ∧
    coresServe (working { desc0 with ksplit := 1, k := 256, path := [0, 3, 5, 6, 7, 8], glaze := 1 } { run0 with committed := [0, 1] } 2 2 none []) 0 0 = true ∧
    (ctxRead (sorting 0) 0 1 0x40000000 16).toOption = none ∧
    ((ctxRead (sorting 3) 0 1 (sort0 3).srcAddr 4).toOption = some [0, 0, 0, 0] ∧ (words4 1 [0, 0, 0, 0]).all (arrivedWord (sort0 3)) = false) ∧
    (listsServe (sorting 0) 0 run0 (sort0 1)).toOption = some false := by and_intros <;> decide +kernel

theorem witness_VectorInstructionsAct_forms :
    farAddr (coreGet (at0 [(2, 0x100004)] (.fld 0 1 2 0 .w32)) 0 0) 2 % 64 ≠ 0 ∧
    ((farPlaces (at0 [(2, 0x40000000)] (.fld 0 1 2 0 .w32)) 0 0 false [((16 + 0xFFFF, 0x40000000, 64) : FarElem)]).toOption = none) ∧
    (farFill NonVol.init 0 0 false [((16 + 0xFFFF, 0x100000, 64) : FarElem)] (far0 (.fld 0 1 2 0 .w32)) ≠ base) ∧
    storeAhead (clus0 (fun x => { x with writes := [⟨0, [], some 0, 0x100000, [1]⟩] }) (far0 (.fld 0 1 2 0 .w32))) 0 0
      [((16, 0x100000, 64), 0x100000)] = true ∧
    loadAhead { Core.init with fars := [(1, [((0, 0x100020, 4) : FarElem)])] } [((0, 0x100000, 64) : FarElem)] = true ∧
    farMisaligned 4 [((0, 0x100002, 4) : FarElem)] = some ⟨2, 0x100002, 4⟩ ∧
    activeLanes { Core.init with p := [(1, 0)] } 1 = [] ∧
    (gatherCheck (at0 [] (.vscatter 0 1 2 2 .w16)) 0 { Core.init with s := [(2, 0x4000)] } 2 2 .w16 lanes false).isSome = true ∧
    ((coreCheck (at0 [] (.block .mxfp8 false 1 2 3 .nearest false)) 0 2 128 4 false).or none).isSome = true := by and_intros <;> decide +kernel

theorem witness_ParcelsAndSynchronisation_forms :
    idleCore { (parcelled 3 []) with cores := (List.range 64).map fun j => (j, { Core.init with run := some parcel0 }) } 0 = none ∧
    (cluGet owner0 0).parcels = [] ∧ takesUnits NonVol.init (clus0 (fun x => { x with stopped := true }) (parcelled 3 [])) 0 = false ∧
    (cluGet (clus0 (fun x => { x with coreCtx := some 1 }) (parcelled 3 [])) 0).coreCtx ≠ some parcel0.parcel.ctx ∧
    frameOf (cluGet (parcelled 0 []) 0) 0 1 ⟨0x100000, 1, 0, 0, 0, 0, 0⟩ = none ∧
    (ctxRead (poisoned 0x100000 (parcelled 0 [])) 0 0 0x100000 4).toOption = none ∧
    (1 ≠ 0 ∧ (semGet (objects [(63, ⟨2, [(5, 1)]⟩)] []) 0 63).waiters ≠ []) ∧
    ((semGet (objects [(63, ⟨0, [(5, 1)]⟩)] []) 0 63).waiters.head?.all fun p => decide ((semGet (objects [(63, ⟨0, [(5, 1)]⟩)] []) 0 63).count < p.2)) = true ∧
    issues id .barrier (.barrier 8 1) = true ∧ issues id .evwait (.evwait 16 1) = true ∧ issues id .evadd (.evadd 16 1) = true ∧
    ((sReg (coreGet (at0 [] (.barrier 0 1)) 0 0) 1).toNat = 0 ∧ (sReg (coreGet (at0 [(1, 65)] (.barrier 0 1)) 0 0) 1).toNat = 65) ∧
    (barGet (objects [] [(7, ⟨[0], 2, 0⟩)]) 0 7).arrived.length < (barGet (objects [] [(7, ⟨[0], 2, 0⟩)]) 0 7).n ∧
    farFenced (clus0 (fun x => { x with writes := [⟨0, [], some 0, 0x100000, [1]⟩] }) (at0 [] (.gdone 0 0))) 0 0 = false ∧
    ctrPassed owner0 0 15 1 = false := by and_intros <;> decide +kernel

theorem witness_CoreWordsWaitOrFault :
    (coreGet owner0 0 0).run = none ∧ (coreGet (coreAt [0] fun x => { x with wait := .ev 0 0 }) 0 0).wait ≠ .none ∧
    ((coreGet (coreAt [0] id) 0 0).run.isSome = true ∧ (coreGet (coreAt [0] id) 0 0).wait = .none) ∧
    (fetchWord (coreAt [0] id) 0 (coreGet (coreAt [0] fun x => { x with pc := 0x04000002 }) 0 0)).toOption = none ∧
    (fetchWord (coreAt [0] id) 0 (coreGet (coreAt [0] fun x => { x with pc := 0x04010000 }) 0 0)).toOption = none ∧
    (fetchWord (coreAt [7] id) 0 (coreGet (coreAt [7] id) 0 0)).toOption = some 7 ∧ (7 : Word) ≠ 8 ∧
    ((List.range 256).any fun v => decodeCore (BitVec.ofNat 32 (v * 2 ^ 24 + 0xFFFFFF)) = none) = true ∧
    decodeCore (encodeCore (.alu .add 3 1 2)) = some (.alu .add 3 1 2) ∧ coreRow (encodeCore (.alu .add 3 1 2)) = .sAlu ∧
    operandsReady (coreGet (coreAt [encodeCore (.alu .add 3 1 2)] fun x => { x with loads := [(1, 7)] }) 0 0) (.alu .add 3 1 2) = false ∧
    (coreGet owner0 0 0).loads = [] := by and_intros <;> decide +kernel

theorem witness_MemoryTagsLandAndWrite_forms :
    userCtx owner0 0 ⟨0, 0⟩ = none ∧ (32 < (List.range 33).length) ∧ lessEach [5] (userWants moving 0 ⟨0, 0⟩) ≠ [] ∧
    mayTake (clus0 (fun x => { x with tags := List.replicate 21 tag0 }) fetching) 0 ⟨0, 0⟩ = false ∧
    outOfService (clus0 (fun x => { x with dead := true }) fetching) 0 = true ∧
    placesOf fetching 0 0 [2 ^ 30 / 64] = .error (.unmapped (2 ^ 30) 2) ∧
    atQuota (clus0 (fun x => { x with tags := List.replicate 4 { tag0 with dwords := [((physOf fetching.mem 0x200000).getD 0) / 64] } }) fetching) 0 ⟨0, 0⟩
      (channelOf (((physOf fetching.mem 0x200000).getD 0) / 64)) = true ∧
    (64 < (List.range 64).length + [5].length ∧ ((1 : Nat) ≠ 0)) ∧
    placesOf (working desc0 run0 1 0 none [(0, some { unit0 with deferred := [2 ^ 30 / 64] })]) 0 0 [2 ^ 30 / 64] = .error (.unmapped (2 ^ 30) 2) ∧
    ((cluGet fetching 0).tags[0]?.all fun t => t.landed.isSome) = true ∧
    ((cluGet (clus0 (fun x => { x with tags := [{ tag0 with landed := some 5 }] }) fetching) 0).tags[0]?.all fun t => t.landed.isSome) = true ∧
    (match (cluGet fetching 0).tags[0]? with
      | some _ => false
      | none => (cluGet fetching 0).wtags[0 - (cluGet fetching 0).tags.length]?.all fun _ => false) = true ∧
    ((tag0.lost ++ [0x200000 / 64]).length < ({ tag0 with words := [0, 0x200000 / 64] } : Tag).words.length) ∧
    (ctxLive base 0 = false ∧ ((unitsOn owner0 0).any fun u => u.2.ctx.val = 0) = false) ∧
    xlateHeld (coreAt [] id) 0 0 0x200000 = true ∧ (walk fetching.mem (ctxGet fetching 0).root (2 ^ 30) true).toOption = none ∧
    ((unitInfo owner0 0 0).all fun _ => false) = true ∧ (cluGet (writesTake NonVol.init 0 fetching) 0).wtags = [] ∧
    (cluGet (writesTake NonVol.init 0 (clus0 (fun x => { x with wtags := [⟨none, 0, []⟩] }) fetching)) 0).wtags = ⟨none, 0, []⟩ :: [] ∧
    dpaOk fetching.mem (2 ^ 50) 4 = false ∧ NonVol.init.up < base.mem.scrubAt + 28800000000000 ∧
    (List.replicate 64 (1 : Byte)).length = 64 ∧ (write0 [0]).data.length ≠ 64 ∧ ctxLive fetching 255 = false := by and_intros <;> decide +kernel

theorem witness_MemoryControlAndMulticast_forms :
    validateError NonVol.init (striped [⟨1, 1, 24576, false, false, 0⟩] base).mem 0 ≠ 0 ∧
    (setGet (striped [⟨1, 0, 12288, true, false, 0⟩] base).mem 0).valid = true ∧
    (striped [⟨1, 0, 12288, true, false, 0⟩] base).mem.dump / 2199023255552 = 0 ∧ bit (0 : Word).toNat 0 = false ∧
    768 ≤ fld (768 : Word).toNat 0 10 ∧ (hostWrites NonVol.init base 1 = true ∧ isOwner base 1 = false) ∧
    (setGet base.mem 0).draining = false ∧ base.mem.inval = none ∧ invalHits (true, 0, 0, 0) 0 0x200000 64 = true ∧
    (cluGet (clus0 (fun x => { x with tags := [tag0] }) fetching) 0).tags.any (fun t => t.landed.isNone && t.dpas.any fun a =>
      decide (a * 64 / 2199023255552 = 0)) = true ∧
    ((fetchInfo owner0 0 0).all fun _ => false) = true ∧
    ((cluGet (treeUnit [{ delivery0 with closed := true }] [] none) 0).deliveries.any fun v => decide (v.tree = 1 ∧ v.chunk = key0) && !v.closed) = false ∧
    2 ≤ (treeDeliveries (cluGet (treeUnit [{ delivery0 with chunk := 8 }, { delivery0 with chunk := 9 }] [] none) 0) 1).length ∧
    ((treeSource (treeUnit [] [] none) 0 1).all fun src => (cluGet (treeUnit [] [] none) src).mcWait.all fun w => decide (w.1 ≠ 1)) = true ∧
    unitOf (treeUnit [] [] none) 5 0 0 = none ∧
    ((tagFor (cluGet (treeUnit [delivery0] [{ treeTag with landed := none }] (some 0)) 0) 0 0 key0 0).all fun t => t.2.landed.isNone) = true ∧
    ((cluGet (treeUnit [delivery0] [] (some 0)) 0).deliveries.any fun v => decide (v.ctx = 0 ∧ v.idx = 0 ∧ v.chunk = key0) && v.members.contains 0) = true ∧
    ((cluGet (treeUnit [] [] (some 0)) 0).deliveries.any fun v => decide (v.ctx = 0 ∧ v.idx = 0 ∧ v.chunk = key0) && v.members.contains 0) = false := by
  and_intros <;> decide +kernel

theorem witness_TimeAccountingAndLending_forms :
    (timed (fun t => { t with st := .holdover }) base).time.st = .holdover ∧
    armedNow NonVol.init base.time = none ∧ (-50 : Int) ≤ 50 ∧ ((-51 : Int) < -50 ∨ (50 : Int) < -51) ∧ (timed (fun t => { t with st := .locked }) base).time.st = .locked ∧
    (hostWrites NonVol.init base 1 = true ∧ isOwner base 1 = false) ∧
    base.time.now / (base.time.acctPeriod * 1000000) * (base.time.acctPeriod * 1000000) ≤ base.time.acctAt ∧
    NonVol.init.up < base.time.kappaAt + 100000000 ∧ procUp (fwed (fun f => { f with procs := [(1, { Proc.init with st := .restarting })] }) base) 1 = false ∧
    base.time.estimate = 0 ∧ (schedGet base 0).table = none ∧ applying (appSlots none ⟨0, 1, some frame0p, false⟩) 0 = true ∧
    standbyNext (lending 2) 0 { table1 with slices := [⟨1000, false, [0], []⟩] } = none ∧
    ((residents (lending 2) 0).any fun c => (ctxGet (lending 2) c).departing.isSome || !blocked (stAt 19999 base).nv (lending 2) c 20000) = true ∧
    (maxResident (lending 1) 0 ≤ (residents (lending 1) 0).length ∧
      mayEvict (stAt 20000 base).nv (scheduled (fun x => { x with evictAt := some 15000 }) (lending 1)) 0 20000 = false) := by and_intros <;> decide +kernel

theorem witness_PowerSequencesAndGovernor_forms :
    (nvAt false .idle).standby = true ∧ 46999 < 47000 ∧ (nvAt true .idle).trayEn = true ∧ (nvAt false .idle).mainOn = false ∧ 46000 ≤ 46000 ∧ 42000 ≤ 42000 ∧
    ((1099 : Int) < 1100 ∧ (999 : Int) < 1000) ∧ NonVol.init.up < smGet base.pwr.stepAt 0 0 + 20000 ∧
    ({ base with pwr := { base.pwr with flags := 1 } } : Device).pwr.flags ≠ 0 ∧ base.pwr.emergency = false ∧ base.pwr.flags = 0 ∧
    base.pwr.safe = false ∧ ({ base with pwr := { base.pwr with emergency := true, safe := true } } : Device).pwr.safe = true ∧ base.fw.acting = none ∧
    (fwed (fun f => { f with acting := some (none, 0) }) base).fw.acting.isSome = true ∧ (10 ≠ 0 ∧ 10 < 11) := by and_intros <;> decide +kernel

theorem witness_RemovalAndManagement_forms :
    (nvAt true .quiesced).removal = .quiesced ∧ 49 < 50 ∧ 2000 < 2001 ∧ 4999 < 5000 ∧ (hostWrites NonVol.init base 1 = true ∧ isOwner base 1 = false) ∧
    (stAt 0 base).nv.up < (nvAt true .pending).graceFrom + base.pwr.graceS * 1000000000 ∧
    quiesceDone (nvAt true .quiescing) (quiesceWork (nvAt true .quiescing) (programmed (prog0 [.marker (marker 1)] 0 []))) = false ∧
    ({ NonVol.init with standby := false } : NonVol).standby = false ∧
    (fwed (fun f => { f with deferred := some none }) base).fw.deferred = some none ∧ 2 < 3 := by and_intros <;> decide +kernel

theorem witness_CollectivesBeginStageAndComplete_forms :
    (match collCheck NonVol.init (poisoned 0xFFFC0 (bucketed 0 0 4)) 0 0xFFFC0 with
      | .error (.fault _) => true
      | _ => false) = true ∧
    ((collGet owner0 0 9).all fun _ => false) = true ∧
    ((coll0 0 0 4 0 2 fun r => { r with desc := { r.desc with waitEn := true, waitValue := 5 } }).desc.waitEn = true ∧ ctrPassed owner0 0 0 (w32 5) = false) ∧
    (match ownDigest (poisoned 0x100000 (collecting (coll0 6 1 0 0 2 id))) (coll0 6 1 0 0 2 id) with
      | .error _ => true
      | .ok _ => false) = true ∧
    ((coll0 0 0 4 1 2 id).coordinator ≠ (coll0 0 0 4 1 2 id).me ∧ (coll0 0 0 4 1 2 id).told = false ∧ (coll0 0 0 4 1 2 id).raised = 0 ∧
      0 + base.coll.stragglerMs * 1000000 + 1000000000 ≤ (stAt 6000000000 base).nv.up) ∧
    (stageReady (collecting (coll0 0 0 4 0 2 id)) (coll0 0 0 4 0 2 id) = false ∧ (coll0 0 0 4 0 2 id).stage.isNone = true) ∧
    setReady (collecting (coll0 0 0 4 0 1 fun r => { r with totals := [(0, some (0, 0))] })) 0 9 = true ∧
    smGet (coll0 0 0 4 0 1 fun r => { r with totals := [(0, some (0, 0))] }).totals none 0 = some (0, 0) ∧
    (collOver (collecting (coll0 0 0 4 0 2 id)) (coll0 0 0 4 0 2 id) = false ∧ (coll0 0 0 4 0 2 id).bad = 0) ∧
    ((coll0 0 0 4 0 1 fun r => { r with bad := 2 }).open_ = true) := by and_intros <;> decide +kernel

theorem witness_CollectiveMessagesLand_forms :
    (msgKind (message 6 0 0 0 (List.replicate 4 0)) = 6 ∧ 0 ∈ heapParent 1 ∧ (List.replicate 4 (0 : Byte)).length = 4) ∧
    (((coll0 0 0 4 0 2 id).chunk 0).all fun c => decide ((message 0 1 0 3 []).payload.length ≠ 4 * c.2.2)) = true ∧
    (((coll0 0 0 4 0 2 id).chunk 7).all fun _ => false) = true ∧ (coll0 4 0 64 0 2 id).desc.op ≠ 0 ∧
    msgMember (message 3 1 0 0 []) ≠ (coll0 0 0 4 0 2 id).coordinator ∧ (coll0 0 0 4 0 2 id).gateOpen = false ∧
    (coll0 4 0 64 0 2 id).desc.reduces = false ∧ (coll0 0 0 4 0 2 id).desc.normFinal = false ∧ (coll0 0 0 4 0 2 id).desc.op ≠ 6 ∧
    1 ∉ moveFrom (coll0 0 0 4 0 2 id) ∧ msgKind (message 1 1 0 0 []) ≠ 0 ∧
    ((msgRuns (messaged (coll0 0 0 4 0 2 id)) (message 2 0 0 0 [])).find? fun r => fromMember r (message 2 0 0 0 [])) = none ∧
    msgRuns (messaged (coll0 0 0 4 0 2 id)) (message 2 0 0 0 []) ≠ [] := by and_intros <;> decide +kernel

theorem witness_FabricPacketsAndRemap_forms :
    ((({ base with fabric := { base.fabric with dropAt := some 5 } } : Device).fabric.dropAt.map fun t =>
      decide ((stAt 6 base).nv.up / 1000000 = t / 1000000)).getD false) = true ∧
    (headerFits (header 0 0 0) = true ∧ receives base 900 = false) ∧ headerFits { header 0 0 0 with len := 0 } = false := by and_intros <;> decide +kernel

theorem witness_RegistersAreWrittenAndCaptured_forms :
    bellAt 0x10004 = none ∧ bellAt 0xA00200 = none ∧ headAt 0xA00200 = none ∧
    hostWrites NonVol.init (owned (fun o => { o with linkUp := 1 }) base) 1 = false ∧ (3 ≠ 1 ∧ 3 ≠ 2 ∧ 3 ≠ 4) ∧ 0x20001 % 2 ≠ 0 ∧ (5 ≠ 1 ∧ 5 ≠ 2) := by
  and_intros <;> decide +kernel

theorem witness_TakenCommandsBeginOnlyWhereTheyMay :
    freshTaken base 0x40 7 = none ∧
    (freshTaken (taking (some 255) 0x40 [] owner0) 0x40 0).isSome = true ∧ ctxLive owner0 255 = false ∧
    (freshTaken (taking none 0x01 [] (fwed (fun f => { f with mode := .recovery }) base)) 0x01 0).isSome = true ∧
    stateStatus NonVol.init (fwed (fun f => { f with mode := .recovery }) base) none (takenOf none 0x03 []).entry ≠ 0 ∧
    (stateStatus NonVol.init owner0 (some 255) (takenOf (some 255) 0x40 []).entry ≠ 0) := by and_intros <;> decide +kernel

theorem witness_EventsWaitForTheirCondition_clocks :
    base.own.st ≠ .lost ∧ base.own.st ≠ .handing ∧
    NonVol.init.up < (owned (fun o => { o with st := .lost, lossFrom := 5 }) base).own.lossFrom + base.own.lossMs * 1000000 ∧
    base.rings.admin.draining = false ∧ (nvAt false .idle).mainOn = false ∧ rxGet base 0 0 = none ∧ 0 < flow0.lastAt + 1000000 ∧ 0 < flow0.oldest + 2000 ∧
    (txGet base 0 0).sent.find? (·.seq = 0) = none ∧ NonVol.init.up < (sent5 1).lastAt + 20000 ∧
    (base.link.suspended.find? fun e => decide (e.1 = 0 ∧ e.2.1 = 0)) = none ∧ NonVol.init.up < (txGet base 0 0).lastAt + 1000000 ∧
    ((base.link.tx.find? fun x => decide (x.node = 0 ∧ x.flow = 0)).all fun x => !flowFailed NonVol.init base x) = true ∧
    cageFitted { NonVol.init with l4 := true } 7 = false ∧ (cageGet base 0).st ≠ .present ∧ NonVol.init.up < (cageGet (caged .present base) 0).since + 5000000000 ∧
    (cageGet base 0).st ≠ .training ∧ NonVol.init.up < (cageGet (caged .training base) 0).since + 2000000000 ∧ (cageGet base 0).st ≠ .down ∧
    NonVol.init.up < (cageGet (caged .down base) 0).since + 1000000000 ∧ cageUp base 0 = false := by and_intros <;> decide +kernel

theorem witness_EventsWaitForTheirCondition_work :
    (schedGet base 0).notice = none ∧ base.time.now < 5 + 1000000 ∧ upcoming base 0 = none ∧ ((schedGet base 0).reclaim.all fun _ => false) = true ∧
    (ctxGet base 0).st ≠ .tearing ∧ NonVol.init.up < (ctxGet base 0).tearFrom + 200000 ∧ (ctxGet base 0).st ≠ .quiescing ∧ hung base 0 = none ∧
    (cluGet base 0).reset = none ∧ (schedGet base 0).reset = none ∧ (nvAt false .idle).mainOn = false ∧ base.flt.cycleDue = false ∧
    bootLate NonVol.init base = false ∧ base.fw.mode ≠ .booting ∧ base.flt.pkg = none ∧ ((cluGet base 0).test.all fun e => decide (NonVol.init.up < e)) = true ∧
    testInterrupted base 0 = false ∧ (healthGet base 0 0).st ≠ .suspect ∧ base.frames.staging = none ∧ securityUp insecure = false ∧
    base.fw.staging = none ∧ base.fw.acting = none ∧ deviceQuiet (running0 base) = false ∧
    (base.frames.apps.all fun a => a.frame.isNone) = true ∧ ((ctxGet base 0).bubbles[0]?.all fun _ => false) = true ∧
    ((ctxGet base 0).prog.all fun _ => false) = true ∧ takesUnits NonVol.init (clus0 (fun x => { x with stopped := true }) base) 0 = false ∧
    resident base 0 = false ∧ wantsCores owner0 0 0 = false ∧ (cluGet base 0).dead = false ∧ (cluGet base 0).remap = none := by and_intros <;> decide +kernel

theorem witness_EventsWaitForTheirCondition_units :
    (ctxGet owner0 0).prog = none ∧ (8 ≤ (List.replicate 8 run0).length) ∧
    ((prog0 [.marker (marker 2)] 0 []).entries[0]? = some (.marker (marker 2)) ∧ (marker 2).kind ≠ 1) ∧ (prog0 [.marker (marker 2)] 0 []).block = none ∧
    depMet (prog0 [entry0 desc0] 0 []) 1 5 = false ∧ partCluster owner0 0 31 = none ∧
    (cluGet (working desc0 run0 1 0 (some unit0) []) 0).claimed.isSome = true ∧ claimFrom owner0 0 = none ∧ ((partOf owner0 0).bind (lostCopy owner0)) = none ∧
    predTry NonVol.init 0 claimPlace owner0 = owner0 ∧ (cluGet owner0 0).claimed = none ∧
    unitOver (working desc0 run0 1 0 none [(0, some (unitAt 0 [] []))]) 0 0 = false ∧
    (unitInfo (working desc0 run0 1 0 none [(0, some unit0)]) 0 0 = some (unit0, info desc0) ∧
      ((passX (info desc0) (regionOf (info desc0) unit0) [] [] pass0).any fun w => !unit0.have_.contains w) = true) ∧
    unitInfo owner0 0 0 = none ∧ (stripSet (info desc0) (regionOf (info desc0) unit0) 9 = none) ∧
    closedSet (info desc0) (regionOf (info desc0) unit0) unit0 [] false ⟨0, [0], [0]⟩ = false ∧ (regionOf (info rows0) unit0).nr ≤ 1 ∧
    runGet owner0 0 0 = none ∧ run0.recorded = false ∧ allCommitted (working desc0 run0 1 0 none []) 0 run0 = false ∧
    entryOver (working desc0 run0 1 0 none []) 0 run0 = false ∧ (sort0 1).op ≠ 0 ∧ awaitsRows (sort0 0) = false ∧
    ({ unit0 with moved := true } : UnitRun).moved = true ∧ (ctxGet tabled 0).departing = none ∧ (schedGet tabled 0).incoming.contains 0 = false ∧
    nextApp base = none ∧ base.fw.deferred = none ∧ departReady (ctxed (fun x => { x with departing := some 0 }) (running0 tabled)) 0 = false := by
  and_intros <;> decide +kernel
end Sys2Proof.Tests
end

section
/-! SUPPORT. The fuse banks (O37): what one step can do to the fuses, shown of every command and of the tick. -/

namespace Sys2Proof.Machine

/-- The fields of `NonVol` that are fuses, but for the policy mask, which a policy change replaces (R7, R356, R442). -/
def fuses (nv : NonVol) : (List Nat × List (Nat × Nat) × List FuseRec) × (Nat × Nat) × Bool × Bool × Bool × Word :=
  ((nv.retired, nv.remaps, nv.fuseLog), (nv.rollback, nv.policyChanges), nv.m24, nv.l4, nv.specN, nv.stepping)

/-- What a step may do to the fuses: banks that are within their sizes stay so, and have only grown. A preorder. -/
structure FuseStep (a b : NonVol) : Prop where
  of_bounds : FuseBounds a → FuseBounds b ∧ FuseGrows a b

namespace FuseStep

variable {a b c : NonVol}

theorem of_fuses_eq (h : fuses b = fuses a) : FuseStep a b := by
  simp only [fuses, Prod.mk.injEq] at h
  obtain ⟨⟨hret, hrem, hlog⟩, ⟨hroll, hpol⟩, hm, hl, hs, hst⟩ := h
  refine ⟨fun hb => ?_⟩
  unfold FuseBounds FuseGrows at *
  rw [hret, hrem, hlog, hroll, hpol]
  exact ⟨hb, List.prefix_rfl, List.prefix_rfl, List.prefix_rfl, le_rfl, le_rfl, hm, hl, hs, hst⟩

theorem refl (a : NonVol) : FuseStep a a := of_fuses_eq rfl

theorem trans (hab : FuseStep a b) (hbc : FuseStep b c) : FuseStep a c := by
  refine ⟨fun ha => ?_⟩
  obtain ⟨hb, r1, m1, l1, c1, p1, f1, f2, f3, f4⟩ := hab.of_bounds ha
  obtain ⟨hc, r2, m2, l2, c2, p2, g1, g2, g3, g4⟩ := hbc.of_bounds hb
  exact ⟨hc, r1.trans r2, m1.trans m2, l1.trans l2, c1.trans c2, p1.trans p2, g1.trans f1, g2.trans f2, g3.trans f3,
    g4.trans f4⟩

/-- What was done before that changes no fuse does not count. -/
theorem of_fuses_eq_left (hbc : FuseStep b c) (h : fuses b = fuses a) : FuseStep a c := (of_fuses_eq h).trans hbc

end FuseStep

/-! ### Checks that have passed -/

/-- Every check of a command's own table holds where none has failed (R365). -/
theorem pass_of_failedCheck {n : Nat} {l : List (Bool × Nat)} (h : failedCheck n l = none) {ok : Bool} {st : Nat}
    (hm : (ok, st) ∈ l) : ok = true := by
  induction l generalizing n with
  | nil => cases hm
  | cons e l ih =>
    obtain ⟨ok', st'⟩ := e
    unfold failedCheck at h
    split at h
    · next hok =>
      cases hm with
      | head => exact hok
      | tail _ hm => exact ih h hm
    · cases h

/-- Status 0 means that every check holds, where none answers 0 as its own status (R371). -/
theorem pass_of_firstFail {l : List (Bool × Nat)} (h : firstFail l = 0) (hst : ∀ e ∈ l, e.2 ≠ 0) {ok : Bool} {st : Nat}
    (hm : (ok, st) ∈ l) : ok = true := by
  induction l with
  | nil => cases hm
  | cons e l ih =>
    obtain ⟨ok', st'⟩ := e
    unfold firstFail at h
    split at h
    · next hok =>
      cases hm with
      | head => exact hok
      | tail _ hm => exact ih h (fun e he => hst e (.tail _ he)) hm
    · exact absurd h (hst _ (.head _))

/-! ### The commands that add fuses -/

/-- A fuse-log record is appended where there is room for it (R442). -/
theorem fuseStep_fuseAppend (kind entry requester port old new_ : Nat) (nv : NonVol) (d : Device) :
    FuseStep nv (fuseAppend kind entry requester port old new_ nv d).1 := by
  refine ⟨fun ⟨hret, hrem, hpol, hlog⟩ => ?_⟩
  unfold fuseAppend
  dsimp only
  split
  · next hroom =>
    exact ⟨⟨hret, hrem, hpol, by simpa using hroom⟩, List.prefix_rfl, List.prefix_rfl, List.prefix_append _ _, le_rfl,
      le_rfl, rfl, rfl, rfl, rfl⟩
  · exact (FuseStep.refl nv).of_bounds ⟨hret, hrem, hpol, hlog⟩

/-- Raising the anti-rollback counter (R409). -/
theorem fuseStep_rollback {nv : NonVol} {r : Nat} (h : nv.rollback < r) : FuseStep nv { nv with rollback := r } :=
  ⟨fun hb => ⟨hb, List.prefix_rfl, List.prefix_rfl, List.prefix_rfl, h.le, le_rfl, rfl, rfl, rfl, rfl⟩⟩

/-- A change of the ownership policy while one is left (R356). -/
theorem fuseStep_policyChange {nv : NonVol} (mask : Nat) (h : nv.policyChanges < 8) :
    FuseStep nv { nv with policyMask := mask, policyChanges := nv.policyChanges + 1 } :=
  ⟨fun ⟨hret, hrem, _, hlog⟩ => ⟨⟨hret, hrem, h, hlog⟩, List.prefix_rfl, List.prefix_rfl, List.prefix_rfl, le_rfl,
    Nat.le_succ _, rfl, rfl, rfl, rfl⟩⟩

/-- One more retired stack while there is a place for it (R244). -/
theorem fuseStep_retire {nv : NonVol} (n : Nat) (h : nv.retired.length < 4) :
    FuseStep nv { nv with retired := nv.retired ++ [n] } :=
  ⟨fun ⟨_, hrem, hpol, hlog⟩ => ⟨⟨by simpa using h, hrem, hpol, hlog⟩, List.prefix_append _ _, List.prefix_rfl,
    List.prefix_rfl, le_rfl, le_rfl, rfl, rfl, rfl, rfl⟩⟩

/-- One more fused remap while there is a place for it (R267). -/
theorem fuseStep_remap {nv : NonVol} (e : Nat × Nat) (h : nv.remaps.length < 48) :
    FuseStep nv { nv with remaps := nv.remaps ++ [e] } :=
  ⟨fun ⟨hret, _, hpol, hlog⟩ => ⟨⟨hret, by simpa using h, hpol, hlog⟩, List.prefix_rfl, List.prefix_append _ _,
    List.prefix_rfl, le_rfl, le_rfl, rfl, rfl, rfl, rfl⟩⟩

theorem fuseStep_raiseCounter (r requester port : Nat) (nv : NonVol) (d : Device) :
    FuseStep nv (raiseCounter r requester port nv d).1 := by
  unfold raiseCounter
  split
  · exact (fuseStep_rollback ‹_›).trans (fuseStep_fuseAppend ..)
  · exact .refl nv

theorem fuseStep_fuseRemaps (l : List (Nat × Nat)) (nv : NonVol) (d : Device) : FuseStep nv (fuseRemaps l nv d).1 := by
  induction l generalizing nv d with
  | nil => exact .refl nv
  | cons e l ih =>
    unfold fuseRemaps
    split
    · exact ((fuseStep_remap _ ‹_›).trans (fuseStep_fuseAppend ..)).trans (ih _ _)
    · exact .refl nv

theorem fuseStep_chipReset (cause : Nat) (passed : List Nat) (nv : NonVol) (d : Device) :
    FuseStep nv (chipReset cause passed nv d).1 := by
  unfold chipReset
  split
  · exact fuseStep_fuseRemaps ..
  · exact .refl nv

theorem fuseStep_fuseWrite (t : Nat) (x : Taken) (nv : NonVol) (d : Device) : FuseStep nv (fuseWrite t x nv d).1 := by
  unfold fuseWrite
  dsimp only
  split
  · exact .refl nv
  · next h =>
    have hroom : nv.policyChanges < 8 := of_decide_eq_true (pass_of_failedCheck h (st := stNoResource) (by simp))
    exact (fuseStep_policyChange _ hroom).trans (fuseStep_fuseAppend ..)

/-- A status 0 of steps 5 and 6 of R371 leaves STACK_RETIRE a place among the fuses. -/
theorem retired_lt_of_stateStatus {nv : NonVol} {d : Device} {ring : Option CtxNo} {e : Nat} (hop : eOpcode e = 0x20)
    (h : stateStatus nv d ring e = 0) : nv.retired.length < 4 := by
  have hres : resourceOk nv d e = true := pass_of_firstFail h (by simp [stState, stNoResource]) (st := stNoResource) (by simp)
  simpa [resourceOk, hop] using hres

theorem fuseStep_stackRetire (t : Nat) (x : Taken) {nv : NonVol} (d : Device) (h : nv.retired.length < 4) :
    FuseStep nv (stackRetire t x nv d).1 := by
  unfold stackRetire
  dsimp only
  exact (fuseStep_retire (eArg x.entry 0) h).trans (fuseStep_fuseAppend ..)

theorem eOpcode_of_freshTaken {d : Device} {op t : Nat} {x : Taken} (h : freshTaken d op t = some x) :
    eOpcode x.entry = op := by
  unfold freshTaken at h
  split at h
  · split at h
    · next hx => cases h; exact hx.2.2.2
    · cases h
  · cases h

/-- A taken command steps the fuses as its own meaning does where steps 5 and 6 of R371 pass. -/
theorem fuseStep_withTakenNv {op t : Nat} {f : Taken → NonVol → Device → NonVol × Device} {nv : NonVol} {d : Device}
    (h : ∀ x, eOpcode x.entry = op → stateStatus nv d x.ring x.entry = 0 → FuseStep nv (f x nv d).1) :
    FuseStep nv (withTakenNv op t f nv d).1 := by
  unfold withTakenNv
  split
  · next x hx =>
    dsimp only
    split
    · exact h x (eOpcode_of_freshTaken hx) ‹_›
    · exact .refl nv
  · exact .refl nv

/-! ### The commands that change what the module keeps, but no fuse -/

@[simp] theorem fuses_bankPut (b : Bool) (x : Option Image) (nv : NonVol) : fuses (bankPut b x nv) = fuses nv := by
  cases b <;> rfl

@[simp] theorem fuses_powerCycle (nv : NonVol) (d : Device) : fuses (powerCycle nv d).1 = fuses nv := by
  unfold powerCycle; split <;> rfl

@[simp] theorem fuses_fwStageComplete (nv : NonVol) (d : Device) : fuses (fwStageComplete nv d).1 = fuses nv := by
  unfold fwStageComplete
  split
  · rfl
  · split
    · rfl
    · dsimp only
      split
      · exact fuses_bankPut ..
      · dsimp only
        split
        · exact fuses_bankPut ..
        · rfl

@[simp] theorem fuses_activationFail (proc clu : Nat) (nv : NonVol) (d : Device) :
    fuses (activationFail proc clu nv d).1 = fuses nv := by
  unfold activationFail; split <;> rfl

@[simp] theorem fuses_processorCrash (proc k cause : Nat) (nv : NonVol) (d : Device) :
    fuses (processorCrash proc k cause nv d).1 = fuses nv := by
  unfold processorCrash
  split
  · rfl
  · simp [apply_ite Prod.fst, apply_ite fuses]

@[simp] theorem fuses_standbyStart (mv : Nat) (nv : NonVol) (d : Device) : fuses (standbyStart mv nv d).1 = fuses nv := by
  unfold standbyStart; split <;> rfl

@[simp] theorem fuses_mainPowerOn (mv : Nat) (inlet : Int) (passed : List Nat) (nv : NonVol) (d : Device) :
    fuses (mainPowerOn mv inlet passed nv d).1 = fuses nv := by
  unfold mainPowerOn
  split
  · rfl
  · dsimp only
    split <;> rfl

@[simp] theorem fuses_mainOff (nv : NonVol) (d : Device) : fuses (mainOff nv d).1 = fuses nv := by
  unfold mainOff; split <;> rfl

@[simp] theorem fuses_mainPowerOff (mv : Option Nat) (nv : NonVol) (d : Device) :
    fuses (mainPowerOff mv nv d).1 = fuses nv := by
  cases mv with
  | none => exact fuses_mainOff ..
  | some v =>
    simp only [mainPowerOff]
    split
    · exact fuses_mainOff ..
    · rfl

@[simp] theorem fuses_standbyStop (mv : Nat) (nv : NonVol) (d : Device) : fuses (standbyStop mv nv d).1 = fuses nv := by
  unfold standbyStop; split <;> rfl

@[simp] theorem fuses_modulePulled (nv : NonVol) (d : Device) : fuses (modulePulled nv d).1 = fuses nv := fuses_mainOff ..

@[simp] theorem fuses_thermalTrip (junction stack : Int) (nv : NonVol) (d : Device) :
    fuses (thermalTrip junction stack nv d).1 = fuses nv := by
  unfold thermalTrip
  split
  · exact fuses_mainOff ..
  · rfl

@[simp] theorem fuses_removalRequest (source : Nat) (nv : NonVol) (d : Device) :
    fuses (removalRequest source nv d).1 = fuses nv := by
  unfold removalRequest; split <;> rfl

@[simp] theorem fuses_quiesceBegin (nv : NonVol) (d : Device) : fuses (quiesceBegin nv d).1 = fuses nv := rfl

@[simp] theorem fuses_quiesceAsked (source : Nat) (nv : NonVol) (d : Device) :
    fuses (quiesceAsked source nv d).1 = fuses nv := by
  unfold quiesceAsked; split <;> rfl

@[simp] theorem fuses_removalCancel (source : Nat) (nv : NonVol) (d : Device) :
    fuses (removalCancel source nv d).1 = fuses nv := by
  unfold removalCancel; split <;> rfl

@[simp] theorem fuses_shortPress (ms : Nat) (nv : NonVol) (d : Device) : fuses (shortPress ms nv d).1 = fuses nv := by
  unfold shortPress
  split
  · exact fuses_removalRequest ..
  · rfl

@[simp] theorem fuses_longPress (ms : Nat) (nv : NonVol) (d : Device) : fuses (longPress ms nv d).1 = fuses nv := by
  unfold longPress
  split
  · exact fuses_removalCancel ..
  · rfl

@[simp] theorem fuses_removeBits (p : Port) (bits : Nat) (nv : NonVol) (d : Device) :
    fuses (removeBits p bits nv d).1 = fuses nv := by
  unfold removeBits
  dsimp only
  split_ifs <;> simp

@[simp] theorem fuses_graceTimeout (nv : NonVol) (d : Device) : fuses (graceTimeout nv d).1 = fuses nv := by
  unfold graceTimeout
  split
  · exact fuses_quiesceBegin ..
  · rfl

@[simp] theorem fuses_quiesceComplete (nv : NonVol) (d : Device) : fuses (quiesceComplete nv d).1 = fuses nv := by
  unfold quiesceComplete; dsimp only; split <;> rfl

@[simp] theorem fuses_removalCmd (code : Nat) (nv : NonVol) (d : Device) : fuses (removalCmd code nv d).1 = fuses nv := by
  unfold removalCmd
  split
  · rfl
  · dsimp only
    split <;> simp

@[simp] theorem fuses_removePut (p : Port) (n : Nat) (nv : NonVol) (d : Device) :
    fuses (removePut p n nv d).1 = fuses nv := by
  unfold removePut
  split
  · rfl
  · exact fuses_removeBits ..

@[simp] theorem fuses_regWrite (p : Port) (off : Nat) (v : Word) (nv : NonVol) (d : Device) :
    fuses (regWrite p off v nv d).1 = fuses nv := by
  unfold regWrite
  split
  · rfl
  · rfl
  · split_ifs <;> simp

/-! ### Boot and activation, which may raise the anti-rollback counter -/

theorem fuseStep_bootFrom (b : Bool) (x : Image) (nv : NonVol) (d : Device) : FuseStep nv (bootFrom b x nv d).1 := by
  unfold bootFrom
  dsimp only
  split
  · exact (fuseStep_raiseCounter ..).of_fuses_eq_left rfl
  · exact .refl nv

theorem fuseStep_boot (nv : NonVol) (d : Device) : FuseStep nv (boot nv d).1 := by
  unfold boot
  split
  · exact .refl nv
  · dsimp only
    split
    · exact fuseStep_bootFrom ..
    · split
      · exact fuseStep_bootFrom ..
      · exact .refl nv

theorem fuseStep_activationOk (nv : NonVol) (d : Device) : FuseStep nv (activationOk nv d).1 := by
  unfold activationOk
  split
  · exact (fuseStep_raiseCounter ..).of_fuses_eq_left rfl
  · exact .refl nv

theorem fuseStep_activationComplete (failed : Option (Fin 4 × CluNo)) (nv : NonVol) (d : Device) :
    FuseStep nv (activationComplete failed nv d).1 := by
  unfold activationComplete
  split
  · exact .refl nv
  · split
    · exact .of_fuses_eq (fuses_activationFail ..)
    · split
      · exact .refl nv
      · split
        · exact .of_fuses_eq (fuses_activationFail ..)
        · exact fuseStep_activationOk ..

/-! ### Every command, and the tick -/

theorem fuseStep_of_onDev {f : NonVol → Device → Device} {s t : State}
    (h : (.next (onDev f s) : Host.Outcome State Fault Refusal) = .next t) : FuseStep s.nv t.nv := by
  cases h; exact .refl s.nv

theorem fuseStep_of_onBoth {f : NonVol → Device → NonVol × Device} {s t : State}
    (hf : FuseStep s.nv (f s.nv s.d).1)
    (h : (.next (onBoth f s) : Host.Outcome State Fault Refusal) = .next t) : FuseStep s.nv t.nv := by
  cases h; exact hf

/-- A write of the removal register by its own rows, where a write of the port reaches the registers. -/
theorem fuses_hostRemoveBits (p : Port) (bits : Nat) (nv : NonVol) (d : Device) :
    fuses (if hostWrites nv d p then removeBits p bits nv d else (nv, d)).1 = fuses nv := by
  split
  · exact fuses_removeBits ..
  · rfl

theorem fuses_hostRegWrite (p : Port) (off size : Nat) (v : Word) (nv : NonVol) (d : Device) :
    fuses (if hostWrites nv d p ∧ size = 4 ∧ off % 4 = 0 then regWrite p off v nv d else (nv, d)).1 = fuses nv := by
  split
  · exact fuses_regWrite ..
  · rfl

/-- Every command but the ones named here acts on the device alone. -/
theorem fuseStep_exec {c : Instr} {s t : State} (h : exec c s = .next t) : FuseStep s.nv t.nv := by
  cases c with
  | ctxCreate => exact fuseStep_of_onBoth (fuseStep_withTakenNv fun _ _ _ => .of_fuses_eq rfl) h
  | stackRetire =>
    exact fuseStep_of_onBoth (fuseStep_withTakenNv fun _ hop hst =>
      fuseStep_stackRetire _ _ _ (retired_lt_of_stateStatus hop hst)) h
  | fuseWrite => exact fuseStep_of_onBoth (fuseStep_withTakenNv fun _ _ _ => fuseStep_fuseWrite ..) h
  | chipReset => exact fuseStep_of_onBoth (fuseStep_chipReset ..) h
  | boot => exact fuseStep_of_onBoth (fuseStep_boot ..) h
  | activationComplete => exact fuseStep_of_onBoth (fuseStep_activationComplete ..) h
  | powerCycle => exact fuseStep_of_onBoth (.of_fuses_eq (fuses_powerCycle ..)) h
  | fwStageComplete => exact fuseStep_of_onBoth (.of_fuses_eq (fuses_fwStageComplete ..)) h
  | processorCrash => exact fuseStep_of_onBoth (.of_fuses_eq (fuses_processorCrash ..)) h
  | standbyStart => exact fuseStep_of_onBoth (.of_fuses_eq (fuses_standbyStart ..)) h
  | mainPowerOn => exact fuseStep_of_onBoth (.of_fuses_eq (fuses_mainPowerOn ..)) h
  | mainPowerOff => exact fuseStep_of_onBoth (.of_fuses_eq (fuses_mainPowerOff ..)) h
  | standbyStop => exact fuseStep_of_onBoth (.of_fuses_eq (fuses_standbyStop ..)) h
  | modulePulled => exact fuseStep_of_onBoth (.of_fuses_eq (fuses_modulePulled ..)) h
  | thermalTrip => exact fuseStep_of_onBoth (.of_fuses_eq (fuses_thermalTrip ..)) h
  | shortPress => exact fuseStep_of_onBoth (.of_fuses_eq (fuses_shortPress ..)) h
  | longPress => exact fuseStep_of_onBoth (.of_fuses_eq (fuses_longPress ..)) h
  | request => exact fuseStep_of_onBoth (.of_fuses_eq (fuses_hostRemoveBits ..)) h
  | quiesceNow => exact fuseStep_of_onBoth (.of_fuses_eq (fuses_hostRemoveBits ..)) h
  | cancel => exact fuseStep_of_onBoth (.of_fuses_eq (fuses_hostRemoveBits ..)) h
  | graceTimeout => exact fuseStep_of_onBoth (.of_fuses_eq (fuses_graceTimeout ..)) h
  | quiesceComplete => exact fuseStep_of_onBoth (.of_fuses_eq (fuses_quiesceComplete ..)) h
  | removal => exact fuseStep_of_onBoth (.of_fuses_eq (fuses_removalCmd ..)) h
  | registerWrite => exact fuseStep_of_onBoth (.of_fuses_eq (fuses_hostRegWrite ..)) h
  | _ => exact fuseStep_of_onDev h

@[simp] theorem fuses_tick (s : State) : fuses (tick s).nv = fuses s.nv := by
  unfold tick
  split
  · dsimp only
    split <;> rfl
  · rfl

/-- Settles O37: `FuseStep` holds of the tick and of every command. -/
theorem fusesOnlyGrowWithinTheirBanks : Obligations.FusesOnlyGrowWithinTheirBanks := by
  intro s t hb h
  unfold step at h
  split at h
  · cases h; exact (FuseStep.of_fuses_eq (fuses_tick s)).of_bounds hb
  · exact (fuseStep_exec h).of_bounds hb

end Sys2Proof.Machine
end

section
/-! SUPPORT. The registers of the DEV block in every state (O39, O40, O41), and every register after reset (O42). -/

namespace Sys2Proof.Machine

/-! ### The DEV block -/

theorem regVal_dev {nv : NonVol} {d : Device} {p off : Nat} (h : off < 0x10000) : regVal nv d p off = devReg nv off :=
  if_pos h

/-- Settles O39: CAP_UNITS is a sum of one term for the links and one for speculation and sorting. -/
theorem unitCapabilitiesReadTheOptions : Obligations.UnitCapabilitiesReadTheOptions := by
  intro nv d p
  have hcap : regVal nv d p.val 0x100 = capUnits nv := regVal_dev (by decide)
  rw [hcap]
  unfold capUnits
  cases nv.l4 <;> cases nv.specN <;> decide

theorem bit_eq_testBit (n pos : Nat) : bit n pos = n.testBit pos := by
  rw [Nat.testBit_eq_decide_div_mod_eq]; rfl

/-- Subtracting a power of two whose bit is set clears that bit and leaves every other. -/
theorem testBit_sub_two_pow {m n : Nat} (h : m.testBit n = true) (j : Nat) :
    (m - 2 ^ n).testBit j = (m.testBit j && decide (j ≠ n)) := by
  have hm : 2 ^ n + (m - 2 ^ n) = m := Nat.add_sub_cancel' (Nat.ge_two_pow_of_testBit h)
  rcases Nat.lt_trichotomy j n with hj | rfl | hj
  · rw [← Nat.testBit_two_pow_add_gt hj (m - 2 ^ n), hm]; simp [hj.ne]
  · have hflip := Nat.testBit_two_pow_add_eq (m - 2 ^ j) j
    rw [hm, h] at hflip
    simpa using hflip.symm
  · have hodd : m / 2 ^ n % 2 = 1 := by simpa [Nat.testBit_eq_decide_div_mod_eq] using h
    have hdiv : (m - 2 ^ n) / 2 ^ n = m / 2 ^ n - 1 := by simpa using Nat.sub_mul_div m (2 ^ n) 1
    have hhigh : (m - 2 ^ n) / 2 ^ (n + 1) = m / 2 ^ (n + 1) := by
      rw [Nat.pow_succ, ← Nat.div_div_eq_div_mul, ← Nat.div_div_eq_div_mul, hdiv]
      generalize m / 2 ^ n = q at hodd
      omega
    obtain ⟨i, rfl⟩ : ∃ i, j = i + (n + 1) := ⟨j - (n + 1), by omega⟩
    rw [← Nat.testBit_div_two_pow, hhigh, Nat.testBit_div_two_pow]
    simp; omega

/-- Taking the members of a list out of a mask clears their bits, listed twice or not populated as they may be. -/
theorem testBit_foldl_clear (l : List Nat) (v m : Nat) :
    (l.foldl (fun m n => if m.testBit n then m - 2 ^ n else m) v).testBit m = (v.testBit m && decide (m ∉ l)) := by
  induction l generalizing v with
  | nil => simp
  | cons n l ih =>
    rw [List.foldl_cons, ih]
    by_cases hn : v.testBit n = true
    · simp [hn, testBit_sub_two_pow hn, Bool.and_assoc]
    · by_cases hm : m = n
      · simp [hn, hm]
      · simp [hn, hm]

/-- The stacks that the option populates (R9). -/
theorem testBit_populated (m24 : Bool) {m : Nat} (h : m < 32) :
    (if m24 then 0x3F3F3F3F else 0xFFFFFFFF : Nat).testBit m = true ↔ (m24 = true → m % 8 < 6) := by
  revert m24 m; decide

/-- Settles O40: `testBit_foldl_clear` says what retirement leaves of the populated stacks. -/
theorem stackMaskFollowsOptionAndRetirement : Obligations.StackMaskFollowsOptionAndRetirement := by
  intro nv d p
  have hcap : regVal nv d p.val 0x104 = nv.capMemory := regVal_dev (by decide)
  rw [hcap]
  refine ⟨fun hm hr => by simp [NonVol.capMemory, hm, hr], fun hm hr => by simp [NonVol.capMemory, hm, hr], fun m hm => ?_⟩
  rw [bit_eq_testBit, NonVol.capMemory, testBit_foldl_clear, Bool.and_eq_true, testBit_populated nv.m24 hm,
    decide_eq_true_eq]

theorem devReg_unlisted {nv : NonVol} {o : Nat} (h0 : o ≠ 0) (h4 : o ≠ 4) (h8 : o ≠ 8) (h100 : o ≠ 0x100) (h104 : o ≠ 0x104) :
    devReg nv o = 0 := by
  simp [devReg, h0, h4, h8, h100, h104]

/-- Settles O41: the DEV block falls through to 0. -/
theorem unlistedDeviceOffsetsReadZero : Obligations.UnlistedDeviceOffsetsReadZero := by
  intro nv d p off hoff h0 h4 h8 h100 h104
  rw [regVal_dev hoff, devReg_unlisted h0 h4 h8 h100 h104]

/-! ### The state after reset: the blocks, where the reset value of a register is not listed -/

/-- Both branches of a choice have the value. Applied along a block's chain of offsets it leaves one goal for each register. -/
theorem ite_eq_of_both {α : Type} {c : Prop} [Decidable c] {a b v : α} (ha : a = v) (hb : b = v) :
    (if c then a else b) = v := by
  split <;> assumption

/-! In each block the offsets of the registers whose value after reset is not 0 are left out. -/

/-! After reset the sparse tables of the device list nothing. -/

theorem ctxGet_reset (c : Nat) : ctxGet State.reset.d c = Ctx.init := smGet_nil _ _
theorem schedGet_reset (p : Nat) : schedGet State.reset.d p = PartSched.init := smGet_nil _ _
theorem cageGet_reset (g : Nat) : cageGet State.reset.d g = Cage.init := smGet_nil _ _
theorem aperGet_reset (p a : Nat) : aperGet State.reset.d p a = Aperture.init := smGet_nil _ _
theorem procs_reset : State.reset.d.fw.procs = [] := rfl
theorem rail_reset : State.reset.d.pwr.rail = [] := rfl
theorem railE_reset : State.reset.d.kept.railE = [] := rfl
theorem temp_reset : State.reset.d.pwr.temp = [] := rfl
theorem tempMax_reset : State.reset.d.kept.tempMax = [] := rfl
theorem powerPart_reset : State.reset.d.pwr.part = [] := rfl

/-- DEV_OPTION is a register, and reads 0 on the fully fitted part (R7). -/
theorem devReg_reset {o : Nat} (h : o ∉ [0, 4, 0x100, 0x104]) : devReg State.reset.nv o = 0 := by
  simp only [List.mem_cons, List.not_mem_nil, or_false, not_or] at h
  obtain ⟨h0, h4, h100, h104⟩ := h
  unfold devReg
  rw [if_neg h0, if_neg h4, if_neg h100, if_neg h104]
  exact ite_eq_of_both rfl rfl

theorem ownReg_reset {p o : Nat} (h : o ∉ [0, 8, 0xC]) :
    ownReg State.reset.nv State.reset.d p o = 0 := by
  simp only [List.mem_cons, List.not_mem_nil, or_false, not_or] at h
  obtain ⟨h0, h8, hC⟩ := h
  unfold ownReg
  rw [if_neg h0, if_neg h8, if_neg hC]
  exact ite_eq_of_both rfl rfl

theorem timeReg_reset {o : Nat} (h : o ∉ [8, 0x20, 0x2C]) :
    timeReg State.reset.nv State.reset.d o = 0 := by
  simp only [List.mem_cons, List.not_mem_nil, or_false, not_or] at h
  obtain ⟨h8, h20, h2C⟩ := h
  unfold timeReg
  simp only [if_neg h8, if_neg h20, if_neg h2C, schedGet_reset]
  repeat' with_reducible apply ite_eq_of_both
  all_goals rfl

theorem devRing_reset (k : Nat) : devRing State.reset.d k = DevRing.init := ite_eq_of_both rfl (ite_eq_of_both rfl rfl)

theorem ringReg_reset (o : Nat) : ringReg State.reset.d o = 0 := by
  unfold ringReg
  simp only [devRing_reset, aperGet_reset, ctxGet_reset]
  repeat' with_reducible apply ite_eq_of_both
  all_goals rfl

theorem fwReg_reset {o : Nat} (h : o ∉ [0x200]) : fwReg State.reset.nv State.reset.d o = 0 := by
  unfold fwReg
  simp only [if_neg (List.ne_of_not_mem_cons h), procs_reset, smGet_nil]
  repeat' with_reducible apply ite_eq_of_both
  all_goals rfl

/-- A list of one value reads as that value beyond its end too, where that is the default. -/
theorem getD_replicate_self {α : Type} (x : α) (n i : Nat) : (List.replicate n x).getD i x = x := by
  rw [List.getD_eq_getElem?_getD, List.getElem?_getD_replicate_default_eq]

theorem keys_reset (i : Nat) : State.reset.d.frames.keys.getD i none = none := getD_replicate_self none 2 i

theorem slots_reset (i : Nat) : State.reset.d.frames.slots.getD i none = none := getD_replicate_self none 4 i

theorem partReg_reset (o : Nat) : partReg State.reset.nv State.reset.d o = 0 := by
  unfold partReg
  simp only [keys_reset, slots_reset]
  repeat' with_reducible apply ite_eq_of_both
  all_goals rfl

theorem setReg_reset {i : Nat} (h : i ≠ 0) (f : Nat) : setReg (setGet State.reset.d.mem i) f = 0 := by
  obtain ⟨i, rfl⟩ := Nat.exists_eq_succ_of_ne_zero h
  rw [show setGet State.reset.d.mem (i + 1) = StripeSet.init from getD_replicate_self StripeSet.init 7 i]
  exact ite_eq_of_both rfl (ite_eq_of_both rfl (ite_eq_of_both rfl rfl))

theorem memReg_reset {o : Nat} (h : o ∉ [0, 4, 0x10, 0x14, 0x18, 0x1C, 0x24, 0x100, 0x104, 0x108]) :
    memReg State.reset.d o = 0 := by
  simp only [List.mem_cons, List.not_mem_nil, or_false, not_or] at h
  obtain ⟨h0, h4, h10, h14, h18, h1C, h24, h100, h104, h108⟩ := h
  have hset (hl : 0x100 ≤ o) : setReg (setGet State.reset.d.mem ((o - 0x100) / 0x10)) (o % 0x10) = 0 := by
    by_cases hi : (o - 0x100) / 0x10 = 0
    · unfold setReg
      rw [if_neg (by omega), if_neg (by omega), if_neg (by omega)]
    · exact setReg_reset hi _
  unfold memReg
  simp only [if_neg h0, if_neg h4, if_neg h10, if_neg h14, if_neg h18, if_neg h1C, if_neg h24]
  by_cases hs : 0x100 ≤ o ∧ o < 0x180
  · simp only [if_pos hs, hset hs.1]
    repeat' with_reducible apply ite_eq_of_both
    all_goals rfl
  · simp only [if_neg hs]
    repeat' with_reducible apply ite_eq_of_both
    all_goals rfl

theorem cageReg_init (f : Nat) : cageReg Cage.init f = 0 :=
  ite_eq_of_both rfl (ite_eq_of_both rfl (ite_eq_of_both rfl rfl))

theorem linkReg_reset {o : Nat} (h : o ∉ [8, 0x28]) : linkReg State.reset.nv State.reset.d o = 0 := by
  simp only [List.mem_cons, List.not_mem_nil, or_false, not_or] at h
  obtain ⟨h8, h28⟩ := h
  unfold linkReg
  simp only [if_neg h8, if_neg h28]
  simp only [cageGet_reset, cageReg_init]
  repeat' with_reducible apply ite_eq_of_both
  all_goals rfl

theorem collReg_reset {o : Nat} (h : o ∉ [0]) : collReg State.reset.d o = 0 := by
  unfold collReg
  rw [if_neg (List.ne_of_not_mem_cons h)]
  repeat' with_reducible apply ite_eq_of_both
  all_goals rfl

theorem fltReg_reset {o : Nat} (h : o ∉ [0, 4, 0x20, 0x24]) :
    fltReg State.reset.nv State.reset.d o = 0 := by
  simp only [List.mem_cons, List.not_mem_nil, or_false, not_or] at h
  obtain ⟨h0, h4, h20, h24⟩ := h
  unfold fltReg
  simp only [if_neg h0, if_neg h4, if_neg h20, if_neg h24]
  repeat' with_reducible apply ite_eq_of_both
  all_goals rfl

theorem pwrReg_reset {o : Nat} (h : o ∉ [0, 0x10, 0x14, 0x18, 0x200, 0x204]) : pwrReg State.reset.nv State.reset.d o = 0 := by
  simp only [List.mem_cons, List.not_mem_nil, or_false, not_or] at h
  obtain ⟨h0, h10, h14, h18, h200, h204⟩ := h
  unfold pwrReg
  simp only [if_neg h0, if_neg (not_or.2 ⟨h10, h14⟩), if_neg h18, if_neg h200, if_neg h204,
    rail_reset, railE_reset, temp_reset, tempMax_reset, powerPart_reset, smGet_nil]
  repeat' with_reducible apply ite_eq_of_both
  all_goals rfl

/-! ### The state after reset: the values that are listed -/

/-- The home sites of the clusters keep clear of the spare columns 16 and 17 (R20). -/
theorem homeSite_column (k : Nat) : homeSite k % 34 < 16 ∨ 18 ≤ homeSite k % 34 := by
  unfold homeSite; split <;> omega

theorem site_bindGet_reset (k : Nat) : (bindGet State.reset.nv State.reset.d k).site = homeSite k := by
  rw [bindGet, show State.reset.d.fabric.bind = [] from rfl, smGet_nil]; rfl

/-- Every spare is free after reset (R263). -/
theorem freeSpares_reset {h : Nat} (hh : h < 2) : freeSpares State.reset.nv State.reset.d h = 24 := by
  have hfree : ∀ site ∈ spareSites h, spareFree State.reset.nv State.reset.d site = true := by
    intro site hs
    obtain ⟨r, -, rfl⟩ := List.mem_map.1 hs
    have hbound (k : Nat) : homeSite k ≠ r * 34 + 16 + h := by
      have := homeSite_column k; omega
    simp only [spareFree, site_bindGet_reset]
    simp [hbound, State.reset, Device.afterReset]
  rw [freeSpares, List.filter_eq_self.2 hfree]
  simp [spareSites]

/-- The registers whose value after reset is not 0, as port `p` reads them: those of O42. -/
def resetTable (p : Nat) : List (Nat × Nat) :=
  [(0x0, 0x0C5D9600), (0x4, 0x00010101), (0x100, 0x2018FF03), (0x104, 0xFFFFFFFF), (0x10000, 0x100 * p),
    (0x10008, 0xF), (0x1000C, 0x7D0), (0x20008, 0x8), (0x20020, 0x3E8), (0x2002C, 0x1000), (0x100200, 0x2),
    (0x400000, 0x24A), (0x400004, 0x4), (0x400010, 0xFC000000), (0x400014, 0x17F), (0x400018, 0xFBFE0000),
    (0x40001C, 0x17F), (0x400024, 0x80000), (0x400100, 0xFFFFFFFF), (0x400104, 0x60000000), (0x400108, 0x1),
    (0x600008, 0x88B5), (0x600028, 0x50), (0x700000, 0x1388), (0x800000, 0xFBF80000), (0x800004, 0x17F),
    (0x800020, 0x6300), (0x800024, 0x18), (0xA00000, 0x8000), (0xA00010, 0x06400640), (0xA00014, 0x06400640),
    (0xA00018, 0x47E), (0xA00200, 0x1E0000), (0xA00204, 0x10)]

theorem fltHealth_reset : fltReg State.reset.nv State.reset.d 0x20 = 0x6300 := by
  have h0 := freeSpares_reset (h := 0) (by decide)
  have h1 := freeSpares_reset (h := 1) (by decide)
  simp only [fltReg, h0, h1]
  decide +kernel

/-- FLT_HEALTH counts the free spares, so it goes by `fltHealth_reset`; the others are evaluated. -/
theorem regVal_reset_listed (p : Port) : ∀ e ∈ resetTable p.val, regVal State.reset.nv State.reset.d p.val e.1 = e.2 := by
  have hrest : ∀ p : Port, ∀ e ∈ resetTable p.val, e.1 ≠ 0x800020 →
      regVal State.reset.nv State.reset.d p.val e.1 = e.2 := by
    decide +kernel
  intro e he
  by_cases h : e.1 = 0x800020
  · have hv : ∀ p : Port, ∀ e ∈ resetTable p.val, e.1 = 0x800020 → e.2 = 0x6300 := by decide +kernel
    rw [h, hv p e he h]
    exact fltHealth_reset
  · exact hrest p e he h

/-- The offsets of the table, which are those of every port. -/
def resetOffsets : List Nat := (resetTable 0).map (·.1)

/-- An offset outside the table is none of the block that begins at `base` either. -/
theorem sub_not_mem_of_not_mem {off base : Nat} {l m : List Nat} (h : off ∉ l) (hb : ¬ off < base)
    (hm : ∀ o ∈ m, base + o ∈ l) : off - base ∉ m := by
  intro ho
  have := hm _ ho
  rw [Nat.add_sub_cancel' (Nat.le_of_not_lt hb)] at this
  exact h this

theorem regVal_reset_unlisted {p off : Nat} (h : off ∉ resetOffsets) : regVal State.reset.nv State.reset.d p off = 0 := by
  have hblock {base : Nat} (m : List Nat) (hb : ¬ off < base) (hm : ∀ o ∈ m, base + o ∈ resetOffsets) : off - base ∉ m :=
    sub_not_mem_of_not_mem h hb hm
  unfold regVal
  refine ite_eq_iff'.2 ⟨fun _ => devReg_reset (hblock _ (Nat.not_lt_zero off) (by decide)), fun hb => ?_⟩
  refine ite_eq_iff'.2 ⟨fun _ => ownReg_reset (hblock _ hb (by decide)), fun hb => ?_⟩
  refine ite_eq_iff'.2 ⟨fun _ => timeReg_reset (hblock _ hb (by decide)), fun _ => ?_⟩
  refine ite_eq_iff'.2 ⟨fun _ => ringReg_reset _, fun hb => ?_⟩
  refine ite_eq_iff'.2 ⟨fun _ => fwReg_reset (hblock _ hb (by decide)), fun _ => ?_⟩
  refine ite_eq_iff'.2 ⟨fun _ => partReg_reset _, fun hb => ?_⟩
  refine ite_eq_iff'.2 ⟨fun _ => memReg_reset (hblock _ hb (by decide)), fun hb => ?_⟩
  refine ite_eq_iff'.2 ⟨fun _ => linkReg_reset (hblock _ hb (by decide)), fun hb => ?_⟩
  refine ite_eq_iff'.2 ⟨fun _ => collReg_reset (hblock _ hb (by decide)), fun hb => ?_⟩
  refine ite_eq_iff'.2 ⟨fun _ => fltReg_reset (hblock _ hb (by decide)), fun hb => ?_⟩
  exact ite_eq_iff'.2 ⟨fun _ => pwrReg_reset (hblock _ hb (by decide)), fun _ => rfl⟩

/-- Settles O42: a register of the table has its value there, and every other offset, also one past the bound, reads 0. -/
theorem registersAfterReset : Obligations.RegistersAfterReset := by
  intro p off _ _
  change _ = (((resetTable p.val).find? fun e => e.1 = off).map (·.2)).getD 0
  cases hf : (resetTable p.val).find? fun e => e.1 = off with
  | none =>
    refine regVal_reset_unlisted fun hm => ?_
    obtain ⟨e, he, heq⟩ := List.mem_map.1 (show off ∈ (resetTable p.val).map (·.1) from hm)
    exact List.find?_eq_none.1 hf e he (by simpa using heq)
  | some e =>
    have he : e.1 = off := by simpa using List.find?_some hf
    rw [← he]
    exact regVal_reset_listed p e (List.mem_of_find?_eq_some hf)

end Sys2Proof.Machine
end

section
/-! SUPPORT. External memory: a stripe set gives each offset a place of its own, so bytes written are read back (O47). -/

namespace Sys2Proof.Machine

/-! ### The members of a stripe set -/

theorem le_of_mem_bitsFrom {w i n x : Nat} (h : x ∈ bitsFrom w i n) : i ≤ x := by
  induction w generalizing i n with
  | zero => cases h
  | succ w ih =>
    unfold bitsFrom at h
    split at h
    · cases h with
      | head => exact le_rfl
      | tail _ h => exact Nat.le_of_succ_le (ih h)
    · exact Nat.le_of_succ_le (ih h)

theorem nodup_bitsFrom (w i n : Nat) : (bitsFrom w i n).Nodup := by
  induction w generalizing i n with
  | zero => exact List.nodup_nil
  | succ w ih =>
    unfold bitsFrom
    split
    · exact List.nodup_cons.2 ⟨fun h => Nat.not_succ_le_self i (le_of_mem_bitsFrom h), ih _ _⟩
    · exact ih _ _

theorem nodup_bitsOf (w n : Nat) : (bitsOf w n).Nodup := nodup_bitsFrom w 0 n

/-! ### Places (R212, R213) -/

/-- The number of bytes that a set holds (R212). -/
def setBytes (s : StripeSet) : Nat := (bitsOf 32 s.mask).length * s.size * 2 ^ 21

/-- The place within its stack of the byte at offset `o` of a set (R213). -/
def bandPlace (s : StripeSet) (o : Nat) : Nat := s.base * 2 ^ 21 + o / 2048 / (bitsOf 32 s.mask).length * 2048 + o % 2048

/-- The stack of the byte at offset `o` of a set (R213). -/
def stackOf (s : StripeSet) (o : Nat) : Nat := (bitsOf 32 s.mask).getD (o / 2048 % (bitsOf 32 s.mask).length) 0

theorem physOf_eq (m : Mem) (a : Nat) : physOf m a =
    if (setGet m (a / 2 ^ 41)).valid ∧ a % 2 ^ 41 < setBytes (setGet m (a / 2 ^ 41)) then
      some (stackOf (setGet m (a / 2 ^ 41)) (a % 2 ^ 41) * 2 ^ 36 + bandPlace (setGet m (a / 2 ^ 41)) (a % 2 ^ 41))
    else none := by
  simp only [physOf, setBytes, stackOf, bandPlace, Nat.add_assoc]

theorem physOf_isSome_iff {m : Mem} {a : Nat} : (physOf m a).isSome ↔
    (setGet m (a / 2 ^ 41)).valid ∧ a % 2 ^ 41 < setBytes (setGet m (a / 2 ^ 41)) := by
  rw [physOf_eq]
  split
  · exact iff_of_true rfl ‹_›
  · exact iff_of_false Bool.false_ne_true ‹_›

/-- The band of a set that fits a stack of 48 GiB stays below the next stack's places (R212). -/
theorem bandPlace_lt {s : StripeSet} {o : Nat} (hs : s.base + s.size ≤ 24576) (ho : o < setBytes s) :
    bandPlace s o < 2 ^ 36 := by
  unfold setBytes at ho
  unfold bandPlace
  generalize (bitsOf 32 s.mask).length = k at *
  have hline : o / 2048 / k < s.size * 1024 := Nat.div_lt_of_lt_mul (Nat.div_lt_of_lt_mul (by linarith))
  omega

/-- Two offsets of a set never name the same place (R213). -/
theorem offset_inj {s : StripeSet} {o o' : Nat} (hs : s.base + s.size ≤ 24576) (ho : o < setBytes s) (ho' : o' < setBytes s)
    (h : stackOf s o * 2 ^ 36 + bandPlace s o = stackOf s o' * 2 ^ 36 + bandPlace s o') : o = o' := by
  have hb := bandPlace_lt hs ho
  have hb' := bandPlace_lt hs ho'
  have hstack : stackOf s o = stackOf s o' := by omega
  have hband : bandPlace s o = bandPlace s o' := by omega
  have hk : 0 < (bitsOf 32 s.mask).length := by
    rcases Nat.eq_zero_or_pos (bitsOf 32 s.mask).length with hz | hp
    · simp [setBytes, hz] at ho
    · exact hp
  have hmod : o / 2048 % (bitsOf 32 s.mask).length = o' / 2048 % (bitsOf 32 s.mask).length := by
    have hi := Nat.mod_lt (o / 2048) hk
    have hi' := Nat.mod_lt (o' / 2048) hk
    unfold stackOf at hstack
    rw [List.getD_eq_getElem _ _ hi, List.getD_eq_getElem _ _ hi'] at hstack
    exact (List.Nodup.getElem_inj_iff (nodup_bitsOf 32 s.mask)).1 hstack
  have hline : o / 2048 / (bitsOf 32 s.mask).length = o' / 2048 / (bitsOf 32 s.mask).length ∧ o % 2048 = o' % 2048 := by
    unfold bandPlace at hband; omega
  have hstripe : o / 2048 = o' / 2048 := by
    rw [← Nat.div_add_mod (o / 2048) (bitsOf 32 s.mask).length, hmod, hline.1, Nat.div_add_mod]
  omega

/-! ### A range in one valid set (R215) -/

/-- Every byte of a range that `dpaOk` admits has a place, in the set of the first. -/
theorem physOf_of_dpaOk {m : Mem} {a len i : Nat} (h : dpaOk m a len = true) (hi : i < len) :
    (a + i) / 2 ^ 41 = a / 2 ^ 41 ∧ (physOf m (a + i)).isSome := by
  simp only [dpaOk, Bool.or_eq_true, Bool.and_eq_true, decide_eq_true_eq] at h
  obtain hz | ⟨⟨-, hlast⟩, hset⟩ := h
  · omega
  rw [physOf_isSome_iff, ← hset] at hlast
  have hsame : (a + i) / 2 ^ 41 = a / 2 ^ 41 := by omega
  refine ⟨hsame, physOf_isSome_iff.2 ?_⟩
  rw [hsame]
  exact ⟨hlast.1, lt_of_le_of_lt (by omega) hlast.2⟩

theorem physOf_inj_of_dpaOk {m : Mem} {a len : Nat} (h : dpaOk m a len = true)
    (hm : ∀ s ∈ m.sets, s.valid = true → s.base + s.size ≤ 24576) {i j : Nat} (hi : i < len) (hj : j < len)
    (he : physOf m (a + i) = physOf m (a + j)) : i = j := by
  obtain ⟨hset, hsome⟩ := physOf_of_dpaOk h hi
  obtain ⟨hset', hsome'⟩ := physOf_of_dpaOk h hj
  rw [physOf_isSome_iff] at hsome hsome'
  rw [physOf_eq, if_pos hsome, physOf_eq, if_pos hsome', hset, hset', Option.some_inj] at he
  rw [hset] at hsome
  rw [hset'] at hsome'
  have hin : setGet m (a / 2 ^ 41) ∈ m.sets := by
    unfold setGet at hsome ⊢
    by_cases hn : a / 2 ^ 41 < m.sets.length
    · rw [List.getD_eq_getElem _ _ hn]; exact List.getElem_mem hn
    · rw [List.getD_eq_default _ _ (Nat.le_of_not_lt hn)] at hsome
      exact absurd hsome.1 (by decide)
  have := offset_inj (hm _ hin hsome.1) hsome.2 hsome'.2 he
  omega

/-! ### What a write leaves of the poison -/

theorem dByte_dWrite (a : Nat) (bs : List Byte) (m : Mem) (x : Nat) : dByte (dWrite a bs m) x = dByte (dPuts a bs m) x := rfl

theorem mem_poison_dWrite {a : Nat} {bs : List Byte} {m : Mem} {w : Nat} (h : w ∉ wholeWords m a bs.length) :
    w ∈ (dWrite a bs m).poison ↔ w ∈ m.poison := by
  simp [dWrite, h]

/-- Settles O47: the range's places differ, so the laws of `dPuts` apply to it. -/
theorem memoryReadsBackWhatWasWritten : Obligations.MemoryReadsBackWhatWasWritten := by
  intro m a bs hok hm
  refine ⟨fun i hi => ?_, fun x hx => dByte_dWrite_ne bs m hx, fun w hw => mem_poison_dWrite hw, dWrite_sets a bs m,
    Memory.wf_dWrite a bs m⟩
  rw [dByte_dWrite]
  exact dByte_dPuts bs m (fun j hj => (physOf_of_dpaOk hok hj).2)
    (fun j l hj hl he => physOf_inj_of_dpaOk hok (fun s hs => (hm s hs).2) hj hl he) i hi

end Sys2Proof.Machine
end

section
/-! SUPPORT. A STORE of a core (O50): the addresses of the core map name places, and a place in the core's own store has two
addresses. -/

namespace Sys2Proof.Machine

/-! ### Places of the core address map (R181) -/

/-- A byte that cores can write: byte `o` of the store of core `j`, or byte `o` of the Palette. -/
inductive CorePlace where
  | store (j o : Nat)
  | palette (o : Nat)
  deriving DecidableEq

/-- The place that core `j` names by address `x`. -/
def corePlace (j x : Nat) : Option CorePlace :=
  if x < 0x4000 then some (.store j x)
  else if 0x01000000 ≤ x ∧ x < 0x01100000 then some (.store ((x - 0x01000000) / 0x4000) ((x - 0x01000000) % 0x4000))
  else if 0x02000000 ≤ x ∧ x < 0x02080000 then some (.palette (x - 0x02000000))
  else none

/-- The byte at a place of cluster `k`. -/
def coreByteAt (d : Device) (k : Nat) : CorePlace → Byte
  | .store j o => storeGet (coreGet d k j) o
  | .palette o => palByte (cluGet d k) o

/-- Writes the byte at a place of cluster `k`. -/
def coreByteAtPut (k : Nat) (b : Byte) : CorePlace → Device → Device
  | .store j o => coreMod k j (storePut o b)
  | .palette o => cluMod k fun x => markWritten x.coreCtx (o / 16384) (palPut o b x)

/-- The four regions of the map that have places, by their bounds. -/
theorem corePlace_cases {j x : Nat} {q : CorePlace} (h : corePlace j x = some q) :
    ((coreRegion x = some .keep ∨ coreRegion x = some .scratch) ∧ x < 0x4000 ∧ q = .store j x) ∨
    (coreRegion x = some .stores ∧ 0x01000000 ≤ x ∧ q = .store ((x - 0x01000000) / 0x4000) ((x - 0x01000000) % 0x4000)) ∨
    (coreRegion x = some .palette ∧ 0x02000000 ≤ x ∧ q = .palette (x - 0x02000000)) := by
  unfold corePlace at h
  split at h
  · next hlow =>
    cases h
    by_cases hk : x < 0x1000
    · exact .inl ⟨.inl (by simp [coreRegion, hk]), hlow, rfl⟩
    · exact .inl ⟨.inr (by simp [coreRegion, hk, hlow]), hlow, rfl⟩
  · split at h
    · next hlow hst =>
      cases h
      refine .inr (.inl ⟨?_, hst.1, rfl⟩)
      unfold coreRegion
      rw [if_neg (by omega), if_neg hlow, if_pos hst]
    · split at h
      · next hlow hst hpal =>
        cases h
        refine .inr (.inr ⟨?_, hpal.1, rfl⟩)
        unfold coreRegion
        rw [if_neg (by omega), if_neg hlow, if_neg hst, if_pos hpal]
      · cases h

/-- An address of the keep, the scratch, the stores or the Palette names a place. -/
theorem exists_corePlace {x : Nat} (j : Nat) (h : coreRegion x = some .keep ∨ coreRegion x = some .scratch ∨
    coreRegion x = some .stores ∨ coreRegion x = some .palette) : ∃ q, corePlace j x = some q := by
  unfold corePlace
  split_ifs with hlow hst hpal
  · exact ⟨_, rfl⟩
  · exact ⟨_, rfl⟩
  · exact ⟨_, rfl⟩
  · unfold coreRegion at h
    rw [if_neg (by omega), if_neg hlow, if_neg hst, if_neg hpal] at h
    split_ifs at h <;> simp at h

/-- So does an address that a core may write (R181, R207). -/
theorem exists_corePlace_of_coreMay {d : Device} {k x : Nat} (j : Nat) (h : coreMay d k x true = true) :
    ∃ q, corePlace j x = some q := by
  refine exists_corePlace j ?_
  unfold coreMay at h
  cases hr : coreRegion x with
  | none => rw [hr] at h; cases h
  | some g => rw [hr] at h; cases g <;> simp_all [CoreRegion.writable]

theorem coreByte_of_corePlace {j x : Nat} {q : CorePlace} (h : corePlace j x = some q) (d : Device) (k : Nat) :
    coreByte d k j x = coreByteAt d k q := by
  obtain ⟨hr | hr, -, rfl⟩ | ⟨hr, -, rfl⟩ | ⟨hr, -, rfl⟩ := corePlace_cases h <;> simp only [coreByte, hr, coreByteAt]

theorem coreBytePut_of_corePlace {j x : Nat} {q : CorePlace} (h : corePlace j x = some q) (k : Nat) (b : Byte) (d : Device) :
    coreBytePut k j x b d = coreByteAtPut k b q d := by
  obtain ⟨hr | hr, -, rfl⟩ | ⟨hr, -, rfl⟩ | ⟨hr, -, rfl⟩ := corePlace_cases h <;>
    simp only [coreBytePut, hr, coreByteAtPut]

/-- Two addresses name one place only where they are equal, or one is the other's in the own store (R181). -/
theorem eq_of_corePlace_eq {j x y : Nat} {q : CorePlace} (hx : corePlace j x = some q) (hy : corePlace j y = some q) :
    x = y ∨ (x < 0x4000 ∧ y = 0x01000000 + j * 0x4000 + x) ∨ (y < 0x4000 ∧ x = 0x01000000 + j * 0x4000 + y) := by
  obtain ⟨-, bx, rfl⟩ | ⟨-, bx, rfl⟩ | ⟨-, bx, rfl⟩ := corePlace_cases hx <;>
    obtain ⟨-, hb, hq⟩ | ⟨-, hb, hq⟩ | ⟨-, hb, hq⟩ := corePlace_cases hy <;>
    simp only [CorePlace.store.injEq, CorePlace.palette.injEq, reduceCtorEq] at hq <;> omega

/-! ### Reads after a write of one byte -/

theorem storeGet_storePut (o o' : Nat) (b : Byte) (x : Core) :
    storeGet (storePut o b x) o' = if o' = o then b else storeGet x o' := by
  unfold storeGet storePut
  by_cases ho : o < 0x1000
  · rw [if_pos ho]
    by_cases ho' : o' < 0x1000
    · simp only [if_pos ho', smGet_smPut]
    · simp only [if_neg ho', if_neg (show ¬ o' = o by omega)]
  · rw [if_neg ho]
    by_cases ho' : o' < 0x1000
    · simp only [if_pos ho', if_neg (show ¬ o' = o by omega)]
    · simp only [if_neg ho', smGet_smPut]
      by_cases he : o' = o
      · simp only [if_pos he]
      · simp only [if_neg he]

theorem palByte_markWritten (c : Option CtxNo) (g : Nat) (x : Cluster) (o : Nat) :
    palByte (markWritten c g x) o = palByte x o := by
  cases c <;> rfl

theorem palByte_palPut (o o' : Nat) (b : Byte) (x : Cluster) :
    palByte (palPut o b x) o' = if o' = o then b else palByte x o' := by
  unfold palByte palPut
  simp only [smGet_smPut]
  by_cases he : o' = o
  · simp only [if_pos he]
  · simp only [if_neg he]

/-- Two cores of one cluster are two entries, whatever their numbers. -/
theorem coreGet_coreMod_same (d : Device) (k j j' : Nat) (f : Core → Core) :
    coreGet (coreMod k j f d) k j' = if j' = j then f (coreGet d k j) else coreGet d k j' := by
  split
  · next h => subst h; exact coreGet_coreMod_self d k j' f
  · exact smGet_smMod_ne _ _ _ (by omega)

theorem coreGet_cluMod (d : Device) (k q j : Nat) (f : Cluster → Cluster) : coreGet (cluMod q f d) k j = coreGet d k j := rfl
theorem cluGet_coreMod (d : Device) (k q j : Nat) (f : Core → Core) : cluGet (coreMod q j f d) k = cluGet d k := rfl

theorem coreByteAt_coreByteAtPut (d : Device) (k : Nat) (b : Byte) (p q : CorePlace) :
    coreByteAt (coreByteAtPut k b p d) k q = if q = p then b else coreByteAt d k q := by
  cases p with
  | store j o =>
    cases q with
    | store j' o' =>
      simp only [coreByteAt, coreByteAtPut, coreGet_coreMod_same, CorePlace.store.injEq]
      by_cases hj : j' = j
      · subst hj; simp only [if_pos, storeGet_storePut, true_and]
      · simp only [hj, false_and, if_false]
    | palette o' => rfl
  | palette o =>
    cases q with
    | store j' o' => rfl
    | palette o' =>
      simp only [coreByteAt, coreByteAtPut, cluGet_cluMod_self, palByte_markWritten, palByte_palPut, CorePlace.palette.injEq]

/-! ### Reads after a write of bytes -/

theorem coreByteAt_coreBytesPut_ne {k j a : Nat} {bs : List Byte} {d : Device} {q : CorePlace}
    (hp : ∀ i, i < bs.length → ∃ p, corePlace j (a + i) = some p ∧ p ≠ q) :
    coreByteAt (coreBytesPut k j a bs d) k q = coreByteAt d k q := by
  induction bs generalizing a d with
  | nil => rfl
  | cons b t ih =>
    obtain ⟨p, hp0, hne⟩ := hp 0 (by simp)
    rw [Nat.add_zero] at hp0
    rw [coreBytesPut, ih fun i hi => ?_, coreBytePut_of_corePlace hp0, coreByteAt_coreByteAtPut, if_neg hne.symm]
    rw [Nat.add_assoc, Nat.add_comm 1 i]
    exact hp (i + 1) (by simpa using hi)

theorem coreByteAt_coreBytesPut {k j a i : Nat} {bs : List Byte} {d : Device} {q : CorePlace}
    (hp : ∀ i, i < bs.length → ∃ p, corePlace j (a + i) = some p)
    (hlen : bs.length ≤ 0x1000) (hi : i < bs.length) (hq : corePlace j (a + i) = some q) :
    coreByteAt (coreBytesPut k j a bs d) k q = bs.getD i 0 := by
  induction bs generalizing a d i with
  | nil => cases hi
  | cons b t ih =>
    have hp' (l : Nat) (hl : l < t.length) : ∃ p, corePlace j (a + 1 + l) = some p := by
      rw [Nat.add_assoc, Nat.add_comm 1 l]
      exact hp (l + 1) (by simpa using hl)
    simp only [List.length_cons] at hlen hi
    rw [coreBytesPut]
    cases i with
    | zero =>
      rw [Nat.add_zero] at hq
      rw [coreByteAt_coreBytesPut_ne fun l hl => ?_, coreBytePut_of_corePlace hq, coreByteAt_coreByteAtPut, if_pos rfl]
      · rfl
      · obtain ⟨p, h⟩ := hp' l hl
        refine ⟨p, h, ?_⟩
        rintro rfl
        have := eq_of_corePlace_eq h hq
        omega
    | succ i =>
      rw [← Nat.add_assoc, Nat.add_right_comm] at hq
      rw [ih hp' (by omega) (Nat.lt_of_succ_lt_succ hi) hq]
      rfl

/-! ### What a STORE leaves unchanged -/

theorem storePut_sReg (o : Nat) (b : Byte) (x : Core) (q : BitVec 5) : sReg (storePut o b x) q = sReg x q := by
  unfold storePut; split <;> rfl

theorem storePut_pc (o : Nat) (b : Byte) (x : Core) : (storePut o b x).pc = x.pc := by
  unfold storePut; split <;> rfl

/-- A written byte leaves external memory, and of every core the scalar registers and the pc. -/
theorem coreBytePut_frame (k j a : Nat) (b : Byte) (d : Device) (j' : Nat) :
    (coreBytePut k j a b d).mem = d.mem ∧ (coreGet (coreBytePut k j a b d) k j').pc = (coreGet d k j').pc ∧
    ∀ q, sReg (coreGet (coreBytePut k j a b d) k j') q = sReg (coreGet d k j') q := by
  have hcore (i o : Nat) : (coreGet (coreMod k i (storePut o b) d) k j').pc = (coreGet d k j').pc ∧
      ∀ q, sReg (coreGet (coreMod k i (storePut o b) d) k j') q = sReg (coreGet d k j') q := by
    rw [coreGet_coreMod_same]
    split
    · next h => subst h; exact ⟨storePut_pc .., storePut_sReg _ _ _⟩
    · exact ⟨rfl, fun _ => rfl⟩
  unfold coreBytePut
  split
  · exact ⟨coreMod_mem .., hcore j a⟩
  · exact ⟨coreMod_mem .., hcore j a⟩
  · exact ⟨coreMod_mem .., hcore ((a - 0x01000000) / 0x4000) ((a - 0x01000000) % 0x4000)⟩
  · exact ⟨rfl, rfl, fun _ => rfl⟩
  · exact ⟨rfl, rfl, fun _ => rfl⟩

theorem coreBytesPut_frame (k j a : Nat) (bs : List Byte) (d : Device) (j' : Nat) :
    (coreBytesPut k j a bs d).mem = d.mem ∧ (coreGet (coreBytesPut k j a bs d) k j').pc = (coreGet d k j').pc ∧
    ∀ q, sReg (coreGet (coreBytesPut k j a bs d) k j') q = sReg (coreGet d k j') q := by
  induction bs generalizing a d with
  | nil => exact ⟨rfl, rfl, fun _ => rfl⟩
  | cons b t ih =>
    obtain ⟨hmem, hpc, hreg⟩ := ih (a + 1) (coreBytePut k j a b d)
    obtain ⟨hmem', hpc', hreg'⟩ := coreBytePut_frame k j a b d j'
    exact ⟨hmem.trans hmem', hpc.trans hpc', fun q => (hreg q).trans (hreg' q)⟩

theorem cluGet_charge (cls n c k : Nat) (d : Device) : cluGet (charge cls n c d) k = cluGet d k := rfl

/-- The account of a Palette access changes no byte that cores see. -/
theorem coreByteAt_palCharge (k j a len : Nat) (narrow : Bool) (c : CtxNo) (d : Device) (q : CorePlace) :
    coreByteAt (palCharge k j a len narrow c d) k q = coreByteAt d k q := by
  unfold palCharge
  split
  · cases q with
    | store j' o => rfl
    | palette o =>
      simp only [coreByteAt, cluGet_charge, cluGet_cluMod_self]
      rfl
  · rfl

@[simp] theorem palCharge_mem (k j a len : Nat) (narrow : Bool) (c : CtxNo) (d : Device) :
    (palCharge k j a len narrow c d).mem = d.mem := by
  unfold palCharge; split <;> rfl

@[simp] theorem coreGet_palCharge (k j a len : Nat) (narrow : Bool) (c : CtxNo) (d : Device) (k' j' : Nat) :
    coreGet (palCharge k j a len narrow c d) k' j' = coreGet d k' j' := by
  unfold palCharge; split <;> rfl

/-- The step to the next word changes no byte that cores see. -/
theorem coreByteAt_coreNext (k j : Nat) (d : Device) (q : CorePlace) : coreByteAt (coreNext k j id d) k q = coreByteAt d k q := by
  cases q with
  | store j' o =>
    simp only [coreByteAt, coreNext, coreGet_coreMod_same]
    split
    · next h => subst h; rfl
    · rfl
  | palette o => rfl

/-! ### The instruction -/

theorem length_toBytes (len n : Nat) : (toBytes len n).length = len := by
  induction len generalizing n with
  | zero => rfl
  | succ len ih => simp [toBytes, ih]

/-- Byte `i` of a number (R13). -/
theorem getD_toBytes {len n i : Nat} (h : i < len) : (toBytes len n).getD i 0 = BitVec.ofNat 8 (n / 256 ^ i) := by
  induction len generalizing n i with
  | zero => cases h
  | succ len ih =>
    cases i with
    | zero => simp [toBytes]
    | succ i =>
      rw [toBytes, List.getD_cons_succ, ih (Nat.lt_of_succ_lt_succ h), Nat.div_div_eq_div_mul, Nat.pow_succ, Nat.mul_comm]

theorem storeBytes_le (op : StoreOp) : storeBytes op ≤ 4 := by cases op <;> decide

theorem coreMay_of_coreCheck {d : Device} {k a size align : Nat} {wr : Bool} (h : coreCheck d k a size align wr = none)
    {i : Nat} (hi : i < size) : coreMay d k (a + i) wr = true := by
  unfold coreCheck at h
  split at h
  · cases h
  · split at h
    · next hall => exact List.all_eq_true.1 hall i (List.mem_range.2 hi)
    · cases h

/-- A STORE that is issued and passes its checks writes the bytes, counts the access and goes to the next word (R182). -/
theorem exec_store_of_issues {s : State} {k : CluNo} {j : CoreNo} {w : Word} {r : ParcelRun} {op : StoreOp}
    {rs base : BitVec 5} {off : BitVec 15} {a : Nat} (h : CoreIssues s.d k.val j.val .store w r (.store op rs base off))
    (ha : a = addrOf (sReg (coreGet s.d k.val j.val) base) off.toInt)
    (hc : coreCheck s.d k.val a (storeBytes op) (storeBytes op) true = none) :
    exec (.store k j w) s = .next { s with
      d := palCharge k.val j.val a (storeBytes op) true r.parcel.ctx (coreNext k.val j.val id
        (coreBytesPut k.val j.val a (toBytes (storeBytes op) (sReg (coreGet s.d k.val j.val) rs).toNat) s.d)) } := by
  subst ha
  simp only [exec, execStore, onDev, coreStep_issues h, storeAct, hc]

/-- Settles O50, the bytes being those that the storing core reads: they are written at their places, and the account of the
access and the step to the next word touch no byte. -/
theorem storesChangeOnlyTheirBytes : Obligations.StoresChangeOnlyTheirBytes := by
  intro s t k j w r op rs base off a hissue ha hc ht
  rw [exec_store_of_issues hissue ha hc] at ht
  cases ht
  have hlen := length_toBytes (storeBytes op) (sReg (coreGet s.d k.val j.val) rs).toNat
  have hplace (i : Nat) (hi : i < storeBytes op) : ∃ p, corePlace j.val (a + i) = some p :=
    exists_corePlace_of_coreMay j.val (coreMay_of_coreCheck hc hi)
  obtain ⟨hmem, hpc, hreg⟩ := coreBytesPut_frame k.val j.val a
    (toBytes (storeBytes op) (sReg (coreGet s.d k.val j.val) rs).toNat) s.d j.val
  refine ⟨fun i hi => ?_, fun x hx hne => ?_, ?_, rfl, fun q => ?_, ?_⟩
  · obtain ⟨p, hp⟩ := hplace i hi
    rw [coreByte_of_corePlace hp, coreByteAt_palCharge, coreByteAt_coreNext,
      coreByteAt_coreBytesPut (by rwa [hlen]) (by have := storeBytes_le op; omega) (by rwa [hlen]) hp, getD_toBytes hi]
  · obtain ⟨q, hq⟩ := exists_corePlace j.val hx
    rw [coreByte_of_corePlace hq, coreByte_of_corePlace hq, coreByteAt_palCharge, coreByteAt_coreNext,
      coreByteAt_coreBytesPut_ne]
    intro i hi
    rw [hlen] at hi
    obtain ⟨p, hp⟩ := hplace i hi
    refine ⟨p, hp, ?_⟩
    rintro rfl
    have := eq_of_corePlace_eq hq hp
    have := hne i hi
    tauto
  · rw [palCharge_mem]; exact hmem
  · rw [coreGet_palCharge, coreNext_core, sReg_pcNext]; exact hreg q
  · rw [coreGet_palCharge, coreNext_core]; exact congrArg (· + 4) hpc

end Sys2Proof.Machine
end

section
/-! SUPPORT. Register writes and reads of a port: which place an offset goes to (O33), and the plain registers (O58). -/

namespace Sys2Proof.Machine

/-! ### Writes of a port (R353) -/

section Writes

variable {nv : NonVol} {d : Device} {p : Port} {off : Nat} {v : Word}

theorem regWrite_bell {r : Option CtxNo} (h : bellAt off = some r) : regWrite p off v nv d = (nv, bellWrite p r v d) := by
  unfold regWrite; rw [h]

theorem regWrite_head {r : CtxNo ⊕ Fin 4} (hb : bellAt off = none) (h : headAt off = some r) :
    regWrite p off v nv d = (nv, headPut nv p r v d) := by
  unfold regWrite; rw [hb, h]

theorem regWrite_claim : regWrite p 0x10004 v nv d = (nv, claimWrite nv p v d) := rfl

theorem regWrite_denied (hb : bellAt off = none) (hh : headAt off = none) (hc : off ≠ 0x10004) (ho : isOwner d p = false) :
    regWrite p off v nv d = (nv, denied d) := by
  unfold regWrite; rw [hb, hh]; simp [hc, ho]

theorem regWrite_owner (hb : bellAt off = none) (hh : headAt off = none) (hc : off ≠ 0x10004) (ho : isOwner d p = true)
    (hr : off ≠ 0xA00200) : regWrite p off v nv d = (nv, ownerPut nv p off v d) := by
  unfold regWrite; rw [hb, hh]; simp [hc, ho, hr]

theorem regWrite_remove (ho : isOwner d p = true) : regWrite p 0xA00200 v nv d = removePut p v.toNat nv d := by
  unfold regWrite
  rw [show bellAt 0xA00200 = none by decide, show headAt 0xA00200 = none by decide]
  simp [ho]

end Writes

theorem exec_registerWrite_of_aligned {s : State} {p : Port} {off : Nat} (v : Word) (hw : hostWrites s.nv s.d p = true)
    (ha : off % 4 = 0) : exec (.registerWrite p off 4 v) s = .next { s with
      nv := (regWrite p off v s.nv s.d).1, d := (regWrite p off v s.nv s.d).2 } := by
  simp only [exec, execRegisterWrite, onBoth, hw, ha, and_self, if_true]

theorem exec_registerWrite_of_not {s : State} {p : Port} {off size : Nat} (v : Word)
    (h : hostWrites s.nv s.d p = false ∨ size ≠ 4 ∨ off % 4 ≠ 0) : exec (.registerWrite p off size v) s = .next s := by
  have hn : ¬(hostWrites s.nv s.d p = true ∧ size = 4 ∧ off % 4 = 0) := by
    rintro ⟨hw, hs, ha⟩
    simp [hw, hs, ha] at h
  simp only [exec, execRegisterWrite, onBoth, if_neg hn]

/-! ### Reads of a port (R14, R16, R17) -/

theorem exec_capture_port {s : State} {p : Port} {off n : Nat} (hr : hostReads s.nv s.d p off = true)
    (hn : n = 1 ∨ n = 2 ∨ n = 4) (ha : off % n = 0) : exec (.capture (.inl p) ⟨off, n⟩) s = .next { s with
      d := hostReadPart s.nv p off n s.d } := by
  have h : hostReads s.nv s.d p off = true ∧ (n = 1 ∨ n = 2 ∨ n = 4) ∧ off % n = 0 := ⟨hr, hn, ha⟩
  simp only [exec, execCapture, onDev, if_pos h]

theorem exec_capture_port_of_not {s : State} {p : Port} {off n : Nat}
    (h : hostReads s.nv s.d p off = false ∨ (n ≠ 1 ∧ n ≠ 2 ∧ n ≠ 4) ∨ off % n ≠ 0) :
    exec (.capture (.inl p) ⟨off, n⟩) s = .next s := by
  have hn : ¬(hostReads s.nv s.d p off = true ∧ (n = 1 ∨ n = 2 ∨ n = 4) ∧ off % n = 0) := by
    rintro ⟨hr, hn, ha⟩
    simp [hr, ha] at h
    omega
  simp only [exec, execCapture, onDev, if_neg hn]

theorem w32_fld_toNat (w : Word) : w32 (fld w.toNat 0 32) = w := by
  have hw : w.toNat < 2 ^ 32 := w.isLt
  rw [fld, Nat.pow_zero, Nat.div_one, Nat.mod_eq_of_lt hw, w32, BitVec.ofNat_toNat, BitVec.setWidth_eq]

/-- A read of the whole word is the read of its register. -/
theorem hostReadPart_word (nv : NonVol) (p : Port) {off : Nat} (d : Device) (ha : off % 4 = 0) :
    hostReadPart nv p off 4 d = hostReadReg nv p off d := by
  have hoff : off / 4 * 4 = off := by omega
  simp only [hostReadPart, hoff, ha, Nat.mul_zero, Nat.reduceMul, w32_fld_toNat]

theorem hostReadReg_lo (nv : NonVol) (p : Port) {off : Nat} (d : Device) (hlo : loRegister off = true)
    (hhi : loRegister (off - 4) = false) : hostReadReg nv p off d =
      capturePut p.val (off + 4) (w32 (regVal nv d p.val (off + 4)))
        { d with rings := { d.rings with readValue := w32 (regVal nv d p.val off) } } := by
  simp [hostReadReg, hlo, hhi]

theorem hostReadReg_hi (nv : NonVol) (p : Port) {off : Nat} (d : Device) (h4 : 4 ≤ off) (hhi : loRegister (off - 4) = true)
    (hlo : loRegister off = false) : hostReadReg nv p off d =
      captureDrop p.val off { d with rings := { d.rings with
        readValue := captureGet p.val off (w32 (regVal nv d p.val off)) d } } := by
  simp [hostReadReg, h4, hlo, hhi]

theorem exec_capture_core (s : State) (k : CluNo) (j : CoreNo) (a n : Nat) :
    exec (.capture (.inr (k, j)) ⟨a, n⟩) s = .next { s with d := coreCapture k.val j.val a s.d } := rfl

theorem coreCapture_other {k j a : Nat} (d : Device) (h1 : a ≠ 1) (h2 : a ≠ 2) :
    coreCapture k j a d = loadCapture k j a d := by
  simp [coreCapture, h1, h2]

/-- Settles O33: one lemma for each place that a write can go to and for each kind of read. -/
theorem registersAreWrittenAndCaptured : Obligations.RegistersAreWrittenAndCaptured := by
  intro s p off size v
  refine ⟨fun hw ha => ⟨?_, ?_, ?_, ?_, ?_, ?_⟩, fun h => exec_registerWrite_of_not v h,
    fun n h => exec_capture_port_of_not h, fun k j n => ⟨exec_capture_core s k j 2 n, fun a h1 h2 => ?_⟩,
    fun hr ha hlo hhi => ?_, fun hr ha h4 hhi hlo => ?_, fun n e hr hn ha he => ?_, fun k j => exec_capture_core s k j 1 4⟩
  · intro r hb
    rw [exec_registerWrite_of_aligned v hw ha, regWrite_bell hb]
  · intro r hb hh
    rw [exec_registerWrite_of_aligned v hw ha, regWrite_head hb hh]
  · rintro rfl
    rw [exec_registerWrite_of_aligned v hw ha, regWrite_claim]
  · intro hb hh hc ho
    rw [exec_registerWrite_of_aligned v hw ha, regWrite_denied hb hh hc ho]
  · intro hb hh hc ho hr
    rw [exec_registerWrite_of_aligned v hw ha, regWrite_owner hb hh hc ho hr]
  · rintro rfl ho
    rw [exec_registerWrite_of_aligned v hw ha, regWrite_remove ho]
  · rw [exec_capture_core, coreCapture_other s.d h1 h2]
  · rw [exec_capture_port hr (.inr (.inr rfl)) ha, hostReadPart_word _ _ _ ha, hostReadReg_lo _ _ _ hlo hhi]
  · rw [exec_capture_port hr (.inr (.inr rfl)) ha, hostReadPart_word _ _ _ ha, hostReadReg_hi _ _ _ h4 hhi hlo]
  · rw [he, exec_capture_port hr hn ha]
    rfl

/-! ### The plain registers -/

/-- A mask of the low `w` bits takes the remainder. -/
theorem toNat_and_low (v : Word) {w : Nat} (h : w ≤ 32) : (v &&& BitVec.ofNat 32 (2 ^ w - 1)).toNat = v.toNat % 2 ^ w := by
  have hp : 2 ^ w ≤ 2 ^ 32 := Nat.pow_le_pow_right (by decide) h
  have h0 : 0 < 2 ^ w := Nat.two_pow_pos w
  rw [BitVec.toNat_and, BitVec.toNat_ofNat, Nat.mod_eq_of_lt (by omega), Nat.and_two_pow_sub_one_eq_mod]

/-- A mask of the bits from 21 on takes the field there (MEM_INVAL_VA_LO). -/
theorem toNat_and_high (v : Word) : (v &&& 0xFFE00000).toNat = fld v.toNat 21 11 * 2 ^ 21 := by
  rw [BitVec.toNat_and, show (0xFFE00000 : Word).toNat = (2 ^ 11 - 1) * 2 ^ 21 by decide]
  refine Nat.eq_of_testBit_eq fun i => ?_
  rw [fld, Nat.testBit_and, Nat.testBit_mul_two_pow, Nat.testBit_mul_two_pow, Nat.testBit_two_pow_sub_one,
    Nat.testBit_mod_two_pow, Nat.testBit_div_two_pow]
  by_cases hi : 21 ≤ i
  · simp [hi, Nat.sub_add_cancel hi, Bool.and_comm]
  · simp [hi]

theorem toNat_and_all (v : Word) : (v &&& 0xFFFFFFFF).toNat = v.toNat :=
  (toNat_and_low v (w := 32) le_rfl).trans (Nat.mod_eq_of_lt v.isLt)

/-- MEM_INVAL_CTX keeps CTX and ALL, which lie next to each other. -/
theorem pack_low_and_bit (n : Nat) : pack [(0, 8, n % 256), (8, 1, b2n (bit n 8))] = n % 2 ^ 9 := by
  have hbit : b2n (bit n 8) = n / 2 ^ 8 % 2 := by
    unfold b2n bit
    rcases Nat.mod_two_eq_zero_or_one (n / 2 ^ 8) with h | h <;> rw [h] <;> rfl
  rw [hbit]
  simp only [pack]
  omega

/-- The plain registers of O58: offset and the mask of the fields. -/
def plainRegisters : List (Nat × Word) :=
  [(0x20018, 0xFFFF), (0x100200, 0x3), (0x100204, 0xFFFF), (0x200400, 0xFF), (0x400040, 0x1FF), (0x400044, 0xFFE00000),
    (0x400048, 0xFFFFF), (0x40004C, 0xFFFFFFFF), (0x600020, 0x3FF), (0x600024, 0xFFFFFFFF), (0x600028, 0xFFFF),
    (0x700010, 0xFF), (0x800040, 0xFF)]

/-- None of them is a doorbell, a head register, OWN_CLAIM or PWR_REMOVE. -/
theorem plain_offset : ∀ e ∈ plainRegisters,
    e.1 % 4 = 0 ∧ bellAt e.1 = none ∧ headAt e.1 = none ∧ e.1 ≠ 0x10004 ∧ e.1 ≠ 0xA00200 := by
  decide

theorem regVal_memInvalVaLo (nv : NonVol) (d : Device) (p : Port) (v : Word) :
    regVal nv (ownerPut nv p 0x400044 v d) p.val 0x400044 = fld v.toNat 21 11 * 2 ^ 21 := by
  have hput : ownerPut nv p 0x400044 v d =
      memMod (fun m => { m with invVa := m.invVa / 2 ^ 32 * 2 ^ 32 + fld v.toNat 21 11 * 2 ^ 21 }) d := rfl
  have hread (d : Device) : regVal nv d p.val 0x400044 = d.mem.invVa % 2 ^ 32 := rfl
  rw [hput, hread, memMod_mem, fld]
  dsimp only
  omega

theorem regVal_memInvalVaHi (nv : NonVol) (d : Device) (p : Port) (v : Word) :
    regVal nv (ownerPut nv p 0x400048 v d) p.val 0x400048 = v.toNat % 2 ^ 20 := by
  have hput : ownerPut nv p 0x400048 v d =
      memMod (fun m => { m with invVa := v.toNat % 2 ^ 20 * 2 ^ 32 + m.invVa % 2 ^ 32 }) d := rfl
  have hread (d : Device) : regVal nv d p.val 0x400048 = d.mem.invVa / 2 ^ 32 := rfl
  rw [hput, hread, memMod_mem]
  dsimp only
  omega

/-- A plain register keeps the fields of its mask; in the order of `plainRegisters`. -/
theorem regVal_ownerPut_plain (nv : NonVol) (d : Device) (p : Port) (v : Word) {e : Nat × Word} (he : e ∈ plainRegisters) :
    regVal nv (ownerPut nv p e.1 v d) p.val e.1 = (v &&& e.2).toNat := by
  simp only [plainRegisters, List.mem_cons, List.not_mem_nil, or_false] at he
  obtain rfl | rfl | rfl | rfl | rfl | rfl | rfl | rfl | rfl | rfl | rfl | rfl | rfl := he
  · exact (toNat_and_low v (w := 16) (by decide)).symm
  · exact (toNat_and_low v (w := 2) (by decide)).symm
  · exact (toNat_and_low v (w := 16) (by decide)).symm
  · exact (toNat_and_low v (w := 8) (by decide)).symm
  · exact (pack_low_and_bit v.toNat).trans (toNat_and_low v (w := 9) (by decide)).symm
  · exact (regVal_memInvalVaLo nv d p v).trans (toNat_and_high v).symm
  · exact (regVal_memInvalVaHi nv d p v).trans (toNat_and_low v (w := 20) (by decide)).symm
  · exact (toNat_and_all v).symm
  · exact (toNat_and_low v (w := 10) (by decide)).symm
  · exact (smGet_smPut_self d.link.routes 0 d.link.routeIdx v.toNat).trans (toNat_and_all v).symm
  · exact (toNat_and_low v (w := 16) (by decide)).symm
  · exact (toNat_and_low v (w := 8) (by decide)).symm
  · exact (toNat_and_low v (w := 8) (by decide)).symm

/-- Settles O58: the write reaches the register of the owner, which keeps the fields of the mask. -/
theorem plainRegistersReadBackTheirFields : Obligations.PlainRegistersReadBackTheirFields := by
  intro s t p v e he hw ho ht
  obtain ⟨ha, hb, hh, hc, hr⟩ := plain_offset e he
  rw [exec_registerWrite_of_aligned v hw ha, regWrite_owner hb hh hc ho hr] at ht
  cases ht
  exact ⟨regVal_ownerPut_plain s.nv s.d p v he, rfl⟩

end Sys2Proof.Machine
end

section
/-! SUPPORT. The spare for a dead cluster (O45): which sites are free spares, and which of a list the remap takes. -/

namespace Sys2Proof.Machine

/-! ### Free spares (R20, R263, R267) -/

theorem halfOf_lt_two (k : Nat) : halfOf k < 2 := by
  unfold halfOf; omega

theorem mem_spareSites {h site : Nat} : site ∈ spareSites h ↔ ∃ r < 24, r * 34 + 16 + h = site := by
  simp only [spareSites, List.mem_map, List.mem_range]

/-- A spare site of half `h` lies in that half's spare column and in one of the 24 rows. -/
theorem place_of_mem_spareSites {h site : Nat} (hh : h < 2) (hs : site ∈ spareSites h) :
    site % 34 = 16 + h ∧ site / 34 < 24 := by
  obtain ⟨r, hr, rfl⟩ := mem_spareSites.1 hs
  omega

theorem spareFree_iff {nv : NonVol} {d : Device} {site : Nat} : spareFree nv d site = true ↔
    (∀ c : CluNo, (bindGet nv d c.val).site ≠ site) ∧ site ∉ d.fabric.withheld ∧ site ∉ d.fabric.quarantined := by
  simp only [spareFree, Bool.and_eq_true, Bool.not_eq_true', List.any_eq_false, List.mem_range, beq_iff_eq,
    List.contains_eq_mem, decide_eq_false_iff_not, Fin.forall_iff, and_assoc, ne_eq]

/-! ### The best spare of a list (R263) -/

/-- `spareRank` orders rows by distance, then the lower one first. -/
theorem spareRank_le_iff {row a b : Nat} : spareRank row a ≤ spareRank row b ↔
    ((a : Int) - row).natAbs < ((b : Int) - row).natAbs ∨
      (((a : Int) - row).natAbs = ((b : Int) - row).natAbs ∧ (a : Int) ≤ b) := by
  unfold spareRank
  split <;> split <;> omega

theorem spareBest_eq_none_iff {row : Nat} {l : List Nat} : spareBest row l = none ↔ l = [] := by
  cases l with
  | nil => simp [spareBest]
  | cons a t =>
    simp only [spareBest, reduceCtorEq, iff_false]
    split
    · simp
    · split <;> simp

theorem spareBest_mem_and_least {row site : Nat} {l : List Nat} (h : spareBest row l = some site) :
    site ∈ l ∧ ∀ other ∈ l, spareRank row (site / 34) ≤ spareRank row (other / 34) := by
  induction l generalizing site with
  | nil => simp [spareBest] at h
  | cons a t ih =>
    simp only [List.mem_cons, forall_eq_or_imp]
    rw [spareBest] at h
    split at h
    next hn =>
      cases spareBest_eq_none_iff.1 hn
      cases h
      simp
    next b hb =>
      obtain ⟨hmem, hleast⟩ := ih hb
      split at h
      next hab =>
        cases h
        exact ⟨.inl rfl, le_rfl, fun other ho => hab.trans (hleast other ho)⟩
      next hab =>
        cases h
        exact ⟨.inr hmem, (not_le.1 hab).le, hleast⟩

/-! ### The spare of a cluster -/

section Spare

variable {nv : NonVol} {d : Device} {k : Nat}

theorem spareFor_eq_none_iff :
    spareFor nv d k = none ↔ ∀ site ∈ spareSites (halfOf k), spareFree nv d site = false := by
  rw [spareFor, spareBest_eq_none_iff, List.filter_eq_nil_iff]
  simp only [Bool.not_eq_true]

/-- The spare of a cluster is a free spare of its half, and ranks no later than any other of them. -/
theorem spareFor_free_and_least {site : Nat} (h : spareFor nv d k = some site) :
    site ∈ spareSites (halfOf k) ∧ spareFree nv d site = true ∧
    ∀ other ∈ spareSites (halfOf k), spareFree nv d other = true →
      spareRank ((bindGet nv d k).site / 34) (site / 34) ≤ spareRank ((bindGet nv d k).site / 34) (other / 34) := by
  obtain ⟨hmem, hleast⟩ := spareBest_mem_and_least h
  obtain ⟨hsite, hfree⟩ := List.mem_filter.1 hmem
  exact ⟨hsite, hfree, fun other ho hf => hleast other (List.mem_filter.2 ⟨ho, hf⟩)⟩

end Spare

/-- Settles O45: the choice is the first by `spareRank` among the free spares of the cluster's half. -/
theorem sparesAreFreeAndNearest : Obligations.SparesAreFreeAndNearest := by
  intro nv d k
  refine ⟨fun site h => ?_, spareFor_eq_none_iff⟩
  obtain ⟨hsite, hfree, hleast⟩ := spareFor_free_and_least h
  obtain ⟨hcol, hrow⟩ := place_of_mem_spareSites (halfOf_lt_two k.val) hsite
  obtain ⟨hserves, hwithheld, hquarantined⟩ := spareFree_iff.1 hfree
  exact ⟨hcol, hrow, hwithheld, hquarantined, hserves, fun other ho hf =>
    ⟨_, _, _, rfl, rfl, rfl, spareRank_le_iff.1 (hleast other ho hf)⟩⟩

end Sys2Proof.Machine
end

section
/-! SUPPORT. The units of a stream (O43): their numbers name a row tile, a column tile and a part, and the regions of these
lie next to each other. -/

namespace Sys2Proof.Machine

/-! ### Tiles and parts are intervals that lie next to each other (R43, R45) -/

/-- Tile `a` of a dimension of `m` places, cut every `t`, holds place `r` exactly when `a` is the quotient. -/
theorem mem_tile_iff {t m r : Nat} (a : Nat) (ht : 0 < t) (hr : r < m) :
    a * t ≤ r ∧ r < a * t + min t (m - a * t) ↔ a = r / t := by
  rw [eq_comm, Nat.div_eq_iff ht]
  omega

/-- Of `n` k-blocks cut into `parts` parts, part `p` holds k-block `q` for exactly one `p`. -/
theorem mem_part_iff {n parts q : Nat} (p : Nat) (hP : 0 < parts) (hn : 0 < n) :
    p * n / parts ≤ q ∧ q < p * n / parts + ((p + 1) * n / parts - p * n / parts) ↔ p = ((q + 1) * parts - 1) / n := by
  have hmono : p * n / parts ≤ (p + 1) * n / parts := Nat.div_le_div_right (Nat.mul_le_mul_right n p.le_succ)
  have hlo : p * n / parts ≤ q ↔ p * n < (q + 1) * parts := by rw [← Nat.div_lt_iff_lt_mul hP, Nat.lt_succ_iff]
  have hhi : q < (p + 1) * n / parts ↔ (q + 1) * parts ≤ (p + 1) * n := Nat.le_div_iff_mul_le hP
  have hpos : 0 < (q + 1) * parts := Nat.mul_pos q.succ_pos hP
  rw [Nat.add_sub_cancel' hmono, hlo, hhi, eq_comm, Nat.div_eq_iff hn, Nat.add_one_mul p n]
  omega

/-- The part that holds a k-block is one of them. -/
theorem partOfBlock_lt {n parts q : Nat} (hP : 0 < parts) (hq : q < n) : ((q + 1) * parts - 1) / n < parts := by
  rw [Nat.div_lt_iff_lt_mul (by omega), Nat.mul_comm parts n]
  have hle : (q + 1) * parts ≤ n * parts := Nat.mul_le_mul_right parts hq
  have hpos : 0 < n * parts := Nat.mul_pos (by omega) hP
  omega

/-- The tile that holds a place is one of them. -/
theorem div_lt_cdiv {t m r : Nat} (ht : 0 < t) (hr : r < m) : r / t < cdiv m t := by
  rw [cdiv, Nat.lt_div_iff_mul_lt ht]
  have := Nat.div_mul_le_self r t
  omega

/-! ### Numbers of tiles and of units (R43) -/

section Numbers

variable {y : StreamDesc} {a b p t : Nat}

/-- The number of the tile in row `a` and column `b` of tiles, by MEM_ORDER. -/
def tileNo (y : StreamDesc) (a b : Nat) : Nat := if y.memOrder = 1 then b * mtOf y + a else a * ntOf y + b

/-- The row and the column of tile `t`, as `tileRegion` takes them. -/
def tileRow (y : StreamDesc) (t : Nat) : Nat := if y.memOrder = 1 then t % mtOf y else t / ntOf y
def tileCol (y : StreamDesc) (t : Nat) : Nat := if y.memOrder = 1 then t / mtOf y else t % ntOf y

theorem tileRegion_eq (i : StreamInfo) (e t b0 nb : Nat) (hrow : isRow i.y = false) :
    tileRegion i e t b0 nb = ⟨e * i.y.m + tileRow i.y t * i.y.tm, min i.y.tm (i.y.m - tileRow i.y t * i.y.tm),
      tileCol i.y t * i.y.tn, min i.y.tn (i.y.n - tileCol i.y t * i.y.tn), b0, nb⟩ := by
  simp [tileRegion, tileRow, tileCol, hrow]

theorem mul_add_lt_mul {m n a b : Nat} (ha : a < m) (hb : b < n) : a * n + b < m * n :=
  calc a * n + b < (a + 1) * n := by rw [Nat.add_one_mul]; omega
    _ ≤ m * n := Nat.mul_le_mul_right n ha

theorem tileNo_lt (ha : a < mtOf y) (hb : b < ntOf y) : tileNo y a b < mtOf y * ntOf y := by
  unfold tileNo
  split
  · rw [Nat.mul_comm (mtOf y)]; exact mul_add_lt_mul hb ha
  · exact mul_add_lt_mul ha hb

theorem mul_add_div_self {n a b : Nat} (hb : b < n) : (a * n + b) / n = a := by
  rw [Nat.mul_comm, Nat.mul_add_div (by omega), Nat.div_eq_of_lt hb, Nat.add_zero]

theorem tileRow_tileNo (ha : a < mtOf y) (hb : b < ntOf y) : tileRow y (tileNo y a b) = a := by
  unfold tileRow tileNo
  split
  · rw [Nat.mul_add_mod_self_right, Nat.mod_eq_of_lt ha]
  · exact mul_add_div_self hb

theorem tileCol_tileNo (ha : a < mtOf y) (hb : b < ntOf y) : tileCol y (tileNo y a b) = b := by
  unfold tileCol tileNo
  split
  · exact mul_add_div_self ha
  · rw [Nat.mul_add_mod_self_right, Nat.mod_eq_of_lt hb]

theorem tileNo_tileRow_tileCol (y : StreamDesc) (t : Nat) : tileNo y (tileRow y t) (tileCol y t) = t := by
  unfold tileNo tileRow tileCol
  split
  · exact Nat.div_add_mod' t _
  · exact Nat.div_add_mod' t _

theorem partsOf_pos (y : StreamDesc) : 0 < partsOf y := Nat.succ_pos _

theorem unitCount_ungoverned (y : StreamDesc) : unitCount y none = mtOf y * ntOf y * partsOf y := Nat.one_mul _

/-- The region of a unit below the unit count: the tile of its quotient by the parts, and the part of its remainder. -/
theorem unitRegion_eq {i : StreamInfo} {u : Nat} (hrow : isRow i.y = false) (hu : u < unitCount i.y none) :
    unitRegion i u false false = ⟨tileRow i.y (u / partsOf i.y) * i.y.tm,
      min i.y.tm (i.y.m - tileRow i.y (u / partsOf i.y) * i.y.tm), tileCol i.y (u / partsOf i.y) * i.y.tn,
      min i.y.tn (i.y.n - tileCol i.y (u / partsOf i.y) * i.y.tn), partLo i.y (u % partsOf i.y),
      partLen i.y (u % partsOf i.y)⟩ := by
  rw [unitCount_ungoverned] at hu
  simp [unitRegion, tileRegion_eq _ _ _ _ _ hrow, Nat.div_eq_of_lt hu, Nat.mod_eq_of_lt hu]

theorem unitNo_lt (ha : a < mtOf y) (hb : b < ntOf y) (hp : p < partsOf y) :
    tileNo y a b * partsOf y + p < unitCount y none := by
  rw [unitCount_ungoverned]
  exact mul_add_lt_mul (tileNo_lt ha hb) hp

/-- Unit `u` is that of row `a`, column `b` and part `p` of tiles exactly when these are what its number names. -/
theorem eq_unitNo_iff {u : Nat} (ha : a < mtOf y) (hb : b < ntOf y) (hp : p < partsOf y) :
    u = tileNo y a b * partsOf y + p ↔
      tileRow y (u / partsOf y) = a ∧ tileCol y (u / partsOf y) = b ∧ u % partsOf y = p := by
  constructor
  · rintro rfl
    rw [mul_add_div_self hp, Nat.mul_add_mod_self_right, Nat.mod_eq_of_lt hp]
    exact ⟨tileRow_tileNo ha hb, tileCol_tileNo ha hb, rfl⟩
  · rintro ⟨rfl, rfl, rfl⟩
    rw [tileNo_tileRow_tileCol, Nat.div_add_mod']

/-- The region of the unit of a row tile, a column tile and a part. -/
theorem unitRegion_unitNo {i : StreamInfo} (hrow : isRow i.y = false) (ha : a < mtOf i.y) (hb : b < ntOf i.y)
    (hp : p < partsOf i.y) : unitRegion i (tileNo i.y a b * partsOf i.y + p) false false =
      ⟨a * i.y.tm, min i.y.tm (i.y.m - a * i.y.tm), b * i.y.tn, min i.y.tn (i.y.n - b * i.y.tn), partLo i.y p,
        partLen i.y p⟩ := by
  obtain ⟨hr, hc, hq⟩ := (eq_unitNo_iff ha hb hp).1 rfl
  rw [unitRegion_eq hrow (unitNo_lt ha hb hp), hr, hc, hq]

end Numbers

/-- An output element and a k-block lie in the region of a unit exactly when its tile and its part hold them. -/
theorem mem_unitRegion_iff {i : StreamInfo} {r c q v : Nat} (hrow : isRow i.y = false) (htm : 0 < i.y.tm) (htn : 0 < i.y.tn)
    (hr : r < i.y.m) (hc : c < i.y.n) (hq : q < kBlocks i.y) (hv : v < unitCount i.y none) :
    ((unitRegion i v false false).r0 ≤ r ∧ r < (unitRegion i v false false).r0 + (unitRegion i v false false).nr ∧
      (unitRegion i v false false).c0 ≤ c ∧ c < (unitRegion i v false false).c0 + (unitRegion i v false false).nc ∧
      (unitRegion i v false false).b0 ≤ q ∧ q < (unitRegion i v false false).b0 + (unitRegion i v false false).nb) ↔
    tileRow i.y (v / partsOf i.y) = r / i.y.tm ∧ tileCol i.y (v / partsOf i.y) = c / i.y.tn ∧
      v % partsOf i.y = ((q + 1) * partsOf i.y - 1) / kBlocks i.y := by
  rw [unitRegion_eq hrow hv, ← mem_tile_iff _ htm hr, ← mem_tile_iff _ htn hc, ← mem_part_iff _ (partsOf_pos i.y) (by omega)]
  simp only [partLo, partLen, and_assoc]

/-- Settles O43: the number of a unit and the tiles and part that it names determine each other, and tiles and parts are
intervals without gap or overlap. -/
theorem unitsCoverTheOutputOnce : Obligations.UnitsCoverTheOutputOnce := by
  intro i _ _ hrow _ htm htn
  refine ⟨fun a b p ha hb hp => ⟨tileNo i.y a b * partsOf i.y + p, rfl, unitNo_lt ha hb hp,
    unitRegion_unitNo hrow ha hb hp⟩, fun r c q hr hc hq => ?_⟩
  have ha : r / i.y.tm < mtOf i.y := div_lt_cdiv htm hr
  have hb : c / i.y.tn < ntOf i.y := by rw [ntOf, hrow]; exact div_lt_cdiv htn hc
  have hp := partOfBlock_lt (partsOf_pos i.y) hq
  refine ⟨_, unitNo_lt ha hb hp, fun v hv => ?_⟩
  rw [mem_unitRegion_iff hrow htm htn hr hc hq hv, eq_unitNo_iff ha hb hp]

end Sys2Proof.Machine
end

section
/-! SUPPORT. Programs (O17): SUBMIT, the checkpoint rows and PROGRAM_COMPLETE, each by the cases of its operation. -/

namespace Sys2Proof.Machine

section Programs

variable {nv : NonVol} {d : Device} {c t : Nat}

/-! ### SUBMIT (R55, R364, R372) -/

/-- A taken command whose state still serves it has its own meaning (R371). -/
theorem withTaken_of_served {op : Nat} {f : Taken → NonVol → Device → Device} {x : Taken} (hx : freshTaken d op t = some x)
    (hst : stateStatus nv d x.ring x.entry = 0) : withTaken op t f nv d = f x nv d := by
  simp only [withTaken, hx, hst, if_true]

theorem submit_of_turn {c : CtxNo} {x : Taken} (hc : x.ring = some c) (hturn : submitTurn d c.val t = true)
    (hgate : gateOpen d c.val x.entry = true) : submit t x nv d = submitGo nv t c.val (eArg x.entry 0 % 2 ^ 52) d := by
  simp only [submit, hc, hturn, hgate, and_self, if_true]

theorem submit_of_waits {c : CtxNo} {x : Taken} (hc : x.ring = some c)
    (h : submitTurn d c.val t = false ∨ gateOpen d c.val x.entry = false) : submit t x nv d = d := by
  rcases h with h | h <;> simp [submit, hc, h]

theorem submitGated_of_waitEn {x : Taken} (h : eWaitEn x.entry = true) : submitGated t x nv d = submit t x nv d := if_pos h

/-- The gated row does nothing where the SUBMIT waits. -/
theorem submitGated_of_waits {x : Taken} (h : submit t x nv d = d) : submitGated t x nv d = d := by
  unfold submitGated
  split
  · exact h
  · rfl

/-- A served SUBMIT, by either of its two rows. -/
theorem exec_submit_of_served {s : State} {x : Taken} (hx : freshTaken s.d 0x40 t = some x)
    (hst : stateStatus s.nv s.d x.ring x.entry = 0) :
    exec (.submit t) s = .next { s with d := submit t x s.nv s.d } ∧
      exec (.submitGateOpen t) s = .next { s with d := submitGated t x s.nv s.d } := by
  simp only [exec, execSubmit, execSubmitGateOpen, onDev, withTaken_of_served hx hst, and_self]

/-- A SUBMIT whose turn has come and whose gate is open admits its program by either row, by SUBMIT_GATE_OPEN where it is gated. -/
theorem exec_submit_of_turn {s : State} {c : CtxNo} {x : Taken} (hst : stateStatus s.nv s.d x.ring x.entry = 0)
    (hx : freshTaken s.d 0x40 t = some x) (hc : x.ring = some c) (hturn : submitTurn s.d c.val t = true)
    (hgate : gateOpen s.d c.val x.entry = true) {d' : Device}
    (hgo : submitGo s.nv t c.val (eArg x.entry 0 % 2 ^ 52) s.d = d') :
    exec (.submit t) s = .next { s with d := d' } ∧
      (eWaitEn x.entry = true → exec (.submitGateOpen t) s = .next { s with d := d' }) := by
  have hs : submit t x s.nv s.d = d' := (submit_of_turn hc hturn hgate).trans hgo
  obtain ⟨h1, h2⟩ := exec_submit_of_served hx hst
  exact ⟨by rw [h1, hs], fun hw => by rw [h2, submitGated_of_waitEn hw, hs]⟩

theorem submitGo_of_admitted {va : Nat} {h : ProgHeader} {es : List Entry} (ha : admitProgram nv d c va = .ok (h, es)) :
    submitGo nv t c va d = ctxMod c (fun x => { x with prog := some ⟨t, h, es, 0, 0, none, [], [], none, false, false, 0⟩ })
      (markBegun t (logPoint nv 3 2 0 0x3001 (pack [(0, 8, c), (16, 16, ((takenGet d t).map cmdId).getD 0)]) h.entries d)) := by
  simp only [submitGo, ha]

theorem submitGo_of_refused {va st i : Nat} (ha : admitProgram nv d c va = .error (.refuse st i)) :
    submitGo nv t c va d = complete nv t st i 0 d := by
  simp only [submitGo, ha]

theorem submitGo_of_fault {va : Nat} {f : FaultAt} (ha : admitProgram nv d c va = .error (.fault f)) :
    submitGo nv t c va d = faultCtx nv c { f with tag := some t } d := by
  simp only [submitGo, ha]

/-! ### Checkpoints (R120, R128, R139) -/

section Markers

variable {g : Prog} {m : Marker} (hg : (ctxGet d c).prog = some g) (hm : g.entries[g.next]? = some (.marker m))
  (hruns : g.runs = []) (hstop : g.stop = none) (hdeal : mayDeal d c = true)
include hg hm hruns hstop hdeal

theorem checkpointBegin_of_kind (hkind : m.kind = 1) : checkpointBegin c d =
    progMod c (fun g => { g with next := g.next + 1, block := some ⟨g.next, m, d.time.now, 0⟩ }) d := by
  simp only [checkpointBegin, hg, hm, hkind, hruns, hstop, hdeal, and_self, if_true]

variable {b : OpenBlock} (hb : g.block = some b) (hkind : m.kind = 2)
include hb hkind

/-- CHECKPOINT_END where its record slot and those of the streams that differ can be read. -/
theorem checkpointEnd_of_read {bs : List Byte} {n : Nat} (hbs : ctxRead d c 1 (recordAt g m.blockSlot + 4) 4 = .ok bs)
    (hn : slotClusters d c g (((blockStreams g b.idx).filter (·.1.mismatch)).map (·.2)) = .ok n) :
    checkpointEnd nv c d = progMod c (fun y => { y with
        next := y.next + 1, block := none
        stop := if b.marker.halt && !((blockStreams g b.idx).filter (·.1.mismatch)).isEmpty then some (stMismatch, y.next)
          else y.stop })
      (ctxWrite nv c 1 (recordAt g m.blockSlot)
        (toBytes 256 (blockRec b (blockStreams g b.idx) n (ofBytes bs / 65536 + 1) d.time.now))
        (readCharge nv c (recordAt g m.blockSlot) 4 d)) := by
  simp only [checkpointEnd, hg, hm, hb, hkind, hruns, hstop, hdeal, and_self, if_true, hbs, hn]

theorem checkpointEnd_of_unread {e : FaultAt} (he : ctxRead d c 1 (recordAt g m.blockSlot + 4) 4 = .error e) :
    checkpointEnd nv c d = faultCtx nv c e d := by
  simp only [checkpointEnd, hg, hm, hb, hkind, hruns, hstop, hdeal, and_self, if_true, he]

end Markers

/-! ### PROGRAM_COMPLETE (R366) -/

theorem programComplete_of_ended {g : Prog} (hg : (ctxGet d c).prog = some g) (hend : progEnded g = true)
    (hlive : ctxLive d c = true) (hup : procUp d 2 = true) : programComplete nv c d =
      complete nv g.tag (progStatus g).1 (progStatus g).2
        (pack [(0, 16, g.preempts), (16, 1, b2n g.mismatch), (17, 1, b2n g.nonfinite)])
        (ctxMod c (fun x => { x with prog := none }) d) := by
  simp only [programComplete, hg, hend, hlive, hup, Bool.and_self, if_true]

end Programs

section Rows

variable (s : State) (c : CtxNo)

theorem exec_checkpointBegin : exec (.checkpointBegin c) s = .next { s with d := checkpointBegin c.val s.d } := rfl
theorem exec_checkpointEnd : exec (.checkpointEnd c) s = .next { s with d := checkpointEnd s.nv c.val s.d } := rfl
theorem exec_programComplete : exec (.programComplete c) s = .next { s with d := programComplete s.nv c.val s.d } := rfl

end Rows

/-- Settles O17: one lemma for each outcome of the admission, of a checkpoint row and of the end of a program. -/
theorem programsAreAdmittedAndEnd : Obligations.ProgramsAreAdmittedAndEnd := by
  intro s c
  refine ⟨?_, ?_, ?_, ?_, ?_, ?_, ?_, ?_⟩
  · intro t x h es hst hx hc hturn hgate ha
    exact exec_submit_of_turn hst hx hc hturn hgate (submitGo_of_admitted ha)
  · intro t x st i hst hx hc hturn hgate ha
    exact exec_submit_of_turn hst hx hc hturn hgate (submitGo_of_refused ha)
  · intro t x f hst hx hc hturn hgate ha
    exact exec_submit_of_turn hst hx hc hturn hgate (submitGo_of_fault ha)
  · intro t x hst hx hc hwait
    have hs : submit t x s.nv s.d = s.d := submit_of_waits hc hwait
    obtain ⟨h1, h2⟩ := exec_submit_of_served hx hst
    exact ⟨by rw [h1, hs], by rw [h2, submitGated_of_waits hs]⟩
  · intro g m b e hg hm hb hkind hruns hstop hdeal he
    rw [exec_checkpointEnd, checkpointEnd_of_unread hg hm hruns hstop hdeal hb hkind he]
  · intro g m hg hm hkind hruns hstop hdeal
    rw [exec_checkpointBegin, checkpointBegin_of_kind hg hm hruns hstop hdeal hkind]
  · intro g m b bs n hg hm hb hkind hruns hstop hdeal hbs hn
    rw [exec_checkpointEnd, checkpointEnd_of_read hg hm hruns hstop hdeal hb hkind hbs hn]
  · intro g hg hend hlive hup
    rw [exec_programComplete, programComplete_of_ended hg hend hlive hup]

end Sys2Proof.Machine
end

section
/-! SUPPORT. The entries of a program (O18): STREAM_START, RECORD_SLOT_WRITE and STREAM_COMPLETE, each by the cases of its
operation. -/

namespace Sys2Proof.Machine

section Entries

variable {nv : NonVol} {d : Device} {c : Nat} {g : Prog} (hg : (ctxGet d c).prog = some g)

/-! ### STREAM_START (R30, R31, R33, R112, R161, R169) -/

section Start

variable (hdeal : mayDeal d c = true) (hstop : g.stop = none) (hroom : g.runs.length < 8)
include hg hdeal hstop hroom

section Stream

variable {x : StreamDesc} {slot : SlotP} {kernel : Option KernelEntry} {src dst : Option RemoteTarget} {gov : Option SortDesc}
  (hx : g.entries[g.next]? = some (.stream x slot kernel src dst gov)) (hdep : depMet g x.depKind x.depStream = true)
  (hgov : govDone g gov = true)
include hx hdep hgov

theorem streamStart_of_passThrough (hpass : x.passThrough = true) : streamStart nv c d = passThrough nv c g x d := by
  simp [streamStart, hg, hdeal, hstop, hroom, hx, hdep, hgov, hpass]

theorem streamStart_of_stream (hpass : x.passThrough = false) :
    streamStart nv c d = streamGo nv c g ⟨x, perExpert x gov, slot, kernel, src, dst, gov⟩ d := by
  simp [streamStart, hg, hdeal, hstop, hroom, hx, hdep, hgov, hpass]

end Stream

theorem streamStart_of_sort {x : SortDesc} (hx : g.entries[g.next]? = some (.sort x))
    (hdep : depMet g x.depKind x.depStream = true) : streamStart nv c d = sortGo c g x d := by
  simp [streamStart, hg, hdeal, hstop, hroom, hx, hdep]

end Start

section Home

variable {k n : Nat} (hn : freeSlot d k = some n)
include hn

theorem streamGo_of_room {i : StreamInfo} (hk : partCluster d (ctxGet d c).part.val i.x.home = some k) {counts : List Nat}
    {st : Nat} (hcounts : govCounts d c i.gov = .ok (counts, st)) (hspill : (usesSpill i.x && spillBusy g) = false) :
    streamGo nv c g i d = streamInit nv c k g i (entryStart c k n i.x.stream (unitCount i.x i.gov)
      (StreamRun.new g.next k n (modeNow g) d.time.now counts true st) d) := by
  simp [streamGo, hk, hn, hcounts, hspill]

theorem streamGo_of_unread {i : StreamInfo} (hk : partCluster d (ctxGet d c).part.val i.x.home = some k) {f : FaultAt}
    (hcounts : govCounts d c i.gov = .error f) :
    streamGo nv c g i d = faultCtx nv c { f with clu := some k, stream := some (i.x.stream, 0, false) } d := by
  simp only [streamGo, hk, hn, hcounts]

theorem sortGo_of_room {x : SortDesc} (hk : partCluster d (ctxGet d c).part.val x.home = some k) :
    sortGo c g x d = entryStart c k n x.stream (moveUnits x)
      (StreamRun.new g.next k n (modeNow g) d.time.now [] (x.op ≠ 0 && !awaitsRows x) 0) d := by
  simp only [sortGo, hk, hn]

end Home

/-! ### RECORD_SLOT_WRITE (R137, R138) -/

section Record

variable {idx : Nat} {r : StreamRun} {i : StreamInfo} (hr : runGet d c idx = some r) (hi : streamInfo d c idx = some i)
  (hres : resident d c = true) (hslot : has i.x 7 = true) (hrec : r.recorded = false)
  (hall : allCommitted d c r = true) (hremote : r.remoteStatus = 0)
include hg hr hi hres hslot hrec hall hremote

/-- The device after the slot is written and marked, as RECORD_SLOT_WRITE leaves it before the event of a mismatch. -/
def slotWritten (nv : NonVol) (c idx : Nat) (g : Prog) (r : StreamRun) (i : StreamInfo) (v zeros : Nat) (d : Device) : Device :=
  runMod c idx (fun y => { y with
      recorded := true, compared := (compareRef i r v).1, mismatch := (compareRef i r v).2.1, noref := (compareRef i r v).2.2 })
    (ctxWriteAs nv (forStream (some r.home) i.x.stream) c 1 (recordAt g i.x.recordSlot)
      (toBytes 256 (slotEnd i r zeros (putFld v 224 32 (statusEnd i r v)))) (readCharge nv c (recordAt g i.x.recordSlot) 256 d))

theorem recordSlotWrite_of_read {bs : List Byte} {zeros : Nat} (hbs : ctxRead d c 1 (recordAt g i.x.recordSlot) 256 = .ok bs)
    (hzeros : zeroTiles d c i = .ok zeros) : recordSlotWrite nv c idx d =
      if (compareRef i r (ofBytes bs)).2.1 then
        mismatchEvent nv c g i (slotEnd i r zeros (putFld (ofBytes bs) 224 32 (statusEnd i r (ofBytes bs))))
          (slotWritten nv c idx g r i (ofBytes bs) zeros d)
      else slotWritten nv c idx g r i (ofBytes bs) zeros d := by
  simp [recordSlotWrite, slotWritten, hg, hr, hi, hres, hslot, hrec, hall, hremote, hbs, hzeros]

theorem recordSlotWrite_of_unread {f : FaultAt} (hf : ctxRead d c 1 (recordAt g i.x.recordSlot) 256 = .error f) :
    recordSlotWrite nv c idx d = faultCtx nv c { f with clu := some r.home, stream := some (i.x.stream, 0, false) } d := by
  simp [recordSlotWrite, hg, hr, hi, hres, hslot, hrec, hall, hremote, hf]

end Record

/-! ### STREAM_COMPLETE (R31, R63, R175) -/

/-- The device after the statistics record of an entry that is over is written and its Tally slot is free. -/
def statsWritten (nv : NonVol) (c idx : Nat) (g : Prog) (r : StreamRun) (d : Device) : Device :=
  cluMod r.home (fun x => { x with slots := smMod x.slots TallySlot.init r.slot slotFree })
    (statsWrite nv c g ((entryStream g idx).getD 0) (statsRec c ((entryStream g idx).getD 0) (runStatus r)
      (slotOf d r).done (slotOf d r).reissued r r.lastTime) d)

theorem streamComplete_of_over {idx : Nat} {r : StreamRun} (hg : (ctxGet d c).prog = some g) (hr : runGet d c idx = some r)
    (hres : resident d c = true) (hsaved : r.saved = none) (hopen : refusalOpen d c r = false)
    (hover : r.remoteStatus ≠ 0 ∨ entryOver d c r = true) : streamComplete nv c idx d =
      dropUnits c idx (progMod c (fun y => { y with
        runs := y.runs.filter (·.idx ≠ idx)
        done := y.done ++ [⟨idx, runStatus r, r.mismatch, r.noref, r.compared, r.skipped, r.mispredicts⟩]
        mismatch := y.mismatch || r.mismatch
        nonfinite := y.nonfinite || runStatus r == stNonfinite
        stop := if y.stop.isNone ∧ r.remoteStatus ≠ 0 then some (r.remoteStatus, idx) else y.stop })
      (statsWritten nv c idx g r d)) := by
  have hgo : (!resident d c || r.saved.isSome || !(decide (r.remoteStatus ≠ 0) || entryOver d c r) || refusalOpen d c r) = false := by
    rcases hover with h | h <;> simp [hres, hsaved, hopen, h]
  simp only [streamComplete, hg, hr, hgo, statsWritten, Bool.false_eq_true, if_false]

theorem runStatus_of_remote {r : StreamRun} (h : r.remoteStatus ≠ 0) : runStatus r = r.remoteStatus := if_pos h

end Entries

section Rows

variable (s : State) (c : CtxNo) (idx : Nat)

theorem exec_streamStart : exec (.streamStart c) s = .next { s with d := streamStart s.nv c.val s.d } := rfl
theorem exec_recordSlotWrite : exec (.recordSlotWrite c idx) s = .next { s with d := recordSlotWrite s.nv c.val idx s.d } := rfl
theorem exec_streamComplete : exec (.streamComplete c idx) s = .next { s with d := streamComplete s.nv c.val idx s.d } := rfl

end Rows

/-- Settles O18: one lemma for each outcome of the start of an entry, of its record slot and of its completion. -/
theorem entriesStartRecordAndComplete : Obligations.EntriesStartRecordAndComplete := by
  intro s c g hg
  refine ⟨?_, ?_, ?_, ?_, ?_, ?_, ?_, ?_, ?_⟩
  · intro x slot k src dst gov hdeal hstop hroom hx hdep hgov hpass
    rw [exec_streamStart, streamStart_of_passThrough hg hdeal hstop hroom hx hdep hgov hpass]
    rfl
  · intro x slot kn src dst gov k n counts st hdeal hstop hroom hx hdep hgov hpass hk hn hcounts hspill
    rw [exec_streamStart, streamStart_of_stream hg hdeal hstop hroom hx hdep hgov hpass,
      streamGo_of_room hn hk hcounts hspill]
  · intro x k n hdeal hstop hroom hx hdep hk hn
    rw [exec_streamStart, streamStart_of_sort hg hdeal hstop hroom hx hdep, sortGo_of_room hn hk]
  · intro idx r i bs zeros hr hi hres hslot hrec hall hremote hbs hzeros hsame
    rw [exec_recordSlotWrite, recordSlotWrite_of_read hg hr hi hres hslot hrec hall hremote hbs hzeros, slotWritten, hsame]
    rfl
  · intro idx r i bs zeros w hr hi hres hslot hrec hall hremote hbs hzeros hdiff hw
    rw [exec_recordSlotWrite, recordSlotWrite_of_read hg hr hi hres hslot hrec hall hremote hbs hzeros, slotWritten, hdiff, hw]
    rfl
  · intro idx r i f hr hi hres hslot hrec hall hremote hf
    rw [exec_recordSlotWrite, recordSlotWrite_of_unread hg hr hi hres hslot hrec hall hremote hf]
  · intro x slot kn src dst gov k n f hdeal hstop hroom hx hdep hgov hpass hk hn hcounts
    rw [exec_streamStart, streamStart_of_stream hg hdeal hstop hroom hx hdep hgov hpass, streamGo_of_unread hn hk hcounts]
  · intro idx r hr hres hsaved hremote hopen
    refine ⟨statsWritten s.nv c.val idx g r s.d, ?_, by rw [statsWritten, runStatus_of_remote hremote]⟩
    rw [exec_streamComplete, streamComplete_of_over hg hr hres hsaved hopen (.inl hremote)]
    simp only [runStatus_of_remote hremote, ne_eq, hremote, not_false_eq_true, and_true]
  · intro idx r hr hres hsaved hremote hopen hover
    rw [exec_streamComplete, streamComplete_of_over hg hr hres hsaved hopen (.inr hover)]
    simp only [hremote, ne_eq, not_true_eq_false, and_false, if_false]
    rfl

end Sys2Proof.Machine
end

section
/-! SUPPORT. The units of a cluster (O19): their claim, start and commit, bubbles and the core context, each by the cases of its
operation. -/

namespace Sys2Proof.Machine

section Units

variable {nv : NonVol} {d : Device} {k : Nat}

/-! ### UNIT_CLAIM (R44, R113, R143) -/

section Claim

variable (hfree : (cluGet d k).claimed = none) (htakes : takesUnits nv d k = true)
include hfree htakes

theorem unitClaim_of_lostCopy {c idx tile : Nat} (hlost : (partOf d k).bind (lostCopy d) = some (c, idx, tile)) :
    unitClaim nv k d = runMod c idx (fun r => { r with copier := smPut r.copier 0 tile (k + 1) }) d := by
  simp [unitClaim, hfree, htakes, hlost]

theorem unitClaim_of_claimFrom (hlost : (partOf d k).bind (lostCopy d) = none) {c n : Nat} {r : StreamRun} {rep : Bool}
    (hfrom : claimFrom d k = some (c, r)) (hnext : nextUnit d r = (n, rep)) :
    unitClaim nv k d = predTry nv k claimPlace (cluMod k (fun x => { x with
        claimed := some { UnitRun.new (claimCtx c) r.idx n rep false (((descGet d c r.idx).map arrayKind).getD 0) d.mem.quota [] none with
          predRead := rep || !((streamInfo d c r.idx).map fun i =>
            decide (i.slot.predAddr ≠ 0) && (i.x.speculate || i.x.zmapSkip)).getD false }
        claimOrder := c :: without x.claimOrder c }) (dealt c r n rep d)) := by
  simp only [unitClaim, hfree, htakes, hlost, hfrom, hnext, Option.isSome_none, Bool.not_true, Bool.or_self, Bool.false_eq_true,
    if_false, Bool.not_and, Bool.not_not]

end Claim

/-! ### UNIT_START (R48) -/

section Start

variable {q : UnitRun} (hclaim : (cluGet d k).claimed = some q) (htakes : takesUnits nv d k = true)
  (hdeal : mayDeal d q.ctx.val = true) (hfits : fitsOn d k q.ctx.val q.idx = true)
include hclaim htakes hdeal hfits

/-- A move unit of a SORT asks for nothing but room. -/
theorem unitGo_of_sort (hi : streamInfo d q.ctx.val q.idx = none) :
    unitGo nv k d = cluMod k (claimPut (freePlace (cluGet d k)) { q with qpc := d.mem.quota }) d := by
  simp [unitGo, hclaim, htakes, hdeal, hfits, hi]

/-- The digest unit that a claimed unit of a stream takes. -/
def startDigest (d : Device) (k : Nat) (i : StreamInfo) : Option (Fin 2) :=
  if holdsDigest i.x then freeDigest d k else none

/-- The device with the claimed unit at its place, and with the cores and the digest unit that it takes. -/
def unitPlaced (k : Nat) (q : UnitRun) (i : StreamInfo) (d : Device) : Device :=
  (if has i.x 6 then coreChange k q.ctx else id)
    (cluMod k (claimPut (freePlace (cluGet d k)) { q with qpc := d.mem.quota, dig := startDigest d k i }) d)

theorem unitGo_of_stream {i : StreamInfo} (hi : streamInfo d q.ctx.val q.idx = some i)
    (hok : unitStartOk d k q.ctx i.x = true) : unitGo nv k d =
      (if exSource i.x then exchangeIn nv k (freePlace (cluGet d k)) q.ctx i (unitRegion i q.unit q.repair false) else id)
        (spillTake nv k q.ctx.val i (q.unit, q.repair) (palTake k i.x.palBase (palUsed i.x i.y)
          (((startDigest d k i).map fun g => digestStart k g q.ctx.val i.slot.poly i.x.stream q.unit q.repair
            (unitPlaced k q i d)).getD (unitPlaced k q i d)))) := by
  have hdig : (if holdsDigest i.x then freeDigest d k else none) = startDigest d k i := rfl
  simp only [unitGo, unitPlaced, hclaim, htakes, hdeal, hfits, hi, hok, hdig, Bool.not_true, Bool.or_self, Bool.false_eq_true,
    if_false]
  cases startDigest d k i <;> cases has i.x 6 <;> cases exSource i.x <;> rfl

end Start

/-! ### UNIT_COMMIT (R46, R131, R135, R141, R147, R148) -/

/-- A unit that is no repair unit closes no block. -/
theorem repairClose_of_not_repair {c : Nat} {r : UnitRun} (h : r.repair = false) : repairClose nv c r d = d := by
  unfold repairClose
  split <;> simp [h]

/-- The device after the map bits, the digest and the counts of a committing unit have gone to its stream. -/
def commitCounted (nv : NonVol) (k : Nat) (r : UnitRun) (d : Device) : Device :=
  let d0 := ((streamInfo d r.ctx.val r.idx).map fun i => mapClear nv r.ctx.val i r.nonzero d).getD d
  runMod r.ctx.val r.idx (runCommit k d0.time.now (descGet d0 r.ctx.val r.idx) r) (digestEnd k r d0)

section Commit

variable {u : Nat} {r : UnitRun} (hu : unitGet d k u = some r) (hover : unitOver d k u = true)
  (hwrites : unitWrites (cluGet d k) u = false) (howes : unitOwes d k u = false)
include hu hover hwrites howes

theorem unitCommit_of_over : unitCommit nv k u d =
    lastDone nv r.ctx.val r.idx
      ((if r.combine then slotMod r.ctx.val r.idx (fun s => { s with
          combining := (unitsOn (unitLeave k u r (repairClose nv r.ctx.val r (commitCounted nv k r d))) k).any
            fun q => q.2.combine && q.2.ctx = r.ctx && q.2.idx == r.idx }) else id)
        (unitLeave k u r ((if r.repair || r.combine then id else slotMod r.ctx.val r.idx (fun s => { s with done := s.done + 1 }))
          (repairClose nv r.ctx.val r (commitCounted nv k r d))))) := by
  simp only [unitCommit, commitCounted, hu, hover, hwrites, howes, Bool.not_true, Bool.or_self, Bool.false_eq_true, if_false]
  cases streamInfo d r.ctx.val r.idx <;> cases r.combine <;> cases r.repair <;> rfl

end Commit

/-! ### BUBBLE_START (R328) -/

theorem bubbleStart_of_due {c i : Nat} {b : Bubble} (hb : (ctxGet d c).bubbles[i]? = some b) (hleft : b.next < b.count)
    (hdue : (bubbleSpan b b.next).1 ≤ d.time.now) {d1 : Device} (hd1 : d1 = ctxMod c (fun x => { x with
      bubbles := lMod x.bubbles i (fun b => { b with next := if b.period = 0 then b.count else b.next + 1 }) }) d) :
    bubbleStart c i d = if bubbleFills d c b b.next then d1
      else { d1 with coll := { d1.coll with cnt := smMod d1.coll.cnt 0 7 (satInc 32) } } := by
  subst hd1
  simp only [bubbleStart, hb, hleft, hdue, and_self, if_true]

/-! ### CORE_CONTEXT_CHANGE (R203) -/

theorem coreContextChange_of_wanted {c : CtxNo} (htakes : takesUnits nv d k = true) (hres : resident d c.val = true)
    (hwants : wantsCores d k c.val = true) (hother : otherParcels d k c.val = false) (hne : (cluGet d k).coreCtx ≠ some c) :
    coreContextChange nv k c d = loadCores k c (saveCores k d) := by
  simp [coreContextChange, coreChange, htakes, hres, hwants, hother, hne]

end Units

section Rows

variable (s : State) (k : CluNo)

theorem exec_unitClaim : exec (.unitClaim k) s = .next { s with d := unitClaim s.nv k.val s.d } := rfl
theorem exec_unitStart : exec (.unitStart k) s = .next { s with d := unitGo s.nv k.val (predTry s.nv k.val claimPlace s.d) } := rfl
theorem exec_unitCommit (u : Nat) : exec (.unitCommit k u) s = .next { s with d := unitCommit s.nv k.val u s.d } := rfl
theorem exec_bubbleStart (c : CtxNo) (i : Nat) : exec (.bubbleStart c i) s = .next { s with d := bubbleStart c.val i s.d } := rfl
theorem exec_coreContextChange (c : CtxNo) :
    exec (.coreContextChange k c) s = .next { s with d := coreContextChange s.nv k.val c s.d } := rfl

end Rows

/-- Settles O19: one lemma for each outcome of the claim, the start and the commit of a unit, of a bubble and of a change of the
core context. -/
theorem unitsAreClaimedStartedAndCommitted : Obligations.UnitsAreClaimedStartedAndCommitted := by
  intro s k
  refine ⟨?_, ?_, ?_, ?_, ?_, ?_, ?_⟩
  · intro c r n rep u hfree htakes hlost hfrom hnext hu
    rw [exec_unitClaim, unitClaim_of_claimFrom hfree htakes hlost hfrom hnext, hu]
  · intro c idx tile hfree htakes hlost
    rw [exec_unitClaim, unitClaim_of_lostCopy hfree htakes hlost]
  · intro q d hd hclaim htakes hdeal hfits hi
    rw [exec_unitStart, hd, unitGo_of_sort hclaim htakes hdeal hfits hi]
  · rintro q i d d1 d2 dig place hd hclaim htakes hdeal hfits hi hok rfl rfl rfl rfl
    rw [exec_unitStart, hd, unitGo_of_stream hclaim htakes hdeal hfits hi hok]
    rfl
  · rintro u r d0 d1 hu hover hwrites howes rfl rfl
    rw [exec_unitCommit, unitCommit_of_over hu hover hwrites howes]
    refine ⟨fun hrep hcomb => ?_, fun hrep hcomb => ?_, fun hrep hcomb => ?_⟩
    · rw [repairClose_of_not_repair hrep, hrep, hcomb]
      rfl
    · rw [hrep, hcomb]
      rfl
    · rw [repairClose_of_not_repair hrep, hcomb, Bool.or_true]
      rfl
  · intro c i b hb hleft hdue
    exact ⟨_, rfl, by rw [exec_bubbleStart, bubbleStart_of_due hb hleft hdue rfl]⟩
  · intro c htakes hres hwants hother hne
    rw [exec_coreContextChange, coreContextChange_of_wanted htakes hres hwants hother hne]

end Sys2Proof.Machine
end

section
/-! SUPPORT. The work of a unit (O20): passes and bound passes, the draining of strips and rows, the combination of parts, the
copies of staged tiles and the rows of the SORT station, each by the cases of its operation. -/

namespace Sys2Proof.Machine

/-! ### Words that have landed -/

/-- Every word of a list has landed where none of them is missing. -/
theorem any_missing_eq_false {need have_ : List Nat} (h : ∀ w ∈ need, w ∈ have_) :
    need.any (fun w => !have_.contains w) = false := by
  simpa using h

theorem all_landed {need have_ : List Nat} (h : ∀ w ∈ need, w ∈ have_) : need.all have_.contains = true := by
  simpa using h

/-- No word of a list landed poisoned. -/
theorem find_bad_eq_none {need bad : List Nat} (h : ∀ w ∈ need, w ∉ bad) : need.find? (fun w => bad.contains w) = none := by
  simpa using h

/-- A test of the entry of a list that comes next fails, where each entry fails it. -/
theorem getD_map_decide_eq_false {α : Type} {o : Option α} {P : α → Prop} [DecidablePred P] (h : ∀ x, o = some x → ¬ P x) :
    (o.map fun x => decide (P x)).getD false = false := by
  cases o with
  | none => rfl
  | some x => exact decide_eq_false (h x rfl)

section Passes

variable {nv : NonVol} {d : Device} {k u : Nat} {r : UnitRun} {i : StreamInfo} {cnt : List Nat}
  (hui : unitInfo d k u = some (r, i)) (hcnt : cnt = countsOf d r.ctx.val r.idx)

/-! ### PASS (R53, R60, R93 to R97) -/

/-- The code words that a pass of a unit uses. -/
def passNeeds (i : StreamInfo) (r : UnitRun) (cnt : List Nat) (p : PassAt) : List Nat :=
  passX i (regionOf i r) cnt r.pred p ++ passW i (regionOf i r) cnt r.pred p ++ (if r.pos = 0 then initWords i r else [])

/-- The unit after a pass. -/
def passDone (d : Device) (i : StreamInfo) (r : UnitRun) (cnt : List Nat) (p : PassAt) : UnitRun :=
  trimBufs i cnt (trusted d r.ctx.val r.idx) { accStart i r with
    acc := passSums i (regionOf i r) (accStart i r) cnt p, pos := r.pos + 1 }

section Pass

variable {p : PassAt} (hp : (unitPasses i r cnt)[r.pos]? = some p)
  (hbounds : ∀ b, (unitBounds i r (trusted d r.ctx.val r.idx))[r.bpos]? = some b → p.chunk ≤ b.chunk)
  (hpred : r.predRead = true) (hland : ∀ w ∈ passNeeds i r cnt p, w ∈ r.have_) (hroom : hasRoom d k i r p = true)
include hui hcnt hp hbounds hpred hland hroom

theorem passGo_of_landed (hgood : ∀ w ∈ passNeeds i r cnt p, w ∉ r.bad) {a b : Nat × Device}
    (ha : a = spillWait r.ctx.val i r cnt p (unitMod k u (fun _ => passDone d i r cnt p) d))
    (hb : b = easelWait k i r (passDone d i r cnt p) cnt p (passCycles i.x (passRows i (regionOf i r) cnt r.pred p).length) a.2) :
    passGo nv k u d = arrayTook nv k u i (passDone d i r cnt p) (passBlock i r cnt p) (if rateOf i.x = 3 then 2 else 1)
      (passCycles i.x (passRows i (regionOf i r) cnt r.pred p).length)
      (if rateOf i.x = 0 then 8 else if rateOf i.x = 1 then 2 else 1) (rateOf i.x) (a.1 + b.1)
      (passRows i (regionOf i r) cnt r.pred p) b.2 := by
  have hbehind := getD_map_decide_eq_false fun b hb => Nat.not_lt.2 (hbounds b hb)
  have hmiss := any_missing_eq_false hland
  have hfind := find_bad_eq_none hgood
  subst hcnt ha hb
  unfold passNeeds at hmiss hfind
  simp only [passGo, passDone, hui, hp, hbehind, hpred, hmiss, hfind, hroom, Bool.not_true, Bool.false_eq_true, or_self, if_false]

theorem passGo_of_poisoned {w : Nat} (hbad : (passNeeds i r cnt p).find? (fun w => r.bad.contains w) = some w) :
    passGo nv k u d = faultCtx nv r.ctx.val (unitPoison d k i r w) d := by
  have hbehind := getD_map_decide_eq_false fun b hb => Nat.not_lt.2 (hbounds b hb)
  have hmiss := any_missing_eq_false hland
  subst hcnt
  unfold passNeeds at hmiss hbad
  simp only [passGo, hui, hp, hbehind, hpred, hmiss, hbad, hroom, Bool.not_true, Bool.false_eq_true, or_self, if_false]

end Pass

/-! ### BOUND_PASS (R145, R146) -/

/-- The code words that a bound pass of a unit uses. -/
def boundNeeds (i : StreamInfo) (r : UnitRun) (cnt : List Nat) (b : BoundAt) : List Nat :=
  boundX i (regionOf i r) cnt b ++ boundW i (regionOf i r) cnt b

/-- The unit after a bound pass. -/
def boundDone (d : Device) (i : StreamInfo) (r : UnitRun) (cnt : List Nat) (b : BoundAt) : UnitRun :=
  trimBufs i cnt (trusted d r.ctx.val r.idx) { r with bound := boundSums i (regionOf i r) r cnt b, bpos := r.bpos + 1 }

section Bound

variable {b : BoundAt} (hb : (unitBounds i r (trusted d r.ctx.val r.idx))[r.bpos]? = some b)
  (hpasses : ∀ p, (unitPasses i r cnt)[r.pos]? = some p → b.chunk < p.chunk) (hpred : r.predRead = true)
  (hland : ∀ w ∈ boundNeeds i r cnt b, w ∈ r.have_)
include hui hcnt hb hpasses hpred hland

theorem boundGo_of_landed (hgood : ∀ w ∈ boundNeeds i r cnt b, w ∉ r.bad) : boundGo nv k u d =
    arrayTook nv k u i (boundDone d i r cnt b) (boundBlock i r cnt b) 2 (boundCycles r.kind) 1 5 0
      ((List.range 128).map fun j => b.tile / mapS i * 128 + j) (unitMod k u (fun _ => boundDone d i r cnt b) d) := by
  have hahead := getD_map_decide_eq_false fun p hp => Nat.not_le.2 (hpasses p hp)
  have hmiss := any_missing_eq_false hland
  have hfind := find_bad_eq_none hgood
  subst hcnt
  unfold boundNeeds at hmiss hfind
  simp only [boundGo, boundDone, hui, hb, hahead, hpred, hmiss, hfind, Bool.not_true, Bool.false_eq_true, or_self, if_false]

theorem boundGo_of_poisoned {w : Nat} (hbad : (boundNeeds i r cnt b).find? (fun w => r.bad.contains w) = some w) :
    boundGo nv k u d = faultCtx nv r.ctx.val (unitPoison d k i r w) d := by
  have hahead := getD_map_decide_eq_false fun p hp => Nat.not_le.2 (hpasses p hp)
  have hmiss := any_missing_eq_false hland
  subst hcnt
  unfold boundNeeds at hmiss hbad
  simp only [boundGo, hui, hb, hahead, hpred, hmiss, hbad, Bool.not_true, Bool.false_eq_true, or_self, if_false]

end Bound

end Passes

/-! ### STRIP_DRAIN (R45, R53, R204, R475) -/

section Drains

variable {nv : NonVol} {d : Device} {k u q : Nat} {r : UnitRun} {i : StreamInfo}

/-- A unit with ACC drains strips, a ROW unit its rows, a move unit its rows. -/
theorem drainGo_of_unit (hui : unitInfo d k u = some (r, i)) : drainGo nv k u q d =
    if has i.x 5 then accDrain nv k u q r i d else if isRow i.x then rowDrain nv k u q r i d else moveDrain nv k u q r i d := by
  simp only [drainGo, hui]

section Strip

variable {z : StripSet} (hz : stripSet i (regionOf i r) q = some z) (hpred : r.predRead = true)
  (hneeds : ∀ w ∈ (if r.moved then [] else initWords i r) ++ maskWords i r, w ∈ r.have_ ∧ w ∉ r.bad)
  (hdrained : (stripNos (regionOf i r) z).any r.drained.contains = false)
  (hclosed : closedSet i (regionOf i r) r (countsOf d r.ctx.val r.idx) (trusted d r.ctx.val r.idx) z = true)
include hz hpred hneeds hdrained hclosed

/-- Everything that a closed strip set whose words have landed can do. -/
theorem accDrain_of_closed {r1 : UnitRun} (hr1 : r1 = accStart i r) : accDrain nv k u q r i d =
    if i.x.ksplit ≠ 0 && !r1.combine then
      progressed nv r.ctx.val (unitMod k u (releaseSet (regionOf i r) z)
        (drainPart nv k u i (regionOf i r) r1 z (unitMod k u (fun _ => r1) d)))
    else if has i.x 6 && !(stripNos (regionOf i r) z).all r1.sent.contains &&
        !(elementParcels i (regionOf i r) r1 (countsOf d r.ctx.val r.idx) d.fresh z).isEmpty then
      if (cluGet d k).coreCtx = some r1.ctx then
        cluMod k (fun x => { x with
            parcels := x.parcels ++ elementParcels i (regionOf i r) r1 (countsOf d r.ctx.val r.idx) d.fresh z })
          (unitMod k u (fun _ => { r1 with
            sent := r1.sent ++ stripNos (regionOf i r) z
            parcelsLeft := r1.parcelsLeft +
              (elementParcels i (regionOf i r) r1 (countsOf d r.ctx.val r.idx) d.fresh z).length }) d)
      else d
    else if parcelOpen d k r1 fun p => z.rows.contains p.row && z.strips.contains ((p.col - (regionOf i r).c0) / 8) then d
    else progressed nv r.ctx.val (drainOut nv k u i (regionOf i r) r1 (countsOf d r.ctx.val r.idx)
      (trusted d r.ctx.val r.idx) z (unitMod k u (fun _ => r1) d)) := by
  have hland := all_landed fun w hw => (hneeds w hw).1
  have hfind := find_bad_eq_none fun w hw => (hneeds w hw).2
  subst hr1
  simp only [accDrain, hz, hpred, hland, hfind, hdrained, hclosed, Bool.not_true, Bool.or_self, Bool.false_eq_true, if_false]

end Strip

section RowUnit

variable (hq : q < (regionOf i r).nr) (hdrained : r.drained.contains q = false)
include hq hdrained

theorem rowDrain_of_delivers (hsent : r.sent.contains q = false) (hbefore : (List.range q).all r.sent.contains = true)
    (hcores : (cluGet d k).coreCtx = some r.ctx)
    (hneeds : ∀ w ∈ plainWords i r ((regionOf i r).r0 + q) ++ maskWords i r, w ∈ r.have_ ∧ w ∉ r.bad) :
    rowDrain nv k u q r i d = rowDeliver k u q i r d := by
  have hland := all_landed fun w hw => (hneeds w hw).1
  have hfind := find_bad_eq_none fun w hw => (hneeds w hw).2
  simp only [rowDrain, Nat.not_le.2 hq, hdrained, hsent, hbefore, hcores, hland, hfind, Bool.not_true, Bool.not_false,
    Bool.or_self, Bool.false_eq_true, or_self, if_false, if_true, ne_eq, not_true_eq_false, decide_false]

theorem rowDrain_of_finishes (hsent : r.sent.contains q = true) (hbefore : (List.range q).all r.drained.contains = true)
    (hparcel : (parcelOpen d k r fun p => p.row == (regionOf i r).r0 + q) = false) :
    rowDrain nv k u q r i d = progressed nv r.ctx.val (rowFinish nv k u q i r d) := by
  simp only [rowDrain, Nat.not_le.2 hq, hdrained, hsent, hbefore, hparcel, Bool.not_true, Bool.or_self, Bool.false_eq_true,
    or_self, if_false]

theorem moveDrain_of_landed
    (hreads : exSource i.x = true → (d.link.reads.any fun x => x.unit = some (k, u)) = false ∧ r.bad = [])
    (hneeds : ∀ w ∈ plainWords i r ((regionOf i r).r0 + q) ++ maskWords i r, w ∈ r.have_ ∧ w ∉ r.bad) :
    moveDrain nv k u q r i d = progressed nv r.ctx.val (moveFinish nv k u q i r d) := by
  have hwaits : (exSource i.x && d.link.reads.any fun x => x.unit = some (k, u)) = false := by
    cases hx : exSource i.x with
    | false => rfl
    | true => exact (hreads hx).1
  have hmiss := any_missing_eq_false fun w hw => (hneeds w hw).1
  have hgood : (if exSource i.x then r.bad
      else (plainWords i r ((regionOf i r).r0 + q) ++ maskWords i r).filter r.bad.contains).head? = none := by
    split
    · next hx => rw [(hreads hx).2]; rfl
    · rw [List.head?_filter]
      exact find_bad_eq_none fun w hw => (hneeds w hw).2
  simp only [moveDrain, Nat.not_le.2 hq, hdrained, hwaits, hmiss, hgood, Bool.false_eq_true, or_self, if_false]

end RowUnit

end Drains

/-! ### PART_COMBINE and RESULT_COPY (R45, R113) -/

section Tiles

variable {nv : NonVol} {d : Device} {c : CtxNo} {idx tile : Nat} {r : StreamRun} {i : StreamInfo}
  (hr : runGet d c.val idx = some r) (hi : streamInfo d c.val idx = some i) (hdeal : mayDeal d c.val = true)
include hr hi hdeal

theorem partCombine_of_rows (htakes : takesUnits nv d r.home = true) (hmay : mayCombine d c.val idx tile r i = true)
    (hcores : has i.x 6 = true → coresServe d r.home c = true) {f : SMap Word}
    (hf : combineRows d c.val i (unitRegion i tile false true)
      ((List.range (unitRegion i tile false true).nr).map ((unitRegion i tile false true).r0 + ·)) [] = .ok f)
    {dig : Option (Fin 2)} (hdig : dig = if i.x.digest then freeDigest d r.home else none)
    (hfree : i.x.digest = true → dig.isSome = true) {d1 d2 : Device}
    (hd1 : d1 = (if has i.x 6 then coreChange r.home c else id) (cluMod r.home (fun x => { x with
      units := smPut x.units none (freePlace (cluGet d r.home))
        (some { UnitRun.new c idx tile false true 0 d.mem.quota [] dig with acc := f, moved := true }) }) d))
    (hd2 : d2 = (dig.map fun n => digestStart r.home n c.val i.slot.poly i.x.stream tile false d1).getD d1) :
    partCombine nv c idx tile d = slotMod c.val idx (fun x => { x with combining := true }) (moved c.val
      (wordsLen 0 (4 * (unitRegion i tile false true).nc) * (unitRegion i tile false true).nr * partsOf i.y) 0 d2) := by
  have hok : (mayDeal d c.val && takesUnits nv d r.home && mayCombine d c.val idx tile r i && (!i.x.digest || dig.isSome) &&
      (!has i.x 6 || coresServe d r.home c)) = true := by
    simp only [hdeal, htakes, hmay, Bool.and_self, Bool.true_and, Bool.and_eq_true, Bool.or_eq_true, Bool.not_eq_true']
    exact ⟨(Bool.eq_false_or_eq_true _).symm.imp_right hfree, (Bool.eq_false_or_eq_true _).symm.imp_right hcores⟩
  subst hd2 hd1
  simp only [partCombine, hr, hi, ← hdig, hok, hf, Bool.not_true, Bool.false_eq_true, if_false]
  cases dig <;> cases has i.x 6 <;> rfl

theorem resultCopy_of_staged (hstaged : r.staged.contains tile = true) (hcopied : r.copied.contains tile = false) {n : Nat}
    (hn : smGet r.copier 0 tile = n + 1) (htakes : takesUnits nv d n = true) : resultCopy nv c.val idx tile d =
      progressed nv c.val (runMod c.val idx (fun r => { r with copied := insAsc tile r.copied })
        (copyRows nv n c.val i (unitRegion i tile false (i.x.ksplit ≠ 0))
          ((List.range (unitRegion i tile false (i.x.ksplit ≠ 0)).nr).map ((unitRegion i tile false (i.x.ksplit ≠ 0)).r0 + ·))
          d)) := by
  have hne : (n + 1 == 0) = false := rfl
  simp only [resultCopy, hr, hi, hdeal, hstaged, hcopied, hn, htakes, hne, Nat.add_sub_cancel, Bool.not_true, Bool.or_self,
    Bool.false_eq_true, if_false]

end Tiles

/-! ### LIST_PHASE, RECEIVE and MOVE_UNIT (R161, R165, R167, R168, R174) -/

section Sorter

variable {nv : NonVol} {d : Device} {c idx : Nat} {r : StreamRun} {x : SortDesc}

section Lists

variable (hr : runGet d c idx = some r) (hx : sortInfo d c idx = some x) (hready : r.ready = false)
include hr hx hready

section Dispatch

variable (hop : x.op = 0) (hdeal : mayDeal d c = true) (hserves : outOfService d r.home = false)
include hop hdeal hserves

theorem listPhase_of_read {bs h : List Byte} (hbs : ctxRead d c 1 x.routeAddr (4 * (x.t * x.cand)) = .ok bs)
    (hh : ctxRead d c 1 x.listAddr 64 = .ok h) : listPhase nv c idx d =
      progressed nv c (runMod c idx (fun r => { r with ready := true, idle := 0 })
        (listsWrite nv (sortFault r x.stream) c x (fld (ofBytes h) 16 16) (placeAll x (words4 (x.t * x.cand) bs))
          (readCharge nv c x.listAddr 64 (readCharge nv c x.routeAddr (4 * (x.t * x.cand)) d)))) := by
  simp only [listPhase, hr, hx, hready, hop, hdeal, hserves, hbs, hh, ne_eq, not_true_eq_false, Bool.not_true,
    Bool.false_eq_true, or_self, if_false]

theorem listPhase_of_unread {f : FaultAt} (hf : ctxRead d c 1 x.routeAddr (4 * (x.t * x.cand)) = .error f) :
    listPhase nv c idx d = faultCtx nv c (sortFault r x.stream f) d := by
  simp only [listPhase, hr, hx, hready, hop, hdeal, hserves, hf, ne_eq, not_true_eq_false, Bool.not_true, Bool.false_eq_true,
    or_self, if_false]

end Dispatch

section Arrivals

variable (hawaits : awaitsRows x = true) (hres : resident d c = true)
include hawaits hres

theorem receiveWait_of_read {bs : List Byte} (hbs : ctxRead d c 1 x.srcAddr (4 * x.group) = .ok bs) :
    receiveWait nv c idx d = if (words4 x.group bs).all (arrivedWord x) then
      progressed nv c (runMod c idx (fun r => { r with ready := true, idle := 0, lastTime := d.time.now })
        (readCharge nv c x.srcAddr (4 * x.group) d)) else d := by
  simp only [receiveWait, hr, hx, hready, hawaits, hres, hbs, Bool.not_true, Bool.false_eq_true, or_self, if_false]

theorem receiveWait_of_unread {f : FaultAt} (hf : ctxRead d c 1 x.srcAddr (4 * x.group) = .error f) :
    receiveWait nv c idx d = faultCtx nv c (sortFault r x.stream f) d := by
  simp only [receiveWait, hr, hx, hready, hawaits, hres, hf, Bool.not_true, Bool.false_eq_true, or_self, if_false]

end Arrivals

end Lists

section Move

variable {k u : Nat} {r : UnitRun} {q : StreamRun} (hu : unitGet d k u = some r)
  (hx : sortInfo d r.ctx.val r.idx = some x) (hq : runGet d r.ctx.val r.idx = some q) (hmoved : r.moved = false)
  (hremote : q.remoteStatus = 0)
include hu hx hq hmoved hremote

theorem moveUnit_of_serve (hl : listsServe d r.ctx.val q x = .ok true) : moveUnit nv k u d =
    progressed nv r.ctx.val (moveRows nv k u r x (unitMod k u (fun r => { r with moved := true, idle := 0 }) d)) := by
  simp only [moveUnit, hu, hx, hq, hmoved, hremote, hl, Bool.false_eq_true, ne_eq, not_true_eq_false, or_self, if_false]

theorem moveUnit_of_not_serve (hl : listsServe d r.ctx.val q x = .ok false) :
    moveUnit nv k u d = remoteFail r.ctx.val r.idx stList none d := by
  simp only [moveUnit, hu, hx, hq, hmoved, hremote, hl, Bool.false_eq_true, ne_eq, not_true_eq_false, or_self, if_false]

theorem moveUnit_of_unread {f : FaultAt} (hl : listsServe d r.ctx.val q x = .error f) : moveUnit nv k u d =
    faultCtx nv r.ctx.val { f with clu := some k, stream := some (x.stream, r.unit, false) } d := by
  simp only [moveUnit, hu, hx, hq, hmoved, hremote, hl, Bool.false_eq_true, ne_eq, not_true_eq_false, or_self, if_false]

end Move

end Sorter

/-! ### The rows of the command table -/

section Rows

variable (s : State) (k : CluNo) (c : CtxNo) (u idx tile : Nat)

theorem exec_pass : exec (.pass k u) s = .next { s with d := passGo s.nv k.val u (predTry s.nv k.val u s.d) } := rfl
theorem exec_boundPass : exec (.boundPass k u) s = .next { s with d := boundGo s.nv k.val u (predTry s.nv k.val u s.d) } := rfl
theorem exec_stripDrain (q : Nat) : exec (.stripDrain k u q) s = .next { s with
    d := exchangeEnd s.nv k.val u (drainGo s.nv k.val u q (predTry s.nv k.val u s.d)) } := rfl
theorem exec_partCombine : exec (.partCombine c idx tile) s = .next { s with d := partCombine s.nv c idx tile s.d } := rfl
theorem exec_resultCopy : exec (.resultCopy c idx tile) s = .next { s with d := resultCopy s.nv c.val idx tile s.d } := rfl
theorem exec_listPhase : exec (.listPhase c idx) s = .next { s with d := listPhase s.nv c.val idx s.d } := rfl
theorem exec_receive : exec (.receive c idx) s = .next { s with d := receiveWait s.nv c.val idx s.d } := rfl
theorem exec_moveUnit : exec (.moveUnit k u) s = .next { s with d := moveUnit s.nv k.val u s.d } := rfl

end Rows

/-- Settles O20: one lemma for each outcome of a pass, of a drain, of a combination or copy, and of a row of the SORT station. -/
theorem passesDrainsAndCombinations : Obligations.PassesDrainsAndCombinations := by
  intro s k
  refine ⟨?pass, ?bound, ?strip, ?row, ?move, ?combine, ?passPoison, ?boundPoison, ?unread, ?notArrived, ?moveFails, ?copy,
    ?lists, ?arrived, ?moves⟩
  case pass =>
    rintro u r i p d cnt rows cyc r1 a b hd hui hcnt hp hbounds hpred hneeds hroom rfl rfl rfl ha hb
    rw [exec_pass, hd, passGo_of_landed hui hcnt hp hbounds hpred (fun w hw => (hneeds w hw).1) hroom
      (fun w hw => (hneeds w hw).2) ha hb]
    rfl
  case bound =>
    rintro u r i b d cnt r1 hd hui hcnt hb hpasses hpred hneeds rfl
    rw [exec_boundPass, hd, boundGo_of_landed hui hcnt hb hpasses hpred (fun w hw => (hneeds w hw).1)
      (fun w hw => (hneeds w hw).2)]
    rfl
  case strip =>
    intro u strip r i z r1 d hd hui hacc hpred hneeds hz hdrained hclosed hr1
    rw [exec_stripDrain, hd, drainGo_of_unit hui, if_pos hacc, accDrain_of_closed hz hpred hneeds hdrained hclosed hr1]
    refine ⟨fun hsplit hcomb => ?_, fun hpart hglaze hsent hparcels hcores => ?_, fun hpart hdirect hopen => ?_⟩
    · rw [if_pos (by simp [hsplit, hcomb])]
    · rw [if_neg (by rcases hpart with h | h <;> simp [h]), if_pos (by simp [hglaze, hsent, hparcels]), if_pos hcores]
    · rw [if_neg (by rcases hpart with h | h <;> simp [h]), if_neg (by rcases hdirect with h | h | h <;> simp [h]), hopen]
      rfl
  case row =>
    intro u q r i d hd hui hacc hrow hq hdrained
    rw [exec_stripDrain, hd, drainGo_of_unit hui, hacc, hrow]
    refine ⟨fun hsent hbefore hcores hneeds => ?_, fun hsent hbefore hparcel => ?_⟩
    · rw [rowDrain_of_delivers hq hdrained hsent hbefore hcores hneeds]
      rfl
    · rw [rowDrain_of_finishes hq hdrained hsent hbefore hparcel]
      rfl
  case move =>
    intro u q r i d hd hui hacc hrow hq hdrained hreads hneeds
    rw [exec_stripDrain, hd, drainGo_of_unit hui, hacc, hrow, moveDrain_of_landed hq hdrained hreads hneeds]
    rfl
  case combine =>
    intro c idx tile r i f hr hi hdeal htakes hmay hcores hf dig d1 d2 hdig hfree hd1 hd2
    rw [exec_partCombine, partCombine_of_rows hr hi hdeal htakes hmay hcores hf hdig hfree hd1 hd2]
  case passPoison =>
    intro u r i p d cnt w hd hui hcnt hp hbounds hpred hland hroom hbad
    rw [exec_pass, hd, passGo_of_poisoned hui hcnt hp hbounds hpred hland hroom hbad]
  case boundPoison =>
    intro u r i b d cnt w hd hui hcnt hb hpasses hpred hland hbad
    rw [exec_boundPass, hd, boundGo_of_poisoned hui hcnt hb hpasses hpred hland hbad]
  case unread =>
    intro c idx r x f hr hx hready
    refine ⟨fun hop hdeal hserves hf => ?_, fun hawaits hres hf => ?_⟩
    · rw [exec_listPhase, listPhase_of_unread hr hx hready hop hdeal hserves hf]
    · rw [exec_receive, receiveWait_of_unread hr hx hready hawaits hres hf]
  case notArrived =>
    intro c idx r x bs hr hx hawaits hready hres hbs hall
    rw [exec_receive, receiveWait_of_read hr hx hready hawaits hres hbs, hall]
    rfl
  case moveFails =>
    intro u r x q hu hx hq hmoved hremote
    refine ⟨fun hl => ?_, fun f hl => ?_⟩
    · rw [exec_moveUnit, moveUnit_of_not_serve hu hx hq hmoved hremote hl]
    · rw [exec_moveUnit, moveUnit_of_unread hu hx hq hmoved hremote hl]
  case copy =>
    intro c idx tile r i n hr hi hdeal hstaged hcopied hn htakes
    rw [exec_resultCopy, resultCopy_of_staged hr hi hdeal hstaged hcopied hn htakes]
  case lists =>
    intro c idx r x bs h hr hx hop hready hdeal hserves hbs hh
    rw [exec_listPhase, listPhase_of_read hr hx hready hop hdeal hserves hbs hh]
  case arrived =>
    intro c idx r x bs hr hx hawaits hready hres hbs hall
    rw [exec_receive, receiveWait_of_read hr hx hready hawaits hres hbs, if_pos hall]
  case moves =>
    intro u r x q hu hx hq hmoved hremote hl
    rw [exec_moveUnit, moveUnit_of_serve hu hx hq hmoved hremote hl]

end Sys2Proof.Machine
end

section
/-! SUPPORT. The memory commands (O25): tags taken, landed and lost, page walks, hub writes, the patrol and SRAM errors, each by
the cases of its operation. -/

namespace Sys2Proof.Machine

section MemoryCommands

variable {nv : NonVol} {d : Device} {k : Nat}

/-! ### TAG_TAKEN and DEFERRED_PIECE_ISSUE (R60, R215, R218, R223 to R226) -/

section Take

variable {user : TagUser} {words : List Nat}

theorem tagTaken_of_refused (h : userCtx d k user = none ∨ words = [] ∨ 32 < words.length ∨
    lessEach words (userWants d k user) ≠ [] ∨ mayTake d k user = false ∨ outOfService d k = true) :
    tagTaken nv k user words d = d := by
  unfold tagTaken
  split
  · rfl
  · next c hc =>
    refine if_pos ?_
    rcases h with h | h | h | h | h | h
    · rw [hc] at h; cases h
    · exact .inl h
    · exact .inr (.inl h)
    · exact .inr (.inr (.inl h))
    · exact .inr (.inr (.inr (.inl (by rw [h]; rfl))))
    · exact .inr (.inr (.inr (.inr h)))

/-- A waiting user may take a tag for `words`, and `d'` is the device with their translations cached. -/
structure TagAsked (nv : NonVol) (d : Device) (k : Nat) (user : TagUser) (words : List Nat) (c : CtxNo) (d' : Device) : Prop where
  ctx : userCtx d k user = some c
  words_ne_nil : words ≠ []
  length_le : words.length ≤ 32
  wanted : lessEach words (userWants d k user) = []
  may : mayTake d k user = true
  serves : outOfService d k = false
  cached : d' = words.foldl (fun d w => xlateFill nv k c.val (w * 64) false d) d

section Asked

variable {c : CtxNo} {d' : Device} (h : TagAsked nv d k user words c d')
include h

theorem TagAsked.not_refused : ¬ (words = [] ∨ 32 < words.length ∨ lessEach words (userWants d k user) ≠ [] ∨
    (!mayTake d k user) = true ∨ outOfService d k = true) := by
  obtain ⟨_, hsome, hfew, hwanted, hmay, hserves, _⟩ := h
  simp [hsome, hwanted, hmay, hserves, hfew]

theorem tagTaken_of_unmapped {a : Nat} {b : Bool} (he : placesOf d' k c.val words = .error (.unmapped a b)) :
    tagTaken nv k user words d = d' := by
  simp only [tagTaken, h.ctx, if_neg h.not_refused, ← h.cached, he]

theorem tagTaken_of_unreachable {e : VErr} (he : placesOf d' k c.val words = .error e) (hne : ∀ a b, e ≠ .unmapped a b) :
    tagTaken nv k user words d = faultCtx nv c.val { vFault e (if user.kind = 1 then 0 else 1) with
      clu := some k, stream := if user.kind = 0 then unitNamed d' k user.u else none } d' := by
  simp only [tagTaken, h.ctx, if_neg h.not_refused, ← h.cached, he]

/-- A tag is taken for the pieces below quota, and the others are set aside, where one can be issued and all can be kept. -/
theorem tagTaken_of_mapped {ps : List (Nat × Nat × Nat)} (hps : placesOf d' k c.val words = .ok ps)
    {now : List (Nat × Nat × Nat)} (hnow : now = ps.filter fun p => !atQuota d' k user (channelOf p.2.2))
    {late : List Nat} (hlate : late = (ps.filter fun p => atQuota d' k user (channelOf p.2.2)).map (·.1)) :
    tagTaken nv k user words d =
      if now = [] ∨ 64 < (userDeferred d' k user).length + late.length ∨ (late ≠ [] ∧ user.kind ≠ 0) then d'
      else tagTake nv k user c now
        (if late = [] then d' else unitMod k user.u (fun r => { r with deferred := r.deferred ++ late }) d') := by
  simp only [tagTaken, h.ctx, if_neg h.not_refused, ← h.cached, hps, ← hnow, ← hlate]

end Asked

theorem deferredIssue_of_waits (h : userCtx d k user = none ∨
    (∃ c a b, userCtx d k user = some c ∧ placesOf d k c.val (userDeferred d k user) = .error (.unmapped a b)) ∨
    (∃ c ps, userCtx d k user = some c ∧ placesOf d k c.val (userDeferred d k user) = .ok ps ∧
      ((∀ p ∈ ps, atQuota d k user (channelOf p.2.2) = true) ∨ mayTake d k user = false))) :
    deferredIssue nv k user d = d := by
  rcases h with hc | ⟨c, a, b, hc, he⟩ | ⟨c, ps, hc, hps, hwait⟩
  · simp only [deferredIssue, hc]
  · simp only [deferredIssue, hc, he]
  · simp only [deferredIssue, hc, hps]
    refine if_pos ?_
    rcases hwait with hquota | hmay
    · exact .inl (by rw [List.filter_eq_nil_iff.2 (by simpa using hquota), List.take_nil])
    · exact .inr (by rw [hmay]; rfl)

section Deferred

variable {c : CtxNo} (hc : userCtx d k user = some c)
include hc

theorem deferredIssue_of_unreachable {e : VErr} (he : placesOf d k c.val (userDeferred d k user) = .error e)
    (hne : ∀ a b, e ≠ .unmapped a b) : deferredIssue nv k user d = faultCtx nv c.val { vFault e 1 with
      clu := some k, stream := if user.kind = 0 then unitNamed d k user.u else none } d := by
  simp only [deferredIssue, hc, he]

theorem deferredIssue_of_mapped {ps now : List (Nat × Nat × Nat)}
    (hps : placesOf d k c.val (userDeferred d k user) = .ok ps)
    (hnow : now = (ps.filter fun p => !atQuota d k user (channelOf p.2.2)).take 32) (hsome : now ≠ [])
    (hmay : mayTake d k user = true) : deferredIssue nv k user d = tagTake nv k user c now
      (unitMod k user.u (fun r => { r with deferred := lessEach r.deferred (now.map (·.1)) }) d) := by
  simp only [deferredIssue, hc, hps, ← hnow, hsome, hmay, Bool.not_true, Bool.false_eq_true, or_self, if_false]

end Deferred

end Take

/-! ### TAG_LANDED (R223, R238, R239) -/

section Land

variable {i : Nat}

theorem tagLanded_of_none {ecc : List EccNote} (h : ((cluGet d k).tags[i]?.all fun t => t.landed.isSome) = true) :
    tagLanded nv k i ecc d = d := by
  unfold tagLanded
  split
  · rfl
  · next t ht =>
    rw [ht] at h
    exact if_pos h

variable {t : Tag} (ht : (cluGet d k).tags[i]? = some t) (hlanded : t.landed = none)
include ht hlanded

theorem tagLanded_of_flying {ecc : List EccNote} {ws : List Nat} {d1 : Device}
    (hws : ws = ((t.words.zip t.dwords).filter fun p => !t.lost.contains p.1).map (·.2))
    (hd1 : d1 = (ecc.filter fun e => ws.contains e.word).foldl
      (fun d' e => hbmError nv 0 (some t.ctx.val) (if e.fatal then tagAction d t else 0) e d')
      (meetErrors nv 0 (some t.ctx.val) (tagAction d t) ws d)) :
    tagLanded nv k i ecc d = tagLand nv k i t (tagPoison d1.mem t) d1 := by
  subst hd1 hws
  simp only [tagLanded, ht, hlanded, Option.isSome_none, Bool.false_eq_true, if_false]

/-! ### STACK_NO_ANSWER (R222, R239) -/

theorem stackNoAnswer_of_flying {stack : Nat} {ps : List (Nat × Nat)} {t' : Tag} {d1 : Device}
    (hlate : t.at_ + 100000 ≤ nv.up)
    (hps : ps = (t.words.zip t.dwords).filter fun p => decide (p.2 * 64 / 2 ^ 36 = stack) && !t.lost.contains p.1)
    (hsome : ps ≠ []) (ht' : t' = { t with lost := t.lost ++ ps.map (·.1) })
    (hd1 : d1 = cluMod k (fun x => { x with tags := lMod x.tags i fun _ => t' })
      (ps.foldl (fun d p => noAnswer nv 0 t.ctx.val (tagAction d t) p.2 d) d)) :
    stackNoAnswer nv k i stack d =
      if t'.lost.length < t'.words.length then d1 else tagLand nv k i t' t'.words d1 := by
  have hsoon : ¬ nv.up < t.at_ + 100000 := Nat.not_lt.2 hlate
  subst hd1 ht'
  simp only [stackNoAnswer, readLost, ht, hlanded, ← hps, hsome, hsoon, Option.isSome_none, Bool.false_eq_true, or_self, if_false]

end Land

/-- A read tag that has landed, is young, or has no piece on the stack left stays as it is. -/
theorem readLost_of_none {i stack : Nat} {t : Tag} (h : (t.landed.isSome || decide (nv.up < t.at_ + 100000) ||
    (t.words.zip t.dwords).all fun p => decide (p.2 * 64 / 2 ^ 36 ≠ stack) || t.lost.contains p.1) = true) :
    readLost nv k i stack t d = d := by
  simp only [Bool.or_eq_true, decide_eq_true_eq, or_assoc] at h
  refine if_pos (h.imp_right (Or.imp_right fun hall => List.filter_eq_nil_iff.2 fun p hp => ?_))
  simpa [imp_iff_not_or] using List.all_eq_true.1 hall p hp

theorem writeLost_of_none {j stack : Nat} {t : WriteTag} (h : (decide (nv.up < t.at_ + 100000) ||
    t.pieces.all fun w => decide (writePlace d w * 64 / 2 ^ 36 ≠ stack)) = true) : writeLost nv k j stack t d = d := by
  simp only [Bool.or_eq_true, decide_eq_true_eq] at h
  refine if_pos (h.imp_right fun hall => List.filter_eq_nil_iff.2 fun w hw => ?_)
  simpa using List.all_eq_true.1 hall w hw

section Numbers

variable {i stack : Nat}

theorem stackNoAnswer_of_readTag {t : Tag} (ht : (cluGet d k).tags[i]? = some t) :
    stackNoAnswer nv k i stack d = readLost nv k i stack t d := by
  simp only [stackNoAnswer, ht]

section Writes

variable (ht : (cluGet d k).tags[i]? = none)
include ht

/-- The tags of writes are numbered after those of reads. -/
theorem stackNoAnswer_of_writeTag {t : WriteTag} (hw : (cluGet d k).wtags[i - (cluGet d k).tags.length]? = some t) :
    stackNoAnswer nv k i stack d = writeLost nv k (i - (cluGet d k).tags.length) stack t d := by
  simp only [stackNoAnswer, ht, hw]

theorem stackNoAnswer_of_none (hw : (cluGet d k).wtags[i - (cluGet d k).tags.length]? = none) :
    stackNoAnswer nv k i stack d = d := by
  simp only [stackNoAnswer, ht, hw]

end Writes

end Numbers

theorem stackNoAnswer_of_write {i j stack : Nat} {t : WriteTag} {ps left : List WriteReq}
    (ht : (cluGet d k).tags[i]? = none) (hj : j = i - (cluGet d k).tags.length) (hw : (cluGet d k).wtags[j]? = some t)
    (hlate : t.at_ + 100000 ≤ nv.up)
    (hps : ps = t.pieces.filter fun w => decide (writePlace d w * 64 / 2 ^ 36 = stack)) (hsome : ps ≠ [])
    (hleft : left = t.pieces.filter fun w => !decide (writePlace d w * 64 / 2 ^ 36 = stack)) :
    stackNoAnswer nv k i stack d = cluMod k (fun x => { x with
        wtags := if left = [] then x.wtags.eraseIdx j else lMod x.wtags j fun t => { t with pieces := left } })
      (ps.foldl (fun d w => memMod (fun m => { m with poison := insAsc (writePlace d w) m.poison })
        (noAnswer nv (if w.data.length = 64 then 0 else 1) w.ctx.val 3 (writePlace d w) d)) d) := by
  have hsoon : ¬ nv.up < t.at_ + 100000 := Nat.not_lt.2 hlate
  subst hj
  simp only [stackNoAnswer, writeLost, ht, hw, ← hps, ← hleft, hsome, hsoon, or_self, if_false]

/-! ### PAGE_WALK and UNMAPPED_READ_DUE (R60, R218, R219) -/

section Walk

variable {c va : Nat} {wr : Bool}

/-- A unit, the cores or the claim of cluster `k` serve context `c`. -/
def servesCtx (d : Device) (k c : Nat) : Bool :=
  (unitsOn d k).any (fun u => u.2.ctx.val = c) || ((cluGet d k).coreCtx.map (·.val)) == some c ||
    ((cluGet d k).claimed.map (·.ctx.val)) == some c

/-- A walk that ends at an unmapped page faults the context of a write at once and leaves a read to wait; any other error faults
the context (R60, R218). -/
def walkFault (nv : NonVol) (k c : Nat) (wr : Bool) (e : VErr) (d : Device) : Device :=
  match e with
  | .unmapped a false => if wr then faultCtx nv c { vFault (.unmapped a false) 3 with clu := some k } d else d
  | e => faultCtx nv c { vFault e 3 with clu := some k } d

theorem pageWalk_of_unused (h : ctxLive d c = false ∨ servesCtx d k c = false ∨ xlateHeld d k c va = true) :
    pageWalk nv k c va wr d = d := by
  refine if_pos ?_
  change (!(ctxLive d c && servesCtx d k c)) = true ∨ xlateHeld d k c va = true
  rcases h with h | h | h <;> simp [h]

section Used

variable (hlive : ctxLive d c = true) (hserves : servesCtx d k c = true) (hheld : xlateHeld d k c va = false)
include hlive hserves hheld

theorem pageWalk_used : ¬ ((!(ctxLive d c && servesCtx d k c)) = true ∨ xlateHeld d k c va = true) := by
  simp [hlive, hserves, hheld]

theorem pageWalk_of_mapped {l : Leaf} (hl : walk d.mem (ctxGet d c).root va wr = .ok l) :
    pageWalk nv k c va wr d = xlateKeep nv k c va l d := by
  refine (if_neg (pageWalk_used hlive hserves hheld)).trans ?_
  rw [hl]

theorem pageWalk_of_error {e : VErr} (he : walk d.mem (ctxGet d c).root va wr = .error e) :
    pageWalk nv k c va wr d = walkFault nv k c wr e d := by
  refine (if_neg (pageWalk_used hlive hserves hheld)).trans ?_
  rw [he]
  cases e
  case unmapped a b => cases b <;> rfl
  all_goals rfl

end Used

end Walk

section Due

variable {u va : Nat}

/-- The unit needs byte `va` next, of its operands or of its predictions (R60, R143). -/
def readDue (d : Device) (k : Nat) (r : UnitRun) (i : StreamInfo) (va : Nat) : Bool :=
  if r.predRead then (needsNext true d k r i).contains (va / 64) && !r.have_.contains (va / 64) else predHolds i r va

section Unit

variable {r : UnitRun} {i : StreamInfo} (hui : unitInfo d k u = some (r, i))
include hui

theorem unmappedDue_of_not_due (hdue : readDue d k r i va = false) : unmappedDue nv k u va d = d := by
  unfold readDue at hdue
  simp only [unmappedDue, hui, hdue, Bool.not_false, if_true]

variable (hdue : readDue d k r i va = true)
include hdue

theorem unmappedDue_of_unmapped {a : Nat} {b : Bool} (ht : trans d k r.ctx.val va false = .error (.unmapped a b)) :
    unmappedDue nv k u va d = faultCtx nv r.ctx.val { vFault (.unmapped a b) 1 with
      clu := some k, stream := some (i.x.stream, r.unit, r.repair) } d := by
  unfold readDue at hdue
  simp only [unmappedDue, hui, hdue, ht, Bool.not_true, Bool.false_eq_true, if_false]

theorem unmappedDue_of_not_unmapped (ht : ∀ a b, trans d k r.ctx.val va false ≠ .error (.unmapped a b)) :
    unmappedDue nv k u va d = d := by
  unfold readDue at hdue
  simp only [unmappedDue, hui, hdue, Bool.not_true, Bool.false_eq_true, if_false]

end Unit

end Due

/-! ### WRITE_ACCEPT (R215, R221, R223) -/

section Accept

variable {d1 : Device} (hd1 : d1 = writesTake nv k d)
include hd1

theorem writeAccept_of_none (h : (cluGet d1 k).wtags = []) : writeAccept nv k d = d1 := by
  subst hd1
  simp only [writeAccept, h]

section Oldest

variable {t : WriteTag} {rest : List WriteTag} (ht : (cluGet d1 k).wtags = t :: rest)
include ht

theorem writeAccept_of_empty (hp : t.pieces = []) :
    writeAccept nv k d = cluMod k (fun x => { x with wtags := rest }) d1 := by
  subst hd1
  simp only [writeAccept, ht, hp]

theorem writeAccept_of_write {w : WriteReq} {ps : List WriteReq} (hp : t.pieces = w :: ps) : writeAccept nv k d =
    writeVisible nv k w (cluMod k (fun x => { x with wtags := if ps = [] then rest else { t with pieces := ps } :: rest }) d1) := by
  subst hd1
  simp only [writeAccept, ht, hp]

end Oldest

end Accept

section Visible

variable {w : WriteReq} {d2 : Device}
  (hd2 : d2 = w.units.foldl (fun d u => unitMod k u (fun r => { r with idle := 0 }) d) d)
include hd2

theorem writeVisible_of_noMemory (h : dpaOk d2.mem w.addr w.data.length = false) : writeVisible nv k w d =
    faultCtx nv w.ctx.val { vFault (.noMemory w.addr) 4 with
      clu := some k, stream := w.units.head?.bind (unitNamed d2 k) } d2 := by
  simp only [writeVisible, ← hd2, h, Bool.false_eq_true, if_false]

variable (h : dpaOk d2.mem w.addr w.data.length = true)
include h

theorem writeVisible_of_word (hlen : w.data.length = 64) :
    writeVisible nv k w d = moved w.ctx.val 0 64 (memMod (dWrite w.addr w.data) d2) := by
  rw [writeVisible, ← hd2, if_pos h, if_pos hlen]

theorem writeVisible_of_part (hlen : w.data.length ≠ 64) : writeVisible nv k w d =
    moved w.ctx.val 64 64 (memMod (dWrite w.addr w.data)
      (meetErrors nv 1 (some w.ctx.val) 3 (touchedWords d2.mem w.addr w.data.length) d2)) := by
  rw [writeVisible, ← hd2, if_pos h, if_neg hlen]

end Visible

/-! ### PATROL_SCRUB and SRAM_UNCORRECTABLE (R241, R242) -/

theorem patrolScrub_of_early {ecc : List EccNote} (h : nv.up < d.mem.scrubAt + 28800000000000) : patrolScrub nv ecc d = d :=
  if_pos h

theorem patrolScrub_of_due {ecc : List EccNote} (h : d.mem.scrubAt + 28800000000000 ≤ nv.up) : patrolScrub nv ecc d =
    memMod (fun m => { m with scrubPasses := satInc 16 m.scrubPasses, scrubAt := nv.up })
      ((ecc.filter fun e => bit nv.capMemory (e.word * 64 / 2 ^ 36)).foldl
        (fun d e => hbmError nv 2 none (if e.fatal then 3 else 0) e d)
        (meetErrors nv 2 none 3 (d.mem.latent.map (·.word)) d)) :=
  if_neg (Nat.not_lt.2 h)

/-- The device with an uncorrectable SRAM error counted and its moment noted. -/
def sramNoted (nv : NonVol) (k st off : Nat) (d : Device) : Device :=
  drawFresh 1 (memMod (fun m => { m with
    sramUe := satInc 32 m.sramUe
    synAt := (sramWord k st off, nv.up, d.mem.synHead) :: m.synAt.filter fun e => decide (e.1 ≠ sramWord k st off) }) d)

section Sram

variable {st off syn : Nat} {c : CtxNo}

theorem sramUncorrectable_of_unowned : sramUncorrectable nv k st off none syn d =
    suspect nv 0 k 1 (synRecord 4 0 none 4 syn (sramWhere k st off) 0xFF 0 (sramNoted nv k st off d)) := rfl

theorem sramUncorrectable_of_dead (h : ctxLive d c.val = false) : sramUncorrectable nv k st off (some c) syn d =
    suspect nv 0 k 1 (synRecord 4 0 (some c.val) 4 syn (sramWhere k st off) 0xFF 0 (sramNoted nv k st off d)) := by
  simp [sramUncorrectable, sramNoted, Option.filter, h]

theorem sramUncorrectable_of_unit {u : Nat} (h : ctxLive d c.val = true) (hu : sramUnit d k st off c.val = some u) :
    sramUncorrectable nv k st off (some c) syn d = suspect nv 0 k 1 (abandonUnit k u
      (synRecord 4 0 (some c.val) 1 syn (sramWhere k st off) 0xFF 0 (sramNoted nv k st off d))) := by
  simp [sramUncorrectable, sramNoted, Option.filter, h, hu]

theorem sramUncorrectable_of_ctx (h : ctxLive d c.val = true) (hu : sramUnit d k st off c.val = none) :
    sramUncorrectable nv k st off (some c) syn d = suspect nv 0 k 1 (faultCtx nv c.val
      ⟨0x0A, stUncorrectable, 1, some k, none, none, 0, d.mem.synHead, none⟩
      (synRecord 4 0 (some c.val) 2 syn (sramWhere k st off) 0xFF 0 (sramNoted nv k st off d))) := by
  simp [sramUncorrectable, sramNoted, Option.filter, h, hu]

end Sram

end MemoryCommands

section Rows

variable (s : State) (k : CluNo)

theorem exec_tagTaken (user : TagUser) (words : List Nat) :
    exec (.tagTaken k user words) s = .next { s with d := tagTaken s.nv k.val user words s.d } := rfl
theorem exec_deferredPieceIssue (user : TagUser) :
    exec (.deferredPieceIssue k user) s = .next { s with d := deferredIssue s.nv k.val user s.d } := rfl
theorem exec_tagLanded (i : Nat) (ecc : List EccNote) :
    exec (.tagLanded k i ecc) s = .next { s with d := tagLanded s.nv k.val i ecc s.d } := rfl
theorem exec_stackNoAnswer (i : Nat) (stack : Fin 32) :
    exec (.stackNoAnswer k ⟨i, stack⟩) s = .next { s with d := stackNoAnswer s.nv k.val i stack.val s.d } := rfl
theorem exec_pageWalk (c : CtxNo) (va : Nat) (wr : Bool) :
    exec (.pageWalk k c va wr) s = .next { s with d := pageWalk s.nv k.val c.val va wr s.d } := rfl
theorem exec_unmappedReadDue (u va : Nat) :
    exec (.unmappedReadDue k u va) s = .next { s with d := unmappedDue s.nv k.val u va s.d } := rfl
theorem exec_writeAccept : exec (.writeAccept k) s = .next { s with d := writeAccept s.nv k.val s.d } := rfl
theorem exec_combiningWriteBack (word : Nat) :
    exec (.combiningWriteBack k word) s = .next { s with d := combiningBack k.val word s.d } := rfl
theorem exec_patrolScrub (ecc : List EccNote) :
    exec (.patrolScrub ecc) s = .next { s with d := patrolScrub s.nv ecc s.d } := rfl
theorem exec_sramUncorrectable (st off : Nat) (owner : Option CtxNo) (syn : Nat) : exec (.sramUncorrectable k st off owner syn) s =
    .next { s with d := sramUncorrectable s.nv k.val st off owner syn s.d } := rfl

end Rows

/-- Settles O25: one lemma for each outcome of a memory command. -/
theorem memoryTagsLandAndWrite : Obligations.MemoryTagsLandAndWrite := by
  intro s k
  refine ⟨?takeNot, ?take, ?deferNot, ?deferFault, ?defer, ?landNot, ?lostNot, ?land, ?readLost, ?writeLost, ?walk, ?walkNot,
    ?walkError, ?due, ?dueNot, ?acceptNone, ?acceptEmpty, ?acceptFault, ?patrolNot, ?accept, ?combining, ?patrol, ?sram⟩
  case takeNot =>
    intro user words h
    rw [exec_tagTaken, tagTaken_of_refused h]
  case take =>
    intro user words c d hc hsome hfew hwanted hmay hserves hd
    have hasked : TagAsked s.nv s.d k.val user words c d := ⟨hc, hsome, hfew, hwanted, hmay, hserves, hd⟩
    refine ⟨fun a b he => ?_, fun e he hne => ?_, fun ps now late hps hnow hlate => ?_⟩
    · rw [exec_tagTaken, tagTaken_of_unmapped hasked he]
    · rw [exec_tagTaken, tagTaken_of_unreachable hasked he hne]
    · rw [exec_tagTaken, tagTaken_of_mapped hasked hps hnow hlate]
      refine ⟨fun hnot => ?_, fun hnow hlate hroom => ?_, fun hnow hlate hkind hroom => ?_⟩
      · rw [if_pos hnot]
      · rw [if_neg (by simp [hnow, hlate, hroom]), if_pos hlate]
      · rw [if_neg (by simp [hnow, hkind, hroom]), if_neg hlate]
  case deferNot =>
    intro user h
    rw [exec_deferredPieceIssue, deferredIssue_of_waits h]
  case deferFault =>
    intro user c e hc he hne
    rw [exec_deferredPieceIssue, deferredIssue_of_unreachable hc he hne]
  case defer =>
    intro user c ps now hc hps hnow hsome hmay
    rw [exec_deferredPieceIssue, deferredIssue_of_mapped hc hps hnow hsome hmay]
  case landNot =>
    intro i ecc h
    rw [exec_tagLanded, tagLanded_of_none h]
  case lostNot =>
    intro i stack h
    rw [exec_stackNoAnswer]
    cases ht : (cluGet s.d k.val).tags[i]? with
    | some t =>
      rw [ht] at h
      dsimp only at h
      rw [stackNoAnswer_of_readTag ht, readLost_of_none h]
    | none =>
      rw [ht] at h
      dsimp only at h
      cases hw : (cluGet s.d k.val).wtags[i - (cluGet s.d k.val).tags.length]? with
      | none => rw [stackNoAnswer_of_none ht hw]
      | some t =>
        rw [hw, Option.all_some] at h
        rw [stackNoAnswer_of_writeTag ht hw, writeLost_of_none h]
  case land =>
    intro i ecc t ws d1 ht hlanded hws hd1
    rw [exec_tagLanded, tagLanded_of_flying ht hlanded hws hd1]
  case readLost =>
    intro i stack t ps t' d1 ht hlanded hlate hps hsome ht' hd1
    rw [exec_stackNoAnswer, stackNoAnswer_of_flying ht hlanded hlate hps hsome ht' hd1]
  case writeLost =>
    intro i stack t j ps left ht hj hw hlate hps hsome hleft
    rw [exec_stackNoAnswer, stackNoAnswer_of_write ht hj hw hlate hps hsome hleft]
  case walk =>
    intro c va wr l hlive hserves hheld hl
    rw [exec_pageWalk, pageWalk_of_mapped hlive hserves hheld hl]
  case walkNot =>
    intro c va wr h
    rw [exec_pageWalk, pageWalk_of_unused h]
  case walkError =>
    intro c va wr e hlive hserves hheld he
    rw [exec_pageWalk, pageWalk_of_error hlive hserves hheld he]
    rfl
  case due =>
    intro u va r i a b hui hdue htrans
    rw [exec_unmappedReadDue, unmappedDue_of_unmapped hui hdue htrans]
  case dueNot =>
    intro u va h
    rw [exec_unmappedReadDue]
    cases hui : unitInfo s.d k.val u with
    | none => simp only [unmappedDue, hui]
    | some q =>
      obtain ⟨r, i⟩ := q
      rw [hui] at h
      cases hdue : readDue s.d k.val r i va with
      | false => rw [unmappedDue_of_not_due hui hdue]
      | true =>
        rw [unmappedDue_of_not_unmapped hui hdue fun a b ht => ?_]
        unfold readDue at hdue
        simp only [Option.all_some, hdue, ht, Bool.not_true, Bool.or_self, Bool.false_eq_true] at h
  case acceptNone =>
    intro h
    rw [exec_writeAccept, writeAccept_of_none rfl h]
  case acceptEmpty =>
    intro t rest d1 hd1 ht hp
    rw [exec_writeAccept, writeAccept_of_empty hd1 ht hp]
  case acceptFault =>
    intro t rest w ps d1 d2 hd1 ht hp hd2 hok
    rw [exec_writeAccept, writeAccept_of_write hd1 ht hp, writeVisible_of_noMemory hd2 hok]
  case patrolNot =>
    intro ecc h
    rw [exec_patrolScrub, patrolScrub_of_early h]
  case accept =>
    intro t rest w ps d1 d2 hd1 ht hp hd2 hok
    rw [exec_writeAccept, writeAccept_of_write hd1 ht hp]
    exact ⟨fun hlen => by rw [writeVisible_of_word hd2 hok hlen], fun hlen => by rw [writeVisible_of_part hd2 hok hlen]⟩
  case combining =>
    intro word
    rw [exec_combiningWriteBack, combiningBack]
  case patrol =>
    intro ecc h
    rw [exec_patrolScrub, patrolScrub_of_due h]
  case sram =>
    intro noted hnoted
    have hnoted : ∀ st off, noted st off = sramNoted s.nv k.val st off s.d := hnoted
    refine ⟨fun st off syn => ?_, fun st off c syn hdead => ?_, fun st off c syn u hlive hu => ?_, fun st off c syn hlive hu => ?_⟩
    · rw [exec_sramUncorrectable, sramUncorrectable_of_unowned, hnoted]
    · rw [exec_sramUncorrectable, sramUncorrectable_of_dead hdead, hnoted]
    · rw [exec_sramUncorrectable, sramUncorrectable_of_unit hlive hu, hnoted]
    · rw [exec_sramUncorrectable, sramUncorrectable_of_ctx hlive hu, hnoted]

end Sys2Proof.Machine
end

section
/-! SUPPORT. Number formats: the layout of packed rows (O44), the rounding of a magnitude (O53), and a code that is decoded and
written again (O52). -/

namespace Sys2Proof.Machine

/-! ### Rows as numbers (R13, R67) -/

/-- Byte `i` of a byte string, 0 beyond its end, is digit `i` of the number it spells. -/
theorem toNat_getD_eq_digit (bs : List Byte) (i : Nat) : (bs.getD i 0).toNat = ofBytes bs / 256 ^ i % 256 := by
  induction bs generalizing i with
  | nil => simp [ofBytes]
  | cons b t ih =>
    have hb : b.toNat < 256 := b.isLt
    cases i with
    | zero => simp only [ofBytes, List.getD_cons_zero, Nat.pow_zero, Nat.div_one]; omega
    | succ i =>
      have hdiv : (b.toNat + 256 * ofBytes t) / 256 = ofBytes t := by omega
      rw [List.getD_cons_succ, ih, ofBytes, Nat.pow_succ', ← Nat.div_div_eq_div_mul, hdiv]

/-- A run of bytes of a number is the number's digits there. -/
theorem ofBytes_range {rd : Nat → Byte} {v : Nat} (hrd : ∀ o, (rd o).toNat = v / 256 ^ o % 256) (lo n : Nat) :
    ofBytes ((List.range n).map fun j => rd (lo + j)) = v / 256 ^ lo % 256 ^ n := by
  induction n generalizing lo with
  | zero => simp [ofBytes, Nat.mod_one]
  | succ n ih =>
    have htail : ((List.range n).map fun j => rd (lo + (j + 1))) = (List.range n).map fun j => rd (lo + 1 + j) :=
      List.map_congr_left fun j _ => by rw [Nat.add_assoc, Nat.add_comm 1 j]
    rw [List.range_succ_eq_map, List.map_cons, List.map_map, ofBytes]
    simp only [Function.comp_def, Nat.succ_eq_add_one, Nat.add_zero, htail, ih, hrd]
    rw [Nat.pow_succ' (n := n), Nat.mod_mul, Nat.pow_succ, Nat.div_div_eq_div_mul]

theorem ofBytes_toBytes (len n : Nat) : ofBytes (toBytes len n) = n % 256 ^ len := by
  induction len generalizing n with
  | zero => simp [toBytes, ofBytes, Nat.mod_one]
  | succ len ih =>
    rw [toBytes, ofBytes, ih, BitVec.toNat_ofNat, Nat.pow_succ' (n := len), Nat.mod_mul]

/-- A field of a field is a field of the whole. -/
theorem fld_fld (n a c : Nat) {p w : Nat} (h : p + w ≤ c) : fld (fld n a c) p w = fld n (a + p) w := by
  refine Nat.eq_of_testBit_eq fun i => ?_
  simp only [fld, Nat.testBit_mod_two_pow, Nat.testBit_div_two_pow]
  by_cases hi : i < w
  · have hc : i + p < c := by omega
    simp [hi, hc, Nat.add_assoc, Nat.add_comm p a]
  · simp [hi]

theorem pow_256 (n : Nat) : 256 ^ n = 2 ^ (8 * n) := by rw [Nat.pow_mul]

/-! ### Elements of a packed row (R67) -/

theorem fmtBits_pos (f : Nat) : 0 < fmtBits f := by
  unfold fmtBits; split <;> decide

/-- The bytes that an element is read from cover its bits. -/
theorem elemCode_eq_fld (f : Nat) (row : List Byte) (i : Nat) :
    elemCode f (fun o => row.getD o 0) i = fld (ofBytes row) (fmtBits f * i) (fmtBits f) := by
  have hb := fmtBits_pos f
  unfold elemCode
  dsimp only
  rw [ofBytes_range (toNat_getD_eq_digit row)]
  generalize fmtBits f = b at hb
  generalize b * i = p
  rw [pow_256, pow_256]
  have hcover : p % 8 + b ≤ 8 * ((p + b - 1) / 8 - p / 8 + 1) := by omega
  exact (fld_fld (ofBytes row) (8 * (p / 8)) _ hcover).trans (by rw [Nat.div_add_mod])

/-- The codes as one number: code `i` is its field of `b` bits at bit `b` × `i`. -/
theorem fld_foldr_codes (b : Nat) {codes : List Nat} {i : Nat} (h : i < codes.length) :
    fld (codes.foldr (fun c n => c % 2 ^ b + n * 2 ^ b) 0) (b * i) b = codes.getD i 0 % 2 ^ b := by
  induction codes generalizing i with
  | nil => cases h
  | cons c t ih =>
    have hc : c % 2 ^ b < 2 ^ b := Nat.mod_lt _ (Nat.two_pow_pos b)
    rw [List.foldr_cons]
    generalize t.foldr (fun c n => c % 2 ^ b + n * 2 ^ b) 0 = v at ih
    cases i with
    | zero => simp [fld]
    | succ i =>
      have hdiv : (c % 2 ^ b + v * 2 ^ b) / 2 ^ b = v := by
        rw [Nat.add_mul_div_right _ _ (Nat.two_pow_pos b), Nat.div_eq_of_lt hc, Nat.zero_add]
      rw [List.getD_cons_succ, ← ih (Nat.lt_of_succ_lt_succ h), fld, fld, Nat.mul_succ, Nat.add_comm (b * i) b,
        Nat.pow_add, ← Nat.div_div_eq_div_mul, hdiv]

theorem le_mul_cdiv (n : Nat) {k : Nat} (hk : 0 < k) : n ≤ k * cdiv n k := by
  have h := Nat.lt_mul_div_succ (n + k - 1) hk
  rw [Nat.mul_succ] at h
  unfold cdiv
  omega

/-- Packed codes are read back at their places. -/
theorem elemCode_packCodes (f : Nat) {codes : List Nat} {i : Nat} (h : i < codes.length) :
    elemCode f (fun o => (packCodes (fmtBits f) codes).getD o 0) i = codes.getD i 0 % 2 ^ fmtBits f := by
  have hin : fmtBits f * i + fmtBits f ≤ 8 * cdiv (fmtBits f * codes.length) 8 :=
    (Nat.mul_le_mul_left (fmtBits f) h).trans (le_mul_cdiv _ (by decide))
  rw [elemCode_eq_fld, packCodes, ofBytes_toBytes, pow_256, ← fld_foldr_codes (fmtBits f) h]
  simpa [fld] using fld_fld (codes.foldr (fun c n => c % 2 ^ fmtBits f + n * 2 ^ fmtBits f) 0) 0 _ hin

/-- Settles O44: an element's bytes cover its field of the row's number, and packing writes the code into that field. -/
theorem rowElementsArePackedWithoutGaps : Obligations.RowElementsArePackedWithoutGaps := by
  refine ⟨fun f i row _ => elemCode_eq_fld f row i, fun f row h4 _ => ?_, fun f n h6 => ?_,
    fun f codes i hi => elemCode_packCodes f hi⟩
  · rw [elemCode_eq_fld, h4, toNat_getD_eq_digit, fld]
    omega
  · cases hblock : fmtBlock f with
    | true => exact .inr rfl
    | false =>
      left
      simp only [rowLen, hblock, h6, cdiv, Bool.false_eq_true, if_false]
      omega

/-! ### Rounding (R84) -/

/-- The rule of a rounding mode: `q` is the quotient toward zero and `rem` the remainder of a division by `n`. -/
def roundsUp (mode : Nat) (neg : Bool) (r q rem n : Nat) : Bool :=
  match mode with
  | 0 => decide (n < 2 * rem) || (decide (n = 2 * rem) && q % 2 == 1)
  | 1 => false
  | 2 => !neg && rem != 0
  | 3 => neg && rem != 0
  | _ => decide (r < rem * 65536 / n)

theorem roundAt_of_le {e l : Int} (h : l ≤ e) (mode : Nat) (neg : Bool) (r m : Nat) :
    roundAt mode neg r m e l = m * 2 ^ (e - l).toNat := if_pos h

theorem roundAt_self (mode : Nat) (neg : Bool) (r m : Nat) (e : Int) : roundAt mode neg r m e e = m := by
  rw [roundAt_of_le le_rfl]; simp

theorem roundAt_of_lt {e l : Int} (h : e < l) (mode : Nat) (neg : Bool) (r m : Nat) {n : Nat} (hn : n = 2 ^ (l - e).toNat) :
    roundAt mode neg r m e l = if roundsUp mode neg r (m / n) (m % n) n then m / n + 1 else m / n := by
  subst hn
  unfold roundAt
  rw [if_neg (by omega)]
  rfl

section RoundsUp

variable (neg : Bool) (r q rem n : Nat)

theorem roundsUp_nearest : roundsUp 0 neg r q rem n = true ↔ n < 2 * rem ∨ n = 2 * rem ∧ q % 2 = 1 := by
  simp [roundsUp]

theorem roundsUp_towardZero : ¬roundsUp 1 neg r q rem n = true := Bool.false_ne_true

theorem roundsUp_towardPlus : roundsUp 2 neg r q rem n = true ↔ neg = false ∧ rem ≠ 0 := by
  simp [roundsUp]

theorem roundsUp_towardMinus : roundsUp 3 neg r q rem n = true ↔ neg = true ∧ rem ≠ 0 := by
  simp [roundsUp]

/-- Every mode from 4 on is the stochastic one. -/
theorem roundsUp_stochastic (mode : Nat) : roundsUp (mode + 4) neg r q rem n = true ↔ r < rem * 65536 / n :=
  decide_eq_true_iff

/-- What is exact is not rounded away from zero. -/
theorem roundsUp_exact (mode : Nat) (hn : 0 < n) : ¬roundsUp mode neg r q 0 n = true := by
  match mode with
  | 0 => rw [roundsUp_nearest]; omega
  | 1 => exact roundsUp_towardZero neg r q 0 n
  | 2 => simp [roundsUp_towardPlus]
  | 3 => simp [roundsUp_towardMinus]
  | mode + 4 => simp [roundsUp_stochastic]

end RoundsUp

/-- All that rounding to a coarser unit can do: it answers the quotient plus 1, the neighbour away from zero, or the quotient,
the one toward zero. -/
theorem roundAt_cases {e l : Int} (h : e < l) (mode : Nat) (neg : Bool) (r m : Nat) {n : Nat} (hn : n = 2 ^ (l - e).toNat) :
    (roundsUp mode neg r (m / n) (m % n) n = true ∧ m % n ≠ 0 ∧ roundAt mode neg r m e l = m / n + 1 ∧
      roundAt mode neg r m e l * n + m % n = m + n) ∨
    (¬roundsUp mode neg r (m / n) (m % n) n = true ∧ roundAt mode neg r m e l = m / n ∧
      roundAt mode neg r m e l * n + m % n = m) := by
  have hpos : 0 < n := hn ▸ Nat.two_pow_pos _
  have hdiv := Nat.div_add_mod' m n
  rw [roundAt_of_lt h mode neg r m hn]
  split
  · next hup =>
    refine .inl ⟨hup, fun h0 => ?_, rfl, by rw [Nat.succ_mul]; omega⟩
    rw [h0] at hup
    exact roundsUp_exact neg r _ n mode hpos hup
  · next hup => exact .inr ⟨hup, rfl, hdiv⟩

/-- Settles O53: the two neighbours lie on the two sides of an inexact value, and each mode's rule chooses between them. -/
theorem roundingPicksANeighbour : Obligations.RoundingPicksANeighbour := by
  rintro mode r m neg e l q n rfl
  refine ⟨fun h => roundAt_of_le h mode neg r m, fun h hn => ?_⟩
  have hrem : m % n < n := Nat.mod_lt m (hn ▸ Nat.two_pow_pos _)
  have hcases := roundAt_cases h mode neg r m hn
  generalize roundAt mode neg r m e l = q at hcases
  refine ⟨by omega, by omega, by omega, ?nearest, ?towardZero, ?towardPlus, ?towardMinus, ?stochastic⟩
  case nearest =>
    rintro rfl
    rw [roundsUp_nearest] at hcases
    omega
  case towardZero =>
    rintro rfl
    obtain ⟨hup, -⟩ | ⟨-, -, hmul⟩ := hcases
    · exact absurd hup (roundsUp_towardZero neg r (m / n) (m % n) n)
    · omega
  case towardPlus =>
    rintro rfl
    rw [roundsUp_towardPlus] at hcases
    cases neg <;>
      simp only [reduceCtorEq, Bool.false_eq_true, not_false_eq_true, true_and, false_and, false_or, if_true, if_false] at hcases ⊢ <;>
      omega
  case towardMinus =>
    rintro rfl
    rw [roundsUp_towardMinus] at hcases
    cases neg <;>
      simp only [Bool.false_eq_true, not_false_eq_true, true_and, false_and, false_or, if_true, if_false] at hcases ⊢ <;>
      omega
  case stochastic =>
    rintro rfl hinexact
    rw [roundsUp_stochastic neg r (m / n) (m % n) n 0] at hcases
    omega

/-! ### Codes of the integer formats (R66, R89) -/

theorem roundInt_natAbs {z lo hi : Int} (hlo : lo ≤ z) (hhi : z ≤ hi) (mode r : Nat) :
    roundInt mode (decide (z < 0)) r z.natAbs 0 lo hi = z := by
  have hz : (if decide (z < 0) then -(z.natAbs : Int) else z.natAbs) = z := by
    simp only [decide_eq_true_eq]; split <;> omega
  unfold roundInt
  rw [roundAt_self]
  dsimp only
  rw [hz, min_eq_right hhi, max_eq_right hlo]

theorem sext_mem_range {w : Nat} (hw : 0 < w) (n : Nat) : intMin w ≤ sext w n ∧ sext w n ≤ intMax w := by
  obtain ⟨v, rfl⟩ := Nat.exists_eq_add_one.2 hw
  have hlt : n % 2 ^ (v + 1) < 2 ^ (v + 1) := Nat.mod_lt _ (Nat.two_pow_pos _)
  unfold intMin intMax sext
  rw [Nat.pow_succ] at hlt ⊢
  rw [Nat.add_sub_cancel]
  split <;> omega

theorem ofInt_sext (w n : Nat) : ofInt w (sext w n) = n % 2 ^ w := by
  have hlt : n % 2 ^ w < 2 ^ w := Nat.mod_lt _ (Nat.two_pow_pos w)
  unfold ofInt sext
  generalize 2 ^ w = p at hlt
  generalize n % p = x at hlt
  split
  · rw [Int.emod_eq_of_lt (by omega) (by omega), Int.toNat_natCast]
  · rw [Int.sub_emod_right, Int.emod_eq_of_lt (by omega) (by omega), Int.toNat_natCast]

theorem decodeElem_int {f : Nat} (hf : fmtInt f = true) (code : Nat) : decodeElem f code =
    .fin (decide (sext (fmtBits f) code < 0)) (sext (fmtBits f) code).natAbs 0 := if_pos hf

theorem encodeElem_int_fin {f : Nat} (hf : fmtInt f = true) (mode r : Nat) (neg : Bool) (m : Nat) (e : Int) :
    encodeElem f mode r (.fin neg m e) =
      ofInt (fmtBits f) (roundInt mode neg r m e (intMin (fmtBits f)) (intMax (fmtBits f))) := if_pos hf

theorem encodeElem_decodeElem_int {f code : Nat} (hf : fmtInt f = true) (hc : code < 2 ^ fmtBits f) (mode r : Nat) :
    encodeElem f mode r (decodeElem f code) = code := by
  obtain ⟨hlo, hhi⟩ := sext_mem_range (fmtBits_pos f) code
  rw [decodeElem_int hf, encodeElem_int_fin hf, roundInt_natAbs hlo hhi, ofInt_sext, Nat.mod_eq_of_lt hc]

/-! ### Codes of the float formats (R65, R85, R90) -/

section Floats

variable {f eb mb bias : Nat}

theorem encodeElem_nan (hf : fmtInt f = false) (mode r : Nat) : encodeElem f mode r .nan = nanCode f := by
  simp [encodeElem, hf]

/-- A number of the format is written as its code under every mode. -/
theorem finCode_of_exact {c m : Nat} {e : Int} (hc : ∀ mode neg r, roundCode f mode neg r m e = c) (hmax : c ≤ maxCode f)
    (mode : Nat) (neg : Bool) (r : Nat) : finCode f mode neg r m e = c := by
  have hin : beyondRange f m e = false := by
    rw [beyondRange, hc]
    exact decide_eq_false (Nat.not_lt.2 hmax)
  rw [finCode, hin, hc]
  rfl

variable (hp : floatParams f = (eb, mb, bias))
include hp

theorem encodeElem_inf (hf : fmtInt f = false) (hinf : fmtInf f = true) (mode r : Nat) (neg : Bool) :
    encodeElem f mode r (.inf neg) = b2n neg * 2 ^ (eb + mb) + infCode f := by
  simp [encodeElem, hf, hp, hinf]

theorem encodeElem_fin (hf : fmtInt f = false) (mode r : Nat) (neg : Bool) (m : Nat) (e : Int) :
    encodeElem f mode r (.fin neg m e) = b2n neg * 2 ^ (eb + mb) + finCode f mode neg r m e := by
  simp [encodeElem, hf, hp]

/-- Below the smallest normal number the code is the significand. -/
theorem roundCode_subnormal {m : Nat} (hm : m < 2 ^ mb) (mode : Nat) (neg : Bool) (r : Nat) :
    roundCode f mode neg r m (1 - bias - mb) = m := by
  unfold roundCode
  rw [hp]
  dsimp only
  split
  · next h0 => exact h0.symm
  · next h0 =>
    have hlog : Nat.log2 m < mb := (Nat.log2_lt h0).2 hm
    have hl : max (1 - bias - mb : Int) (log2Of m (1 - bias - mb) - mb) = 1 - bias - mb := by
      unfold log2Of; omega
    rw [hl, roundAt_self]
    simp

/-- The leading bit of a normal number's significand adds 1 to its exponent field. -/
theorem roundCode_normal {m e : Nat} (hm : m < 2 ^ mb) (he : e ≠ 0) (mode : Nat) (neg : Bool) (r : Nat) :
    roundCode f mode neg r (2 ^ mb + m) (e - bias - mb) = e * 2 ^ mb + m := by
  have hpos := Nat.two_pow_pos mb
  have hlog : Nat.log2 (2 ^ mb + m) = mb :=
    (Nat.log2_eq_iff (by omega)).2 ⟨by omega, by rw [Nat.pow_succ]; omega⟩
  have hl : max (1 - bias - mb : Int) (log2Of (2 ^ mb + m) (e - bias - mb) - mb) = e - bias - mb := by
    unfold log2Of; omega
  obtain ⟨d, rfl⟩ := Nat.exists_eq_succ_of_ne_zero he
  have hd : ((d.succ : Nat) - bias - mb - (1 - bias - mb) : Int).toNat = d := by omega
  unfold roundCode
  rw [hp]
  dsimp only
  rw [if_neg (by omega), hl, roundAt_self, hd, Nat.succ_mul, Nat.add_assoc]

theorem infCode_eq (hinf : fmtInf f = true) (heb : 0 < eb) : infCode f = (2 ^ eb - 1) * 2 ^ mb := by
  have hpos : 0 < (2 ^ eb - 1) * 2 ^ mb :=
    Nat.mul_pos (by have := Nat.pow_lt_pow_right (a := 2) (by decide) heb; omega) (Nat.two_pow_pos mb)
  unfold infCode maxCode
  rw [hp]
  dsimp only
  rw [if_pos hinf]
  omega

/-- The code of a finite magnitude is at most the largest one. -/
theorem le_maxCode {e m : Nat} (he : e < 2 ^ eb) (hm : m < 2 ^ mb) (hspecial : ¬(fmtInf f = true ∧ e = 2 ^ eb - 1))
    (hnan : ¬(f = 3 ∧ e = 15 ∧ m = 7)) : e * 2 ^ mb + m ≤ maxCode f := by
  have hstep {u : Nat} (hu : e < u) : e * 2 ^ mb + m < u * 2 ^ mb := by
    calc e * 2 ^ mb + m < (e + 1) * 2 ^ mb := by rw [Nat.succ_mul]; omega
      _ ≤ u * 2 ^ mb := Nat.mul_le_mul_right _ hu
  unfold maxCode
  rw [hp]
  dsimp only
  split
  · next hinf => exact Nat.le_sub_one_of_lt (hstep
      (Nat.lt_of_le_of_ne (Nat.le_sub_one_of_lt he) fun h => hspecial ⟨hinf, h⟩))
  · split
    · next hf =>
      subst hf
      cases hp
      omega
    · rw [Nat.pow_add]
      exact Nat.le_sub_one_of_lt (hstep he)

/-- What a float code decodes to: a NaN, an infinity, or a finite number whose magnitude code is the code's own. -/
theorem decodeElem_float_cases (hf : fmtInt f = false) (code : Nat) :
    decodeElem f code = .nan ∨
    (decodeElem f code = .inf (bit code (eb + mb)) ∧ fmtInf f = true ∧ code / 2 ^ mb % 2 ^ eb = 2 ^ eb - 1 ∧
      code % 2 ^ mb = 0) ∨
    ∃ m e, decodeElem f code = .fin (bit code (eb + mb)) m e ∧
      code / 2 ^ mb % 2 ^ eb * 2 ^ mb + code % 2 ^ mb ≤ maxCode f ∧
      ∀ mode neg r, roundCode f mode neg r m e = code / 2 ^ mb % 2 ^ eb * 2 ^ mb + code % 2 ^ mb := by
  have he : code / 2 ^ mb % 2 ^ eb < 2 ^ eb := Nat.mod_lt _ (Nat.two_pow_pos eb)
  have hm : code % 2 ^ mb < 2 ^ mb := Nat.mod_lt _ (Nat.two_pow_pos mb)
  have hmax := le_maxCode hp he hm
  unfold decodeElem
  rw [hf, hp]
  simp only [Bool.false_eq_true, if_false]
  generalize code / 2 ^ mb % 2 ^ eb = e at *
  generalize code % 2 ^ mb = m at *
  split
  · next hspecial =>
    split
    · next h0 => exact .inr (.inl ⟨rfl, hspecial.1, hspecial.2, h0⟩)
    · exact .inl rfl
  · next hspecial =>
    split
    · exact .inl rfl
    · next hnan =>
      have hle := hmax hspecial hnan
      split
      · next h0 =>
        subst h0
        rw [Nat.zero_mul, Nat.zero_add] at hle ⊢
        exact .inr (.inr ⟨_, _, rfl, hle, roundCode_subnormal hp hm⟩)
      · next h0 => exact .inr (.inr ⟨_, _, rfl, hle, roundCode_normal hp hm h0⟩)

end Floats

/-- A code is its sign, its exponent field and its mantissa field. -/
theorem eq_sign_exponent_mantissa {eb mb code : Nat} (h : code < 2 ^ (eb + mb + 1)) :
    b2n (bit code (eb + mb)) * 2 ^ (eb + mb) + (code / 2 ^ mb % 2 ^ eb * 2 ^ mb + code % 2 ^ mb) = code := by
  have hsign : b2n (bit code (eb + mb)) = code / 2 ^ (eb + mb) := by
    have hlt : code / 2 ^ (eb + mb) < 2 := Nat.div_lt_of_lt_mul (by rwa [Nat.pow_succ] at h)
    unfold b2n bit
    interval_cases code / 2 ^ (eb + mb) <;> rfl
  have hlow : code % 2 ^ (eb + mb) = code / 2 ^ mb % 2 ^ eb * 2 ^ mb + code % 2 ^ mb := by
    rw [Nat.add_comm eb mb, Nat.pow_add, Nat.mod_mul, Nat.add_comm, Nat.mul_comm]
  rw [hsign, ← hlow]
  exact Nat.div_add_mod' code _

/-- The widths of a float format: sign, exponent and mantissa fill the code (R64, R65). -/
theorem fmtBits_float {f eb mb bias : Nat} (hlt : f < 11) (hf : fmtInt f = false) (hp : floatParams f = (eb, mb, bias)) :
    fmtBits f = eb + mb + 1 ∧ 0 < eb := by
  have h8 : f < 8 := by
    by_contra h
    interval_cases f <;> cases hf
  interval_cases f <;> cases hp <;> exact ⟨rfl, by decide⟩

theorem encodeElem_decodeElem_float {f code : Nat} (hlt : f < 11) (hf : fmtInt f = false) (hc : code < 2 ^ fmtBits f)
    (mode r : Nat) : encodeElem f mode r (decodeElem f code) = if decodeElem f code = .nan then nanCode f else code := by
  obtain ⟨eb, mb, bias, hp⟩ : ∃ eb mb bias, floatParams f = (eb, mb, bias) := ⟨_, _, _, rfl⟩
  obtain ⟨hbits, heb⟩ := fmtBits_float hlt hf hp
  rw [hbits] at hc
  have hcode := eq_sign_exponent_mantissa hc
  rcases decodeElem_float_cases hp hf code with hnan | ⟨hinf, hfmt, he, hm⟩ | ⟨m, e, hfin, hmax, hround⟩
  · rw [hnan, encodeElem_nan hf, if_pos rfl]
  · rw [he, hm] at hcode
    rw [hinf, encodeElem_inf hp hf hfmt, infCode_eq hp hfmt heb, if_neg (by simp)]
    exact hcode
  · rw [hfin, encodeElem_fin hp hf, finCode_of_exact hround hmax, if_neg (by simp)]
    exact hcode

/-- Settles O52: a finite value is written exactly, so no mode rounds it. -/
theorem elementCodesRoundTrip : Obligations.ElementCodesRoundTrip := by
  intro f code mode r hlt hc _
  cases hf : fmtInt f with
  | true => rw [encodeElem_decodeElem_int hf hc, if_neg (by rw [decodeElem_int hf]; simp)]
  | false => exact encodeElem_decodeElem_float hlt hf hc mode r

end Sys2Proof.Machine
end

section
/-! SUPPORT. The lists of the sorter (R163 to R166): a step of a pass is a bad choice, a placement, an overflow or a drop, and each
of these keeps the invariant `ListsAgree` and the count of the choices (O56). -/

namespace Sys2Proof.Machine

/-! ### Rooms and slot entries (R164, R165) -/

theorem roomOf_le_sortQ (s : SortDesc) : roomOf s ≤ sortQ s := by
  unfold roomOf
  split
  · exact le_rfl
  · exact min_le_right ..

/-- A slot entry names its token: a token number has 24 bits. -/
theorem slotEntry_token {t : Nat} (r gate : Nat) (second held : Bool) (ht : t < 2 ^ 24) :
    fld (slotEntry t r gate second held) 0 24 = t := by
  simp only [slotEntry, pack, fld]
  omega

/-- A slot entry names its choice: a choice number has 3 bits. -/
theorem slotEntry_choice {r : Nat} (t gate : Nat) (second held : Bool) (hr : r < 8) :
    fld (slotEntry t r gate second held) 24 3 = r := by
  simp only [slotEntry, pack, fld]
  omega

/-- A row and a column are known from the index `row * width + column`, which slots and token entries are kept under. -/
theorem mul_add_eq_iff {q a b i j : Nat} (hi : i < q) (hj : j < q) : a * q + i = b * q + j ↔ a = b ∧ i = j := by
  refine ⟨fun h => ?_, fun ⟨ha, hij⟩ => by rw [ha, hij]⟩
  have hab : a = b := by rw [← mul_add_div_self (a := a) hi, h, mul_add_div_self hj]
  subst hab
  exact ⟨rfl, by omega⟩

/-! ### What a step of a pass can do (R165, R166) -/

theorem passOne_cases (s : SortDesc) (route : List Nat) (a : Placing) (x : Nat × Nat) :
    passOne s route a x = { a with bad := a.bad + 1 } ∨
    (∃ e gate, smGet a.counts 0 e < roomOf s ∧ passOne s route a x = place s x.1 x.2 e gate false a) ∨
    passOne s route a x = { a with late := a.late ++ [x] } := by
  simp only [passOne]
  split
  · exact .inl rfl
  split
  · next hroom => exact .inr (.inl ⟨_, _, hroom, rfl⟩)
  · exact .inr (.inr rfl)

theorem passTwo_cases (s : SortDesc) (route : List Nat) (a : Placing) (x : Nat × Nat) :
    (∃ e gate, smGet a.counts 0 e < roomOf s ∧ passTwo s route a x = place s x.1 x.2 e gate true a) ∨
    passTwo s route a x = { a with dropped := a.dropped + 1 } := by
  simp only [passTwo]
  split
  · next q hq =>
    split at hq
    · have hcan := List.find?_some hq
      simp only [Bool.and_eq_true, decide_eq_true_eq] at hcan
      exact .inl ⟨_, _, hcan.2, rfl⟩
    · cases hq
  · exact .inr rfl

/-! ### The choices dealt with -/

/-- The choices of which it is settled what becomes of them. -/
def Placing.settled (a : Placing) : Nat := a.placed + a.dropped + a.bad

@[simp] theorem settled_place (s : SortDesc) (t r e gate : Nat) (second : Bool) (a : Placing) :
    (place s t r e gate second a).settled = a.settled + 1 := by
  simp only [Placing.settled, place]
  omega

@[simp] theorem late_place (s : SortDesc) (t r e gate : Nat) (second : Bool) (a : Placing) :
    (place s t r e gate second a).late = a.late := rfl

/-- Pass 1 settles a choice or notes it as an overflow. -/
theorem settled_passOne (s : SortDesc) (route : List Nat) (a : Placing) (x : Nat × Nat) :
    (passOne s route a x).settled + (passOne s route a x).late.length = a.settled + a.late.length + 1 := by
  obtain h | ⟨e, gate, -, h⟩ | h := passOne_cases s route a x
  · rw [h]; simp only [Placing.settled]; omega
  · rw [h, settled_place, late_place]; omega
  · rw [h, List.length_append, List.length_singleton]; simp only [Placing.settled]; omega

/-- Pass 2 settles every overflow. -/
theorem settled_passTwo (s : SortDesc) (route : List Nat) (a : Placing) (x : Nat × Nat) :
    (passTwo s route a x).settled = a.settled + 1 := by
  obtain ⟨e, gate, -, h⟩ | h := passTwo_cases s route a x
  · rw [h, settled_place]
  · rw [h]; simp only [Placing.settled]; omega

/-- A measure that each step raises by one counts the steps. -/
theorem foldl_measure {α β : Type} (m : α → Nat) (f : α → β → α) (hf : ∀ a x, m (f a x) = m a + 1) (l : List β) (a : α) :
    m (l.foldl f a) = m a + l.length := by
  induction l generalizing a with
  | nil => rfl
  | cons x l ih => rw [List.foldl_cons, ih, hf, List.length_cons]; omega

/-! ### The invariant -/

/-- What both passes keep: an expert stays within its room and its slots are taken from the first on, a token entry names a
slot that names it, and every overflow is a choice of the SORT. -/
structure ListsAgree (s : SortDesc) (a : Placing) : Prop where
  count_le : ∀ e, smGet a.counts 0 e ≤ roomOf s
  slot_iff : ∀ e j, j < sortQ s → ((smGet a.slots none (e * sortQ s + j)).isSome ↔ j < smGet a.counts 0 e)
  token : ∀ t r n, t < s.t → r < s.topk → smGet a.toks none (t * s.topk + r) = some n →
    ∃ v, smGet a.slots none n = some v ∧ fld v 0 24 = t ∧ fld v 24 3 = r
  late_lt : ∀ x ∈ a.late, x.1 < s.t ∧ x.2 < s.topk

theorem listsAgree_init (s : SortDesc) : ListsAgree s Placing.init where
  count_le _ := Nat.zero_le _
  slot_iff e j _ := by simp [Placing.init]
  token t r n _ _ h := by simp [Placing.init] at h
  late_lt x h := by simp [Placing.init] at h

/-- The next slot of an expert with room is free. -/
theorem ListsAgree.slot_free {s : SortDesc} {a : Placing} (h : ListsAgree s a) {e : Nat} (hroom : smGet a.counts 0 e < roomOf s) :
    smGet a.slots none (e * sortQ s + smGet a.counts 0 e) = none := by
  have hiff := h.slot_iff e _ (hroom.trans_le (roomOf_le_sortQ s))
  rw [← Option.not_isSome_iff_eq_none, hiff]
  exact lt_irrefl _

/-- A placement in an expert with room keeps the lists in agreement: the slot it takes was free, so no other token entry
named it. -/
theorem ListsAgree.after_place {s : SortDesc} {a : Placing} (h : ListsAgree s a) {t r e : Nat} (gate : Nat) (second : Bool)
    (ht : t < 2 ^ 24) (hr : r < s.topk) (htopk : s.topk ≤ 8) (hroom : smGet a.counts 0 e < roomOf s) :
    ListsAgree s (place s t r e gate second a) where
  count_le e' := by
    simp only [place, smGet_smPut]
    split
    · exact hroom
    · exact h.count_le e'
  slot_iff e' j hj := by
    have hold := h.slot_iff e' j hj
    simp only [place, smGet_smPut, mul_add_eq_iff hj (hroom.trans_le (roomOf_le_sortQ s))]
    by_cases he : e' = e
    · subst he
      by_cases hnew : j = smGet a.counts 0 e'
      · simp [hnew]
      · simp only [hnew, and_false, if_false, if_true, hold]
        omega
    · simpa only [he, false_and, if_false] using hold
  token t' r' n ht' hr' hn := by
    simp only [place, smGet_smPut, mul_add_eq_iff hr' hr] at hn ⊢
    split at hn
    · next heq =>
      obtain ⟨rfl, rfl⟩ := heq
      obtain rfl := Option.some.inj hn
      exact ⟨_, if_pos rfl, slotEntry_token _ _ _ _ ht, slotEntry_choice _ _ _ _ (hr.trans_le htopk)⟩
    · obtain ⟨v, hv, hfields⟩ := h.token t' r' n ht' hr' hn
      have hne : n ≠ e * sortQ s + smGet a.counts 0 e := by
        rintro rfl
        rw [h.slot_free hroom] at hv
        cases hv
      exact ⟨v, (if_neg hne).trans hv, hfields⟩
  late_lt := h.late_lt

section Passes

variable {s : SortDesc} (route : List Nat) {a : Placing} (hs : s.t ≤ 2 ^ 24) (htopk : s.topk ≤ 8) (h : ListsAgree s a)
include hs htopk h

theorem ListsAgree.after_passOne {x : Nat × Nat} (hx : x.1 < s.t ∧ x.2 < s.topk) : ListsAgree s (passOne s route a x) := by
  obtain he | ⟨e, gate, hroom, he⟩ | he := passOne_cases s route a x
  · rw [he]
    exact ⟨h.count_le, h.slot_iff, h.token, h.late_lt⟩
  · rw [he]
    exact h.after_place gate false (hx.1.trans_le hs) hx.2 htopk hroom
  · rw [he]
    refine ⟨h.count_le, h.slot_iff, h.token, fun y hy => ?_⟩
    obtain hy | hy := List.mem_append.mp hy
    · exact h.late_lt y hy
    · rwa [List.mem_singleton.mp hy]

theorem ListsAgree.after_passTwo {x : Nat × Nat} (hx : x.1 < s.t ∧ x.2 < s.topk) : ListsAgree s (passTwo s route a x) := by
  obtain ⟨e, gate, hroom, he⟩ | he := passTwo_cases s route a x
  · rw [he]
    exact h.after_place gate true (hx.1.trans_le hs) hx.2 htopk hroom
  · rw [he]
    exact ⟨h.count_le, h.slot_iff, h.token, h.late_lt⟩

end Passes

/-! ### Both passes -/

/-- The choices of a SORT in the order in which pass 1 takes them (R165). -/
def choicesOf (s : SortDesc) : List (Nat × Nat) := (List.range s.t).flatMap fun t => (List.range s.topk).map fun r => (t, r)

/-- The lists after pass 1. -/
def placeFirst (s : SortDesc) (route : List Nat) : Placing := (choicesOf s).foldl (passOne s route) Placing.init

theorem placeAll_eq (s : SortDesc) (route : List Nat) :
    placeAll s route = (placeFirst s route).late.foldl (passTwo s route) (placeFirst s route) := rfl

theorem length_choicesOf (s : SortDesc) : (choicesOf s).length = s.t * s.topk := by
  simp [choicesOf, List.length_flatMap]

theorem lt_of_mem_choicesOf {s : SortDesc} {x : Nat × Nat} (hx : x ∈ choicesOf s) : x.1 < s.t ∧ x.2 < s.topk := by
  simp only [choicesOf, List.mem_flatMap, List.mem_map, List.mem_range] at hx
  obtain ⟨t, ht, r, hr, rfl⟩ := hx
  exact ⟨ht, hr⟩

theorem settled_placeAll (s : SortDesc) (route : List Nat) : (placeAll s route).settled = s.t * s.topk := by
  have hfirst : (placeFirst s route).settled + (placeFirst s route).late.length = 0 + (choicesOf s).length :=
    foldl_measure (fun a => a.settled + a.late.length) _ (settled_passOne s route) (choicesOf s) Placing.init
  rw [placeAll_eq, foldl_measure Placing.settled _ (settled_passTwo s route), hfirst, length_choicesOf, Nat.zero_add]

theorem listsAgree_placeAll {s : SortDesc} (route : List Nat) (hs : s.t ≤ 2 ^ 24) (htopk : s.topk ≤ 8) :
    ListsAgree s (placeAll s route) := by
  have hfirst : ListsAgree s (placeFirst s route) := List.foldlRecOn (choicesOf s) _ (listsAgree_init s)
    fun _ h _ hx => h.after_passOne route hs htopk (lt_of_mem_choicesOf hx)
  rw [placeAll_eq]
  exact List.foldlRecOn _ _ hfirst fun _ h x hx => h.after_passTwo route hs htopk (hfirst.late_lt x hx)

/-- Settles O56: the invariant of both passes, and the count of the choices they deal with. -/
theorem sorterListsAgree : Obligations.SorterListsAgree := by
  rintro s route a ht htopk - - - rfl
  have h := listsAgree_placeAll route ht htopk
  exact ⟨settled_placeAll s route, h.count_le, fun e j _ hj => h.slot_iff e j hj, h.token⟩

end Sys2Proof.Machine
end

section
/-! SUPPORT. The words of the cores (O38): a word spells the fields of an instruction exactly when it decodes to it. -/

namespace Sys2Proof

open Machine

/-! ### A word cut at the positions of its fields -/

/-- From bit `hi` down, the number `n` holds each value of `l` between its position and the one before it, and 0 below the last. -/
def Spells (n : Nat) : Nat → List (Nat × Nat) → Prop
  | hi, [] => n % 2 ^ hi = 0
  | hi, (p, v) :: t => n / 2 ^ p % 2 ^ (hi - p) = v ∧ Spells n p t

/-- The positions of `l` go down from `hi`, and each value fits below the position before its own. -/
def Fits : Nat → List (Nat × Nat) → Prop
  | _, [] => True
  | hi, (p, v) :: t => p ≤ hi ∧ v < 2 ^ (hi - p) ∧ Fits p t

theorem sumFields_lt {hi : Nat} {l : List (Nat × Nat)} (h : Fits hi l) : sumFields l < 2 ^ hi := by
  induction l generalizing hi with
  | nil => exact Nat.two_pow_pos hi
  | cons e t ih =>
    obtain ⟨p, v⟩ := e
    obtain ⟨hp, hv, ht⟩ := h
    calc v * 2 ^ p + sumFields t < v * 2 ^ p + 2 ^ p := Nat.add_lt_add_left (ih ht) _
      _ = (v + 1) * 2 ^ p := by ring
      _ ≤ 2 ^ (hi - p) * 2 ^ p := Nat.mul_le_mul_right _ hv
      _ = 2 ^ hi := by rw [← Nat.pow_add, Nat.sub_add_cancel hp]

/-- The low bits of a number up to `hi`, cut at `p`. -/
theorem mod_two_pow_cut (n : Nat) {p hi : Nat} (h : p ≤ hi) : n % 2 ^ hi = n / 2 ^ p % 2 ^ (hi - p) * 2 ^ p + n % 2 ^ p := by
  conv_lhs => rw [← Nat.add_sub_of_le h, Nat.pow_add, Nat.mod_mul]
  ring

/-- A number spells fields that fit exactly when it is their sum. -/
theorem spells_iff {n hi : Nat} {l : List (Nat × Nat)} (h : Fits hi l) : Spells n hi l ↔ n % 2 ^ hi = sumFields l := by
  induction l generalizing hi with
  | nil => rfl
  | cons e t ih =>
    obtain ⟨p, v⟩ := e
    obtain ⟨hp, -, ht⟩ := h
    rw [Spells, sumFields, ih ht, mod_two_pow_cut n hp, mul_add_eq_iff (Nat.mod_lt _ (Nat.two_pow_pos p)) (sumFields_lt ht)]

/-! ### Fields and operation codes -/

theorem toNat_wfld (n p w : Nat) : (wfld n p w).toNat = n / 2 ^ p % 2 ^ w := BitVec.toNat_ofNat ..

theorem wfld_eq_iff {n p w : Nat} {v : BitVec w} : wfld n p w = v ↔ n / 2 ^ p % 2 ^ w = v.toNat := by
  rw [← BitVec.toNat_inj, toNat_wfld]

/-- A table lists each operation at its code. -/
theorem getElem?_eq_some_iff_code {α : Type} {l : List α} {code : α → Nat} (hcode : l.map code = List.range l.length)
    (hall : ∀ x, l[code x]? = some x) {k : Nat} {x : α} : l[k]? = some x ↔ k = code x := by
  refine ⟨fun h => ?_, fun h => h ▸ hall x⟩
  have hk : (List.range l.length)[k]? = some (code x) := by rw [← hcode, List.getElem?_map, h]; rfl
  exact (List.getElem?_eq_some_iff.1 hk).2 ▸ (by simp)

theorem aluOps_eq_some {k : Nat} {op : AluOp} : aluOps[k]? = some op ↔ k = op.code :=
  getElem?_eq_some_iff_code (by decide) (by intro x; cases x <;> rfl)
theorem conds_eq_some {k : Nat} {c : Cond} : conds[k]? = some c ↔ k = c.code :=
  getElem?_eq_some_iff_code (by decide) (by intro x; cases x <;> rfl)
theorem vOps_eq_some {k : Nat} {op : VOp} : vOps[k]? = some op ↔ k = op.code :=
  getElem?_eq_some_iff_code (by decide) (by intro x; cases x <;> rfl)
theorem vTypes_eq_some {k : Nat} {ty : VType} : vTypes[k]? = some ty ↔ k = ty.code :=
  getElem?_eq_some_iff_code (by decide) (by intro x; cases x <;> rfl)
theorem vWidths_eq_some {k : Nat} {wd : VWidth} : vWidths[k]? = some wd ↔ k = wd.code :=
  getElem?_eq_some_iff_code (by decide) (by intro x; cases x <;> rfl)
theorem fmts_eq_some {k : Nat} {f : Fmt} : fmts[k]? = some f ↔ k = f.code :=
  getElem?_eq_some_iff_code (by decide) (by intro x; cases x <;> rfl)
theorem rounds_eq_some {k : Nat} {r : Round} : rounds[k]? = some r ↔ k = r.code :=
  getElem?_eq_some_iff_code (by decide) (by intro x; cases x <;> rfl)

theorem AluOp.code_lt (op : AluOp) : op.code < 2 ^ 6 := by cases op <;> decide
theorem Cond.code_lt (c : Cond) : c.code < 2 ^ 3 := by cases c <;> decide
theorem LoadOp.code_lt (op : LoadOp) : op.code < 2 ^ 3 := by cases op <;> decide
theorem StoreOp.code_lt (op : StoreOp) : op.code < 2 ^ 3 := by cases op <;> decide
theorem VOp.code_lt (op : VOp) : op.code < 2 ^ 6 := by cases op <;> decide
theorem VType.code_lt (ty : VType) : ty.code < 2 ^ 3 := by cases ty <;> decide
theorem VWidth.code_lt (wd : VWidth) : wd.code < 2 ^ 2 := by cases wd <;> decide
theorem Fmt.code_lt (f : Fmt) : f.code < 2 ^ 4 := by cases f <;> decide
theorem Round.code_lt (r : Round) : r.code < 2 ^ 3 := by cases r <;> decide
theorem bit_lt (b : Bool) : (if b then 1 else 0) < 2 := by cases b <;> decide

theorem fits_fields (i : CoreInstr) : Fits 32 i.fields := by
  cases i
  all_goals simp only [CoreInstr.fields, Fits, Nat.reduceLeDiff, Nat.reduceSub, true_and, and_true]
  case alu op _ _ _ | imm op _ _ _ => have := op.code_lt; omega
  case branch c _ _ _ => have := c.code_lt; omega
  case load op _ _ _ | store op _ _ _ => have := op.code_lt; omega
  case valu op ty _ _ _ _ _ => have := op.code_lt; have := ty.code_lt; omega
  case vld wd _ | vst wd _ | vgather wd | vscatter wd | vbcast wd | fld wd | fst wd | fgather wd | fscatter wd =>
    have := wd.code_lt; omega
  case vcvt dst src rnd _ _ _ u => have := dst.code_lt; have := src.code_lt; have := rnd.code_lt; have := bit_lt u; omega
  case block f dec _ _ _ rnd u => have := f.code_lt; have := rnd.code_lt; have := bit_lt dec; have := bit_lt u; omega
  all_goals omega

theorem bits_eq_toNat_wfld {n p w : Nat} : n / 2 ^ p % 2 ^ w = (wfld n p w).toNat := (toNat_wfld n p w).symm

/-- Where bits 13 to 10 must be 0, they and the width below them read as the width. -/
theorem widthGap_iff {n : Nat} {wd : VWidth} : n / 256 % 64 = wd.code ↔ n / 256 % 4 = wd.code ∧ wfld n 10 4 = 0 := by
  have hgap : wfld n 10 4 = 0 ↔ n / 1024 % 16 = 0 := wfld_eq_iff
  have hlt := wd.code_lt
  rw [hgap]
  omega

theorem wfld_low_eq_zero_iff {n : Nat} : wfld n 0 8 = 0 ↔ n % 256 = 0 := by
  simp [wfld_eq_iff]

theorem bit_eq_ite_iff {m : Nat} {b : Bool} : m % 2 = (if b then 1 else 0) ↔ (m % 2 == 1) = b := by
  cases b <;> simp

/-! ### What decodes spells its fields -/

section Decoded

variable {n : Nat} {i : CoreInstr}

theorem spells_of_decodeMem (hc : n / 2 ^ 28 % 16 = 5) (h : decodeMem n = some i) : Spells n 32 i.fields := by
  have hfields {op : Nat} (hop : n / 2 ^ 25 % 8 = op) : Spells n 32
      [(28, 5), (25, op), (20, (wfld n 20 5).toNat), (15, (wfld n 15 5).toNat), (0, (wfld n 0 15).toNat)] :=
    ⟨hc, hop, bits_eq_toNat_wfld, bits_eq_toNat_wfld, bits_eq_toNat_wfld, Nat.mod_one n⟩
  unfold decodeMem at h
  dsimp only at h
  split at h
  case h_8 h0 h1 h2 h3 h4 h5 h6 =>
    cases h
    simp only [imp_false] at h0 h1 h2 h3 h4 h5 h6
    exact hfields (op := 7) (by omega)
  all_goals cases h; exact hfields ‹_›

theorem spells_of_decodeVMem (hc : n / 2 ^ 28 % 16 = 7) (h : decodeVMem n = some i) : Spells n 32 i.fields := by
  unfold decodeVMem at h
  dsimp only at h
  split at h
  case h_1 wd hwd hop | h_2 wd hwd hop =>
    rw [vWidths_eq_some] at hwd
    obtain ⟨hvidx, hi⟩ := Option.ite_none_right_eq_some.1 h
    cases hi
    exact ⟨hc, hop, bits_eq_toNat_wfld, bits_eq_toNat_wfld, bits_eq_toNat_wfld, widthGap_iff.2 ⟨hwd, hvidx⟩, bits_eq_toNat_wfld,
      Nat.mod_one n⟩
  case h_3 wd hwd hop | h_4 wd hwd hop =>
    rw [vWidths_eq_some] at hwd
    obtain ⟨hoff, hi⟩ := Option.ite_none_right_eq_some.1 h
    cases hi
    exact ⟨hc, hop, bits_eq_toNat_wfld, bits_eq_toNat_wfld, bits_eq_toNat_wfld, bits_eq_toNat_wfld, hwd,
      wfld_low_eq_zero_iff.1 hoff⟩
  case h_5 wd hwd hop =>
    rw [vWidths_eq_some] at hwd
    obtain ⟨⟨hvidx, hoff⟩, hi⟩ := Option.ite_none_right_eq_some.1 h
    cases hi
    exact ⟨hc, hop, bits_eq_toNat_wfld, bits_eq_toNat_wfld, bits_eq_toNat_wfld, widthGap_iff.2 ⟨hwd, hvidx⟩,
      wfld_low_eq_zero_iff.1 hoff⟩
  case h_6 => cases h

theorem spells_of_decodeFar (hc : n / 2 ^ 28 % 16 = 10) (h : decodeFar n = some i) : Spells n 32 i.fields := by
  unfold decodeFar at h
  dsimp only at h
  obtain ⟨hlow, h⟩ := Option.ite_none_left_eq_some.1 h
  have hlow := not_not.1 hlow
  split at h
  case h_5 => cases h
  all_goals
    next wd hwd hop =>
    rw [vWidths_eq_some] at hwd
    cases h
    exact ⟨hc, hop, bits_eq_toNat_wfld, bits_eq_toNat_wfld, bits_eq_toNat_wfld, bits_eq_toNat_wfld, hwd, hlow⟩

theorem spells_of_decodeSync (hc : n / 2 ^ 28 % 16 = 11) (h : decodeSync n = some i) : Spells n 32 i.fields := by
  unfold decodeSync at h
  dsimp only at h
  obtain ⟨hlow, h⟩ := Option.ite_none_left_eq_some.1 h
  have hlow := not_not.1 hlow
  split at h
  case h_9 => cases h
  all_goals
    next hop =>
    cases h
    exact ⟨hc, hop, bits_eq_toNat_wfld, bits_eq_toNat_wfld, hlow⟩

/-- No bit of a word that decodes is dropped. -/
theorem spells_of_decodeFields (h : decodeFields n = some i) : Spells n 32 i.fields := by
  unfold decodeFields at h
  split at h
  case h_1 hc =>
    obtain ⟨hlow, h⟩ := Option.ite_none_left_eq_some.1 h
    obtain ⟨op, hop, rfl⟩ := Option.map_eq_some_iff.1 h
    exact ⟨hc, aluOps_eq_some.1 hop, bits_eq_toNat_wfld, bits_eq_toNat_wfld, bits_eq_toNat_wfld, not_not.1 hlow⟩
  case h_2 hc =>
    obtain ⟨op, hop, rfl⟩ := Option.map_eq_some_iff.1 h
    exact ⟨hc, aluOps_eq_some.1 hop, bits_eq_toNat_wfld, bits_eq_toNat_wfld, bits_eq_toNat_wfld, Nat.mod_one n⟩
  case h_3 hc =>
    obtain ⟨hlow, hi⟩ := Option.ite_none_left_eq_some.1 h
    cases hi
    exact ⟨hc, bits_eq_toNat_wfld, bits_eq_toNat_wfld, not_not.1 hlow⟩
  case h_4 hc =>
    obtain ⟨c, hcond, rfl⟩ := Option.map_eq_some_iff.1 h
    exact ⟨hc, conds_eq_some.1 hcond, bits_eq_toNat_wfld, bits_eq_toNat_wfld, bits_eq_toNat_wfld, Nat.mod_one n⟩
  case h_5 hc =>
    cases h
    exact ⟨hc, bits_eq_toNat_wfld, bits_eq_toNat_wfld, bits_eq_toNat_wfld, Nat.mod_one n⟩
  case h_6 hc => exact spells_of_decodeMem hc h
  case h_7 hc =>
    split at h
    · next op ty hop hty =>
      obtain ⟨hlow, hi⟩ := Option.ite_none_left_eq_some.1 h
      cases hi
      exact ⟨hc, vOps_eq_some.1 hop, vTypes_eq_some.1 hty, bits_eq_toNat_wfld, bits_eq_toNat_wfld, bits_eq_toNat_wfld,
        bits_eq_toNat_wfld, bits_eq_toNat_wfld, not_not.1 hlow⟩
    · cases h
  case h_8 hc => exact spells_of_decodeVMem hc h
  case h_9 hc =>
    split at h
    · next dst src rnd hdst hsrc hrnd =>
      obtain ⟨hlow, hi⟩ := Option.ite_none_left_eq_some.1 h
      cases hi
      exact ⟨hc, fmts_eq_some.1 hdst, fmts_eq_some.1 hsrc, rounds_eq_some.1 hrnd, bits_eq_toNat_wfld, bits_eq_toNat_wfld,
        bits_eq_toNat_wfld, bit_eq_ite_iff.2 rfl, not_not.1 hlow⟩
    · cases h
  case h_10 hc =>
    split at h
    · next f rnd hf hrnd =>
      obtain ⟨hlow, hi⟩ := Option.ite_none_left_eq_some.1 h
      cases hi
      exact ⟨hc, fmts_eq_some.1 hf, bit_eq_ite_iff.2 rfl, bits_eq_toNat_wfld, bits_eq_toNat_wfld, bits_eq_toNat_wfld,
        rounds_eq_some.1 hrnd, bit_eq_ite_iff.2 rfl, not_not.1 hlow⟩
    · cases h
  case h_11 hc => exact spells_of_decodeFar hc h
  case h_12 hc => exact spells_of_decodeSync hc h
  case h_13 hc =>
    obtain ⟨hlow, h⟩ := Option.ite_none_left_eq_some.1 h
    split at h
    case h_3 => cases h
    all_goals
      next hop =>
      cases h
      exact ⟨hc, hop, bits_eq_toNat_wfld, bits_eq_toNat_wfld, not_not.1 hlow⟩
  case h_14 => cases h

end Decoded

/-! ### What a word spells, it decodes to -/

theorem decodeFields_of_spells {n : Nat} {i : CoreInstr} (h : Spells n 32 i.fields) : decodeFields n = some i := by
  cases i
  all_goals
    simp only [CoreInstr.fields, Spells, ← wfld_eq_iff, Nat.reduceSub] at h
    simp only [Nat.reducePow, pow_one] at h
  case alu | imm =>
    obtain ⟨hc, hop, rfl, rfl, rfl, hlow⟩ := h
    simp [decodeFields, hc, aluOps_eq_some.2 hop, hlow]
  case upper =>
    obtain ⟨hc, rfl, rfl, hlow⟩ := h
    simp [decodeFields, hc, hlow]
  case branch =>
    obtain ⟨hc, hcond, rfl, rfl, rfl, -⟩ := h
    simp [decodeFields, hc, conds_eq_some.2 hcond]
  case jump =>
    obtain ⟨hc, rfl, rfl, rfl, -⟩ := h
    simp [decodeFields, hc]
  case load op _ _ _ | store op _ _ _ =>
    obtain ⟨hc, hop, rfl, rfl, rfl, -⟩ := h
    cases op <;> simp [decodeFields, decodeMem, hc, hop, LoadOp.code, StoreOp.code]
  case valu =>
    obtain ⟨hc, hop, hty, rfl, rfl, rfl, rfl, rfl, hlow⟩ := h
    simp [decodeFields, hc, vOps_eq_some.2 hop, vTypes_eq_some.2 hty, hlow]
  case vld | vst =>
    obtain ⟨hc, hop, rfl, rfl, rfl, hwd, rfl, -⟩ := h
    obtain ⟨hwd, hvidx⟩ := widthGap_iff.1 hwd
    simp [decodeFields, decodeVMem, hc, hop, vWidths_eq_some.2 hwd, hvidx]
  case vgather | vscatter =>
    obtain ⟨hc, hop, rfl, rfl, rfl, rfl, hwd, hlow⟩ := h
    simp [decodeFields, decodeVMem, hc, hop, vWidths_eq_some.2 hwd, wfld_low_eq_zero_iff.2 hlow]
  case vbcast =>
    obtain ⟨hc, hop, rfl, rfl, rfl, hwd, hlow⟩ := h
    obtain ⟨hwd, hvidx⟩ := widthGap_iff.1 hwd
    simp [decodeFields, decodeVMem, hc, hop, vWidths_eq_some.2 hwd, hvidx, wfld_low_eq_zero_iff.2 hlow]
  case vcvt =>
    obtain ⟨hc, hdst, hsrc, hrnd, rfl, rfl, rfl, hu, hlow⟩ := h
    simp [decodeFields, hc, fmts_eq_some.2 hdst, fmts_eq_some.2 hsrc, rounds_eq_some.2 hrnd, bit_eq_ite_iff.1 hu, hlow]
  case block =>
    obtain ⟨hc, hf, hdec, rfl, rfl, rfl, hrnd, hu, hlow⟩ := h
    simp [decodeFields, hc, fmts_eq_some.2 hf, bit_eq_ite_iff.1 hdec, rounds_eq_some.2 hrnd, bit_eq_ite_iff.1 hu, hlow]
  case fld | fst | fgather | fscatter =>
    obtain ⟨hc, hop, rfl, rfl, rfl, rfl, hwd, hlow⟩ := h
    simp [decodeFields, decodeFar, hc, hop, vWidths_eq_some.2 hwd, hlow]
  case csrr | csrw =>
    obtain ⟨hc, hop, rfl, rfl, hlow⟩ := h
    simp [decodeFields, hc, hop, hlow]
  all_goals
    obtain ⟨hc, hop, rfl, rfl, hlow⟩ := h
    simp [decodeFields, decodeSync, hc, hop, hlow]

/-- A word decodes to an instruction exactly when it is the word of that instruction, which is an allowed one (R185, R186). -/
theorem decodeCore_eq_some_iff {w : Word} {i : CoreInstr} : decodeCore w = some i ↔ i.wf = true ∧ encodeCore i = w := by
  have henc : encodeCore i = w ↔ Spells w.toNat 32 i.fields := by
    rw [spells_iff (fits_fields i), Nat.mod_eq_of_lt w.isLt, encodeCore, ← BitVec.toNat_inj, BitVec.toNat_ofNat,
      Nat.mod_eq_of_lt (sumFields_lt (fits_fields i)), eq_comm]
  rw [henc]
  unfold decodeCore
  constructor
  · intro h
    split at h
    · next i' hi =>
      obtain ⟨hwf, hi'⟩ := Option.ite_none_right_eq_some.1 h
      cases hi'
      exact ⟨hwf, spells_of_decodeFields hi⟩
    · cases h
  · rintro ⟨hwf, h⟩
    simp only [decodeFields_of_spells h, hwf, if_true]

/-- Settles O38: both directions are `decodeCore_eq_some_iff`. -/
theorem coreWordsAndInstructionsAgree : Obligations.CoreWordsAndInstructionsAgree :=
  ⟨fun _ hwf => decodeCore_eq_some_iff.2 ⟨hwf, rfl⟩, fun _ _ h => decodeCore_eq_some_iff.1 h⟩

end Sys2Proof
end

section
/-! SUPPORT. The issue of a core's word: when a core issues nothing, and when its fetch or its word faults (O24). -/

namespace Sys2Proof.Machine

/-! ### Words that are not issued (R179, R186, R189) -/

section NotIssued

variable {row : CoreRow} {act : CoreAct} {k j : Nat} {w : Word} {nv : NonVol} {d : Device}

theorem coreStep_of_waits (h : (coreGet d k j).run = none ∨ (coreGet d k j).wait ≠ .none) : coreStep row act k j w nv d = d := by
  obtain hrun | hwait := h
  · exact coreStep_idle hrun
  · unfold coreStep
    dsimp only
    split
    · rfl
    · rw [if_pos hwait]

theorem coreStep_of_unfetched {e : CoreErr} (hrun : (coreGet d k j).run.isSome = true) (hwait : (coreGet d k j).wait = .none)
    (hf : fetchWord d k (coreGet d k j) = .error e) : coreStep row act k j w nv d = coreFault nv k j e d := by
  obtain ⟨r, hr⟩ := Option.isSome_iff_exists.1 hrun
  simp [coreStep, hr, hwait, hf]

theorem coreStep_of_other {v : Word} (hwait : (coreGet d k j).wait = .none) (hf : fetchWord d k (coreGet d k j) = .ok v)
    (hother : v ≠ w ∨ coreRow w ≠ row) : coreStep row act k j w nv d = d := by
  cases hr : (coreGet d k j).run with
  | none => exact coreStep_idle hr
  | some r => simp only [coreStep, hr, hwait, hf, if_pos hother, ne_eq, not_true, if_false]

theorem coreStep_of_unready {i : CoreInstr} (hf : fetchWord d k (coreGet d k j) = .ok w) (hi : decodeCore w = some i)
    (hready : operandsReady (coreGet d k j) i = false) : coreStep row act k j w nv d = d := by
  cases hr : (coreGet d k j).run with
  | none => exact coreStep_idle hr
  | some r => simp [coreStep, hr, hf, hi, hready]

end NotIssued

/-! ### The rows of the core instructions -/

/-- The rows of the opcode table for core instructions, each with its command. -/
def coreRows : List (CoreRow × (CluNo → CoreNo → Word → Instr)) :=
  [(.sAlu, .sAlu), (.sImm, .sImm), (.upper, .upper), (.branch, .branch), (.jump, .jump), (.load, .load), (.store, .store),
    (.vAlu, .vAlu), (.vld, .vld), (.vst, .vst), (.vgather, .vgather), (.vscatter, .vscatter), (.vbcast, .vbcast),
    (.vcvt, .vcvt), (.block, .block), (.fld, .fld), (.fst, .fst), (.fgather, .fgather), (.fscatter, .fscatter),
    (.semwait, .semwait), (.sempost, .sempost), (.barrier, .barrier), (.evwait, .evwait), (.evadd, .evadd),
    (.fenceCore, .fenceCore), (.fenceFar, .fenceFar), (.gdone, .gdone), (.csrr, .csrr), (.csrw, .csrw)]

/-- The command of a row issues its word under that row. -/
theorem exec_of_mem_coreRows : ∀ q ∈ coreRows, ∃ act : CoreAct, ∀ (k : CluNo) (j : CoreNo) (w : Word) (s : State),
    exec (q.2 k j w) s = .next { s with d := coreStep q.1 act k.val j.val w s.nv s.d } := by
  intro q hq
  fin_cases hq
  all_goals exact ⟨_, fun _ _ _ _ => rfl⟩

theorem exec_loadReturn (s : State) (k : CluNo) (j : CoreNo) : exec (.loadReturn k j) s = .next { s with
    d := if (coreGet s.d k.val j.val).loads = [] then s.d else coreMod k.val j.val loadLand s.d } := rfl
theorem exec_evwaitReturn (s : State) (k : CluNo) (j : CoreNo) :
    exec (.evwaitReturn k j) s = .next { s with d := evReturn k.val j.val s.d } := rfl

theorem evReturn_of_no_wait {k j : Nat} {d : Device} (h : ∀ i v, (coreGet d k j).wait ≠ .ev i v) : evReturn k j d = d := by
  unfold evReturn
  dsimp only
  split
  · next hwait _ => exact absurd hwait (h _ _)
  · rfl

/-- Settles O24: each row issues its word by `coreStep`, whose outcomes are those of the statement. -/
theorem coreWordsWaitOrFault : Obligations.CoreWordsWaitOrFault := by
  rintro s k j w x rfl
  refine ⟨fun q hq => ?rows, fun hloads => ?loadReturn, fun hwait => ?evReturn⟩
  case rows =>
    obtain ⟨act, hact⟩ := exec_of_mem_coreRows q hq
    rw [hact]
    refine ⟨fun h => ?_, fun e hrun hwait hf => ?_, fun v hwait hf hother => ?_, fun hrun hwait hf hrow hi => ?_,
      fun i hf hi hready => ?_⟩
    · rw [coreStep_of_waits h]
    · rw [coreStep_of_unfetched hrun hwait hf]
    · rw [coreStep_of_other hwait hf hother]
    · obtain ⟨r, hr⟩ := Option.isSome_iff_exists.1 hrun
      rw [coreStep_illegal hr hwait hf hrow hi]
    · rw [coreStep_of_unready hf hi hready]
  case loadReturn => rw [exec_loadReturn, if_pos hloads]
  case evReturn => rw [exec_evwaitReturn, evReturn_of_no_wait hwait]

end Sys2Proof.Machine
end

section
/-! SUPPORT. The scalar instructions of a core: what each does when it is issued (O21), and what it leaves unchanged (O49). -/

namespace Sys2Proof.Machine

/-- Two effects on a core that agree on the core as it stands are one. -/
theorem coreMod_congr {k j : Nat} {f g : Core → Core} {d : Device} (h : f (coreGet d k j) = g (coreGet d k j)) :
    coreMod k j f d = coreMod k j g d :=
  congrArg (fun y => { d with cores := smPut d.cores Core.init (k * 64 + j) y }) h

/-- The command of a row, where its core issues the word: the effect of the instruction on the device. -/
theorem next_of_issues {s : State} {k : CluNo} {j : CoreNo} {row : CoreRow} {w : Word} {act : CoreAct} {r : ParcelRun}
    {i : CoreInstr} {d : Device} (h : CoreIssues s.d k.val j.val row w r i)
    (hact : act s.nv k.val j.val r.parcel.ctx i s.d = d) :
    (.next (onDev (coreStep row act k.val j.val w) s) : Host.Outcome State Fault Refusal) = .next { s with d := d } := by
  rw [onDev, coreStep_issues h, hact]

/-! ### The effect of an issued instruction (R182, R185, R186) -/

section Scalar

variable {s : State} {k : CluNo} {j : CoreNo} {w : Word} {r : ParcelRun} {op : AluOp} {rd a b : BitVec 5}

theorem exec_sAlu_of_issues (h : CoreIssues s.d k.val j.val .sAlu w r (.alu op rd a b)) : exec (.sAlu k j w) s = .next { s with
    d := coreMod k.val j.val (fun x => pcNext (sPut rd (aluResult op (sReg x a) (sReg x b)) x)) s.d } :=
  next_of_issues h rfl

theorem exec_sImm_of_issues {imm : BitVec 12} (h : CoreIssues s.d k.val j.val .sImm w r (.imm op rd a imm)) :
    exec (.sImm k j w) s = .next { s with
      d := coreMod k.val j.val (fun x => pcNext (sPut rd (aluResult op (sReg x a) (imm.signExtend 32)) x)) s.d } :=
  next_of_issues h rfl

theorem exec_upper_of_issues {imm : BitVec 20} (h : CoreIssues s.d k.val j.val .upper w r (.upper rd imm)) :
    exec (.upper k j w) s = .next { s with
      d := coreMod k.val j.val (fun x => pcNext (sPut rd (w32 (imm.toNat * 4096)) x)) s.d } :=
  next_of_issues h rfl

theorem exec_branch_of_issues {c : Cond} {off : BitVec 15} (h : CoreIssues s.d k.val j.val .branch w r (.branch c a b off)) :
    exec (.branch k j w) s = .next { s with
      d := coreMod k.val j.val (fun x => { x with
        pc := if branchTaken c (sReg x a) (sReg x b) then x.pc + BitVec.ofInt 32 (4 * off.toInt) else x.pc + 4 }) s.d } := by
  refine next_of_issues h (coreMod_congr ?_)
  split <;> rfl

theorem exec_jump_of_issues {off : BitVec 18} (h : CoreIssues s.d k.val j.val .jump w r (.jump rd a off)) :
    exec (.jump k j w) s = .next { s with
      d := coreMod k.val j.val (fun x => { sPut rd (x.pc + 4) x with
        pc := (if a = 0 then x.pc else sReg x a) + BitVec.ofInt 32 (4 * off.toInt) }) s.d } :=
  next_of_issues h rfl

theorem exec_load_of_issues {op : LoadOp} {base : BitVec 5} {off : BitVec 15} {a : Nat}
    (h : CoreIssues s.d k.val j.val .load w r (.load op rd base off))
    (ha : a = addrOf (sReg (coreGet s.d k.val j.val) base) off.toInt)
    (hc : coreCheck s.d k.val a (loadBytes op) (loadBytes op) false = none) : exec (.load k j w) s = .next { s with
      d := palCharge k.val j.val a (loadBytes op) false r.parcel.ctx (coreNext k.val j.val
        (loadIssue rd (loadValue op (loadRead s.d k.val j.val a (loadBytes op)))) (loadCapture k.val j.val a s.d)) } := by
  subst ha
  exact next_of_issues h (by simp only [loadAct, hc])

theorem exec_load_of_refused {op : LoadOp} {base : BitVec 5} {off : BitVec 15} {a : Nat} {e : CoreErr}
    (h : CoreIssues s.d k.val j.val .load w r (.load op rd base off))
    (ha : a = addrOf (sReg (coreGet s.d k.val j.val) base) off.toInt)
    (hc : coreCheck s.d k.val a (loadBytes op) (loadBytes op) false = some e) :
    exec (.load k j w) s = .next { s with d := coreFault s.nv k.val j.val e s.d } := by
  subst ha
  exact next_of_issues h (by simp only [loadAct, hc])

theorem exec_store_of_refused {op : StoreOp} {rs base : BitVec 5} {off : BitVec 15} {a : Nat} {e : CoreErr}
    (h : CoreIssues s.d k.val j.val .store w r (.store op rs base off))
    (ha : a = addrOf (sReg (coreGet s.d k.val j.val) base) off.toInt)
    (hc : coreCheck s.d k.val a (storeBytes op) (storeBytes op) true = some e) :
    exec (.store k j w) s = .next { s with d := coreFault s.nv k.val j.val e s.d } := by
  subst ha
  exact next_of_issues h (by simp only [storeAct, hc])

theorem exec_csrr_of_issues {n : BitVec 8} (h : CoreIssues s.d k.val j.val .csrr w r (.csrr rd n)) :
    exec (.csrr k j w) s = .next { s with
      d := coreMod k.val j.val (fun x => pcNext (sPut rd (csrValue s.d k.val j.val r.parcel.ctx n.toNat) x))
        (csrCapture k.val j.val n.toNat s.d) } :=
  next_of_issues h rfl

theorem exec_csrw_of_issues {n : BitVec 8} (h : CoreIssues s.d k.val j.val .csrw w r (.csrw a n)) :
    exec (.csrw k j w) s = .next { s with
      d := coreMod k.val j.val (fun x => pcNext { x with flags := x.flags &&& ~~~(BitVec.ofNat 4 (sReg x a).toNat) }) s.d } :=
  next_of_issues h rfl

end Scalar

/-- The oldest load returns (R182). -/
theorem exec_loadReturn_of_load {s : State} {k : CluNo} {j : CoreNo} {l : Nat × Word} {rest : List (Nat × Word)}
    (h : (coreGet s.d k.val j.val).loads = l :: rest) : exec (.loadReturn k j) s = .next { s with
      d := coreMod k.val j.val (fun x => sPut (BitVec.ofNat 5 l.1) l.2 { x with loads := rest }) s.d } := by
  have hland : coreMod k.val j.val loadLand s.d =
      coreMod k.val j.val (fun x => sPut (BitVec.ofNat 5 l.1) l.2 { x with loads := rest }) s.d :=
    coreMod_congr (by simp only [loadLand, h])
  rw [exec_loadReturn, if_neg (by simp [h]), hland]

/-- Settles O21: one lemma for each outcome of each instruction. -/
theorem scalarInstructionsAct : Obligations.ScalarInstructionsAct := by
  intro s k j w r
  exact ⟨fun _ _ _ _ => exec_sAlu_of_issues, fun _ _ _ _ => exec_sImm_of_issues, fun _ _ => exec_upper_of_issues,
    fun _ _ _ _ => exec_branch_of_issues, fun _ _ _ => exec_jump_of_issues,
    fun _ _ _ _ _ h ha => ⟨exec_load_of_issues h ha, fun _ => exec_load_of_refused h ha⟩,
    fun _ _ _ _ _ h ha => ⟨exec_store_of_issues h ha, fun _ => exec_store_of_refused h ha⟩,
    fun _ _ => exec_csrr_of_issues, fun _ _ => exec_csrw_of_issues, fun _ _ => exec_loadReturn_of_load⟩

/-! ### What a scalar instruction leaves unchanged (R178, R179) -/

/-- From core `x` to core `y` only scalar register `rd`, the pc and, where `flags` allows it, FLAGS may have changed. -/
structure ScalarStep (rd : BitVec 5) (flags : Bool) (x y : Core) : Prop where
  reg : ∀ q : BitVec 5, q ≠ rd → sReg y q = sReg x q
  flags_eq : flags = false → y.flags = x.flags
  rest : y = { x with s := y.s, pc := y.pc, flags := y.flags }

namespace ScalarStep

variable {rd : BitVec 5} {flags : Bool}

theorem write (v : Word) (pc : Word) (x : Core) : ScalarStep rd flags x { sPut rd v x with pc := pc } where
  reg _ h := sReg_sPut_ne v x h
  flags_eq _ := by unfold sPut; split <;> rfl
  rest := by unfold sPut; split <;> rfl

theorem jumpTo (pc : Word) (x : Core) : ScalarStep rd flags x { x with pc := pc } := ⟨fun _ _ => rfl, fun _ => rfl, rfl⟩

theorem flagsTo (f : BitVec 4) (pc : Word) (x : Core) : ScalarStep rd true x { x with pc := pc, flags := f } :=
  ⟨fun _ _ => rfl, (nomatch ·), rfl⟩

end ScalarStep

/-- Settles O49: each of the instructions is an effect on its core alone that is a `ScalarStep`. -/
theorem scalarInstructionsChangeOnlyTheirCore : Obligations.ScalarInstructionsChangeOnlyTheirCore := by
  intro s t k j w r rd row c hissue ht
  obtain ⟨f, hf, hstep⟩ : ∃ f : Core → Core, exec c s = .next { s with d := coreMod k.val j.val f s.d } ∧
      ∀ x, ScalarStep rd (row == .csrw) x (f x) := by
    obtain ⟨op, a, b, h, rfl, rfl⟩ | ⟨op, a, imm, h, rfl, rfl⟩ | ⟨imm, h, rfl, rfl⟩ | ⟨q, a, b, off, h, rfl, rfl, rfl⟩ |
      ⟨a, off, h, rfl, rfl⟩ | ⟨a, n, h, rfl, rfl, rfl⟩ := hissue
    · exact ⟨_, exec_sAlu_of_issues h, fun x => .write ..⟩
    · exact ⟨_, exec_sImm_of_issues h, fun x => .write ..⟩
    · exact ⟨_, exec_upper_of_issues h, fun x => .write ..⟩
    · exact ⟨_, exec_branch_of_issues h, fun x => .jumpTo ..⟩
    · exact ⟨_, exec_jump_of_issues h, fun x => .write ..⟩
    · exact ⟨_, exec_csrw_of_issues h, fun x => .flagsTo ..⟩
  rw [hf] at ht
  cases ht
  obtain ⟨hreg, hflags, hrest⟩ := hstep (coreGet s.d k.val j.val)
  rw [← coreGet_coreMod_self s.d k.val j.val f] at hreg hflags hrest
  refine ⟨rfl, fun k' j' hne => coreGet_coreMod_ne _ f j.isLt j'.isLt ?_, hreg, sReg_zero _,
    fun hrow => hflags (by simp [hrow]), hrest⟩
  simpa [Fin.ext_iff] using hne

end Sys2Proof.Machine
end

section
/-! SUPPORT. The vector and far instructions of a core (O22): what each does when it is issued, by the cases of its checks. -/

namespace Sys2Proof.Machine

section Vector

variable {s : State} {k : CluNo} {j : CoreNo} {w : Word} {r : ParcelRun} {x : Core} (hx : x = coreGet s.d k.val j.val)

/-! ### Registers only (R187, R190, R191) -/

theorem exec_vAlu_of_issues {op : VOp} {ty : VType} {pred : BitVec 2} {vd va vb vc : BitVec 4}
    (h : CoreIssues s.d k.val j.val .vAlu w r (.valu op ty pred vd va vb vc)) : exec (.vAlu k j w) s = .next { s with
      d := vecCharge (laneBits ty / 8) r.parcel.ctx
        (coreMod k.val j.val (fun x => pcNext (valuCore op ty pred vd va vb vc x)) s.d) } :=
  next_of_issues h rfl

theorem exec_vbcast_of_issues {pred : BitVec 2} {vd : BitVec 4} {base : BitVec 5} {wd : VWidth}
    (h : CoreIssues s.d k.val j.val .vbcast w r (.vbcast pred vd base wd)) : exec (.vbcast k j w) s = .next { s with
      d := vecCharge wd.bytes r.parcel.ctx (coreMod k.val j.val (fun y => pcNext (vLanes vd pred
        (fun _ => w32 ((sReg y base).toNat % 2 ^ (8 * wd.bytes))) y)) s.d) } :=
  next_of_issues h rfl

theorem exec_vcvt_of_issues {dst src : Fmt} {rnd : Round} {vd va : BitVec 4} {seed : BitVec 5} {z : Bool}
    (h : CoreIssues s.d k.val j.val .vcvt w r (.vcvt dst src rnd vd va seed z)) : exec (.vcvt k j w) s = .next { s with
      d := vecCharge 4 r.parcel.ctx (coreMod k.val j.val (fun y => pcNext (laneResults vd
        (lanes.map fun n => (n, convertLane dst src rnd (sReg y seed) n (vLane y va n))) y)) s.d) } :=
  next_of_issues h rfl

/-! ### Loads and stores of lanes (R190, R194) -/

section Lanes

variable {pred : BitVec 2} {v : BitVec 4} {base : BitVec 5} {vidx : BitVec 4} {wd : VWidth} {off : BitVec 8} {a : Nat} {e : CoreErr}

include hx

theorem exec_vld_of_issues (h : CoreIssues s.d k.val j.val .vld w r (.vld pred v base wd off)) (ha : a = vecAddr x base wd off)
    (hc : vecCheck s.d k.val a wd.bytes (activeLanes x pred) false = none) : exec (.vld k j w) s = .next { s with
      d := vecCharge wd.bytes r.parcel.ctx (palCharge k.val j.val a (16 * wd.bytes) false r.parcel.ctx
        (coreMod k.val j.val (fun y => pcNext (vLanes v pred
          (smGet (lanesLoad k.val j.val wd.bytes ((activeLanes x pred).map fun n => (n, a + n * wd.bytes)) s.d).1 0) y))
          (lanesLoad k.val j.val wd.bytes ((activeLanes x pred).map fun n => (n, a + n * wd.bytes)) s.d).2)) } := by
  subst ha hx
  exact next_of_issues h (by simp only [vldAct, hc]; rfl)

theorem exec_vld_of_refused (h : CoreIssues s.d k.val j.val .vld w r (.vld pred v base wd off)) (ha : a = vecAddr x base wd off)
    (hc : vecCheck s.d k.val a wd.bytes (activeLanes x pred) false = some e) :
    exec (.vld k j w) s = .next { s with d := coreFault s.nv k.val j.val e s.d } := by
  subst ha hx
  exact next_of_issues h (by simp only [vldAct, hc])

theorem exec_vst_of_issues (h : CoreIssues s.d k.val j.val .vst w r (.vst pred v base wd off)) (ha : a = vecAddr x base wd off)
    (hc : vecCheck s.d k.val a wd.bytes (activeLanes x pred) true = none) : exec (.vst k j w) s = .next { s with
      d := vecCharge wd.bytes r.parcel.ctx (palCharge k.val j.val a (16 * wd.bytes)
        (decide (wd.bytes * (activeLanes x pred).length < 32)) r.parcel.ctx (coreMod k.val j.val pcNext
          (laneStores k.val j.val wd.bytes ((activeLanes x pred).map fun n => (a + n * wd.bytes, vLane x v n)) s.d))) } := by
  subst ha hx
  exact next_of_issues h (by simp only [vstAct, hc]; rfl)

theorem exec_vst_of_refused (h : CoreIssues s.d k.val j.val .vst w r (.vst pred v base wd off)) (ha : a = vecAddr x base wd off)
    (hc : vecCheck s.d k.val a wd.bytes (activeLanes x pred) true = some e) :
    exec (.vst k j w) s = .next { s with d := coreFault s.nv k.val j.val e s.d } := by
  subst ha hx
  exact next_of_issues h (by simp only [vstAct, hc])

theorem exec_vgather_of_issues (h : CoreIssues s.d k.val j.val .vgather w r (.vgather pred v base vidx wd))
    (hc : gatherCheck s.d k.val x base vidx wd (activeLanes x pred) false = none) : exec (.vgather k j w) s = .next { s with
      d := vecCharge wd.bytes r.parcel.ctx (coreMod k.val j.val (fun y => pcNext (vLanes v pred
          (smGet (lanesLoad k.val j.val wd.bytes ((activeLanes x pred).map fun n => (n, gatherAddr x base vidx wd n)) s.d).1 0) y))
        ((activeLanes x pred).foldl (fun d n => palCharge k.val j.val (gatherAddr x base vidx wd n) wd.bytes false r.parcel.ctx d)
          (lanesLoad k.val j.val wd.bytes ((activeLanes x pred).map fun n => (n, gatherAddr x base vidx wd n)) s.d).2)) } := by
  subst hx
  exact next_of_issues h (by simp only [vgatherAct, hc]; rfl)

theorem exec_vgather_of_refused (h : CoreIssues s.d k.val j.val .vgather w r (.vgather pred v base vidx wd))
    (hc : gatherCheck s.d k.val x base vidx wd (activeLanes x pred) false = some e) :
    exec (.vgather k j w) s = .next { s with d := coreFault s.nv k.val j.val e s.d } := by
  subst hx
  exact next_of_issues h (by simp only [vgatherAct, hc])

theorem exec_vscatter_of_issues (h : CoreIssues s.d k.val j.val .vscatter w r (.vscatter pred v base vidx wd))
    (hc : gatherCheck s.d k.val x base vidx wd (activeLanes x pred) true = none) : exec (.vscatter k j w) s = .next { s with
      d := vecCharge wd.bytes r.parcel.ctx (coreMod k.val j.val pcNext (laneStores k.val j.val wd.bytes
          ((activeLanes x pred).map fun n => (gatherAddr x base vidx wd n, vLane x v n))
        ((activeLanes x pred).foldl (fun d n => palCharge k.val j.val (gatherAddr x base vidx wd n) wd.bytes true r.parcel.ctx d)
          s.d))) } := by
  subst hx
  exact next_of_issues h (by simp only [vscatterAct, hc]; rfl)

theorem exec_vscatter_of_refused (h : CoreIssues s.d k.val j.val .vscatter w r (.vscatter pred v base vidx wd))
    (hc : gatherCheck s.d k.val x base vidx wd (activeLanes x pred) true = some e) :
    exec (.vscatter k j w) s = .next { s with d := coreFault s.nv k.val j.val e s.d } := by
  subst hx
  exact next_of_issues h (by simp only [vscatterAct, hc])

end Lanes

/-! ### BLOCK (R191) -/

section Block

variable {fmt : Fmt} {dec : Bool} {src dst seed : BitVec 5} {rnd : Round} {u : Bool} {a b : Nat} {z : (Nat × Nat) × (Nat × Nat)}
  (h : CoreIssues s.d k.val j.val .block w r (.block fmt dec src dst seed rnd u)) (ha : a = (sReg x src).toNat)
  (hb : b = (sReg x dst).toNat) (hz : z = blockSpans fmt.code dec)

include hx h ha hb hz

theorem exec_block_of_issues {l : List Byte × Device} {t : List Byte × FlagSet} (hl : l = blockLoad k.val j.val a z.1.1 s.d)
    (ht : t = blockResult fmt.code dec rnd u (sReg x seed) l.1) (hread : coreCheck s.d k.val a z.1.1 z.1.2 false = none)
    (hwrite : coreCheck s.d k.val b z.2.1 z.2.2 true = none) : exec (.block k j w) s = .next { s with
      d := vecCharge 4 r.parcel.ctx (palCharge k.val j.val a z.1.1 false r.parcel.ctx
        (palCharge k.val j.val b z.2.1 (decide (z.2.1 < 32)) r.parcel.ctx
          (coreMod k.val j.val (fun y => pcNext (addFlags t.2 y)) (coreBytesPut k.val j.val b t.1 l.2)))) } := by
  subst ht hl hz ha hb hx
  exact next_of_issues h (by simp only [blockAct, hread, hwrite]; rfl)

/-- The bytes read are checked before those written. -/
theorem exec_block_of_refused {e : CoreErr}
    (hc : (coreCheck s.d k.val a z.1.1 z.1.2 false).or (coreCheck s.d k.val b z.2.1 z.2.2 true) = some e) :
    exec (.block k j w) s = .next { s with d := coreFault s.nv k.val j.val e s.d } := by
  subst hz ha hb hx
  obtain hread | ⟨hread, hwrite⟩ := Option.or_eq_some_iff.1 hc
  · exact next_of_issues h (by simp only [blockAct, hread])
  · exact next_of_issues h (by simp only [blockAct, hread, hwrite])

end Block

end Vector

/-! ### Far loads and stores (R193, R195, R200) -/

section Far

variable {nv : NonVol} {k j : Nat} {c : CtxNo} {bytes : Nat} {d d' : Device}

section Load

variable {vd : BitVec 4} {es : List FarElem}

theorem farLoad_of_misaligned {e : CoreErr} (h : farMisaligned bytes es = some e) :
    farLoad nv k j c vd bytes es d = coreFault nv k j e d := by simp only [farLoad, h]

variable (halign : farMisaligned bytes es = none) (hd : d' = farFill nv k c.val false es d)

include halign hd

theorem farLoad_of_unreachable {e : VErr} (he : farPlaces d' k c.val false es = .error e) :
    farLoad nv k j c vd bytes es d = coreFaultAs nv k j (vFault e 0) d' := by
  subst hd
  simp only [farLoad, halign, he]

theorem farLoad_of_places {ps : List (FarElem × Nat)} (hps : farPlaces d' k c.val false es = .ok ps) :
    farLoad nv k j c vd bytes es d = if storeAhead d' k j ps then d'
      else vecCharge bytes c (coreMod k j (fun y => pcNext (if vd = 0 ∨ es = [] then y else { y with
        fars := y.fars ++ [(vd.toNat, es)] })) d') := by
  subst hd
  simp only [farLoad, halign, hps]
  rfl

end Load

section Store

variable {es : List (FarElem × List Byte)}

theorem farStore_of_misaligned {e : CoreErr} (h : farMisaligned bytes (es.map (·.1)) = some e) :
    farStore nv k j c bytes es d = coreFault nv k j e d := by simp only [farStore, h]

variable (halign : farMisaligned bytes (es.map (·.1)) = none) (hd : d' = farFill nv k c.val true (es.map (·.1)) d)

include halign hd

theorem farStore_of_unreachable {e : VErr} (he : farPlaces d' k c.val true (es.map (·.1)) = .error e) :
    farStore nv k j c bytes es d = coreFaultAs nv k j (vFault e 0) d' := by
  subst hd
  simp only [farStore, halign, he]

theorem farStore_of_places {ps : List (FarElem × Nat)} (hps : farPlaces d' k c.val true (es.map (·.1)) = .ok ps) :
    farStore nv k j c bytes es d = if loadAhead (coreGet d' k j) (es.map (·.1)) then d'
      else vecCharge bytes c (coreMod k j pcNext (cluMod k (fun y => { y with
        writes := y.writes ++ (ps.zip es).map fun p => ⟨c, [], some j, p.1.2, p.2.2⟩ }) d')) := by
  subst hd
  simp only [farStore, halign, hps]
  rfl

end Store

theorem farMisaligned_eq_none {es : List FarElem} (h : ∀ e ∈ es, e.2.1 % bytes = 0) : farMisaligned bytes es = none := by
  rw [farMisaligned, List.find?_eq_none.2 (by simpa using h)]
  rfl

end Far

section FarRows

variable {s : State} {k : CluNo} {j : CoreNo} {w : Word} {r : ParcelRun} {x : Core} {pred : BitVec 2} {v : BitVec 4}
  {base : BitVec 5} {vidx : BitVec 4} {wd : VWidth} (hx : x = coreGet s.d k.val j.val)

include hx

theorem exec_fld_of_issues {es : List FarElem} (h : CoreIssues s.d k.val j.val .fld w r (.fld pred v base vidx wd))
    (hes : es = if activeLanes x pred = [] then [] else [(16 + (pMask x pred).toNat, farAddr x base, 64)]) :
    exec (.fld k j w) s = .next { s with
      d := if farAddr x base % 64 ≠ 0 then coreFault s.nv k.val j.val ⟨2, farAddr x base, 64⟩ s.d
        else farLoad s.nv k.val j.val r.parcel.ctx v 4 es s.d } := by
  subst hes hx
  exact next_of_issues h rfl

theorem exec_fgather_of_issues (h : CoreIssues s.d k.val j.val .fgather w r (.fgather pred v base vidx wd)) :
    exec (.fgather k j w) s = .next { s with
      d := farLoad s.nv k.val j.val r.parcel.ctx v wd.bytes (farElems x pred base vidx wd) s.d } := by
  subst hx
  exact next_of_issues h rfl

theorem exec_fst_of_issues {es : List (FarElem × List Byte)}
    (h : CoreIssues s.d k.val j.val .fst w r (.fst pred v base vidx wd))
    (hes : es = if activeLanes x pred = lanes
      then [((0, farAddr x base, 64), lanes.flatMap fun n => toBytes 4 (vLane x v n).toNat)]
      else (activeLanes x pred).map fun n => ((n, farAddr x base + 4 * n, 4), toBytes 4 (vLane x v n).toNat)) :
    exec (.fst k j w) s = .next { s with
      d := if farAddr x base % 64 ≠ 0 then coreFault s.nv k.val j.val ⟨2, farAddr x base, 64⟩ s.d
        else farStore s.nv k.val j.val r.parcel.ctx 4 es s.d } := by
  subst hes hx
  exact next_of_issues h rfl

theorem exec_fscatter_of_issues {es : List (FarElem × List Byte)}
    (h : CoreIssues s.d k.val j.val .fscatter w r (.fscatter pred v base vidx wd))
    (hes : es = (farElems x pred base vidx wd).map fun e => (e, toBytes wd.bytes (vLane x v e.1).toNat)) :
    exec (.fscatter k j w) s = .next { s with d := farStore s.nv k.val j.val r.parcel.ctx wd.bytes es s.d } := by
  subst hes hx
  exact next_of_issues h rfl

end FarRows

/-- Settles O22: one lemma for each outcome of each instruction; the elements of FLD and FST are aligned where their address is. -/
theorem vectorInstructionsAct : Obligations.VectorInstructionsAct := by
  intro s k j w r x hx
  refine ⟨fun _ _ _ _ _ _ _ => exec_vAlu_of_issues,
    fun _ _ _ _ _ _ h ha => ⟨exec_vld_of_issues hx h ha, fun _ => exec_vld_of_refused hx h ha⟩,
    fun _ _ _ _ _ _ h ha => ⟨exec_vst_of_issues hx h ha, fun _ => exec_vst_of_refused hx h ha⟩,
    fun _ _ _ _ _ h => ⟨exec_vgather_of_issues hx h, fun _ => exec_vgather_of_refused hx h⟩,
    fun _ _ _ _ _ h => ⟨exec_vscatter_of_issues hx h, fun _ => exec_vscatter_of_refused hx h⟩,
    fun _ _ _ _ => exec_vbcast_of_issues, fun _ _ _ _ _ _ _ => exec_vcvt_of_issues,
    fun _ _ _ _ _ _ _ _ _ _ _ _ h ha hb hz hl ht =>
      ⟨exec_block_of_issues hx h ha hb hz hl ht, fun _ => exec_block_of_refused hx h ha hb hz⟩, ?fld, ?fgather, ?fst, ?fscatter⟩
  case fld =>
    intro pred vd base va o es h hes
    rw [exec_fld_of_issues hx h hes]
    refine ⟨fun hmis => by rw [if_pos hmis], fun haddr d hd => ?_⟩
    have halign : farMisaligned 4 es = none := farMisaligned_eq_none fun e he => by
      rw [hes] at he
      split at he
      · cases he
      · cases List.mem_singleton.1 he
        dsimp only
        omega
    rw [if_neg (not_not.2 haddr)]
    exact ⟨fun e he => by rw [farLoad_of_unreachable halign hd he], fun ps hps => by rw [farLoad_of_places halign hd hps]⟩
  case fgather =>
    intro pred vd base vidx wd es h hes
    rw [exec_fgather_of_issues hx h, ← hes]
    refine ⟨fun e he => by rw [farLoad_of_misaligned he], fun halign d hd => ⟨fun e he => ?_, fun ps hps => ?_⟩⟩
    · rw [farLoad_of_unreachable halign hd he]
    · rw [farLoad_of_places halign hd hps]
  case fst =>
    intro pred vs base va o es h hes
    rw [exec_fst_of_issues hx h hes]
    refine ⟨fun hmis => by rw [if_pos hmis], fun haddr d hd => ?_⟩
    have halign : farMisaligned 4 (es.map (·.1)) = none := farMisaligned_eq_none fun e he => by
      obtain ⟨p, hp, rfl⟩ := List.mem_map.1 he
      rw [hes] at hp
      split at hp
      · cases List.mem_singleton.1 hp
        dsimp only
        omega
      · obtain ⟨n, -, rfl⟩ := List.mem_map.1 hp
        dsimp only
        omega
    rw [if_neg (not_not.2 haddr)]
    exact ⟨fun e he => by rw [farStore_of_unreachable halign hd he], fun ps hps => by rw [farStore_of_places halign hd hps]⟩
  case fscatter =>
    intro pred vs base vidx wd es h hes
    rw [exec_fscatter_of_issues hx h hes]
    refine ⟨fun e he => by rw [farStore_of_misaligned he], fun halign d hd => ⟨fun e he => ?_, fun ps hps => ?_⟩⟩
    · rw [farStore_of_unreachable halign hd he]
    · rw [farStore_of_places halign hd hps]

end Sys2Proof.Machine
end

section
/-! SUPPORT. Parcels, kernel frames and the synchronisation of cores (O23), each by the cases of its operation. -/

namespace Sys2Proof.Machine

/-! ### PARCEL_START (R179, R204, R208) -/

section Start

variable {nv : NonVol} {k n : Nat} {d : Device} {p : Parcel} {rest : List Parcel} {kd : KernelEntry} {i : StreamInfo}

/-- The device once its oldest parcel has been taken. -/
def parcelTaken (nv : NonVol) (k : Nat) (p : Parcel) (rest : List Parcel) (d : Device) : Device :=
  progressed nv p.ctx.val (cluMod k (fun x => { x with parcels := rest }) d)

section Taken

variable (hp : (cluGet d k).parcels = p :: rest) (hidle : idleCore d k = some n) (hk : parcelKernel d p = some (kd, i))
  (hctx : (cluGet d k).coreCtx = some p.ctx) (htakes : takesUnits nv d k = true)

include hp hidle hk hctx htakes

theorem parcelStart_of_shipped (hs : kd.shipped ≠ 0) :
    parcelStart nv k d = shippedRun nv k n i kd p (parcelTaken nv k p rest d) := by
  simp [parcelStart, hp, hidle, hk, hctx, htakes, hs, parcelTaken]

theorem parcelStart_of_frame {f : Nat} (hs : kd.shipped = 0) (hf : frameOf (cluGet d k) p.ctx.val i.x.glaze kd = some f)
    {d1 : Device} (hd1 : d1 = cluMod k (fun x => { x with
      frameUse := x.frameUse + 1
      frames := smMod x.frames none f (Option.map fun q => { q with used := x.frameUse + 1 }) }) (parcelTaken nv k p rest d)) :
    parcelStart nv k d = coreMod k n (parcelCore i kd p f d1.fresh) (drawFresh 0x4000 d1) := by
  subst hd1
  simp [parcelStart, hp, hidle, hk, hctx, htakes, hs, hf, parcelTaken]

end Taken

theorem parcelStart_of_waits (h : idleCore d k = none ∨ (cluGet d k).parcels = [] ∨ takesUnits nv d k = false ∨
    (∃ p rest, (cluGet d k).parcels = p :: rest ∧ ((cluGet d k).coreCtx ≠ some p.ctx ∨
      ∃ kd i, parcelKernel d p = some (kd, i) ∧ kd.shipped = 0 ∧ frameOf (cluGet d k) p.ctx.val i.x.glaze kd = none))) :
    parcelStart nv k d = d := by
  obtain hidle | hp | htakes | ⟨p, rest, hp, hctx | ⟨kd, i, hk, hs, hf⟩⟩ := h
  · simp only [parcelStart, hidle]
    split <;> rfl
  · simp only [parcelStart, hp]
  · simp only [parcelStart, htakes, Bool.not_false, or_true, if_true]
    split
    · rfl
    · split <;> rfl
  · simp only [parcelStart, hp, hctx, ne_eq, not_false_eq_true, true_or, if_true]
    split <;> rfl
  · cases hidle : idleCore d k with
    | none => simp only [parcelStart, hp, hidle]
    | some n => simp [parcelStart, hp, hidle, hk, hs, hf]

end Start

/-! ### KERNEL_LOAD (R207) -/

section Load

variable {nv : NonVol} {k f : Nat} {d : Device} {p : Parcel} {rest : List Parcel} {kd : KernelEntry} {i : StreamInfo}

section Missing

variable (hp : (cluGet d k).parcels = p :: rest) (hk : parcelKernel d p = some (kd, i)) (hfree : frameFor d k = some f)
  (hs : kd.shipped = 0) (hmiss : frameOf (cluGet d k) p.ctx.val i.x.glaze kd = none) (htakes : takesUnits nv d k = true)

include hp hk hfree hs hmiss htakes

theorem kernelLoad_of_unread {e : FaultAt} (he : ctxRead d p.ctx.val 0 kd.codeAddr (4 * kd.codeWords) = .error e) :
    kernelLoad nv k d = faultCtx nv p.ctx.val { e with clu := some k, stream := parcelStream d k p } d := by
  simp [kernelLoad, hp, hk, hfree, hs, hmiss, htakes, he]

theorem kernelLoad_of_read {bs : List Byte} (hbs : ctxRead d p.ctx.val 0 kd.codeAddr (4 * kd.codeWords) = .ok bs) :
    kernelLoad nv k d = readCharge nv p.ctx.val kd.codeAddr (4 * kd.codeWords) (cluMod k (fun x => { x with
      frames := smPut x.frames none f
        (some ⟨p.ctx.val, i.x.glaze, kd.codeAddr, kd.codeWords, (words4 kd.codeWords bs).map w32, x.frameUse + 1⟩)
      frameUse := x.frameUse + 1 })
      (logPoint nv 3 3 k 0x4001 (pack [(0, 8, p.ctx.val), (8, 8, i.x.glaze)]) k d)) := by
  simp [kernelLoad, hp, hk, hfree, hs, hmiss, htakes, hbs]

end Missing

theorem kernelLoad_of_none (h : frameFor d k = none ∨ (cluGet d k).parcels = [] ∨ takesUnits nv d k = false ∨
    (∃ p rest kd i, (cluGet d k).parcels = p :: rest ∧ parcelKernel d p = some (kd, i) ∧
      (kd.shipped ≠ 0 ∨ (frameOf (cluGet d k) p.ctx.val i.x.glaze kd).isSome = true))) : kernelLoad nv k d = d := by
  obtain hfree | hp | htakes | ⟨p, rest, kd, i, hp, hk, hdone⟩ := h
  · simp only [kernelLoad, hfree]
    split
    · rfl
    · next p _ _ => cases parcelKernel d p <;> rfl
  · simp only [kernelLoad, hp]
  · simp only [kernelLoad, htakes, Bool.not_false, or_true, if_true]
    split
    · rfl
    · split <;> rfl
  · have hstop : kd.shipped ≠ 0 ∨ (frameOf (cluGet d k) p.ctx.val i.x.glaze kd).isSome = true ∨ (!takesUnits nv d k) = true :=
      or_assoc.1 (.inl hdone)
    cases hfree : frameFor d k with
    | none => simp only [kernelLoad, hp, hk, hfree]
    | some f => simp only [kernelLoad, hp, hk, hfree, if_pos hstop]

end Load

/-! ### Semaphores (R198) -/

section Semaphores

variable {s : State} {k : CluNo} {j : CoreNo} {w : Word} {r : ParcelRun} {obj : BitVec 6} {a : BitVec 5} {n : Nat}

theorem exec_semwait_of_issues (h : CoreIssues s.d k.val j.val .semwait w r (.semwait obj a))
    (hn : n = (sReg (coreGet s.d k.val j.val) a).toNat) : exec (.semwait k j w) s = .next { s with
      d := if n = 0 then coreMod k.val j.val pcNext s.d
        else if (semGet s.d k.val obj.toNat).waiters = [] ∧ n ≤ (semGet s.d k.val obj.toNat).count then
          coreMod k.val j.val pcNext (semMod k.val obj.toNat (fun y => { y with count := y.count - n }) s.d)
        else coreMod k.val j.val (fun y => { y with wait := .sem obj.toNat n })
          (semMod k.val obj.toNat (fun y => { y with waiters := y.waiters ++ [(j.val, n)] }) s.d) } := by
  subst hn
  exact next_of_issues h rfl

theorem syncErr_sem (obj : BitVec 6) : syncErr obj true = ⟨4, 0, obj.toNat + 256⟩ := by
  simpa [syncErr, pack, b2n] using obj.isLt

theorem exec_sempost_of_issues (h : CoreIssues s.d k.val j.val .sempost w r (.sempost obj a))
    (hn : n = (semGet s.d k.val obj.toNat).count + (sReg (coreGet s.d k.val j.val) a).toNat) :
    exec (.sempost k j w) s = .next { s with
      d := if 65535 < n then coreFault s.nv k.val j.val ⟨4, 0, obj.toNat + 256⟩ s.d
        else coreMod k.val j.val pcNext (semMod k.val obj.toNat (fun y => { y with count := n }) s.d) } := by
  subst hn
  exact next_of_issues h (by rw [← syncErr_sem]; rfl)

theorem semRelease_of_served {k i c n : Nat} {rest : List (Nat × Nat)} {d : Device} (hw : (semGet d k i).waiters = (c, n) :: rest)
    (hn : n ≤ (semGet d k i).count) :
    semRelease k i d = waitEnd k (.sem i n) c (semMod k i (fun _ => ⟨(semGet d k i).count - n, rest⟩) d) := by
  simp only [semRelease, hw, if_pos hn]

theorem semRelease_of_waits {k i : Nat} {d : Device}
    (h : ((semGet d k i).waiters.head?.all fun p => decide ((semGet d k i).count < p.2)) = true) : semRelease k i d = d := by
  cases hw : (semGet d k i).waiters with
  | nil => simp only [semRelease, hw]
  | cons p rest =>
    rw [hw] at h
    have hlt : (semGet d k i).count < p.2 := by simpa using h
    simp only [semRelease, hw, if_neg (Nat.not_le.2 hlt)]

end Semaphores

/-! ### Barriers (R197) -/

section Barriers

variable {s : State} {k : CluNo} {j : CoreNo} {w : Word} {r : ParcelRun} {obj : BitVec 6} {a : BitVec 5} {n : Nat} {b : Barrier}

theorem syncErr_barrier (obj : BitVec 6) : syncErr obj false = ⟨4, 0, obj.toNat⟩ := by
  simpa [syncErr, pack, b2n] using obj.isLt

theorem exec_barrier_of_issues (h : CoreIssues s.d k.val j.val .barrier w r (.barrier obj a))
    (hn : n = (sReg (coreGet s.d k.val j.val) a).toNat) (hb : b = barGet s.d k.val obj.toNat) :
    exec (.barrier k j w) s = .next { s with
      d := if 8 ≤ obj.toNat ∨ n = 0 ∨ 64 < n ∨ (b.arrived ≠ [] ∧ b.n ≠ n) then coreFault s.nv k.val j.val ⟨4, 0, obj.toNat⟩ s.d
        else coreMod k.val j.val (fun y => { y with wait := .bar obj.toNat b.gen })
          (barPut k.val obj.toNat { b with arrived := b.arrived ++ [j.val], n := n } s.d) } := by
  subst hn hb
  exact next_of_issues h (by rw [← syncErr_barrier]; rfl)

theorem barRelease_of_all {k i : Nat} {d : Device} {b : Barrier} (hb : b = barGet d k i) (hsome : b.arrived ≠ [])
    (hall : b.n ≤ b.arrived.length) :
    barRelease k i d = b.arrived.foldl (fun d c => waitEnd k (.bar i b.gen) c d) (barPut k i ⟨[], 0, b.gen + 1⟩ d) := by
  subst hb
  exact if_pos ⟨hsome, hall⟩

theorem barRelease_of_waits {k i : Nat} {d : Device} {b : Barrier} (hb : b = barGet d k i)
    (h : b.arrived = [] ∨ b.arrived.length < b.n) : barRelease k i d = d := by
  subst hb
  refine if_neg ?_
  rintro ⟨hsome, hall⟩
  exact h.elim hsome (Nat.not_lt.2 hall)

end Barriers

/-! ### Device event counters, fences and GDONE (R199, R200, R204) -/

section Rest

variable {s : State} {k : CluNo} {j : CoreNo} {w : Word} {r : ParcelRun} {obj : BitVec 6} {a : BitVec 5}

theorem w32_syncValue (d : Device) (k j : Nat) (r : BitVec 5) : w32 (syncValue d k j r) = sReg (coreGet d k j) r := by
  simp [w32, syncValue]

theorem exec_evwait_of_issues (h : CoreIssues s.d k.val j.val .evwait w r (.evwait obj a)) :
    exec (.evwait k j w) s = .next { s with
      d := if 16 ≤ obj.toNat then coreFault s.nv k.val j.val ⟨1, 0, (encodeCore (.evwait obj a)).toNat⟩ s.d
        else if ctrPassed s.d r.parcel.ctx.val obj.toNat (sReg (coreGet s.d k.val j.val) a) then coreMod k.val j.val pcNext s.d
        else coreMod k.val j.val (fun y => { y with wait := .ev obj.toNat (sReg (coreGet s.d k.val j.val) a) }) s.d } :=
  next_of_issues h (by rw [← w32_syncValue]; rfl)

theorem exec_evadd_of_issues (h : CoreIssues s.d k.val j.val .evadd w r (.evadd obj a)) :
    exec (.evadd k j w) s = .next { s with
      d := if 16 ≤ obj.toNat then coreFault s.nv k.val j.val ⟨1, 0, (encodeCore (.evadd obj a)).toNat⟩ s.d
        else if farFenced s.d k.val j.val then coreMod k.val j.val pcNext
          (ctrAdd r.parcel.ctx.val obj.toNat (sReg (coreGet s.d k.val j.val) a) s.d)
        else s.d } :=
  next_of_issues h (by rw [← w32_syncValue]; rfl)

theorem evReturn_of_wait {k j i : Nat} {v : Word} {d : Device} (hwait : (coreGet d k j).wait = .ev i v)
    (hr : (coreGet d k j).run = some r) :
    evReturn k j d = if ctrPassed d r.parcel.ctx.val i v then waitEnd k (.ev i v) j d else d := by
  simp only [evReturn, hwait, hr]

theorem exec_fenceCore_of_issues (h : CoreIssues s.d k.val j.val .fenceCore w r (.fence obj a)) :
    exec (.fenceCore k j w) s = .next { s with d := coreMod k.val j.val pcNext s.d } := next_of_issues h rfl

theorem exec_fenceFar_of_issues (h : CoreIssues s.d k.val j.val .fenceFar w r (.fenceFar obj a)) :
    exec (.fenceFar k j w) s = .next { s with
      d := if farFenced s.d k.val j.val then coreMod k.val j.val pcNext s.d else s.d } := next_of_issues h rfl

theorem exec_gdone_of_issues (h : CoreIssues s.d k.val j.val .gdone w r (.gdone obj a)) {x : Core}
    (hx : x = coreGet s.d k.val j.val) : exec (.gdone k j w) s = .next { s with
      d := if farFenced s.d k.val j.val then
          progressed s.nv r.parcel.ctx.val (coreMod k.val j.val (fun y => { y with run := none, loads := [], fars := [], cycles := 0 })
            (acctMod r.parcel.ctx.val (fun a => { a with core := a.core + x.cycles })
              (parcelEnd k.val r.parcel (if r.isRow then [] else outWords x r.parcel) (x.flags.getLsbD 2) s.d)))
        else s.d } := by
  subst hx
  exact next_of_issues h (by simp only [gdoneAct, h.1])

end Rest

section Rows

variable (s : State) (k : CluNo)

theorem exec_parcelStart : exec (.parcelStart k) s = .next { s with d := parcelStart s.nv k.val s.d } := rfl
theorem exec_kernelLoad : exec (.kernelLoad k) s = .next { s with d := kernelLoad s.nv k.val s.d } := rfl
theorem exec_semwaitRelease (i : Fin 64) : exec (.semwaitRelease k i) s = .next { s with d := semRelease k.val i.val s.d } := rfl
theorem exec_barrierRelease (i : Fin 8) : exec (.barrierRelease k i) s = .next { s with d := barRelease k.val i.val s.d } := rfl

end Rows

/-- Settles O23: one lemma for each operation, by the cases of its condition. -/
theorem parcelsAndSynchronisation : Obligations.ParcelsAndSynchronisation := by
  rintro s k j w r x rfl
  refine ⟨?start, ?startNot, ?loadNot, ?load, ?semwait, ?semRelease, ?semReleaseNot, ?sempost, ?barrier, ?barRelease,
    ?barReleaseNot, ?evwaitIllegal, ?evaddIllegal, ?evaddNot, ?gdoneNot, ?evReturnNot, ?evwait, ?evReturn, ?evadd,
    fun _ _ => exec_fenceCore_of_issues, fun _ _ => exec_fenceFar_of_issues, ?gdone⟩
  case start =>
    intro p rest n kd i f hp hidle hk hctx htakes
    rw [exec_parcelStart]
    refine ⟨fun hs => ?_, fun hs hf => ⟨_, rfl, ?_⟩⟩
    · rw [parcelStart_of_shipped hp hidle hk hctx htakes hs, parcelTaken]
    · rw [parcelStart_of_frame hp hidle hk hctx htakes hs hf rfl, parcelTaken]
  case startNot =>
    intro h
    rw [exec_parcelStart, parcelStart_of_waits h]
  case loadNot =>
    intro h
    rw [exec_kernelLoad, kernelLoad_of_none h]
  case load =>
    intro p rest kd i f hp hk hfree hs hmiss htakes
    rw [exec_kernelLoad]
    exact ⟨fun e he => by rw [kernelLoad_of_unread hp hk hfree hs hmiss htakes he],
      fun bs hbs => by rw [kernelLoad_of_read hp hk hfree hs hmiss htakes hbs]⟩
  case semwait =>
    intro obj a n h hn
    rw [exec_semwait_of_issues h hn]
    refine ⟨fun h0 => by rw [if_pos h0], fun h0 hfirst hle => by rw [if_neg h0, if_pos ⟨hfirst, hle⟩], fun h0 hwaits => ?_⟩
    rw [if_neg h0, if_neg]
    rintro ⟨hfirst, hle⟩
    exact hwaits.elim (· hfirst) (Nat.not_lt.2 hle)
  case semRelease =>
    intro i c n rest hw hn
    rw [exec_semwaitRelease, semRelease_of_served hw hn]
  case semReleaseNot =>
    intro i h
    rw [exec_semwaitRelease, semRelease_of_waits h]
  case sempost =>
    intro obj a n h hn
    rw [exec_sempost_of_issues h hn]
    exact ⟨fun hle => by rw [if_neg (Nat.not_lt.2 hle)], fun hlt => by rw [if_pos hlt]⟩
  case barrier =>
    intro obj a n b h hn hb
    rw [exec_barrier_of_issues h hn hb]
    refine ⟨fun hobj h1 h64 hgen => ?_, fun hbad => by rw [if_pos hbad]⟩
    rw [if_neg]
    rintro (hobj' | rfl | h64' | ⟨hsome, hne⟩)
    · omega
    · omega
    · omega
    · exact hgen.elim hsome hne
  case barRelease =>
    intro i b hb hsome hall
    rw [exec_barrierRelease, barRelease_of_all hb hsome hall]
  case barReleaseNot =>
    intro i b hb h
    rw [exec_barrierRelease, barRelease_of_waits hb h]
  case evwaitIllegal =>
    intro obj a h hobj
    rw [exec_evwait_of_issues h, if_pos hobj]
  case evaddIllegal =>
    intro obj a h hobj
    rw [exec_evadd_of_issues h, if_pos hobj]
  case evaddNot =>
    intro obj a h hobj hfar
    rw [exec_evadd_of_issues h, if_neg (Nat.not_le.2 hobj), hfar]
    rfl
  case gdoneNot =>
    intro obj a h hfar
    rw [exec_gdone_of_issues h rfl, hfar]
    rfl
  case evReturnNot =>
    intro i v hwait hr hpassed
    rw [exec_evwaitReturn, evReturn_of_wait hwait hr, hpassed]
    rfl
  case evwait =>
    intro obj a h hobj
    rw [exec_evwait_of_issues h, if_neg (Nat.not_le.2 hobj)]
  case evReturn =>
    intro i v hwait hr hpassed
    rw [exec_evwaitReturn, evReturn_of_wait hwait hr, if_pos hpassed]
  case evadd =>
    intro obj a h hobj hfar
    rw [exec_evadd_of_issues h, if_neg (Nat.not_le.2 hobj), if_pos hfar]
  case gdone =>
    intro obj a h hfar
    rw [exec_gdone_of_issues h rfl, if_pos hfar]

end Sys2Proof.Machine
end

section
/-! SUPPORT. Stripe sets (O48): the members of a set in the order of their stacks, and the places of its offsets. -/

namespace Sys2Proof.Machine

/-! ### The members of a set in order (R212) -/

theorem bitsFrom_eq_filter (w i n : Nat) : bitsFrom w i n = ((List.range w).filter n.testBit).map (· + i) := by
  induction w generalizing i n with
  | zero => rfl
  | succ w ih =>
    have hbits : (n.testBit ∘ Nat.succ) = (n / 2).testBit := funext fun x => Nat.testBit_succ n x
    have hshift : ((· + i) ∘ Nat.succ) = (· + (i + 1)) := funext fun x => Nat.succ_add_eq_add_succ x i
    unfold bitsFrom
    rw [ih, List.range_succ_eq_map, List.filter_cons, List.filter_map, hbits, Nat.testBit_zero]
    split <;> simp [*]

/-- The members of a mask are the stacks whose bits are set, ascending. -/
theorem bitsOf_eq_filter (w n : Nat) : bitsOf w n = (List.range w).filter n.testBit := by
  simp [bitsOf, bitsFrom_eq_filter]

/-- Member number `i` of those that `p` picks below `n` has `i` of them below itself. -/
theorem length_filter_range_getElem {p : Nat → Bool} {n i : Nat} (hi : i < ((List.range n).filter p).length) :
    ((List.range ((List.range n).filter p)[i]).filter p).length = i := by
  induction n with
  | zero => exact absurd hi (Nat.not_lt_zero i)
  | succ n ih =>
    have hsplit : (List.range (n + 1)).filter p = (List.range n).filter p ++ [n].filter p := by
      rw [List.range_succ, List.filter_append]
    by_cases hlow : i < ((List.range n).filter p).length
    · simp only [hsplit, List.getElem_append_left hlow]
      exact ih hlow
    · have hlen := congrArg List.length hsplit
      have hlast := List.length_filter_le p [n]
      rw [List.length_append] at hlen
      rw [List.length_singleton] at hlast
      have hilast : i = ((List.range n).filter p).length := by omega
      have hmem : ((List.range (n + 1)).filter p)[i] ∈ [n].filter p := by
        simp only [hsplit, List.getElem_append_right (Nat.le_of_not_lt hlow), List.getElem_mem]
      rw [List.mem_singleton.1 (List.mem_of_mem_filter hmem), hilast]

section Set

variable {s : StripeSet} {o : Nat}

theorem members_pos (ho : o < setBytes s) : 0 < (bitsOf 32 s.mask).length := by
  refine Nat.pos_of_ne_zero fun hz => ?_
  simp [setBytes, hz] at ho

theorem stackOf_eq_getElem (ho : o < setBytes s) :
    stackOf s o = (bitsOf 32 s.mask)[o / 2048 % (bitsOf 32 s.mask).length]'(Nat.mod_lt _ (members_pos ho)) :=
  List.getD_eq_getElem _ _ _

/-- The stack of an offset is a member of its set. -/
theorem stackOf_mem (ho : o < setBytes s) : stackOf s o < 32 ∧ s.mask.testBit (stackOf s o) = true := by
  have hmem : stackOf s o ∈ bitsOf 32 s.mask := stackOf_eq_getElem ho ▸ List.getElem_mem _
  rw [bitsOf_eq_filter] at hmem
  exact ⟨List.mem_range.1 (List.mem_of_mem_filter hmem), List.of_mem_filter hmem⟩

/-- Line `L` lies in member `L mod k` (R213). -/
theorem stackOf_rank (ho : o < setBytes s) :
    ((List.range (stackOf s o)).filter s.mask.testBit).length = o / 2048 % (bitsOf 32 s.mask).length := by
  rw [stackOf_eq_getElem ho]
  simp only [bitsOf_eq_filter]
  exact length_filter_range_getElem _

theorem base_le_bandPlace : s.base * 2 ^ 21 ≤ bandPlace s o := by unfold bandPlace; omega

theorem bandPlace_lt_band (ho : o < setBytes s) : bandPlace s o < (s.base + s.size) * 2 ^ 21 := by
  unfold setBytes at ho
  unfold bandPlace
  have hline : o / 2048 / (bitsOf 32 s.mask).length < s.size * 1024 := Nat.div_lt_of_lt_mul (Nat.div_lt_of_lt_mul (by linarith))
  omega

/-! ### The places of a set's offsets (R213, R215) -/

variable {m : Mem} {n : Nat} (hs : setGet m n = s) (ho : o < 2 ^ 41)
include hs ho

theorem physOf_offset (hv : s.valid = true) :
    physOf m (n * 2 ^ 41 + o) = if o < setBytes s then some (stackOf s o * 2 ^ 36 + bandPlace s o) else none := by
  have hset : (n * 2 ^ 41 + o) / 2 ^ 41 = n := by omega
  have hoff : (n * 2 ^ 41 + o) % 2 ^ 41 = o := by omega
  simp only [physOf_eq, hset, hoff, hs, hv, true_and]

theorem lt_setBytes_of_physOf (hv : s.valid = true) {x : Nat} (h : physOf m (n * 2 ^ 41 + o) = some x) :
    o < setBytes s ∧ stackOf s o * 2 ^ 36 + bandPlace s o = x := by
  rw [physOf_offset hs ho hv] at h
  split at h
  · exact ⟨‹_›, Option.some.inj h⟩
  · cases h

end Set

/-- Settles O48: the members are numbered by the set bits below them, and `offset_inj` tells places apart. -/
theorem stripesPlaceEachOffsetOnce : Obligations.StripesPlaceEachOffsetOnce := by
  intro m n s _ hs hv _ _ hfit
  refine ⟨fun o ho hge => ?_, fun o ho hlt => ?_, fun o o' x ho ho' hx hx' => ?_⟩
  · rw [physOf_offset hs ho hv]
    exact if_neg (Nat.not_lt.2 hge)
  · obtain ⟨hstack, hmember⟩ := stackOf_mem hlt
    exact ⟨stackOf s o, bandPlace s o, hstack, hmember, stackOf_rank hlt, rfl, base_le_bandPlace, bandPlace_lt_band hlt,
      by rw [physOf_offset hs ho hv]; exact if_pos hlt⟩
  · obtain ⟨hlt, hp⟩ := lt_setBytes_of_physOf hs ho hv hx
    obtain ⟨hlt', hp'⟩ := lt_setBytes_of_physOf hs ho' hv hx'
    exact offset_inj hfit hlt hlt' (hp.trans hp'.symm)

end Sys2Proof.Machine
end

section
/-! SUPPORT. The commands on fuses, packages and escalation (O14), each by the cases of its operation. -/

namespace Sys2Proof.Machine

section Fuses

variable {nv : NonVol} {d : Device} {t : Nat} {x : Taken}

/-- `withTakenNv` runs the command where steps 5 and 6 of R371 pass. -/
theorem withTakenNv_of_served {op : Nat} {f : Taken → NonVol → Device → NonVol × Device}
    (hx : freshTaken d op t = some x) (hst : stateStatus nv d x.ring x.entry = 0) : withTakenNv op t f nv d = f x nv d := by
  simp only [withTakenNv, hx, hst, if_true]

/-! ### FUSE_WRITE (R356, R443) -/

@[simp] theorem failedCheck_cons_true (n st : Nat) (l : List (Bool × Nat)) :
    failedCheck n ((true, st) :: l) = failedCheck (n + 1) l := rfl
@[simp] theorem failedCheck_cons_false (n st : Nat) (l : List (Bool × Nat)) :
    failedCheck n ((false, st) :: l) = some (n, st) := rfl

section Policy

/-- The checks of FUSE_WRITE on the record `w` for the mask `mask`, from check 2 on (R443). -/
def fuseChecks (nv : NonVol) (w mask : Nat) : List (Bool × Nat) :=
  [(decide (w = pack [(0, 4, 4), (32, 4, mask)] ∧ mask ≠ 0), stMalformed), (decide (mask ≠ nv.policyMask), stState),
    (decide (nv.policyChanges < 8), stNoResource)]

variable {w mask : Nat}

section Checks

theorem fuseChecks_of_malformed (h : w ≠ pack [(0, 4, 4), (32, 4, mask)] ∨ mask = 0) :
    failedCheck 2 (fuseChecks nv w mask) = some (2, stMalformed) := by
  have hbad : ¬(w = pack [(0, 4, 4), (32, 4, mask)] ∧ mask ≠ 0) := fun hok => h.elim (· hok.1) hok.2
  rw [fuseChecks, decide_eq_false hbad, failedCheck_cons_false]

variable (hok : w = pack [(0, 4, 4), (32, 4, mask)] ∧ mask ≠ 0)
include hok

theorem fuseChecks_of_same (hsame : mask = nv.policyMask) :
    failedCheck 2 (fuseChecks nv w mask) = some (3, stState) := by
  rw [fuseChecks, decide_eq_true hok, decide_eq_false (not_not.2 hsame), failedCheck_cons_true, failedCheck_cons_false]

variable (hnew : mask ≠ nv.policyMask)
include hnew

theorem fuseChecks_of_spent (hspent : 8 ≤ nv.policyChanges) :
    failedCheck 2 (fuseChecks nv w mask) = some (4, stNoResource) := by
  rw [fuseChecks, decide_eq_true hok, decide_eq_true hnew, decide_eq_false (Nat.not_lt.2 hspent), failedCheck_cons_true,
    failedCheck_cons_true, failedCheck_cons_false]

theorem fuseChecks_of_left (hleft : nv.policyChanges < 8) : failedCheck 2 (fuseChecks nv w mask) = none := by
  rw [fuseChecks, decide_eq_true hok, decide_eq_true hnew, decide_eq_true hleft]
  rfl

end Checks

variable (hw : w = dNat d.mem (eArg x.entry 0) 64) (hmask : mask = fld w 32 4)
include hw hmask

theorem fuseWrite_of_failed {i st : Nat} (h : failedCheck 2 (fuseChecks nv w mask) = some (i, st)) :
    fuseWrite t x nv d = (nv, complete nv t st i 0 d) := by
  unfold fuseChecks at h
  unfold fuseWrite
  dsimp only
  rw [← hw, ← hmask, h]

theorem fuseWrite_of_passed (h : failedCheck 2 (fuseChecks nv w mask) = none) {r : NonVol × Device}
    (hr : r = fuseAppend 4 (nv.policyChanges + 1) 1 x.port.val nv.policyMask mask
      { nv with policyMask := mask, policyChanges := nv.policyChanges + 1 } d) :
    fuseWrite t x nv d = (r.1, complete r.1 t stOK 0xFFFF 0 r.2) := by
  unfold fuseChecks at h
  unfold fuseWrite
  dsimp only
  rw [← hw, ← hmask, h, hr]

end Policy

/-! ### TEST_PACKAGE (R438) -/

theorem testPackage_of_noHeader (h : packageHeader (dNat d.mem (eArg x.entry 0) 64) = none) :
    testPackage t x nv d = complete nv t stMalformed 0xFFFF 0 d := by
  simp only [testPackage, h]

theorem testPackage_of_header {p : TestPkg} (h : packageHeader (dNat d.mem (eArg x.entry 0) 64) = some p) :
    testPackage t x nv d =
      if Config.factorySignature (dRead d.mem (eArg x.entry 0) (dNat d.mem (eArg x.entry 0 + 12) 4)) then
        complete nv t stOK 0xFFFF 0 { d with flt := { d.flt with pkg := some p } }
      else complete nv t stSignature 0xFFFF 0 d := by
  simp only [testPackage, h]

end Fuses

/-! ### The rows of the command table -/

section Rows

variable {s : State} {t : Nat} {x : Taken} (hst : stateStatus s.nv s.d x.ring x.entry = 0)
include hst

theorem exec_stackRetire_of_served (hx : freshTaken s.d 0x20 t = some x) : exec (.stackRetire t) s =
    .next { s with nv := (stackRetire t x s.nv s.d).1, d := (stackRetire t x s.nv s.d).2 } := by
  simp only [exec, execStackRetire, onBoth, withTakenNv_of_served hx hst]

theorem exec_fuseWrite_of_served (hx : freshTaken s.d 0x21 t = some x) : exec (.fuseWrite t) s =
    .next { s with nv := (fuseWrite t x s.nv s.d).1, d := (fuseWrite t x s.nv s.d).2 } := by
  simp only [exec, execFuseWrite, onBoth, withTakenNv_of_served hx hst]

theorem exec_testPackage_of_served (hx : freshTaken s.d 0x22 t = some x) : exec (.testPackage t) s =
    .next { s with d := testPackage t x s.nv s.d } := by
  simp only [exec, execTestPackage, onDev, withTaken_of_served hx hst]

theorem exec_escalate_of_served (hx : freshTaken s.d 0x23 t = some x) : exec (.escalate t) s =
    .next { s with d := escalate t x s.nv s.d } := by
  simp only [exec, execEscalate, onDev, withTaken_of_served hx hst]

end Rows

/-- Settles O14: one lemma for each outcome of FUSE_WRITE and TEST_PACKAGE; ESCALATE by its level. -/
theorem fusesChangeOnlyByTheirCommands : Obligations.FusesChangeOnlyByTheirCommands := by
  intro s t x hst
  refine ⟨?retire, ?change, ?refused, ?noHeader, ?header, ?level⟩
  case retire =>
    rintro hx r rfl
    rw [exec_stackRetire_of_served hst hx]
    simp only [stackRetire, memMod, List.length_append, List.length_singleton]
  case change =>
    intro hx mask hne hnew hleft hword hmask r hr
    rw [exec_fuseWrite_of_served hst hx,
      fuseWrite_of_passed rfl hmask.symm (fuseChecks_of_left ⟨hword, hne⟩ hnew hleft) hr]
  case refused =>
    intro hx w mask hw hmask
    rw [exec_fuseWrite_of_served hst hx]
    refine ⟨fun hbad => ?_, fun hword hne hsame => ?_, fun hword hne hnew hspent => ?_⟩
    · rw [fuseWrite_of_failed hw hmask (fuseChecks_of_malformed hbad)]
    · rw [fuseWrite_of_failed hw hmask (fuseChecks_of_same ⟨hword, hne⟩ hsame)]
    · rw [fuseWrite_of_failed hw hmask (fuseChecks_of_spent ⟨hword, hne⟩ hnew hspent)]
  case noHeader =>
    intro hx h
    rw [exec_testPackage_of_served hst hx, testPackage_of_noHeader h]
  case header =>
    intro hx p h
    rw [exec_testPackage_of_served hst hx, testPackage_of_header h]
    exact ⟨fun hsig => by rw [if_pos hsig], fun hsig => by rw [hsig]; rfl⟩
  case level =>
    intro hx
    rw [exec_escalate_of_served hst hx]
    refine ⟨fun h => ?_, fun h => ?_, fun h => ?_, fun h => ?_, fun h => ?_⟩
    all_goals simp only [escalate, h]

end Sys2Proof.Machine
end

section
/-! SUPPORT. Memory control and multicast (O26): stripe sets, invalidation, the MEM registers that act, and the deliveries of
multicast trees, each by the cases of its operation. -/

namespace Sys2Proof.Machine

section MemoryControl

variable {nv : NonVol} {d : Device}

theorem ownerWrite_of_owner {p : Port} {f : NonVol → Device → Device} (hw : hostWrites nv d p = true)
    (ho : isOwner d p = true) : ownerWrite p f nv d = f nv d := by
  simp [ownerWrite, hw, ho]

theorem ownerWrite_of_other {p : Port} {f : NonVol → Device → Device} (hw : hostWrites nv d p = true)
    (ho : isOwner d p = false) : ownerWrite p f nv d = denied d := by
  simp [ownerWrite, hw, ho]

/-! ### VALIDATE and INVALIDATE (R214, R246) -/

section Sets

variable {i : Nat}

theorem setCtrl_validate (nv : NonVol) (i : Nat) (d : Device) : setCtrl nv i 0x100 d =
    if (setGet d.mem i).valid then setMod i (fun x => { x with error := 0 }) d
    else if validateError nv d.mem i ≠ 0 then setMod i (fun x => { x with error := validateError nv d.mem i }) d
    else setMod i (fun x => { x with valid := true, error := 0 }) d := rfl

theorem setCtrl_invalidate (nv : NonVol) (i : Nat) (d : Device) : setCtrl nv i 0x200 d =
    if !(setGet d.mem i).valid then setMod i (fun x => { x with error := 0 }) d
    else if d.mem.dump / 2 ^ 41 = i ∨ d.mem.synlog / 2 ^ 41 = i then setMod i (fun x => { x with error := 5 }) d
    else setMod i (fun x => { x with valid := false, draining := true, error := 0 }) d := rfl

theorem setCtrl_validate_of_valid (hv : (setGet d.mem i).valid = true) :
    setCtrl nv i 0x100 d = setMod i (fun x => { x with error := 0 }) d := by
  rw [setCtrl_validate, if_pos hv]

theorem setCtrl_validate_of_invalid (hv : (setGet d.mem i).valid = false) : setCtrl nv i 0x100 d =
    if validateError nv d.mem i ≠ 0 then setMod i (fun x => { x with error := validateError nv d.mem i }) d
    else setMod i (fun x => { x with valid := true, error := 0 }) d := by
  rw [setCtrl_validate, hv]; rfl

theorem setCtrl_invalidate_of_invalid (hv : (setGet d.mem i).valid = false) :
    setCtrl nv i 0x200 d = setMod i (fun x => { x with error := 0 }) d := by
  rw [setCtrl_invalidate, hv]; rfl

theorem setCtrl_invalidate_of_valid (hv : (setGet d.mem i).valid = true) : setCtrl nv i 0x200 d =
    if d.mem.dump / 2 ^ 41 = i ∨ d.mem.synlog / 2 ^ 41 = i then setMod i (fun x => { x with error := 5 }) d
    else setMod i (fun x => { x with valid := false, draining := true, error := 0 }) d := by
  rw [setCtrl_invalidate, hv]; rfl

/-- Some tag that has not landed reads from set `i`. -/
def setBusy (d : Device) (i : Nat) : Bool :=
  d.clus.any fun e => e.2.tags.any fun t => t.landed.isNone && t.dpas.any fun a => a * 64 / 2 ^ 41 == i

theorem setBusy_iff : setBusy d i = true ↔
    ∃ e ∈ d.clus, ∃ t ∈ e.2.tags, t.landed = none ∧ ∃ a ∈ t.dpas, a * 64 / 2 ^ 41 = i := by
  simp only [setBusy, List.any_eq_true, Bool.and_eq_true, Option.isNone_iff_eq_none, beq_iff_eq]

theorem setDrainEnd_of_not (h : (setGet d.mem i).draining = false ∨ setBusy d i = true) : setDrainEnd i d = d := by
  refine if_neg fun ⟨hdrain, hidle⟩ => ?_
  change (!setBusy d i) = true at hidle
  rcases h with h | h
  · exact Bool.false_ne_true (h.symm.trans hdrain)
  · rw [h] at hidle; cases hidle

theorem setDrainEnd_of_idle (hdrain : (setGet d.mem i).draining = true) (hidle : setBusy d i = false) :
    setDrainEnd i d = setMod i (fun x => { x with draining := false }) d := by
  refine if_pos ⟨hdrain, ?_⟩
  change (!setBusy d i) = true
  rw [hidle]; rfl

end Sets

/-! ### Invalidation (R219, R245) -/

theorem invalGo_of_clear {v : Nat} (h : bit v 0 = false) : invalGo v d = d := by
  simp [invalGo, h]

theorem invalGo_of_set {v : Nat} (h : bit v 0 = true) : invalGo v d =
    memMod (fun m => if d.mem.inval.isSome then { m with invRefused := true }
      else { m with inval := some (m.invAll, m.invCtx, m.invVa, m.invCount) }) d := by
  unfold invalGo
  rw [h]
  cases hr : d.mem.inval.isSome <;> simp [memMod, hr]

theorem invalComplete_of_none (h : d.mem.inval = none) : invalComplete d = d := by
  simp only [invalComplete, h]

/-- A cluster still reads or writes what the invalidation `q` names. -/
def invalBusy (d : Device) (q : Bool × Nat × Nat × Nat) : Bool :=
  d.clus.any fun e =>
    (e.2.tags.any fun t => t.landed.isNone && t.words.any fun w => invalHits q t.ctx.val (w * 64) 64) ||
      ((outWrites e.2 ++ e.2.combining).any fun w => q.1 || q.2.1 == w.ctx.val)

section Inval

variable {q : Bool × Nat × Nat × Nat}

theorem invalBusy_iff : invalBusy d q = true ↔
    ∃ e ∈ d.clus, (∃ t ∈ e.2.tags, t.landed = none ∧ ∃ w ∈ t.words, invalHits q t.ctx.val (w * 64) 64 = true) ∨
      ∃ w ∈ outWrites e.2 ++ e.2.combining, q.1 = true ∨ q.2.1 = w.ctx.val := by
  simp only [invalBusy, List.any_eq_true, Bool.or_eq_true, Bool.and_eq_true, Option.isNone_iff_eq_none, beq_iff_eq]

variable (h : d.mem.inval = some q)
include h

theorem invalComplete_of_busy (hb : invalBusy d q = true) : invalComplete d = d := by
  unfold invalBusy at hb
  simp only [invalComplete, h, hb, if_true]

theorem invalComplete_of_idle (hb : invalBusy d q = false) : invalComplete d =
    memMod (fun m => { m with inval := none, invSeq := wrapInc 16 m.invSeq })
      (clusMap (fun _ x => { x with xlates := x.xlates.filter fun t => !invalHits q t.ctx t.va t.size }) d) := by
  unfold invalBusy at hb
  simp only [invalComplete, h, hb, Bool.false_eq_true, if_false]

end Inval

/-! ### Registers that act (R235, R245, R474) -/

theorem dumpHi_eq {v a : Nat} (ha : a = v % 4096 * 4294967296 + d.mem.dumpStage.getD (d.mem.dump % 4294967296)) :
    dumpHi v d = memMod (fun m => { m with dump := if dpaOk d.mem a 67108864 then a else m.dump, dumpStage := none }) d := by
  simp only [dumpHi, memMod, ha, Nat.reducePow, Nat.reduceMul]

theorem synlogHi_eq {v a : Nat} (ha : a = v % 4096 * 4294967296 + d.mem.synStage.getD (d.mem.synlog % 4294967296)) :
    synlogHi v d = memMod (fun m => { m with synlog := if dpaOk d.mem a 131072 then a else m.synlog, synStage := none }) d := by
  simp only [synlogHi, memMod, ha, Nat.reducePow, Nat.reduceMul]

end MemoryControl

/-! ### MULTICAST_REQUEST (R230) -/

/-- The delivery is of chunk `key` of entry `idx` of context `c` on tree `t`. -/
def deliversChunk (t : Nat) (c : CtxNo) (idx key : Nat) (v : Delivery) : Bool :=
  decide (v.tree = t ∧ v.ctx = c ∧ v.idx = idx ∧ v.chunk = key)

/-- Member `k` joins the delivery of a chunk at its source. -/
def joinDelivery (k t : Nat) (c : CtxNo) (idx key : Nat) (x : Cluster) : Cluster :=
  { x with
    deliveries := x.deliveries.map fun v => if deliversChunk t c idx key v then { v with members := insAsc k v.members } else v
    tags := x.tags.map fun g => if g.ctx = c ∧ g.dlv = some (idx, key) then { g with waiting := insAsc k g.waiting } else g }

section Multicast

variable {nv : NonVol} {d : Device} {k u : Nat}

theorem multicastRequest_of_not (h : ((fetchInfo d k u).all fun q =>
    decide (q.1.mcast.isSome = true ∨ onTree d k q.1.ctx.val q.2 = false ∨
      chunkDue q.2 q.1 (countsOf d q.1.ctx.val q.1.idx) (trusted d q.1.ctx.val q.1.idx) (u == claimPlace) = none ∨
      ((treeSource d (ctxGet d q.1.ctx.val).part.val q.2.x.wTree).all fun src => !takesUnits nv d src) = true)) = true) :
    multicastRequest nv k u d = d := by
  unfold multicastRequest
  split
  · rfl
  · next r i hi =>
    rw [hi, Option.all_some, decide_eq_true_eq] at h
    dsimp only
    split
    · next src due hsrc hdue =>
      rw [hdue, hsrc] at h
      refine if_pos ?_
      rcases h with h | h | h | h
      · exact .inr (.inl h)
      · exact .inl (by rw [h]; rfl)
      · cases h
      · exact .inr (.inr h)
    · rfl

variable {r : UnitRun} {i : StreamInfo} (hi : fetchInfo d k u = some (r, i))
include hi

section Request

variable {src due key : Nat} (hkey : key = chunkKey i r due)
  (hsrc : treeSource d (ctxGet d r.ctx.val).part.val i.x.wTree = some src)
  (hdue : chunkDue i r (countsOf d r.ctx.val r.idx) (trusted d r.ctx.val r.idx) (u == claimPlace) = some due)
  (hon : onTree d k r.ctx.val i = true) (hmc : r.mcast = none) (htakes : takesUnits nv d src = true)
  {d1 : Device} (hd1 : d1 = unitMod k u (fun x => { x with mcast := some due }) d)
include hkey hsrc hdue hon hmc htakes hd1

/-- A request for a chunk that is due joins a delivery that is open, starts one where there is none and room for it, or
waits. -/
theorem multicastRequest_of_due : multicastRequest nv k u d =
    if (cluGet d1 src).deliveries.any fun v => deliversChunk i.x.wTree r.ctx r.idx key v && !v.closed then
      cluMod src (joinDelivery k i.x.wTree r.ctx r.idx key) d1
    else if !((cluGet d1 src).deliveries.any (deliversChunk i.x.wTree r.ctx r.idx key)) &&
        decide ((treeDeliveries (cluGet d1 src) i.x.wTree).length < 2) then
      deliveryStart src ⟨(ctxGet d r.ctx.val).part, i.x.wTree, r.ctx, r.idx, key, [k],
        fullW i r (countsOf d r.ctx.val r.idx) due, false⟩ d1
    else cluMod src (fun x => { x with mcWait := x.mcWait ++ [(i.x.wTree, r.ctx.val, r.idx, key, k)] }) d1 := by
  have hgo : ¬((!onTree d k r.ctx.val i) = true ∨ r.mcast.isSome = true ∨ (!takesUnits nv d src) = true) := by
    simp [hon, hmc, htakes]
  subst hkey hd1
  simp only [multicastRequest, hi, hsrc, hdue, if_neg hgo]
  rfl

theorem multicastRequest_of_open
    (h : ((cluGet d1 src).deliveries.any fun v => deliversChunk i.x.wTree r.ctx r.idx key v && !v.closed) = true) :
    multicastRequest nv k u d = cluMod src (joinDelivery k i.x.wTree r.ctx r.idx key) d1 := by
  rw [multicastRequest_of_due hi hkey hsrc hdue hon hmc htakes hd1, if_pos h]

theorem multicastRequest_of_full
    (hopen : ((cluGet d1 src).deliveries.any fun v => deliversChunk i.x.wTree r.ctx r.idx key v && !v.closed) = false)
    (h : (cluGet d1 src).deliveries.any (deliversChunk i.x.wTree r.ctx r.idx key) = true ∨
      2 ≤ (treeDeliveries (cluGet d1 src) i.x.wTree).length) : multicastRequest nv k u d =
    cluMod src (fun x => { x with mcWait := x.mcWait ++ [(i.x.wTree, r.ctx.val, r.idx, key, k)] }) d1 := by
  rw [multicastRequest_of_due hi hkey hsrc hdue hon hmc htakes hd1, if_neg (by rw [hopen]; exact Bool.false_ne_true), if_neg]
  rcases h with h | h
  · simp [h]
  · simp [Nat.not_lt.2 h]

theorem multicastRequest_of_room
    (hnone : (cluGet d1 src).deliveries.any (deliversChunk i.x.wTree r.ctx r.idx key) = false)
    (hroom : (treeDeliveries (cluGet d1 src) i.x.wTree).length < 2) : multicastRequest nv k u d =
    deliveryStart src ⟨(ctxGet d r.ctx.val).part, i.x.wTree, r.ctx, r.idx, key, [k],
      fullW i r (countsOf d r.ctx.val r.idx) due, false⟩ d1 := by
  rw [multicastRequest_of_due hi hkey hsrc hdue hon hmc htakes hd1, if_neg, if_pos (by simp [hnone, hroom])]
  intro hopen
  obtain ⟨v, hv, hsame⟩ := List.any_eq_true.1 hopen
  rw [List.any_eq_false] at hnone
  exact hnone v hv (Bool.and_eq_true _ _ ▸ hsame).1

end Request

end Multicast

/-! ### MULTICAST_DELIVERY_START (R230) -/

/-- The chunk that the waiting request `w` names has a delivery on tree `t`. -/
def requestServed (x : Cluster) (t : Nat) (w : Nat × Nat × Nat × Nat × Nat) : Bool :=
  x.deliveries.any fun v => decide (v.tree = t ∧ v.ctx.val = w.2.1 ∧ v.idx = w.2.2.1 ∧ v.chunk = w.2.2.2.1)

/-- The oldest waiting request of tree `t` whose chunk has no delivery. -/
def oldestRequest (x : Cluster) (t : Nat) : Option (Nat × Nat × Nat × Nat × Nat) :=
  x.mcWait.find? fun w => decide (w.1 = t) && !requestServed x t w

/-- The request `q` is for the chunk on tree `t` that `w` waits for. -/
def sameRequest (t : Nat) (w q : Nat × Nat × Nat × Nat × Nat) : Bool :=
  decide (q.1 = t ∧ q.2.1 = w.2.1 ∧ q.2.2.1 = w.2.2.1 ∧ q.2.2.2.1 = w.2.2.2.1)

section Start

variable {d : Device} {p t : Nat}

theorem multicastStart_of_not (h : ((treeSource d p t).all fun src => decide (2 ≤ (treeDeliveries (cluGet d src) t).length) ||
    (cluGet d src).mcWait.all fun w => decide (w.1 ≠ t) || requestServed (cluGet d src) t w) = true) :
    multicastStart p t d = d := by
  unfold multicastStart
  split
  · rfl
  · next src hsrc =>
    rw [hsrc, Option.all_some, Bool.or_eq_true, decide_eq_true_eq] at h
    dsimp only
    split
    · rfl
    · next w hw =>
      refine if_pos (h.resolve_right fun hall => ?_)
      have hnot := List.all_eq_true.1 hall w (List.mem_of_find?_eq_some hw)
      have hwaits := List.find?_some hw
      change (decide (w.1 = t) && !requestServed (cluGet d src) t w) = true at hwaits
      simp only [Bool.and_eq_true, decide_eq_true_eq, Bool.not_eq_true'] at hwaits
      simp [hwaits.1, hwaits.2] at hnot

variable {src : Nat} {w : Nat × Nat × Nat × Nat × Nat} (hsrc : treeSource d p t = some src)
  (hroom : (treeDeliveries (cluGet d src) t).length < 2) (hw : oldestRequest (cluGet d src) t = some w)
include hsrc hroom hw

/-- The oldest request leaves the queue alone where its unit is gone. -/
theorem multicastStart_of_gone (hu : unitOf d w.2.2.2.2 w.2.1 w.2.2.1 = none) :
    multicastStart p t d = cluMod src (fun x => { x with mcWait := x.mcWait.erase w }) d := by
  unfold oldestRequest requestServed at hw
  simp only [multicastStart, hsrc, hw, if_neg (Nat.not_le.2 hroom), hu]

/-- The oldest request leaves the queue with every other request for its chunk. -/
theorem multicastStart_of_unit {r : UnitRun} {i : StreamInfo} (hu : unitOf d w.2.2.2.2 w.2.1 w.2.2.1 = some (r, i)) :
    multicastStart p t d =
      deliveryStart src ⟨(ctxGet d w.2.1).part, t, r.ctx, r.idx, w.2.2.2.1,
        bitsOf 768 (ofBits (((cluGet d src).mcWait.filter (sameRequest t w)).map (·.2.2.2.2))),
        fullW i r (countsOf d w.2.1 r.idx) (w.2.2.2.1 % 2 ^ 24), false⟩
        (cluMod src (fun x => { x with mcWait := x.mcWait.filter fun q => !sameRequest t w q }) d) := by
  unfold oldestRequest requestServed at hw
  unfold sameRequest
  simp only [multicastStart, hsrc, hw, if_neg (Nat.not_le.2 hroom), hu]

end Start

/-! ### MULTICAST_ACCEPT and MULTICAST_TIMEOUT (R231 to R233) -/

/-- A tag of the chunk is staged for member `k`, or the delivery has words that no tag has taken. -/
def moreToAccept (x : Cluster) (c : CtxNo) (idx key k : Nat) : Bool :=
  (x.tags.any fun t => t.ctx = c && t.dlv == some (idx, key) && t.waiting.contains k) ||
    x.deliveries.any fun v => decide (v.ctx = c ∧ v.idx = idx ∧ v.chunk = key) && v.words ≠ []

/-- A landed tag of the chunk has waited for member `k` beyond the timeout of tree `tr` (R232). -/
def keptTooLong (now : Nat) (tr : Tree) (x : Cluster) (c : CtxNo) (idx key k : Nat) : Bool :=
  x.tags.any fun t => t.ctx = c && t.dlv == some (idx, key) && t.waiting.contains k &&
    (t.landed.map fun l => decide (l + treeTimeout tr ≤ now)).getD false

/-- Member `k` belongs to a delivery of the chunk, or its request for it waits (R233). -/
def deliveryHeld (x : Cluster) (c : CtxNo) (idx key k : Nat) : Bool :=
  (x.deliveries.any fun v => decide (v.ctx = c ∧ v.idx = idx ∧ v.chunk = key) && v.members.contains k) ||
    x.mcWait.any fun w => decide (w.2.1 = c.val ∧ w.2.2.1 = idx ∧ w.2.2.2.1 = key ∧ w.2.2.2.2 = k)

section Member

variable {d : Device} {k u : Nat}

theorem multicastAccept_of_not (h : ((fetchInfo d k u).all fun q => q.1.mcast.all fun due =>
    (treeSource d (ctxGet d q.1.ctx.val).part.val q.2.x.wTree).all fun src =>
      (tagFor (cluGet d src) q.1.ctx q.1.idx (chunkKey q.2 q.1 due) k).all fun t => t.2.landed.isNone) = true) :
    multicastAccept k u d = d := by
  unfold multicastAccept
  split
  · rfl
  · next r i hi =>
    rw [hi, Option.all_some] at h
    split
    · next src due hsrc hdue =>
      rw [hdue, hsrc, Option.all_some, Option.all_some] at h
      dsimp only
      split
      · rfl
      · next n t ht =>
        rw [ht, Option.all_some] at h
        exact if_pos h
    · rfl

theorem multicastTimeout_of_not (h : ((fetchInfo d k u).all fun q => q.1.mcast.isNone ||
    (treeSource d (ctxGet d q.1.ctx.val).part.val q.2.x.wTree).isNone ||
    (treeGet d (ctxGet d q.1.ctx.val).part.val q.2.x.wTree).isNone) = true) : multicastTimeout k u d = d := by
  unfold multicastTimeout
  split
  · rfl
  · next r i hi =>
    rw [hi, Option.all_some] at h
    dsimp only
    split
    · next tr src due htr hsrc hdue =>
      rw [htr, hsrc, hdue] at h
      cases h
    · rfl

variable {r : UnitRun} {i : StreamInfo} (hi : fetchInfo d k u = some (r, i)) {src due key : Nat}
  (hkey : key = chunkKey i r due) (hsrc : treeSource d (ctxGet d r.ctx.val).part.val i.x.wTree = some src)
  (hmc : r.mcast = some due)
include hi hkey hsrc hmc

theorem multicastAccept_of_landed {n : Nat} {t : Tag} (ht : tagFor (cluGet d src) r.ctx r.idx key k = some (n, t))
    (hlanded : t.landed ≠ none) {left : List Nat} (hleft : left = without t.waiting k) {d1 : Device}
    (hd1 : d1 = cluMod src (fun x => sweepDeliveries { x with tags := lMod x.tags n (fun t => { t with waiting := left }) })
      (unitTakes k u t.words t.bad t.data d)) : multicastAccept k u d =
    if moreToAccept (cluGet d1 src) r.ctx r.idx key k then d1 else unitMod k u (fun r => { r with mcast := none }) d1 := by
  have hflown : t.landed.isNone = false := Option.isNone_eq_false_iff.2 (Option.isSome_iff_ne_none.2 hlanded)
  subst hkey hleft hd1
  simp only [multicastAccept, hi, hsrc, hmc, ht, hflown, Bool.false_eq_true, if_false]
  rfl

variable {tr : Tree} (htr : treeGet d (ctxGet d r.ctx.val).part.val i.x.wTree = some tr)
include htr

theorem multicastTimeout_of_tree : multicastTimeout k u d =
    if keptTooLong d.time.now tr (cluGet d src) r.ctx r.idx key k = true ∨
        (!deliveryHeld (cluGet d src) r.ctx r.idx key k) = true then
      runMod r.ctx.val r.idx (fun q => { q with fallback := q.fallback + 1 })
        (unitMod k u (fun r => { r with mcast := none, fell := insAsc due r.fell }) (leaveSets k r.ctx.val r.idx d))
    else d := by
  subst hkey
  simp only [multicastTimeout, hi, hsrc, hmc, htr]
  rfl

theorem multicastTimeout_of_held (hsoon : keptTooLong d.time.now tr (cluGet d src) r.ctx r.idx key k = false)
    (hheld : deliveryHeld (cluGet d src) r.ctx r.idx key k = true) : multicastTimeout k u d = d := by
  rw [multicastTimeout_of_tree hi hkey hsrc hmc htr, if_neg (by simp [hsoon, hheld])]

theorem multicastTimeout_of_late (h : keptTooLong d.time.now tr (cluGet d src) r.ctx r.idx key k = true ∨
    deliveryHeld (cluGet d src) r.ctx r.idx key k = false) : multicastTimeout k u d =
    runMod r.ctx.val r.idx (fun q => { q with fallback := q.fallback + 1 })
      (unitMod k u (fun r => { r with mcast := none, fell := insAsc due r.fell }) (leaveSets k r.ctx.val r.idx d)) := by
  rw [multicastTimeout_of_tree hi hkey hsrc hmc htr, if_pos (h.imp_right (Bool.not_eq_true' _ ▸ ·))]

end Member

/-! ### The rows of the command table -/

section Rows

variable (s : State) (p : Port) (v : Word) (k : CluNo) (u : Nat)

theorem exec_validate (i : Fin 8) : exec (.validate p i) s =
    .next { s with d := ownerWrite p (fun nv d => setCtrl nv i.val 0x100 d) s.nv s.d } := rfl
theorem exec_invalidate (i : Fin 8) : exec (.invalidate p i) s =
    .next { s with d := ownerWrite p (fun nv d => setCtrl nv i.val 0x200 d) s.nv s.d } := rfl
theorem exec_memInvalGo : exec (.memInvalGo p v) s =
    .next { s with d := ownerWrite p (fun _ d => invalGo v.toNat d) s.nv s.d } := rfl
theorem exec_memDumpHi : exec (.memDumpHi p v) s =
    .next { s with d := ownerWrite p (fun _ d => dumpHi v.toNat d) s.nv s.d } := rfl
theorem exec_memSynlogHi : exec (.memSynlogHi p v) s =
    .next { s with d := ownerWrite p (fun _ d => synlogHi v.toNat d) s.nv s.d } := rfl
theorem exec_memBankSel : exec (.memBankSel p v) s =
    .next { s with d := ownerWrite p (fun _ d => bankSel v.toNat d) s.nv s.d } := rfl
theorem exec_setDrainEnd (i : Fin 8) : exec (.setDrainEnd i) s = .next { s with d := setDrainEnd i.val s.d } := rfl
theorem exec_memInvalComplete : exec .memInvalComplete s = .next { s with d := invalComplete s.d } := rfl
theorem exec_multicastRequest : exec (.multicastRequest k u) s =
    .next { s with d := multicastRequest s.nv k.val u s.d } := rfl
theorem exec_multicastDeliveryStart (q : PartNo) (t : Nat) : exec (.multicastDeliveryStart q t) s =
    .next { s with d := multicastStart q.val t s.d } := rfl
theorem exec_multicastAccept : exec (.multicastAccept k u) s = .next { s with d := multicastAccept k.val u s.d } := rfl
theorem exec_multicastTimeout : exec (.multicastTimeout k u) s = .next { s with d := multicastTimeout k.val u s.d } := rfl

end Rows

/-- Settles O26: one lemma for each outcome of a register that acts, of a drain or invalidation, and of a tree's command. -/
theorem memoryControlAndMulticast : Obligations.MemoryControlAndMulticast := by
  intro s p
  refine ⟨?owner, ?other, ?drainNot, ?invalNone, ?invalBusy, ?drain, ?inval, ?request, ?requestNot, ?startNot, ?startGone,
    ?start, ?acceptNot, ?accept, ?timeout, ?timeoutNot⟩
  case owner =>
    intro hw ho
    refine ⟨fun i hv he => ?_, fun i hv he => ?_, fun i hv => ?_, fun i hv => ?_, fun i hv hlog => ?_, fun v hb => ?_,
      fun v hclu => ?_, fun i hv hdump hsyn => ?_, fun v hb => ?_, fun v a ha => ?_,
      fun v a ha => ?_, fun v hclu => ?_⟩
    · rw [exec_validate, ownerWrite_of_owner hw ho, setCtrl_validate_of_invalid hv, if_neg (not_not.2 he)]
    · rw [exec_validate, ownerWrite_of_owner hw ho, setCtrl_validate_of_invalid hv, if_pos he]
    · rw [exec_validate, ownerWrite_of_owner hw ho, setCtrl_validate_of_valid hv]
    · rw [exec_invalidate, ownerWrite_of_owner hw ho, setCtrl_invalidate_of_invalid hv]
    · rw [exec_invalidate, ownerWrite_of_owner hw ho, setCtrl_invalidate_of_valid hv]
      exact congrArg _ (congrArg _ (if_pos hlog))
    · rw [exec_memInvalGo, ownerWrite_of_owner hw ho, invalGo_of_clear hb]
    · rw [exec_memBankSel, ownerWrite_of_owner hw ho, bankSel, if_pos hclu]
    · rw [exec_invalidate, ownerWrite_of_owner hw ho, setCtrl_invalidate_of_valid hv]
      exact congrArg _ (congrArg _ (if_neg (not_or.2 ⟨hdump, hsyn⟩)))
    · rw [exec_memInvalGo, ownerWrite_of_owner hw ho, invalGo_of_set hb]
    · rw [exec_memDumpHi, ownerWrite_of_owner hw ho, dumpHi_eq ha]
    · rw [exec_memSynlogHi, ownerWrite_of_owner hw ho, synlogHi_eq ha]
    · rw [exec_memBankSel, ownerWrite_of_owner hw ho, bankSel, if_neg (Nat.not_le.2 hclu)]
  case other =>
    intro hw ho i v c hc
    simp only [List.mem_cons, List.not_mem_nil, or_false] at hc
    rcases hc with rfl | rfl | rfl | rfl | rfl | rfl
    · rw [exec_validate, ownerWrite_of_other hw ho]
    · rw [exec_invalidate, ownerWrite_of_other hw ho]
    · rw [exec_memInvalGo, ownerWrite_of_other hw ho]
    · rw [exec_memDumpHi, ownerWrite_of_other hw ho]
    · rw [exec_memSynlogHi, ownerWrite_of_other hw ho]
    · rw [exec_memBankSel, ownerWrite_of_other hw ho]
  case drainNot =>
    intro i h
    rw [exec_setDrainEnd, setDrainEnd_of_not (h.imp_right setBusy_iff.2)]
  case drain =>
    intro i hdrain hidle
    have hb : setBusy s.d i.val = false := Bool.eq_false_iff.2 fun hb => by
      obtain ⟨e, he, t, ht, hl, a, ha, hat⟩ := setBusy_iff.1 hb
      exact hidle e he t ht hl a ha hat
    rw [exec_setDrainEnd, setDrainEnd_of_idle hdrain hb]
  case invalNone =>
    intro h
    rw [exec_memInvalComplete, invalComplete_of_none h]
  case invalBusy =>
    intro q hq h
    rw [exec_memInvalComplete, invalComplete_of_busy hq (invalBusy_iff.2 h)]
  case inval =>
    intro q hq hidle
    have hb : invalBusy s.d q = false := Bool.eq_false_iff.2 fun hb => by
      obtain ⟨e, he, ⟨t, ht, hl, w, hw, hhit⟩ | ⟨w, hw, hhit⟩⟩ := invalBusy_iff.1 hb
      · exact Bool.false_ne_true (((hidle e he).1 t ht hl w hw).symm.trans hhit)
      · obtain ⟨hall, hctx⟩ := (hidle e he).2 w hw
        exact hhit.elim (fun h => Bool.false_ne_true (hall.symm.trans h)) hctx
    rw [exec_memInvalComplete, invalComplete_of_idle hq hb]
  case request =>
    intro k u r i src due key hi hkey hsrc hdue hon hmc htakes
    refine ⟨_, rfl, fun hopen => ?_, fun hopen hfull => ?_, fun hnone hroom => ?_⟩
    · rw [exec_multicastRequest, multicastRequest_of_open hi hkey hsrc hdue hon hmc htakes rfl hopen]
      rfl
    · rw [exec_multicastRequest, multicastRequest_of_full hi hkey hsrc hdue hon hmc htakes rfl hopen hfull]
    · rw [exec_multicastRequest, multicastRequest_of_room hi hkey hsrc hdue hon hmc htakes rfl hnone hroom]
  case requestNot =>
    intro k u h
    rw [exec_multicastRequest, multicastRequest_of_not h]
  case startNot =>
    intro q t h
    rw [exec_multicastDeliveryStart, multicastStart_of_not h]
  case startGone =>
    intro q t src w hsrc hroom hw hu
    rw [exec_multicastDeliveryStart, multicastStart_of_gone hsrc hroom hw hu]
  case start =>
    intro q t src w r i hsrc hroom hw hu
    refine ⟨sameRequest t w, rfl, ?_⟩
    rw [exec_multicastDeliveryStart, multicastStart_of_unit hsrc hroom hw hu]
  case acceptNot =>
    intro k u h
    rw [exec_multicastAccept, multicastAccept_of_not h]
  case accept =>
    intro k u r i src due n t key left hi hkey hsrc hmc ht hlanded hleft
    refine ⟨_, rfl, ?_⟩
    rw [exec_multicastAccept, multicastAccept_of_landed hi hkey hsrc hmc ht hlanded hleft rfl]
    rfl
  case timeout =>
    intro k u r i tr src due key hi hkey htr hsrc hmc
    refine ⟨fun hsoon hheld => ?_, fun h => ?_⟩
    · rw [exec_multicastTimeout, multicastTimeout_of_held hi hkey hsrc hmc htr hsoon hheld]
    · rw [exec_multicastTimeout, multicastTimeout_of_late hi hkey hsrc hmc htr h]
  case timeoutNot =>
    intro k u h
    rw [exec_multicastTimeout, multicastTimeout_of_not h]

end Sys2Proof.Machine
end

section
/-! SUPPORT. The receipt of fabric packets and the remap of a dead cluster (O32), each by the cases of its operation. -/

namespace Sys2Proof.Machine

/-! ### PACKET_RECEIVE (R249, R262) -/

/-- Records whether the packet that has just arrived was accepted (R262). -/
def setAccepted (b : Bool) (d : Device) : Device := { d with fabric := { d.fabric with accepted := b } }

section Packets

variable {nv : NonVol} {d : Device} {h : FabricHeader} {bs : List Byte}

/-- The two senders of R262: a ring port, and a cluster under the binding that the receiver's copy holds. -/
theorem packetOk_iff : packetOk nv d h = true ↔
    ((h.srcCluster.toNat = 1023 ∧ ringSite h.srcSite.toNat = true ∧ h.epoch.toNat = 0) ∨
      (h.srcCluster.toNat < 768 ∧ h.srcSite.toNat = (copyGet nv d h.dstSite.toNat h.srcCluster.toNat).site ∧
        h.epoch.toNat = (copyGet nv d h.dstSite.toNat h.srcCluster.toNat).epoch ∧
        (copyGet nv d h.dstSite.toNat h.srcCluster.toNat).fenced = false)) := by
  unfold packetOk
  by_cases hring : h.srcCluster.toNat = 1023
  · simp [hring]
  · simp [hring, and_assoc]

theorem packetReceive_of_fits (hfits : headerFits h = true) (hlen : bs.length + 16 = 64 * h.len.toNat) :
    packetReceive h bs nv d = packetArrive h nv d := by
  simp [packetReceive, hfits, hlen]

theorem packetReceive_of_not_fits (hnot : headerFits h = false ∨ bs.length + 16 ≠ 64 * h.len.toNat) :
    packetReceive h bs nv d = d := by
  rcases hnot with hnot | hnot <;> simp [packetReceive, hnot]

/-- Recording the answer leaves the fences alone, so both tests of the receiver are made on `d`. -/
theorem packetArrive_eq : packetArrive h nv d =
    if packetOk nv d h && receives d h.dstSite.toNat || !receives d h.dstSite.toNat then
      setAccepted (packetOk nv d h && receives d h.dstSite.toNat) d
    else packetDrop nv h (setAccepted (packetOk nv d h && receives d h.dstSite.toNat) d) := rfl

theorem packetArrive_of_no_receiver (hr : receives d h.dstSite.toNat = false) :
    packetArrive h nv d = setAccepted false d := by
  simp [packetArrive_eq, hr]

theorem packetArrive_of_ok (hr : receives d h.dstSite.toNat = true) (hok : packetOk nv d h = true) :
    packetArrive h nv d = setAccepted true d := by
  simp [packetArrive_eq, hr, hok]

/-- A packet was dropped in this millisecond already (R262). -/
def droppedThisMs (nv : NonVol) (d : Device) : Bool :=
  (d.fabric.dropAt.map fun t => decide (nv.up / 1000000 = t / 1000000)).getD false

theorem packetDrop_eq : packetDrop nv h d =
    if droppedThisMs nv d then fltCnt 6 d
    else raiseEv nv 0x22 none (pack [(0, 10, h.srcCluster.toNat), (10, 10, h.srcSite.toNat)])
      (smGet (fltCnt 6 d).flt.cnt 0 6)
      { fltCnt 6 d with fabric := { (fltCnt 6 d).fabric with dropAt := some nv.up } } := rfl

section Refused

variable (hr : receives d h.dstSite.toNat = true) (hok : packetOk nv d h = false)
include hr hok

theorem packetArrive_of_refused : packetArrive h nv d = packetDrop nv h (setAccepted false d) := by
  simp [packetArrive_eq, hr, hok]

theorem packetArrive_of_first_drop (hfirst : droppedThisMs nv d = false) {d1 : Device}
    (hd1 : d1 = fltCnt 6 (setAccepted false d)) : packetArrive h nv d =
    raiseEv nv 0x22 none (pack [(0, 10, h.srcCluster.toNat), (10, 10, h.srcSite.toNat)]) (smGet d1.flt.cnt 0 6)
      { d1 with fabric := { d1.fabric with dropAt := some nv.up } } := by
  have hfirst' : ¬droppedThisMs nv (setAccepted false d) = true := Bool.eq_false_iff.1 hfirst
  rw [packetArrive_of_refused hr hok, packetDrop_eq, if_neg hfirst', hd1]

theorem packetArrive_of_next_drop (hagain : droppedThisMs nv d = true) :
    packetArrive h nv d = fltCnt 6 (setAccepted false d) := by
  have hagain' : droppedThisMs nv (setAccepted false d) = true := hagain
  rw [packetArrive_of_refused hr hok, packetDrop_eq, if_pos hagain']

end Refused

end Packets

/-! ### CLUSTER_REMAP and CLUSTER_REMAP_COMPLETE (R263 to R266) -/

/-- Step 1 of R264: cluster `k` leaves a test, gives back its units and its claim, and is no longer dead. -/
def giveBack (k : Nat) (d : Device) : Device :=
  cluMod k (fun y => { y with
      dead := false, deliveries := [], mcWait := [], wtags := [], tags := y.tags.map fun t => { t with live := false } })
    (clearUnits k (abandonTest k d))

/-- Cluster `k` leaves its binding `b` for the spare `site` under the next epoch, and its old site is quarantined (R264). -/
def moveToSpare (nv : NonVol) (k : Nat) (b : Binding) (site : Nat) (d : Device) : Device :=
  let d2 := rebindGo k b ⟨site, (b.epoch + 1) % 256, true, false⟩
    (cluMod k (fun y => { y with remap := some (b.site, site, nv.up) }) (stateLost nv k b.site site d))
  checkReplace nv { d2 with fabric := { d2.fabric with quarantined := insAsc b.site d2.fabric.quarantined } }

/-- The new site that the fault records name where there is none: a free value. -/
def freeSite (d : Device) : Nat := (Config.freeWord d.fresh).toNat % 1024

theorem freeSite_lt (d : Device) : freeSite d < 1024 := Nat.mod_lt _ (by decide)

/-- Cluster `k` keeps its binding `b`, fenced (R266). -/
def fenceOff (nv : NonVol) (k : Nat) (b : Binding) (d : Device) : Device :=
  checkReplace nv (rebindGo k b { b with fenced := true } (stateLost nv k b.site (freeSite d) (drawFresh 1 d)))

section Remap

variable {nv : NonVol} {d : Device} {k : Nat}

/-- A remap that is due moves the cluster to its spare, or fences it off where there is none. -/
theorem clusterRemap_of_due (hdead : (cluGet d k).dead = true) (hidle : (cluGet d k).remap = none)
    (hproc : procUp d 2 = true) (hgo : remapWaits d = false) {d1 : Device} (hd1 : d1 = giveBack k d) :
    clusterRemap nv k d = (spareFor nv d1 k).elim (fenceOff nv k (bindGet nv d k) d1)
      (fun site => moveToSpare nv k (bindGet nv d k) site d1) := by
  have hdue : ¬(!(cluGet d k).dead || (cluGet d k).remap.isSome || !procUp d 2 || remapWaits d) = true := by
    simp [hdead, hidle, hproc, hgo]
  unfold giveBack at hd1
  unfold clusterRemap
  simp only [if_neg hdue, ← hd1]
  cases spareFor nv d1 k with
  | none => simp only [Option.elim_none, fenceOff, freeSite]
  | some site => simp only [Option.elim_some, moveToSpare]

theorem clusterRemapComplete_of_bound (hremap : (cluGet d k).remap.isSome = true) (hbound : boundAll nv d k = true)
    (hproc : procUp d 2 = true) : clusterRemapComplete nv k d =
    coresPut k Core.init (cluMod k (fun _ => { Cluster.init with
        resetTag := (cluGet d k).resetTag, reset := (cluGet d k).reset.map fun r => (r.1, r.1) })
      { d with fabric := { d.fabric with rebinds := smDel d.fabric.rebinds k } }) :=
  if_pos ⟨hremap, hbound, hproc⟩

end Remap

/-! ### The rows of the command table -/

section Rows

variable (s : State) (k : CluNo)

theorem exec_packetReceive (h : FabricHeader) (bs : List Byte) : exec (.packetReceive ⟨h, bs⟩) s =
    .next { s with d := packetReceive h bs s.nv s.d } := rfl
theorem exec_clusterRemap : exec (.clusterRemap k) s = .next { s with d := clusterRemap s.nv k.val s.d } := rfl
theorem exec_clusterRemapComplete : exec (.clusterRemapComplete k) s =
    .next { s with d := clusterRemapComplete s.nv k.val s.d } := rfl

end Rows

/-- Settles O32: one lemma for each outcome of a packet's receipt, of the start of a remap and of its end. -/
theorem fabricPacketsAndRemap : Obligations.FabricPacketsAndRemap := by
  intro s
  refine ⟨?accepted, ?firstDrop, ?nextDrop, ?noReceiver, ?misfit, fun h => packetOk_iff, ?remap, ?complete⟩
  case accepted =>
    intro h bs hfits hlen hr hok
    rw [exec_packetReceive, packetReceive_of_fits hfits hlen, packetArrive_of_ok hr hok]
    rfl
  case firstDrop =>
    intro h bs hfits hlen hr hok hfirst
    refine ⟨_, rfl, ?_⟩
    rw [exec_packetReceive, packetReceive_of_fits hfits hlen, packetArrive_of_first_drop hr hok hfirst rfl]
    rfl
  case nextDrop =>
    intro h bs hfits hlen hr hok hagain
    rw [exec_packetReceive, packetReceive_of_fits hfits hlen, packetArrive_of_next_drop hr hok hagain]
    rfl
  case noReceiver =>
    intro h bs hfits hlen hr
    rw [exec_packetReceive, packetReceive_of_fits hfits hlen, packetArrive_of_no_receiver hr]
    rfl
  case misfit =>
    intro h bs hnot
    rw [exec_packetReceive, packetReceive_of_not_fits hnot]
  case remap =>
    rintro k b d1 hdead hidle hproc hgo rfl hd1
    rw [exec_clusterRemap, clusterRemap_of_due hdead hidle hproc hgo hd1]
    refine ⟨fun site hs => ⟨_, rfl, ?_⟩, fun hs => ⟨freeSite d1, freeSite_lt d1, ?_⟩⟩
    · rw [hs]
      rfl
    · rw [hs]
      rfl
  case complete =>
    intro k m hremap hbound hproc
    rw [exec_clusterRemapComplete, clusterRemapComplete_of_bound (hremap ▸ rfl) hbound hproc]

end Sys2Proof.Machine
end

section
/-! SUPPORT. The receipt of a packet at a cage and on its flow (R276, R277, R279, R280), and the data packets that land (O9). -/

namespace Sys2Proof.Machine

/-! ### A packet at a cage and on its flow -/

/-- Packet `q` takes effect at cage `g` of `d`, and `d1` is the device then: it reaches a cage that is up and holds no
packet, or it stands first in the cage's queue (R280). -/
def TakenAt (d : Device) (g : Nat) (q : StavaPacket) (d1 : Device) : Prop :=
  (cageGet d g).rxq = [] ∧ cageUp d g = true ∧ d1 = cageCnt g 3 d ∨
    ∃ t, (cageGet d g).rxq = q :: t ∧ d1 = cageMod g (fun y => { y with rxq := t }) d

/-- Packet `q` is on receive flow `x`, held or opened by it, and `d2` is the device with the flow's time noted (R276). -/
def OnFlow (nv : NonVol) (d1 : Device) (q : StavaPacket) (x : RxFlow) (d2 : Device) : Prop :=
  rxGet d1 q.srcNode.toNat q.flow.toNat = some x ∧ d2 = rxPut { x with lastAt := nv.up } d1 ∨
    rxGet d1 q.srcNode.toNat q.flow.toNat = none ∧ q.openF = true ∧ d1.link.rx.length < 4096 ∧
      x = ⟨q.srcNode.toNat, q.flow.toNat, q.seq.toNat, [], 0, nv.up, false, nv.up, 7⟩ ∧ d2 = rxPut x d1

/-- How far ahead of the flow's acknowledgement the packet's number stands (R277). -/
def aheadOf (q : StavaPacket) (x : RxFlow) : Nat := (q.seq.toNat + 2 ^ 24 - x.ackSeq) % 2 ^ 24

section Cage

variable {d d1 : Device} {g : Nat} {q : StavaPacket} {act : Device → Device}

theorem cageTake_of_taken (h : TakenAt d g q d1) : cageTake g q act d = act d1 := by
  rcases h with ⟨hempty, hup, rfl⟩ | ⟨t, hfirst, rfl⟩
  · simp only [cageTake, hempty, hup, if_true]
  · simp only [cageTake, hfirst, if_true]

theorem cageTake_of_down (hempty : (cageGet d g).rxq = []) (hdown : cageUp d g = false) : cageTake g q act d = d := by
  simp only [cageTake, hempty, hdown, Bool.false_eq_true, if_false]

theorem cageTake_of_behind {h : StavaPacket} {t : List StavaPacket} (hfirst : (cageGet d g).rxq = h :: t) (hne : h ≠ q) :
    cageTake g q act d = if cageUp d g then rxPush g q (cageCnt g 3 d) else d := by
  simp only [cageTake, hfirst, if_neg hne]

end Cage

section Flow

variable {nv : NonVol} {d1 d2 : Device} {q : StavaPacket} {x : RxFlow} {land : Device → Device}

theorem flowData_of_other_node (hdst : q.dstNode.toNat ≠ d1.link.node) : flowData nv q land d1 = d1 := if_pos hdst

variable (hdst : q.dstNode.toNat = d1.link.node)
include hdst

theorem flowData_of_late (hlate : inTime d1 q = false) : flowData nv q land d1 = linkCnt 3 d1 := by
  simp [flowData, hdst, hlate]

variable (htime : inTime d1 q = true)
include htime

theorem flowData_of_no_flow (hnone : rxGet d1 q.srcNode.toNat q.flow.toNat = none) : flowData nv q land d1 =
    if q.openF = false then d1
    else if 4096 ≤ d1.link.rx.length then linkCnt 4 d1
    else landed nv q
      (land (rxPut ⟨q.srcNode.toNat, q.flow.toNat, q.seq.toNat, [], 0, nv.up, false, nv.up, 7⟩ d1)) := by
  simp [flowData, hdst, htime, hnone]

theorem flowData_of_held (hheld : rxGet d1 q.srcNode.toNat q.flow.toNat = some x) : flowData nv q land d1 =
    if x.landed.contains q.seq.toNat = true ∨ 2 ^ 23 ≤ aheadOf q x then
      ackSend q.srcNode.toNat q.flow.toNat (linkCnt 5 (rxPut { x with lastAt := nv.up } d1))
    else if aheadOf q x < 256 then landed nv q (land (rxPut { x with lastAt := nv.up } d1))
    else rxPut { x with lastAt := nv.up } d1 := by
  have hnode : ¬q.dstNode.toNat ≠ d1.link.node := not_not.2 hdst
  have hfresh : ¬(!inTime d1 q) = true := by simp [htime]
  unfold flowData
  simp only [if_neg hnode, if_neg hfresh, hheld]
  rfl

omit hdst htime in
/-- The packet that opens a flow is the next one of it. -/
theorem OnFlow.held_of_not_next (hflow : OnFlow nv d1 q x d2)
    (h : x.landed.contains q.seq.toNat = true ∨ 256 ≤ aheadOf q x) :
    rxGet d1 q.srcNode.toNat q.flow.toNat = some x ∧ d2 = rxPut { x with lastAt := nv.up } d1 := by
  rcases hflow with hheld | ⟨-, -, -, rfl, -⟩
  · exact hheld
  · simp [aheadOf] at h

theorem flowData_of_next (hflow : OnFlow nv d1 q x d2) (hnew : x.landed.contains q.seq.toNat = false)
    (hnear : aheadOf q x < 256) : flowData nv q land d1 = landed nv q (land d2) := by
  rcases hflow with ⟨hheld, rfl⟩ | ⟨hnone, hopen, hroom, rfl, rfl⟩
  · have hnot : ¬(x.landed.contains q.seq.toNat = true ∨ 2 ^ 23 ≤ aheadOf q x) := by
      simp only [hnew, Bool.false_eq_true, false_or]
      omega
    rw [flowData_of_held hdst htime hheld, if_neg hnot, if_pos hnear]
  · rw [flowData_of_no_flow hdst htime hnone, if_neg (by simp [hopen]), if_neg (Nat.not_le.2 hroom)]

theorem flowData_of_seen (hflow : OnFlow nv d1 q x d2)
    (hseen : x.landed.contains q.seq.toNat = true ∨ 2 ^ 23 ≤ aheadOf q x) :
    flowData nv q land d1 = ackSend q.srcNode.toNat q.flow.toNat (linkCnt 5 d2) := by
  obtain ⟨hheld, rfl⟩ := hflow.held_of_not_next (hseen.imp_right (le_trans (by decide)))
  rw [flowData_of_held hdst htime hheld, if_pos hseen]

theorem flowData_of_ahead (hflow : OnFlow nv d1 q x d2) (hnew : x.landed.contains q.seq.toNat = false)
    (hfar : 256 ≤ aheadOf q x) (hless : aheadOf q x < 2 ^ 23) : flowData nv q land d1 = d2 := by
  obtain ⟨hheld, rfl⟩ := hflow.held_of_not_next (.inr hfar)
  have hnot : ¬(x.landed.contains q.seq.toNat = true ∨ 2 ^ 23 ≤ aheadOf q x) := by
    simp only [hnew, Bool.false_eq_true, false_or]
    omega
  rw [flowData_of_held hdst htime hheld, if_neg hnot, if_neg (Nat.not_lt.2 hfar)]

end Flow

/-! ### What the data packets do where they are accepted -/

section Land

variable {nv : NonVol} {d : Device} {q : StavaPacket} {st : Nat}

theorem writeTake_of_refused (h : winCheck d q true q.payload.length = some st) :
    writeTake nv q d = refusePacket nv q st d := by
  simp [writeTake, writeLand, h]

/-- The BROADCASTs of `d` whose block the WRITE belongs to (R325). -/
def fedRuns (q : StavaPacket) (d : Device) : List CollRun :=
  d.coll.runs.filter fun r => blockLanded q.window.toNat q.offset.toNat q.payload.length r ≠ r

theorem writeTake_of_accepted (h : winCheck d q true q.payload.length = none) {e : Device}
    (he : e = acctMod (fld (winDesc d q.window.toNat) 8 8) (fun a => { a with linkRx := a.linkRx + q.payload.length })
      (winLand nv (winDesc d q.window.toNat) q.offset.toNat q.payload d)) :
    writeTake nv q d = (fedRuns q d).foldl (fun d r => msgWork nv r d)
      { e with coll := { e.coll with
        runs := e.coll.runs.map (blockLanded q.window.toNat q.offset.toNat q.payload.length) } } := by
  subst he
  simp only [writeTake, writeLand, h, Option.isNone_none, if_true]
  rfl

theorem readLand_of_refused (h : winCheck d q false q.length.toNat = some st) :
    readLand nv q d = refusePacket nv q st d := by
  simp only [readLand, h]

/-- The READ_DATA that answers a READ_REQ, on flow selector `q.flow % 16` of the window's context (R289). -/
def readAnswer (nv : NonVol) (q : StavaPacket) (d : Device) : StavaPacket :=
  { dataPacket nv d (fld (winDesc d q.window.toNat) 8 8) q.srcNode.toNat (q.flow.toNat % 16) 2 with
    status := if (winBytes d (winDesc d q.window.toNat) q.offset.toNat q.length.toNat).2.isEmpty then 0 else 3
    tag := q.tag
    payload := (winBytes d (winDesc d q.window.toNat) q.offset.toNat q.length.toNat).1
    poison := (winBytes d (winDesc d q.window.toNat) q.offset.toNat q.length.toNat).2 }

theorem readLand_of_accepted (h : winCheck d q false q.length.toNat = none) :
    readLand nv q d = txPost nv q.srcNode.toNat (fld (winDesc d q.window.toNat) 8 8 * 16 + q.flow.toNat % 16)
      (TxPacket.plain (readAnswer nv q d))
      (winCharge nv (winDesc d q.window.toNat) q.offset.toNat q.length.toNat d) := by
  simp only [readLand, h, readAnswer]

/-- The outstanding read that `q` answers: the one of its remote tag (R289). -/
def readOf (q : StavaPacket) (d : Device) : Option RemoteRead :=
  d.link.reads.find? fun r => decide (r.tag = q.tag.toNat ∧ r.node = q.srcNode.toNat)

/-- Read `r` is over, and its context is charged with the `n` bytes that came (R289). -/
def readOver (r : RemoteRead) (n : Nat) (d : Device) : Device :=
  acctMod r.ctx.val (fun a => { a with linkRx := a.linkRx + n })
    { d with link := { d.link with reads := d.link.reads.filter (· ≠ r) } }

theorem readDataLand_of_none (h : readOf q d = none) : readDataLand nv q d = d := by
  unfold readOf at h
  simp only [readDataLand, h]

/-- Where the bytes of a read start in the code word of its first byte (R289). -/
def readStart (r : RemoteRead) : Nat := ((r.parts.head?).map fun p => remoteKey p.1 p.2.1 % 64).getD 0

theorem readStart_of_cons {r : RemoteRead} {p : Nat × Nat × Nat} {t : List (Nat × Nat × Nat)} (hparts : r.parts = p :: t) :
    readStart r = remoteKey p.1 p.2.1 % 64 := by
  rw [readStart, hparts, List.head?_cons, Option.map_some, Option.getD_some]

section Read

variable {r : RemoteRead} (hr : readOf q d = some r)
include hr

theorem readDataLand_of_no_unit (hunit : r.unit = none) :
    readDataLand nv q d = txPumpAll nv (readOver r q.payload.length d) := by
  unfold readOf at hr
  simp only [readDataLand, hr, hunit, readOver]

theorem readDataLand_of_unit {k u : Nat} (hunit : r.unit = some (k, u)) :
    readDataLand nv q d = txPumpAll nv (unitMod k u (partsLand (readStart r) r.parts q.payload q.poison)
      (readOver r q.payload.length d)) := by
  unfold readOf at hr
  simp only [readDataLand, hr, hunit]
  rfl

end Read

theorem responseLand_of_ok (h : responseStatus q = 0) : responseLand q d = d := by
  simp only [responseLand, h, if_true]

theorem responseStatus_of_refusal (h : q.status = 1 ∨ q.status = 2) :
    responseStatus q = (if q.status = 2 then stStale else stWindow) ∧ responseStatus q ≠ 0 := by
  rcases h with h | h <;> simp [responseStatus, h, stStale, stWindow]

section Refusal

variable (hst : responseStatus q ≠ 0)
include hst

theorem responseLand_of_read {r : RemoteRead} (hr : readOf q d = some r) :
    responseLand q d = readFail r (responseStatus q) (some (r.node, r.flow, r.seq)) d := by
  unfold readOf at hr
  simp only [responseLand, if_neg hst, hr]

theorem responseLand_of_write {p : TxPacket} (hr : readOf q d = none)
    (hp : ((d.link.tx.flatMap (·.sent) ++ d.link.past).find? fun p =>
      decide (p.tag = q.tag.toNat ∧ p.pkt.dstNode = q.srcNode ∧ p.pkt.op = 0)) = some p) :
    responseLand q d = ownerFail p (responseStatus q) (packetPlace p) d := by
  unfold readOf at hr
  simp only [responseLand, if_neg hst, hr, hp]

end Refusal

end Land

/-! ### The rows of the command table -/

section Rows

variable (g : CageNo) (q : StavaPacket) (s : State)

theorem exec_write : exec (.write g q) s = .next { s with d := receiveData s.nv g q (writeTake s.nv q) s.d } := rfl
theorem exec_readReq : exec (.readReq g q) s = .next { s with d := receiveData s.nv g q (readLand s.nv q) s.d } := rfl
theorem exec_readData : exec (.readData g q) s = .next { s with d := receiveData s.nv g q (readDataLand s.nv q) s.d } := rfl
theorem exec_response : exec (.response g q) s = .next { s with d := receiveData s.nv g q (responseLand q) s.d } := rfl
theorem exec_revokeNotice : exec (.revokeNotice g q) s = .next { s with d := receiveData s.nv g q (noticeLand q) s.d } := rfl

/-! A row of a collective message does what its operation does to the collective that the message names (R303, R304). -/

theorem exec_partial : exec (.partial_ g q) s =
    .next { s with d := msgReceive s.nv g q 0 (partialLand s.nv q) s.d } := rfl
theorem exec_result : exec (.result g q) s =
    .next { s with d := msgReceive s.nv g q 1 (resultLand s.nv q) s.d } := rfl
theorem exec_ready : exec (.ready g q) s =
    .next { s with d := msgReceive s.nv g q 2 (readyLand s.nv q) s.d } := rfl
theorem exec_allReady : exec (.allReady g q) s =
    .next { s with d := msgReceive s.nv g q 3 (allReadyLand q) s.d } := rfl
theorem exec_straggler : exec (.straggler g q) s =
    .next { s with d := msgReceive s.nv g q 4 (stragglerLand s.nv q) s.d } := rfl
theorem exec_record : exec (.record g q) s =
    .next { s with d := msgReceive s.nv g q 5 (recordLand s.nv q) s.d } := rfl
theorem exec_normTotal : exec (.normTotal g q) s =
    .next { s with d := msgReceive s.nv g q 6 (normTotalLand s.nv q) s.d } := rfl
theorem exec_digest : exec (.digest g q) s =
    .next { s with d := msgReceive s.nv g q 7 (digestLand s.nv q) s.d } := rfl
theorem exec_grant : exec (.grant g q) s =
    .next { s with d := msgReceive s.nv g q 8 (grantLand s.nv q) s.d } := rfl
theorem exec_arrival : exec (.arrival g q) s =
    .next { s with d := msgReceive s.nv g q 9 (arrivalLand s.nv q) s.d } := rfl
theorem exec_refuse : exec (.refuse g q) s =
    .next { s with d := if q.op = 5 ∧ msgKind q = 10 then receiveData s.nv g q (refuseLand s.nv q) s.d else s.d } := rfl

/-- The rows of the messages that name a collective, each with its KIND (R303). -/
def messageRows : List (Nat × (CageNo → StavaPacket → Instr)) :=
  [(0, .partial_), (1, .result), (2, .ready), (3, .allReady), (4, .straggler), (5, .record), (6, .normTotal), (7, .digest),
    (8, .grant), (9, .arrival)]

variable {g q s}

theorem exec_messageRow {p : Nat × (CageNo → StavaPacket → Instr)} (hp : p ∈ messageRows) :
    ∃ land, exec (p.2 g q) s = .next { s with d := msgReceive s.nv g q p.1 land s.d } := by
  simp only [messageRows, List.mem_cons, List.not_mem_nil, or_false] at hp
  rcases hp with rfl | rfl | rfl | rfl | rfl | rfl | rfl | rfl | rfl | rfl
  exacts [⟨_, exec_partial ..⟩, ⟨_, exec_result ..⟩, ⟨_, exec_ready ..⟩, ⟨_, exec_allReady ..⟩, ⟨_, exec_straggler ..⟩,
    ⟨_, exec_record ..⟩, ⟨_, exec_normTotal ..⟩, ⟨_, exec_digest ..⟩, ⟨_, exec_grant ..⟩, ⟨_, exec_arrival ..⟩]

/-- What a message does where it is accepted: `land` to the collective that it names and the sender is a member of, else
the refusal (R304). -/
def msgTake (nv : NonVol) (q : StavaPacket) (land : CollRun → Device → Device) (d : Device) : Device :=
  let d := acctMod ((((msgRuns d q).head?).map (·.ctx.val)).getD 256) (fun a => { a with linkRx := a.linkRx + q.payload.length }) d
  match msgRuns d q, (msgRuns d q).find? (fun r => fromMember r q) with
  | _, some r => land r d
  | [], none => msgRefuse nv q stStale d
  | _, none => msgRefuse nv q stWindow d

theorem msgReceive_of_kind {nv : NonVol} {k : Nat} {land : CollRun → Device → Device} {d : Device} (hop : q.op = 5)
    (hkind : msgKind q = k) : msgReceive nv g q k land d = receiveData nv g q (msgTake nv q land) d := if_pos ⟨hop, hkind⟩

theorem msgReceive_of_other_kind {nv : NonVol} {k : Nat} {land : CollRun → Device → Device} {d : Device}
    (hkind : msgKind q ≠ k) : msgReceive nv g q k land d = d := if_neg fun h => hkind h.2

theorem exec_refuse_of_kind (hop : q.op = 5) (hkind : msgKind q = 10) : exec (.refuse g q) s =
    .next { s with d := receiveData s.nv g q (refuseLand s.nv q) s.d } := by
  rw [exec_refuse, if_pos ⟨hop, hkind⟩]

/-- Command `c` is the row of a data packet or of a collective message `q`. -/
def IsPacketRow (g : CageNo) (q : StavaPacket) (c : Instr) : Prop :=
  c ∈ ([.write g q, .readReq g q, .readData g q, .response g q, .revokeNotice g q] : List Instr) ∨
    ∃ p ∈ messageRows ++ [(10, .refuse)], q.op = 5 ∧ msgKind q = p.1 ∧ c = p.2 g q

/-- Every row of a packet receives it; the rows differ in what the packet does where it is accepted. -/
theorem exec_packetRow {c : Instr} (h : IsPacketRow g q c) :
    ∃ land, exec c s = .next { s with d := receiveData s.nv g q land s.d } := by
  rcases h with hdata | ⟨p, hp, hop, hkind, rfl⟩
  · simp only [List.mem_cons, List.not_mem_nil, or_false] at hdata
    rcases hdata with rfl | rfl | rfl | rfl | rfl
    exacts [⟨_, exec_write ..⟩, ⟨_, exec_readReq ..⟩, ⟨_, exec_readData ..⟩, ⟨_, exec_response ..⟩, ⟨_, exec_revokeNotice ..⟩]
  · rcases List.mem_append.1 hp with hrow | hlast
    · obtain ⟨land, hland⟩ := exec_messageRow (g := g) (q := q) (s := s) hrow
      exact ⟨_, by rw [hland, msgReceive_of_kind hop hkind]⟩
    · obtain rfl := List.mem_singleton.1 hlast
      exact ⟨_, exec_refuse_of_kind hop hkind⟩

end Rows

section Received

variable {nv : NonVol} {g : CageNo} {q : StavaPacket} {d d1 d2 : Device} {x : RxFlow} {land : Device → Device}

/-- A packet that takes effect, for this node and in time. -/
structure Arrives (d : Device) (g : CageNo) (q : StavaPacket) (d1 : Device) : Prop where
  taken : TakenAt d g.val q d1
  here : q.dstNode.toNat = d1.link.node
  inTime : inTime d1 q = true

theorem receiveData_of_taken (h : TakenAt d g.val q d1) : receiveData nv g q land d = flowData nv q land d1 :=
  cageTake_of_taken h

/-- A packet that is the next, or nearly, of its flow does what it is for, and enters the flow's record. -/
theorem receiveData_of_next (h : Arrives d g q d1) (hflow : OnFlow nv d1 q x d2)
    (hnew : x.landed.contains q.seq.toNat = false) (hnear : aheadOf q x < 256) :
    receiveData nv g q land d = landed nv q (land d2) := by
  rw [receiveData_of_taken h.taken, flowData_of_next h.here h.inTime hflow hnew hnear]

end Received

/-- Settles O9: a packet takes effect by `receiveData_of_next`, with one lemma for each outcome of each kind of packet; the
packets that are not taken, and those that are not the next of their flow, by the cases of `cageTake` and `flowData`. The
queueing (log entry 125) and what a RESPONSE is matched with (log entry 58) are the model's choices. -/
theorem packetsInOrderLandWithTheirEffect : Obligations.PacketsInOrderLandWithTheirEffect := by
  refine ⟨?accepted, ?dropped⟩
  case accepted =>
    intro s g q x d1 d2 htaken hhere htime hflow
    have harr : Arrives s.d g q d1 := ⟨htaken, hhere, htime⟩
    refine ⟨fun hnew hnear => ?_, fun c hc => ?_⟩
    · have hland (land : Device → Device) : receiveData s.nv g q land s.d = landed s.nv q (land d2) :=
        receiveData_of_next harr hflow hnew hnear
      simp only [exec_write, exec_readReq, exec_readData, exec_response, exec_revokeNotice, hland]
      refine ⟨?write, ?writeRefused, ?readRefused, ?responseOk, ?responseWrite, ?dataLate, ?read, ?data, ?dataUnit,
        ?responseRead, trivial⟩
      case write =>
        intro e hok he
        rw [writeTake_of_accepted hok he]
        rfl
      case writeRefused =>
        intro st hst
        rw [writeTake_of_refused hst]
      case readRefused =>
        intro st hst
        rw [readLand_of_refused hst]
      case responseOk =>
        intro hok
        rw [responseLand_of_ok hok]
      case responseWrite =>
        intro p hst hr hp
        rw [responseLand_of_write hst hr hp]
      case dataLate =>
        intro hr
        rw [readDataLand_of_none hr]
      case read =>
        intro hok
        rw [readLand_of_accepted hok]
        rfl
      case data =>
        intro r hr hunit
        rw [readDataLand_of_no_unit hr hunit]
        rfl
      case dataUnit =>
        intro r k u p t hr hunit hparts
        rw [readDataLand_of_unit hr hunit, readStart_of_cons hparts]
        rfl
      case responseRead =>
        intro r hr _ hst
        obtain ⟨hstatus, hne⟩ := responseStatus_of_refusal hst
        rw [responseLand_of_read hne hr, hstatus]
    · obtain ⟨land, hland⟩ := exec_packetRow (s := s) hc
      rw [hland, receiveData_of_taken htaken]
      refine ⟨fun hseen => ?_, fun hnew hfar hless => ?_⟩
      · rw [flowData_of_seen hhere htime hflow hseen]
      · rw [flowData_of_ahead hhere htime hflow hnew hfar hless]
  case dropped =>
    intro s g q d1 c hc
    obtain ⟨land, hland⟩ := exec_packetRow (s := s) hc
    simp only [hland]
    refine ⟨fun hempty hdown => ?_, fun h t hfirst hne => ?_, fun htaken => ?_⟩
    · rw [receiveData, cageTake_of_down hempty hdown]
    · rw [receiveData, cageTake_of_behind hfirst hne]
    · rw [receiveData_of_taken htaken]
      refine ⟨fun hother => ?_, fun hhere hlate => ?_, fun hhere htime hnone => ⟨fun hopen => ?_, fun hopen hfull => ?_⟩⟩
      · rw [flowData_of_other_node hother]
      · rw [flowData_of_late hhere hlate]
      · rw [flowData_of_no_flow hhere htime hnone, if_pos hopen]
      · rw [flowData_of_no_flow hhere htime hnone, if_neg (by simp [hopen]), if_pos hfull]

end Sys2Proof.Machine
end

section
/-! SUPPORT. The collective messages (O31): whom a message reaches, and what each kind does where it is awaited (R304 to R326). -/

namespace Sys2Proof.Machine

section Acceptance

variable {nv : NonVol} {q : StavaPacket} {r : CollRun} {d0 d2 : Device} {land : CollRun → Device → Device}

/-- LINK_RX of the context that the message is for is charged with its bytes (R398). -/
def msgCharge (q : StavaPacket) (d : Device) : Device :=
  acctMod ((((msgRuns d q).head?).map (·.ctx.val)).getD 256) (fun a => { a with linkRx := a.linkRx + q.payload.length }) d

theorem msgTake_of_member (hd2 : d2 = msgCharge q d0)
    (hr : (msgRuns d2 q).find? (fun r => fromMember r q) = some r) : msgTake nv q land d0 = land r d2 := by
  subst hd2
  unfold msgCharge at hr
  simp only [msgTake, hr]
  rfl

theorem msgTake_of_stranger (hd2 : d2 = msgCharge q d0)
    (hnone : (msgRuns d2 q).find? (fun r => fromMember r q) = none) :
    msgTake nv q land d0 = msgRefuse nv q (if msgRuns d2 q = [] then stStale else stWindow) d2 := by
  subst hd2
  unfold msgCharge at hnone ⊢
  simp only [msgTake, hnone]
  split <;> simp_all

/-- The counter of a refusal: 3 where no collective of the message is in progress, else 4 (R330). -/
theorem refusalCount_eq {l : List CollRun} :
    (if (if l = [] then stStale else stWindow) = stStale then 3 else 4) = if l = [] then 3 else 4 := by
  by_cases h : l = []
  · simp only [h, if_true]
  · rw [if_neg h, if_neg h, if_neg (by decide)]

theorem msgRefuse_of_message (hkind : msgKind q ≠ 10) :
    msgRefuse nv q (if msgRuns d2 q = [] then stStale else stWindow) d2 =
      refuseSend nv q (if msgRuns d2 q = [] then stStale else stWindow)
        (collCnt (if msgRuns d2 q = [] then 3 else 4) d2) := by
  simp only [msgRefuse, if_neg hkind, refusalCount_eq]

/-- A REFUSE names no collective of its own (R303). -/
theorem kind_ne_of_mem_messageRows {p : Nat × (CageNo → StavaPacket → Instr)} (hp : p ∈ messageRows) : p.1 ≠ 10 := by
  have hkinds : p.1 ∈ messageRows.map (·.1) := List.mem_map_of_mem hp
  exact fun h => absurd (h ▸ hkinds) (by decide)

/-- The collective of the group that a REFUSE names and a node of which sends it (R304). -/
def refusedRun (q : StavaPacket) (d : Device) : Option CollRun :=
  (msgRuns d q).find? fun r => r.group.members.any fun m => decide (m.node = q.srcNode.toNat)

theorem refuseLand_of_run (hr : refusedRun q d0 = some r) :
    refuseLand nv q d0 = collFail r.ctx.val r.tag (msgStatus q) d0 := by
  unfold refusedRun at hr
  simp only [refuseLand, hr]

theorem refuseLand_of_none (hnone : refusedRun q d0 = none) (hkind : msgKind q = 10) :
    refuseLand nv q d0 = collCnt (if msgRuns d0 q = [] then 3 else 4) d0 := by
  unfold refusedRun at hnone
  simp only [refuseLand, hnone, msgRefuse, if_pos hkind, List.isEmpty_iff, refusalCount_eq]

end Acceptance

section Messages

variable {nv : NonVol} {q : StavaPacket} {r : CollRun} {d : Device} {j e n : Nat}

/-! ### PARTIAL and RESULT (R305 to R308) -/

/-- The members that a member's PARTIALs come from. -/
def partialFrom (r : CollRun) : List Nat := if r.tree then heapChildren r.size r.me else ringPrev r.size r.me
/-- The members that a member's RESULTs come from. -/
def resultFrom (r : CollRun) : List Nat := if r.tree then heapParent r.me else ringPrev r.size r.me
/-- The place of a PARTIAL among the inputs of its chunk's sum. -/
def partialKey (q : StavaPacket) (r : CollRun) : Nat :=
  2 * msgChunk q + (if r.tree then msgMember q - 2 * r.me - 1 else 0)

/-- The PARTIAL is awaited: chunk `j` of `n` elements lacks it, and its sender is the one that it comes from. -/
def PartialAwaited (q : StavaPacket) (r : CollRun) (j n : Nat) : Prop :=
  r.desc.reduces = true ∧ msgMember q ∈ partialFrom r ∧ partialKey q r ∈ sumInputs r (msgChunk q) j ∧ msgChunk q ∉ r.added ∧
    msgElements q = n ∧ q.payload.length = 4 * n

theorem partialLand_of_awaited (hc : r.chunk (msgChunk q) = some (j, e, n)) (h : PartialAwaited q r j n) :
    partialLand nv q r d = msgWork nv r (collMod r.ctx.val r.tag (fun r' => { r' with
      inbox := smIns r'.inbox (partialKey q r) (wordsIn n q.payload) }) d) := by
  obtain ⟨hop, hfrom, hkey, hnew, hn, hlen⟩ := h
  unfold partialKey partialFrom at *
  unfold partialLand
  simp only [hc]
  exact if_pos ⟨hop, List.contains_iff_mem.2 hfrom, List.contains_iff_mem.2 hkey, by simpa using hnew, hn, hlen⟩

theorem partialLand_of_not_awaited (h : ∀ j e n, r.chunk (msgChunk q) = some (j, e, n) → ¬PartialAwaited q r j n) :
    partialLand nv q r d = d := by
  unfold PartialAwaited partialKey partialFrom at h
  unfold partialLand
  cases hc : r.chunk (msgChunk q) with
  | none => simp only [hc]
  | some c =>
    obtain ⟨j, e, n⟩ := c
    simp only [hc]
    refine if_neg fun ⟨hop, hfrom, hkey, hnew, hn, hlen⟩ => h j e n hc ?_
    exact ⟨hop, List.contains_iff_mem.1 hfrom, List.contains_iff_mem.1 hkey, by simpa using hnew, hn, hlen⟩

/-- The RESULT is awaited: a SUM's chunk `j` of `n` elements comes from its sender, and this member holds none of it. -/
def ResultAwaited (q : StavaPacket) (r : CollRun) (j n : Nat) : Prop :=
  r.desc.op = 0 ∧ msgMember q ∈ resultFrom r ∧ r.holds j = false ∧ msgChunk q ∉ r.results ∧ msgElements q = n ∧
    q.payload.length = 4 * n

theorem resultLand_of_awaited (hc : r.chunk (msgChunk q) = some (j, e, n)) (h : ResultAwaited q r j n) :
    resultLand nv q r d = msgWork nv r (collMod r.ctx.val r.tag (fun r' => { r' with
      resIn := smIns r'.resIn (msgChunk q) (wordsIn n q.payload) }) d) := by
  obtain ⟨hop, hfrom, hholds, hnew, hn, hlen⟩ := h
  unfold resultFrom at hfrom
  unfold resultLand
  simp only [hc]
  exact if_pos ⟨hop, List.contains_iff_mem.2 hfrom, by simp [hholds], by simpa using hnew, hn, hlen⟩

theorem resultLand_of_not_awaited (h : ∀ j e n, r.chunk (msgChunk q) = some (j, e, n) → ¬ResultAwaited q r j n) :
    resultLand nv q r d = d := by
  unfold ResultAwaited resultFrom at h
  unfold resultLand
  cases hc : r.chunk (msgChunk q) with
  | none => simp only [hc]
  | some c =>
    obtain ⟨j, e, n⟩ := c
    simp only [hc]
    refine if_neg fun ⟨hop, hfrom, hholds, hnew, hn, hlen⟩ => h j e n hc ?_
    exact ⟨hop, List.contains_iff_mem.1 hfrom, by simpa using hholds, by simpa using hnew, hn, hlen⟩

/-! ### RECORD, DIGEST, GRANT and ARRIVAL (R313, R321, R323, R326) -/

/-- A RECORD comes down the heap for member 0, or round the ring for another member (R313). -/
def RecordLegal (q : StavaPacket) (r : CollRun) : Prop :=
  (r.tree = true ∧ msgChunk q = 0 ∧ msgMember q ∈ heapParent r.me) ∨
    (r.tree = false ∧ msgChunk q ≠ r.me ∧ msgChunk q < r.size ∧ msgMember q ∈ ringPrev r.size r.me)

theorem recordLand_of_legal (hop : r.desc.reduces = true) (hlen : q.payload.length = 12) (hlegal : RecordLegal q r) :
    recordLand nv q r d = msgWork nv r (collMod r.ctx.val r.tag (fun r => { r with
      records := smPut r.records none (msgChunk q) (some (fld (ofBytes q.payload) 0 32, fld (ofBytes q.payload) 32 32,
        fld (ofBytes q.payload) 64 10)) }) d) := by
  refine if_pos ⟨hop, ?_, hlen⟩
  rcases hlegal with ⟨htree, hchunk, hfrom⟩ | ⟨htree, hother, hsize, hfrom⟩
  · simp [htree, hchunk, hfrom]
  · simp [htree, hother, hsize, hfrom]

theorem recordLand_of_not (h : r.desc.reduces = false ∨ q.payload.length ≠ 12 ∨ ¬RecordLegal q r) :
    recordLand nv q r d = d := by
  refine if_neg fun ⟨hop, hlegal, hlen⟩ => ?_
  have hno : ¬RecordLegal q r := by simpa [hop, hlen] using h
  refine hno ?_
  cases htree : r.tree with
  | true => simpa [RecordLegal, htree] using hlegal
  | false => simpa [RecordLegal, htree, and_assoc] using hlegal

theorem digestLand_of_legal (hop : r.desc.op = 6) (hsize : msgChunk q < r.size)
    (hfrom : msgMember q ∈ heapParent r.me ++ heapChildren r.size r.me) :
    digestLand nv q r d = msgWork nv r (collMod r.ctx.val r.tag (fun r => { r with
      digests := smPut r.digests none (msgChunk q)
        (some (if q.payload.length = 8 then some (ofBytes q.payload) else none)) }) d) :=
  if_pos ⟨hop, hsize, List.contains_iff_mem.2 hfrom⟩

theorem digestLand_of_not (h : r.desc.op ≠ 6 ∨ r.size ≤ msgChunk q ∨
    msgMember q ∉ heapParent r.me ++ heapChildren r.size r.me) : digestLand nv q r d = d :=
  if_neg fun ⟨hop, hsize, hfrom⟩ =>
    h.elim (· hop) (·.elim (Nat.not_le.2 hsize) (· (List.contains_iff_mem.1 hfrom)))

theorem grantLand_of_next (hop : r.desc.op = 5) (hfrom : msgMember q = permTo r r.me) :
    grantLand nv q r d = msgWork nv r (collMod r.ctx.val r.tag (fun r => { r with
      grantsIn := insAsc (msgChunk q) r.grantsIn }) d) := if_pos ⟨hop, hfrom⟩

theorem grantLand_of_not (h : r.desc.op ≠ 5 ∨ msgMember q ≠ permTo r r.me) : grantLand nv q r d = d :=
  if_neg fun ⟨hop, hfrom⟩ => h.elim (· hop) (· hfrom)

theorem arrivalLand_of_awaited (h : msgMember q ∈ moveFrom r) :
    arrivalLand nv q r d = msgWork nv r (collMod r.ctx.val r.tag (fun r => { r with
      arrivals := insAsc (msgMember q) r.arrivals }) d) := if_pos (List.contains_iff_mem.2 h)

theorem arrivalLand_of_not (h : msgMember q ∉ moveFrom r) : arrivalLand nv q r d = d :=
  if_neg fun hfrom => h (List.contains_iff_mem.1 hfrom)

/-! ### ALL_READY and STRAGGLER (R310) -/

theorem allReadyLand_of_coordinator (h : msgMember q = r.coordinator) :
    allReadyLand q r d = collMod r.ctx.val r.tag (fun r => { r with allReady := true }) d := if_pos h

theorem allReadyLand_of_other (h : msgMember q ≠ r.coordinator) : allReadyLand q r d = d := if_neg h

theorem stragglerLand_of_coordinator (h : msgMember q = r.coordinator) (hopen : r.gateOpen = true) :
    stragglerLand nv q r d = stragglerRaise nv r.ctx.val r.tag (bitsOf 1024 (ofBytes q.payload))
      (collMod r.ctx.val r.tag (fun r => { r with told := true }) d) := if_pos ⟨h, hopen⟩

theorem stragglerLand_of_not (h : msgMember q ≠ r.coordinator ∨ r.gateOpen = false) : stragglerLand nv q r d = d :=
  if_neg fun ⟨hfrom, hopen⟩ => h.elim (· hfrom) (fun hshut => by simp [hshut] at hopen)

/-! ### NORM_TOTAL (R315) -/

/-- A total comes up the heap. -/
def TotalLegal (q : StavaPacket) (r : CollRun) : Prop :=
  msgMember q ∈ heapChildren r.size r.me ∧ q.payload.length = 8 ∧ msgChunk q < r.size

theorem normTotalLand_of_total (hop : r.desc.normFinal = true) (hup : TotalLegal q r) :
    normTotalLand nv q r d = normStep nv r.ctx.val r.tag (totalsUp nv r.ctx.val r.tag
      (collMod r.ctx.val r.tag (fun r => { r with
        totals := smPut r.totals none (msgChunk q)
          (some (w32 (fld (ofBytes q.payload) 0 32), w32 (fld (ofBytes q.payload) 32 32))) }) d)) := by
  obtain ⟨hfrom, hlen, hsize⟩ := hup
  exact if_pos ⟨hop, List.contains_iff_mem.2 hfrom, hlen, hsize⟩

theorem normTotalLand_of_not_total (hnot : ¬TotalLegal q r) : normTotalLand nv q r d =
    if r.desc.normFinal ∧ (heapParent r.me).contains (msgMember q) ∧ q.payload.length = 4 then
      normDown nv r.ctx.val r.tag (collMod r.ctx.val r.tag (fun r => { r with normVal := some (w32 (ofBytes q.payload)) }) d)
    else d :=
  if_neg fun ⟨_, hfrom, hlen, hsize⟩ => hnot ⟨List.contains_iff_mem.1 hfrom, hlen, hsize⟩

theorem normTotalLand_of_norm (hop : r.desc.normFinal = true) (hfrom : msgMember q ∈ heapParent r.me)
    (hlen : q.payload.length = 4) : normTotalLand nv q r d =
    normDown nv r.ctx.val r.tag (collMod r.ctx.val r.tag (fun r => { r with normVal := some (w32 (ofBytes q.payload)) }) d) := by
  rw [normTotalLand_of_not_total (fun ⟨_, hlong, _⟩ => by omega), if_pos ⟨hop, List.contains_iff_mem.2 hfrom, hlen⟩]

theorem normTotalLand_of_not (h : r.desc.normFinal = false ∨
    (¬TotalLegal q r ∧ (msgMember q ∉ heapParent r.me ∨ q.payload.length ≠ 4))) : normTotalLand nv q r d = d := by
  rcases h with hop | ⟨hnot, hdown⟩
  · simp [normTotalLand, hop]
  · rw [normTotalLand_of_not_total hnot, if_neg]
    exact fun ⟨_, hfrom, hlen⟩ => hdown.elim (· (List.contains_iff_mem.1 hfrom)) (· hlen)

end Messages

/-- Settles O31: a message that is the next of its flow lands (`receiveData_of_next`) at the collective that it names, or is
refused; then one lemma for each outcome of each kind. The payloads (log entry 49) and whom a REFUSE is accepted from (log entry
50) are the model's choices. -/
theorem collectiveMessagesLand : Obligations.CollectiveMessagesLand := by
  intro s g q x d1 d0 d2 htaken hhere htime hd0 hheld hnew hnear hop hd2
  have hland (land : Device → Device) : receiveData s.nv g q land s.d = landed s.nv q (land d0) :=
    receiveData_of_next ⟨htaken, hhere, htime⟩ (.inl ⟨hheld, hd0⟩) hnew hnear
  have hrefuse (hkind : msgKind q = 10) : exec (.refuse g q) s =
      .next { s with d := landed s.nv q (refuseLand s.nv q d0) } := by
    rw [exec_refuse_of_kind hop hkind, hland]
  refine ⟨?awaited, ?stranger, ?notRefuse, ?refuseStranger, ?refuse⟩
  case awaited =>
    intro r hr
    have hmsg {k : Nat} (hkind : msgKind q = k) (land : CollRun → Device → Device) :
        msgReceive s.nv g q k land s.d = landed s.nv q (land r d2) := by
      rw [msgReceive_of_kind hop hkind, hland, msgTake_of_member hd2 hr]
    refine ⟨?partialAwaited, ?resultAwaited, ?ready, ?allReady, ?straggler, ?record, ?total, ?digest, ?grant, ?norm, ?partialNot,
      ?resultNot, ?allReadyNot, ?stragglerNot, ?recordNot, ?totalNot, ?digestNot, ?grantNot, ?arrivalNot, ?arrival⟩
    case partialAwaited =>
      rintro j e n key hkind hc hreduces rfl hfrom hkey hadded hn hlen
      rw [exec_partial, hmsg hkind, partialLand_of_awaited hc ⟨hreduces, hfrom, hkey, hadded, hn, hlen⟩]
      rfl
    case partialNot =>
      intro hkind h
      rw [exec_partial, hmsg hkind, partialLand_of_not_awaited]
      rintro j e n hc ⟨hreduces, hfrom, hkey, hadded, hn, hlen⟩
      simp only [hc, Option.all_some, decide_eq_true_eq] at h
      rcases h with h | h | h | h | h | h
      exacts [by simp [hreduces] at h, h hfrom, h hkey, hadded h, h hn, h hlen]
    case resultAwaited =>
      intro j e n hkind hc hsum hfrom hholds hresult hn hlen
      rw [exec_result, hmsg hkind, resultLand_of_awaited hc ⟨hsum, hfrom, hholds, hresult, hn, hlen⟩]
    case resultNot =>
      intro hkind h
      rw [exec_result, hmsg hkind, resultLand_of_not_awaited]
      rintro j e n hc ⟨hsum, hfrom, hholds, hresult, hn, hlen⟩
      simp only [hc, Option.all_some, decide_eq_true_eq] at h
      rcases h with h | h | h | h | h | h
      exacts [h hsum, h hfrom, by simp [hholds] at h, hresult h, h hn, h hlen]
    case ready =>
      intro hkind
      rw [exec_ready, hmsg hkind, readyLand]
    case allReady =>
      intro hkind hfrom
      rw [exec_allReady, hmsg hkind, allReadyLand_of_coordinator hfrom]
    case allReadyNot =>
      intro hkind hfrom
      rw [exec_allReady, hmsg hkind, allReadyLand_of_other hfrom]
    case straggler =>
      intro hkind hfrom hopen
      rw [exec_straggler, hmsg hkind, stragglerLand_of_coordinator hfrom hopen]
    case stragglerNot =>
      intro hkind hnot
      rw [exec_straggler, hmsg hkind, stragglerLand_of_not hnot]
    case record =>
      intro hkind hreduces hlen hlegal
      rw [exec_record, hmsg hkind, recordLand_of_legal hreduces hlen hlegal]
    case recordNot =>
      intro hkind hnot
      rw [exec_record, hmsg hkind, recordLand_of_not]
      refine hnot.imp_right (·.imp_right fun hway => ?_)
      rintro (⟨htree, hchunk, hfrom⟩ | ⟨htree, hother, hsize, hfrom⟩)
      · rcases hway with ⟨-, h | h⟩ | ⟨hring, -⟩
        exacts [h hchunk, h hfrom, by simp [htree] at hring]
      · rcases hway with ⟨hheap, -⟩ | ⟨-, h | h | h⟩
        exacts [by simp [htree] at hheap, hother h, Nat.not_le.2 hsize h, h hfrom]
    case total =>
      intro hkind hfinal hfrom hlen hsize
      rw [exec_normTotal, hmsg hkind, normTotalLand_of_total hfinal ⟨hfrom, hlen, hsize⟩]
    case norm =>
      intro hkind hfinal hfrom hlen
      rw [exec_normTotal, hmsg hkind, normTotalLand_of_norm hfinal hfrom hlen]
    case totalNot =>
      intro hkind hnot
      rw [exec_normTotal, hmsg hkind, normTotalLand_of_not]
      refine hnot.imp_right fun ⟨hup, hdown⟩ => ⟨?_, hdown⟩
      rintro ⟨hfrom, hlen, hsize⟩
      exact hup.elim (· hfrom) (·.elim (· hlen) (Nat.not_le.2 hsize))
    case digest =>
      intro hkind hdigest hsize hfrom
      rw [exec_digest, hmsg hkind, digestLand_of_legal hdigest hsize hfrom]
    case digestNot =>
      intro hkind hnot
      rw [exec_digest, hmsg hkind, digestLand_of_not hnot]
    case grant =>
      intro hkind hmove hfrom
      rw [exec_grant, hmsg hkind, grantLand_of_next hmove hfrom]
    case grantNot =>
      intro hkind hnot
      rw [exec_grant, hmsg hkind, grantLand_of_not hnot]
    case arrival =>
      intro hkind hfrom
      rw [exec_arrival, hmsg hkind, arrivalLand_of_awaited hfrom]
    case arrivalNot =>
      intro hkind hnot
      rw [exec_arrival, hmsg hkind, arrivalLand_of_not hnot]
  case stranger =>
    intro p hp
    obtain ⟨land, hrow⟩ := exec_messageRow (g := g) (q := q) (s := s) hp
    refine ⟨fun hkind => ?_, fun hkind hnone => ?_⟩
    · rw [hrow, msgReceive_of_other_kind hkind]
    · rw [hrow, msgReceive_of_kind hop hkind, hland, msgTake_of_stranger hd2 hnone,
        msgRefuse_of_message (hkind.trans_ne (kind_ne_of_mem_messageRows hp))]
  case notRefuse =>
    intro hkind
    rw [exec_refuse, if_neg fun h => hkind h.2]
  case refuseStranger =>
    intro hkind hnone
    rw [hrefuse hkind, refuseLand_of_none hnone hkind]
  case refuse =>
    intro r hkind hr
    rw [hrefuse hkind, refuseLand_of_run hr]

end Sys2Proof.Machine
end

section
/-! SUPPORT. Acknowledgements, the timers of flows and their failure (O10), each by the cases of its operation. -/

namespace Sys2Proof.Machine

section Flows

variable {nv : NonVol} {d : Device} {n f : Nat}

/-! ### ACK (R277, R279) -/

/-- What an ACK does when its turn comes. -/
def ackTake (nv : NonVol) (q : StavaPacket) (d : Device) : Device :=
  if q.dstNode.toNat ≠ d.link.node then d else if inTime d q then ackLand nv q d else linkCnt 3 d

section Ack

variable {q : StavaPacket}

theorem ackTake_of_other_node (hdst : q.dstNode.toNat ≠ d.link.node) : ackTake nv q d = d := if_pos hdst

theorem ackTake_of_in_time (hdst : q.dstNode.toNat = d.link.node) (htime : inTime d q = true) :
    ackTake nv q d = ackLand nv q d := by
  rw [ackTake, if_neg (not_not.2 hdst), if_pos htime]

theorem ackTake_of_late (hdst : q.dstNode.toNat = d.link.node) (hlate : inTime d q = false) :
    ackTake nv q d = linkCnt 3 d := by
  rw [ackTake, if_neg (not_not.2 hdst), if_neg (Bool.eq_false_iff.1 hlate)]

end Ack

/-! ### The timers of flows (R276 to R278) -/

theorem ackTimer_of_due {x : RxFlow} (hx : rxGet d n f = some x) (howed : x.unacked ≠ 0) (hdue : x.oldest + 2000 ≤ nv.up) :
    ackTimer nv n f d = ackSend n f d := by
  simp only [ackTimer, hx, if_pos (And.intro howed hdue)]

theorem ackTimer_of_not_due (h : ∀ x, rxGet d n f = some x → x.unacked = 0 ∨ nv.up < x.oldest + 2000) :
    ackTimer nv n f d = d := by
  cases hx : rxGet d n f with
  | none => simp only [ackTimer, hx]
  | some x =>
    have hnot : ¬(x.unacked ≠ 0 ∧ x.oldest + 2000 ≤ nv.up) := by have := h x hx; omega
    simp only [ackTimer, hx, if_neg hnot]

section Sent

variable {seq : Nat}

theorem retransmitTimeout_of_due {p : TxPacket} (hp : (txGet d n f).sent.find? (·.seq = seq) = some p)
    (hdue : p.lastAt + 20000 ≤ nv.up) : retransmitTimeout nv n f seq d = retransmit nv n f p d := by
  simp only [retransmitTimeout, hp, if_pos hdue]

theorem retransmitTimeout_of_not_due
    (h : ∀ p, (txGet d n f).sent.find? (·.seq = seq) = some p → nv.up < p.lastAt + 20000) :
    retransmitTimeout nv n f seq d = d := by
  cases hp : (txGet d n f).sent.find? (·.seq = seq) with
  | none => simp only [retransmitTimeout, hp]
  | some p => simp only [retransmitTimeout, hp, if_neg (Nat.not_le.2 (h p hp))]

end Sent

/-- The suspension of the pair of node `n` and cage `g` (R278). -/
def suspensionOf (d : Device) (n g : Nat) : Option (Nat × Nat × Nat) :=
  d.link.suspended.find? fun e => decide (e.1 = n ∧ e.2.1 = g)

section Suspension

variable {g : Nat}

theorem suspendExpiry_of_over {e : Nat × Nat × Nat} (he : suspensionOf d n g = some e) (hover : e.2.2 ≤ nv.up) :
    suspendExpiry nv n g d = txPumpAll nv (cageWatchAll nv { d with link := { d.link with
      suspended := d.link.suspended.filter (· ≠ e), probation := d.link.probation ++ [(n, g, 7)] } }) := by
  unfold suspensionOf at he
  simp only [suspendExpiry, he, if_pos hover]

theorem suspendExpiry_of_not_over (h : ∀ e, suspensionOf d n g = some e → nv.up < e.2.2) : suspendExpiry nv n g d = d := by
  unfold suspensionOf at h
  cases he : d.link.suspended.find? fun e => decide (e.1 = n ∧ e.2.1 = g) with
  | none => simp only [suspendExpiry, he]
  | some e => simp only [suspendExpiry, he, if_neg (Nat.not_le.2 (h e he))]

end Suspension

theorem flowIdleFree_of_rx_idle {x : RxFlow} (hx : rxGet d n f = some x) (hidle : x.lastAt + 1000000 ≤ nv.up) :
    flowIdleFree nv n f true d = { d with link := { d.link with rx := d.link.rx.filter (· ≠ x) } } := by
  simp only [flowIdleFree, if_true, hx, if_pos hidle]

theorem flowIdleFree_of_rx_busy (h : ∀ x, rxGet d n f = some x → nv.up < x.lastAt + 1000000) :
    flowIdleFree nv n f true d = d := by
  cases hx : rxGet d n f with
  | none => simp only [flowIdleFree, if_true, hx]
  | some x => simp only [flowIdleFree, if_true, hx, if_neg (Nat.not_le.2 (h x hx))]

/-- The transmit flow is idle: it has nothing sent, nothing queued, and 1 ms has passed (R276). -/
theorem flowIdleFree_tx : flowIdleFree nv n f false d =
    if (txGet d n f).sent = [] ∧ (txGet d n f).queue = [] ∧ (txGet d n f).lastAt + 1000000 ≤ nv.up then
      { d with link := { d.link with tx := d.link.tx.filter (· ≠ txGet d n f) } }
    else d := by
  simp [flowIdleFree]

/-! ### FLOW_FAIL (R281) -/

/-- The transmit flow to node `n` with number `f`, where there is one. -/
def txFind (d : Device) (n f : Nat) : Option TxFlow := d.link.tx.find? fun x => decide (x.node = n ∧ x.flow = f)

theorem flowFail_of_failed {x : TxFlow} (hx : txFind d n f = some x) (hfail : flowFailed nv d x = true) {d1 d2 : Device}
    (hd1 : d1 = (x.sent ++ x.queue).foldl (fun d p => ownerFail p stLinkLost none d) d)
    (hd2 : d2 = (d1.link.reads.filter fun r => decide (r.node = n ∧ r.flow = f)).foldl
      (fun d r => readFail r stLinkLost none d) d1) :
    flowFail nv n f d = raiseEv nv 0x13 (some (f / 16)) (pack [(0, 10, n), (10, 12, f)]) 0
      (linkCnt 0 { d2 with link := { d2.link with tx := d2.link.tx.filter fun y => !decide (y.node = n ∧ y.flow = f) } }) := by
  have hgo : ¬(!flowFailed nv d x) = true := by simp [hfail]
  unfold txFind at hx
  subst hd2 hd1
  simp only [flowFail, hx, if_neg hgo]

theorem flowFail_of_sound (h : ((txFind d n f).all fun x => !flowFailed nv d x) = true) : flowFail nv n f d = d := by
  unfold txFind at h
  cases hx : d.link.tx.find? fun x => decide (x.node = n ∧ x.flow = f) with
  | none => simp only [flowFail, hx]
  | some x =>
    rw [hx, Option.all_some] at h
    simp only [flowFail, hx, if_pos h]

end Flows

section Rows

variable (n f : Nat) (g : CageNo) (s : State)

theorem exec_ack (q : StavaPacket) : exec (.ack g q) s =
    .next { s with d := cageTake g.val q (ackTake s.nv q) s.d } := rfl
theorem exec_ackTimer : exec (.ackTimer n f) s = .next { s with d := ackTimer s.nv n f s.d } := rfl
theorem exec_retransmitTimeout (seq : Nat) : exec (.retransmitTimeout n f seq) s =
    .next { s with d := retransmitTimeout s.nv n f seq s.d } := rfl
theorem exec_suspendExpiry : exec (.suspendExpiry n g) s = .next { s with d := suspendExpiry s.nv n g.val s.d } := rfl
theorem exec_flowIdleFree (rx : Bool) : exec (.flowIdleFree n f rx) s =
    .next { s with d := flowIdleFree s.nv n f rx s.d } := rfl
theorem exec_flowFail : exec (.flowFail n f) s = .next { s with d := flowFail s.nv n f s.d } := rfl

end Rows

/-- Settles O10: an ACK by the cases of `cageTake` and `ackTake`, each timer by the lemma of its due time. That
an ACK queues as other packets do is the model's choice (log entry 125). -/
theorem flowTimersActAtTheirTimes : Obligations.FlowTimersActAtTheirTimes := by
  intro s n f
  refine ⟨?ack, ?ackNotTaken, ?ackTimer, ?retransmit, ?suspension, ?rxIdle, ?txIdle, ?fail⟩
  case ack =>
    intro g q d1 htaken
    rw [exec_ack, cageTake_of_taken htaken]
    refine ⟨fun hhere htime => ?_, fun hhere hlate => ?_, fun hother => ?_⟩
    · rw [ackTake_of_in_time hhere htime]
    · rw [ackTake_of_late hhere hlate]
    · rw [ackTake_of_other_node hother]
  case ackNotTaken =>
    intro g q
    refine ⟨fun hempty hdown => ?_, fun h t hfirst hne => ?_⟩
    · rw [exec_ack, cageTake_of_down hempty hdown]
    · rw [exec_ack, cageTake_of_behind hfirst hne]
  case ackTimer =>
    intro x hx howed hdue
    rw [exec_ackTimer, ackTimer_of_due hx howed hdue]
  case retransmit =>
    intro seq p hp hdue
    rw [exec_retransmitTimeout, retransmitTimeout_of_due hp hdue]
  case suspension =>
    intro g e he hover
    rw [exec_suspendExpiry, suspendExpiry_of_over he hover]
  case rxIdle =>
    intro x hx hidle
    rw [exec_flowIdleFree, flowIdleFree_of_rx_idle hx hidle]
  case txIdle =>
    intro hsent hqueue hidle
    rw [exec_flowIdleFree, flowIdleFree_tx, if_pos ⟨hsent, hqueue, hidle⟩]
  case fail =>
    intro x d1 d2 hx hfail hd1 hd2
    rw [exec_flowFail, flowFail_of_failed hx hfail hd1 hd2]

end Sys2Proof.Machine
end

section
/-! SUPPORT. The window table, the opening of a window and its revocation (O12). -/

namespace Sys2Proof.Machine

section Windows

variable {nv : NonVol} {d : Device} {t : Nat} {x : Taken}

/-! ### LINK_WINTAB_HI (R296, R474) -/

/-- The base that a write of `v` to LINK_WINTAB_HI commits: its 12 bits over the staged low half (R474). -/
def wintabBase (v : Word) (d : Device) : Nat :=
  v.toNat % 4096 * 2 ^ 32 + d.link.wintabStage.getD (d.link.wintab % 2 ^ 32)

theorem wintabHi_of_owner {p : Port} {v : Word} (ho : isOwner d p = true) : wintabHi p v d =
    if dpaOk d.mem (wintabBase v d) (2 ^ 22) = true ∧ d.link.valid.isEmpty = true then
      { d with
        link := { d.link with wintab := wintabBase v d, wintabStage := none, ready := true }
        mem := dClear (wintabBase v d) (2 ^ 22) d.mem }
    else { d with link := { d.link with wintabStage := none } } := if_pos ho

theorem wintabHi_of_other {p : Port} {v : Word} (ho : isOwner d p = false) : wintabHi p v d = denied d :=
  if_neg (Bool.eq_false_iff.1 ho)

/-! ### WINDOW_OPEN (R284) -/

/-- The range of the window that the image `v` describes is mapped in a live context (R284). -/
def imageMapped (d : Device) (v : Nat) : Bool :=
  match vSpan d.mem (ctxGet d (fld v 8 8)).root (bit v 2) (fld v 64 52) (winSize v) with
  | .ok _ => ctxLive d (fld v 8 8)
  | .error _ => false

theorem imageMapped_of_mapped {v : Nat} (hlive : ctxLive d (fld v 8 8) = true)
    (h : ∃ ps, vSpan d.mem (ctxGet d (fld v 8 8)).root (bit v 2) (fld v 64 52) (winSize v) = .ok ps) :
    imageMapped d v = true := by
  obtain ⟨ps, hps⟩ := h
  simp only [imageMapped, hps, hlive]

theorem imageMapped_of_unmapped {v : Nat} (h : ctxLive d (fld v 8 8) = false ∨
    ∃ e, vSpan d.mem (ctxGet d (fld v 8 8)).root (bit v 2) (fld v 64 52) (winSize v) = .error e) :
    imageMapped d v = false := by
  unfold imageMapped
  rcases h with hdead | ⟨e, he⟩
  · split
    exacts [hdead, rfl]
  · simp only [he]

/-- The descriptor that WINDOW_OPEN stores: the image's fields, VALID, the slot's generation, and the time (R284). -/
def openedDesc (d : Device) (w v : Nat) : Nat :=
  pack [(0, 1, 1), (1, 3, fld v 1 3), (8, 8, fld v 8 8), (16, 16, fld (winDesc d w) 16 16), (32, 32, fld v 32 32),
    (64, 52, fld v 64 52), (128, 41, fld v 128 41), (192, 21, fld v 192 21), (224, 16, fld v 224 16), (256, 64, d.time.now)]

theorem windowOpen_eq {v : Nat} (hv : v = dNat d.mem (eArg x.entry 1) 64) : windowOpen t x nv d =
    if (!bit v 3 && !imageMapped d v) = true then complete nv t stNoResource 0xFFFF 0 d
    else complete nv t stOK 0xFFFF 0 (winPut (eArg x.entry 0) (openedDesc d (eArg x.entry 0) v) d) := by
  simp only [windowOpen, ← hv, imageMapped, openedDesc] <;> rfl

theorem windowOpen_of_reachable {v : Nat} (hv : v = dNat d.mem (eArg x.entry 1) 64)
    (h : bit v 3 = true ∨ imageMapped d v = true) : windowOpen t x nv d =
    complete nv t stOK 0xFFFF 0 (winPut (eArg x.entry 0) (openedDesc d (eArg x.entry 0) v) d) := by
  have hgo : ¬(!bit v 3 && !imageMapped d v) = true := by rcases h with h | h <;> simp [h]
  rw [windowOpen_eq hv, if_neg hgo]

theorem windowOpen_of_unmapped {v : Nat} (hv : v = dNat d.mem (eArg x.entry 1) 64) (hmem : bit v 3 = false)
    (hmap : imageMapped d v = false) : windowOpen t x nv d = complete nv t stNoResource 0xFFFF 0 d := by
  rw [windowOpen_eq hv, hmem, hmap]
  rfl

/-! ### WINDOW_REVOKE (R284) -/

/-- The descriptor of a revoked window: VALID 0, the next generation (R284). -/
def revokedDesc (v : Nat) : Nat := putFld (putBit v 0 false) 16 16 (fld v 16 16 + 1)

/-- A window whose peer is any node (bit 202) is revoked without a notice. -/
theorem winRevoke_of_any {w : Nat} (h : bit (winDesc d w) 202 = true) :
    winRevoke nv w d = winPut w (revokedDesc (winDesc d w)) d := if_pos h

theorem winRevoke_of_node {w : Nat} (h : bit (winDesc d w) 202 = false) : winRevoke nv w d =
    noticeQueue nv (fld (winDesc d w) 8 8) (fld (winDesc d w) 192 10) w (fld (winDesc d w) 16 16)
      (winPut w (revokedDesc (winDesc d w)) d) := if_neg (Bool.eq_false_iff.1 h)

end Windows

section Rows

variable {s : State} {t : Nat} {x : Taken}

theorem exec_linkWintabHi_of_host {p : Port} {v : Word} (hw : hostWrites s.nv s.d p = true) :
    exec (.linkWintabHi p v) s = .next { s with d := wintabHi p v s.d } := by
  simp only [exec, execLinkWintabHi, onDev, hw, if_true]

variable (hst : stateStatus s.nv s.d x.ring x.entry = 0)
include hst

theorem exec_windowOpen_of_served (hx : freshTaken s.d 0x06 t = some x) :
    exec (.windowOpen t) s = .next { s with d := windowOpen t x s.nv s.d } := by
  simp only [exec, execWindowOpen, onDev, withTaken_of_served hx hst]

theorem exec_windowRevoke_of_served (hx : freshTaken s.d 0x07 t = some x) : exec (.windowRevoke t) s =
    .next { s with d := txPumpAll s.nv (complete s.nv t stOK 0xFFFF 0 (winRevoke s.nv (eArg x.entry 0) s.d)) } := by
  simp only [exec, execWindowRevoke, onDev, withTaken_of_served hx hst]

end Rows

/-- Settles O12: one lemma for each outcome of a write of LINK_WINTAB_HI, of WINDOW_OPEN and of WINDOW_REVOKE. -/
theorem windowsOpenAndAreRevoked : Obligations.WindowsOpenAndAreRevoked := by
  intro s
  refine ⟨?commit, ?opened, ?unmapped, ?keep, ?denied, ?notice, ?quiet⟩
  case commit =>
    intro p v hw ho hvalid hok
    rw [exec_linkWintabHi_of_host hw, wintabHi_of_owner ho, if_pos ⟨hok, List.isEmpty_iff.2 hvalid⟩]
    rfl
  case opened =>
    intro t x v hst hx hv h
    rw [exec_windowOpen_of_served hst hx,
      windowOpen_of_reachable hv (h.imp_right fun ⟨hlive, hps⟩ => imageMapped_of_mapped hlive hps)]
    rfl
  case unmapped =>
    intro t x v hst hx hv hmem h
    rw [exec_windowOpen_of_served hst hx, windowOpen_of_unmapped hv hmem (imageMapped_of_unmapped h)]
  case keep =>
    intro p v hw ho h
    rw [exec_linkWintabHi_of_host hw, wintabHi_of_owner ho, if_neg]
    rintro ⟨hok, hvalid⟩
    rcases h with h | h
    · exact h (List.isEmpty_iff.1 hvalid)
    · exact Bool.eq_false_iff.1 h hok
  case denied =>
    intro p v hw ho
    rw [exec_linkWintabHi_of_host hw, wintabHi_of_other ho]
  case notice =>
    intro t x hst hx h
    refine ⟨_, rfl, ?_⟩
    rw [exec_windowRevoke_of_served hst hx, winRevoke_of_node h]
    rfl
  case quiet =>
    intro t x hst hx h
    rw [exec_windowRevoke_of_served hst hx, winRevoke_of_any h]
    rfl

end Sys2Proof.Machine
end

section
/-! SUPPORT. The states of the cages and the frames that they receive (O11), each by the cases of its operation. -/

namespace Sys2Proof.Machine

section Cages

variable {nv : NonVol} {d : Device} {g : Nat}

/-! ### The fields of a cage that an update keeps -/

theorem cageUp_cageMod {f : Cage → Cage} (hf : ∀ x, (f x).st = x.st) : cageUp (cageMod g f d) g = cageUp d g := by
  simp only [cageUp, cageGet_cageMod_self, hf]

@[simp] theorem rxq_cageCnt (k : Nat) : (cageGet (cageCnt g k d) g).rxq = (cageGet d g).rxq := by
  rw [cageCnt, cageGet_cageMod_self]

/-! ### LINK_CAGE_CTRL (R293, R296) -/

section Ctrl

variable {p : Port} {v : Word}

/-- ALLOW_HALF and ENABLE of a write are recorded. -/
def ctrlKept (g : Nat) (v : Word) (d : Device) : Device :=
  cageMod g (fun x => { x with allowHalf := bit v.toNat 1, en := bit v.toNat 0 }) d

/-- ENABLE takes a cage out of DISABLED or into it; `x` is the cage before the write. -/
def enableStep (nv : NonVol) (g : Nat) (en : Bool) (x : Cage) (d : Device) : Device :=
  if en ∧ x.st = .disabled then cageGo nv g (if x.present then .present else .empty) 0 0 d
  else if !en ∧ x.st ≠ .disabled then cageGo nv g .disabled 0 1 d
  else d

/-- RETRAIN trains a cage that is up. -/
def retrainStep (nv : NonVol) (g : Nat) (re : Bool) (d : Device) : Device :=
  if re ∧ cageUp d g then cageGo nv g .training 0 0 d else d

theorem retrainStep_of_up (hup : cageUp d g = true) : retrainStep nv g true d = cageGo nv g .training 0 0 d :=
  if_pos ⟨rfl, hup⟩

theorem retrainStep_of_clear : retrainStep nv g false d = d := if_neg fun h => Bool.false_ne_true h.1

theorem enableStep_of_enabled {x : Cage} (hst : x.st = .disabled) :
    enableStep nv g true x d = cageGo nv g (if x.present then .present else .empty) 0 0 d := if_pos ⟨rfl, hst⟩

theorem enableStep_of_disabled {x : Cage} (hst : x.st ≠ .disabled) :
    enableStep nv g false x d = cageGo nv g .disabled 0 1 d := by
  rw [enableStep, if_neg fun h => hst h.2, if_pos ⟨rfl, hst⟩]

theorem enableStep_of_same {en : Bool} {x : Cage} (h : (x.st = .disabled ∧ en = false) ∨ (x.st ≠ .disabled ∧ en = true)) :
    enableStep nv g en x d = d := by
  rcases h with ⟨hst, rfl⟩ | ⟨hst, rfl⟩ <;> simp [enableStep, hst]

theorem cageCtrl_of_other {c : CageNo} (ho : isOwner d p = false) : cageCtrl nv p c v d = denied d := by
  simp [cageCtrl, ho]

variable {c : CageNo} (ho : isOwner d p = true)
include ho

theorem cageCtrl_of_unfitted (hfit : cageFitted nv c.val = false) : cageCtrl nv p c v d = d := by
  simp [cageCtrl, ho, hfit]

theorem cageCtrl_of_fitted (hfit : cageFitted nv c.val = true) : cageCtrl nv p c v d =
    retrainStep nv c.val (bit v.toNat 2)
      (enableStep nv c.val (bit v.toNat 0) (cageGet d c.val) (ctrlKept c.val v d)) := by
  have howner : ¬(!isOwner d p) = true := by simp [ho]
  have hfitted : ¬(!cageFitted nv c.val) = true := by simp [hfit]
  unfold cageCtrl
  rw [if_neg howner, if_neg hfitted]
  rfl

end Ctrl

/-! ### Presence and the module (R293) -/

theorem presenceHeld_of_unfitted (hfit : cageFitted nv g = false) : presenceHeld nv g d = d :=
  if_neg (Bool.eq_false_iff.1 hfit)

theorem presenceHeld_of_fitted (hfit : cageFitted nv g = true) {d1 : Device}
    (hd1 : d1 = cageMod g (fun x => { x with present := true }) d) :
    presenceHeld nv g d = if (cageGet d1 g).st = .empty then cageGo nv g .present 0 0 d1 else d1 := by
  rw [hd1]
  exact if_pos hfit

theorem presenceLost_of_idle {d1 : Device} (hd1 : d1 = cageMod g (fun x => { x with present := false }) d)
    (h : (cageGet d1 g).st = .disabled ∨ (cageGet d1 g).st = .empty) : presenceLost nv g d = d1 := by
  subst hd1
  rcases h with h | h <;> simp only [presenceLost, h]

theorem presenceLost_of_used {d1 : Device} (hd1 : d1 = cageMod g (fun x => { x with present := false }) d)
    (hdis : (cageGet d1 g).st ≠ .disabled) (hempty : (cageGet d1 g).st ≠ .empty) :
    presenceLost nv g d = cageGo nv g .empty 0 8 d1 := by
  subst hd1
  unfold presenceLost
  cases hst : (cageGet (cageMod g (fun x => { x with present := false }) d) g).st with
  | disabled => exact absurd hst hdis
  | empty => exact absurd hst hempty
  | present | training | up | upHalf | down => simp only [hst]

theorem moduleReady_of_present {copper : Bool} {w : Nat} (hst : (cageGet d g).st = .present) : moduleReady nv g copper w d =
    if copper ∨ w ≤ 25 then cageGo nv g .training 0 0 d else cageGo nv g .down 0 6 d := if_pos hst

theorem moduleReady_of_other {copper : Bool} {w : Nat} (hst : (cageGet d g).st ≠ .present) :
    moduleReady nv g copper w d = d := if_neg hst

/-! ### The times of a state (R293, R295) -/

section Times

variable {st : CageSt} {ns : Nat}

theorem cageFor_of_over (hst : (cageGet d g).st = st) (hover : (cageGet d g).since + ns ≤ nv.up) :
    cageFor nv d g st ns = true := by
  simp [cageFor, hst, hover]

theorem cageFor_of_not (h : (cageGet d g).st ≠ st ∨ nv.up < (cageGet d g).since + ns) : cageFor nv d g st ns = false := by
  rcases h with h | h <;> simp [cageFor, h]

end Times

section Training

variable {lower upper : Nat}

theorem trainingTimeout_of_not (h : cageFor nv d g .training 2000000000 = false) :
    trainingTimeout nv g lower upper d = d := if_neg (Bool.eq_false_iff.1 h)

variable (hdue : cageFor nv d g .training 2000000000 = true)
include hdue

theorem trainingTimeout_of_half {h : Nat} (hhalf : cleanHalf lower upper = some h) (hallow : (cageGet d g).allowHalf = true) :
    trainingTimeout nv g lower upper d = cageGo nv g .upHalf h 0 d := by
  simp only [trainingTimeout, hdue, if_true, hhalf, hallow]

theorem trainingTimeout_of_no_half (h : cleanHalf lower upper = none ∨ (cageGet d g).allowHalf = false) :
    trainingTimeout nv g lower upper d = cageGo nv g .down 0 5 d := by
  rcases h with h | h <;> simp [trainingTimeout, hdue, h]

end Training

/-! ### LINK_LOSS (R293 to R296) -/

section Loss

variable {reason words : Nat}

theorem linkLoss_of_down (hdown : cageUp d g = false) : linkLoss nv g reason words d = d := by
  simp [linkLoss, hdown]

theorem linkLoss_of_signal (hup : cageUp d g = true) (h : reason = 2 ∨ reason = 3) :
    linkLoss nv g reason words d = cageGo nv g .down 0 reason d := by
  rcases h with rfl | rfl <;> simp [linkLoss, hup]

/-- Uncorrectable code words are noted and counted; more than 16 in a millisecond take the cage from service (R295). -/
theorem linkLoss_of_words (hup : cageUp d g = true) {l : List Nat} {d1 : Device}
    (hl : l = (List.replicate (min words 17) nv.up ++ (cageGet d g).fecs.filter fun u => nv.up < u + 1000000).take 17)
    (hd1 : d1 = cageMod g (fun x => { x with
      fecs := l, cnt := smMod x.cnt 0 1 fun m => min (2 ^ 32 - 1) (m + words) }) d) :
    linkLoss nv g 4 words d =
      if 16 < l.length then cageGo nv g .down 0 4 (cageMod g (fun x => { x with fecs := [] }) d1) else d1 := by
  have hseen : linkLoss nv g 4 words d = fecSeen nv g words d := by simp [linkLoss, hup]
  have hup1 : cageUp d1 g = true := by
    rw [hd1, cageUp_cageMod fun _ => by rfl, hup]
  have hfecs : (cageGet d1 g).fecs = l := by rw [hd1, cageGet_cageMod_self]
  have hnoted : cageMod g (fun x => { x with
      fecs := (List.replicate (min words 17) nv.up ++ x.fecs.filter fun u => nv.up < u + 1000000).take 17
      cnt := smMod x.cnt 0 1 fun m => min (2 ^ 32 - 1) (m + words) }) d = d1 := by
    rw [hd1, hl]
    rfl
  unfold fecSeen at hseen
  simpa only [hnoted, hup1, hfecs, true_and] using hseen

end Loss

/-! ### FRAME_RECEIVE (R270, R271, R280) -/

section Frames

variable {q : StavaPacket}

theorem rxPush_of_room {n : Nat} (hn : n = (cageGet d g).rxq.length) (hroom : n < 256) {d1 : Device}
    (hd1 : d1 = cageMod g (fun x => { x with rxq := x.rxq ++ [{ q with cmark := q.cmark || decide (64 < n) }] }) d) :
    rxPush g q d = if 64 < n then cageCnt g 9 d1 else d1 := by
  subst hd1 hn
  exact if_neg (Nat.not_le.2 hroom)

theorem rxPush_of_full (hfull : 256 ≤ (cageGet d g).rxq.length) : rxPush g q d = cageCnt g 8 d := if_pos hfull

variable {c : CageNo} {f : EtherFrame}

theorem frameReceive_of_down (hdown : cageUp d c.val = false) : frameReceive c f d = d := if_neg (Bool.eq_false_iff.1 hdown)

/-- The frame is for this cage: its EtherType and its address are the cage's (R271, R272). -/
def FrameHere (d : Device) (g : Nat) (f : EtherFrame) : Prop :=
  f.etherType.toNat = d.link.etherType ∧ f.dstMac.toNat = macAddr d.link.fabric d.link.node g

variable (hup : cageUp d c.val = true)
include hup

theorem frameReceive_of_bad_fcs (hfcs : f.fcsOk = false) :
    frameReceive c f d = cageCnt c.val 5 (cageCnt c.val 3 d) := by
  simp [frameReceive, hup, hfcs]

variable (hfcs : f.fcsOk = true)
include hfcs

theorem frameReceive_of_pause (hpause : f.pause = true) : frameReceive c f d = cageCnt c.val 7 (cageCnt c.val 3 d) := by
  simp [frameReceive, hup, hfcs, hpause]

variable (hpause : f.pause = false)
include hpause

theorem frameReceive_of_elsewhere (h : ¬FrameHere d c.val f) :
    frameReceive c f d = cageCnt c.val 6 (cageCnt c.val 3 d) := by
  have hother : f.etherType.toNat ≠ d.link.etherType ∨ f.dstMac.toNat ≠ macAddr d.link.fabric d.link.node c.val :=
    not_and_or.1 h
  simp only [frameReceive, hup, hfcs, hpause, if_true, Bool.not_true, Bool.false_eq_true, if_false]
  exact if_pos hother

theorem frameReceive_of_here (h : FrameHere d c.val f) : frameReceive c f d =
    (packetOf f.body f.poison).elim (cageCnt c.val 3 d) fun q => rxPush c.val q (cageCnt c.val 3 d) := by
  have hthis : ¬(f.etherType.toNat ≠ d.link.etherType ∨ f.dstMac.toNat ≠ macAddr d.link.fabric d.link.node c.val) :=
    fun hother => hother.elim (· h.1) (· h.2)
  simp only [frameReceive, hup, hfcs, hpause, if_true, Bool.not_true, Bool.false_eq_true, if_false]
  refine (if_neg hthis).trans ?_
  cases packetOf f.body f.poison <;> rfl

end Frames

end Cages

/-! ### The rows of the command table -/

section Rows

variable (g : CageNo) (s : State)

theorem exec_presenceHeld : exec (.presenceHeld g) s = .next { s with d := presenceHeld s.nv g.val s.d } := rfl
theorem exec_presenceLost : exec (.presenceLost g) s = .next { s with d := presenceLost s.nv g.val s.d } := rfl
theorem exec_moduleReady (copper : Bool) (w : Nat) : exec (.moduleReady g copper w) s =
    .next { s with d := moduleReady s.nv g.val copper w s.d } := rfl
theorem exec_cmisTimeout : exec (.cmisTimeout g) s = .next { s with
    d := if cageFor s.nv s.d g.val .present 5000000000 then cageGo s.nv g.val .down 0 7 s.d else s.d } := rfl
theorem exec_trainingDone : exec (.trainingDone g) s = .next { s with
    d := if (cageGet s.d g.val).st = .training then cageGo s.nv g.val .up 0 0 s.d else s.d } := rfl
theorem exec_trainingTimeout (l u : Nat) : exec (.trainingTimeout g ⟨l, u⟩) s =
    .next { s with d := trainingTimeout s.nv g.val l u s.d } := rfl
theorem exec_linkLoss (reason words : Nat) : exec (.linkLoss g ⟨reason, words⟩) s =
    .next { s with d := linkLoss s.nv g.val reason words s.d } := rfl
theorem exec_downTimeout : exec (.downTimeout g) s = .next { s with
    d := if cageFor s.nv s.d g.val .down 1000000000 then cageGo s.nv g.val .training 0 0 s.d else s.d } := rfl
theorem exec_frameReceive (f : EtherFrame) : exec (.frameReceive g f) s = .next { s with d := frameReceive g f s.d } := rfl

variable {g s}

/-- CAGE_ENABLE and RETRAIN are the one write of LINK_CAGE_CTRL (R293). -/
theorem exec_cageCtrl_of_host {p : Port} {v : Word} {c : Instr} (hw : hostWrites s.nv s.d p = true)
    (hc : c = .cageEnable p g v ∨ c = .retrain p g v) : exec c s = .next { s with d := cageCtrl s.nv p g v s.d } := by
  rcases hc with rfl | rfl
  · simp only [exec, execCageEnable, onDev, hw, if_true]
  · simp only [exec, execRetrain, retrain, onDev, hw, if_true]

end Rows

/-- Settles O11: one lemma for each outcome of a write of LINK_CAGE_CTRL, of each event of a cage and of a received
frame. The lower half goes first where both are clean, and a frame that holds no packet is dropped uncounted: the model's
choices (log entry 125). -/
theorem cagesFollowTheirStates : Obligations.CagesFollowTheirStates := by
  intro s g
  refine ⟨?enable, ?retrain, ?ctrl, ?held, ?ready, ?cmis, ?trained, ?training, ?loss, ?down, ?lost, ?present, ?frame⟩
  case enable =>
    intro p v hw ho hfit hst hen hre
    rw [exec_cageCtrl_of_host hw (.inl rfl), cageCtrl_of_fitted ho hfit, ctrlKept, hen, hre, enableStep_of_enabled hst,
      retrainStep_of_clear]
  case retrain =>
    intro p v hw ho hfit hst hen hre hup
    rw [exec_cageCtrl_of_host hw (.inr rfl), cageCtrl_of_fitted ho hfit, ctrlKept, hen, hre, enableStep_of_same (.inr ⟨hst, rfl⟩),
      retrainStep_of_up hup]
  case ctrl =>
    intro p v d1 c hw hc
    rw [exec_cageCtrl_of_host hw hc]
    refine ⟨fun ho => ?_, fun ho hfit => ?_, fun ho hfit hd1 => ⟨fun hst hen => ?_, fun hsame hre => ?_⟩⟩
    · rw [cageCtrl_of_other ho]
    · rw [cageCtrl_of_unfitted ho hfit]
    · rw [cageCtrl_of_fitted ho hfit, ctrlKept, ← hd1, hen, enableStep_of_disabled hst]
      rfl
    · rw [cageCtrl_of_fitted ho hfit, ctrlKept, ← hd1, hre, enableStep_of_same hsame, retrainStep_of_clear]
  case held =>
    intro hfit hst
    rw [exec_presenceHeld, presenceHeld_of_fitted hfit rfl, if_pos hst]
  case present =>
    intro hfit hst
    rw [exec_presenceHeld, presenceHeld_of_fitted hfit rfl, if_neg hst]
  case ready =>
    intro copper w hst
    rw [exec_moduleReady, moduleReady_of_present hst]
  case cmis =>
    intro hst hover
    rw [exec_cmisTimeout, if_pos (cageFor_of_over hst hover)]
  case trained =>
    intro hst
    rw [exec_trainingDone, if_pos hst]
  case training =>
    intro hst hover
    have hdue := cageFor_of_over hst hover
    refine ⟨fun l u hallow => ⟨fun hl => ?_, fun hl hu => ?_⟩, fun l u hnone => ?_⟩
    · rw [exec_trainingTimeout, trainingTimeout_of_half hdue (if_pos hl) hallow]
    · rw [exec_trainingTimeout, trainingTimeout_of_half hdue ((if_neg (Nat.not_le.2 hl)).trans (if_pos hu)) hallow]
    · rw [exec_trainingTimeout, trainingTimeout_of_no_half hdue]
      exact hnone.symm.imp_left fun ⟨hl, hu⟩ => (if_neg (Nat.not_le.2 hl)).trans (if_neg (Nat.not_le.2 hu))
  case loss =>
    intro w hup
    refine ⟨?_, ?_, fun l d1 hl hd1 => ?_⟩
    · rw [exec_linkLoss, linkLoss_of_signal hup (.inl rfl)]
    · rw [exec_linkLoss, linkLoss_of_signal hup (.inr rfl)]
    · rw [exec_linkLoss, linkLoss_of_words hup hl hd1]
  case down =>
    intro hst hover
    rw [exec_downTimeout, if_pos (cageFor_of_over hst hover)]
  case lost =>
    intro d1 hd1
    refine ⟨fun hdis hempty => ?_, fun hidle => ?_⟩
    · rw [exec_presenceLost, presenceLost_of_used hd1 hdis hempty]
    · rw [exec_presenceLost, presenceLost_of_idle hd1 hidle]
  case frame =>
    intro f hup
    simp only [exec_frameReceive]
    refine ⟨fun hfcs => ?_, fun hfcs hpause => ?_, fun hfcs hpause h => ?_, fun hfcs hpause htype hdst hq => ?_,
      fun q hfcs hpause htype hdst hq => ⟨fun n d1 hn hroom hd1 => ?_, fun hfull => ?_⟩⟩
    · rw [frameReceive_of_bad_fcs hup hfcs]
    · rw [frameReceive_of_pause hup hfcs hpause]
    · rw [frameReceive_of_elsewhere hup hfcs hpause (not_and_or.2 h)]
    · rw [frameReceive_of_here hup hfcs hpause ⟨htype, hdst⟩, hq, Option.elim_none]
    · rw [frameReceive_of_here hup hfcs hpause ⟨htype, hdst⟩, hq, Option.elim_some, rxPush_of_room _ hroom hd1]
      rw [hn, rxq_cageCnt]
    · rw [frameReceive_of_here hup hfcs hpause ⟨htype, hdst⟩, hq, Option.elim_some, rxPush_of_full]
      rwa [rxq_cageCnt]

end Sys2Proof.Machine
end

section
/-! SUPPORT. Ownership, boundaries, teardown, resets, tests, the firmware and the work that it starts: each leaves the device as
it is before its time or out of its state (O60; log entry 52). -/

namespace Sys2Proof.Machine

variable {nv : NonVol} {d : Device}

/-! ### Ownership and the admin ring (R354, R355) -/

theorem lossTimeout_of_not (h : d.own.st ≠ .lost ∨ nv.up < d.own.lossFrom + d.own.lossMs * 1000000) :
    lossTimeout nv d = d := if_neg fun ⟨hst, hover⟩ => h.elim (· hst) (Nat.not_lt.2 hover)

theorem handoverTimeout_of_not (h : d.own.st ≠ .handing ∨ nv.up < d.own.handFrom + 1000000000) :
    handoverTimeout nv d = d := if_neg fun ⟨hst, hover⟩ => h.elim (· hst) (Nat.not_lt.2 hover)

theorem drainEnd_of_not (h : d.rings.admin.draining = false ∨ ∃ x ∈ d.rings.taken, x.ring = none) : drainEnd nv d = d := by
  refine if_neg fun ⟨hdrain, hall⟩ => ?_
  rcases h with hidle | ⟨x, hx, hadmin⟩
  · simp [hidle] at hdrain
  · simpa [hadmin] using List.all_eq_true.1 hall x hx

/-! ### Boundaries, departures and arrivals (R382 to R396) -/

section Partition

variable {p : Nat}

theorem noticeTimeout_of_not (h : ∀ t, (schedGet d p).notice = some t → d.time.now < t + 1000000) :
    noticeTimeout nv p d = d := by
  cases ht : (schedGet d p).notice with
  | none => simp only [noticeTimeout, ht]
  | some t => simp only [noticeTimeout, ht, if_neg (Nat.not_le.2 (h t ht))]

theorem sliceBoundary_of_not (h : upcoming d p = none ∨ firmwareRuns d = false ∨ (schedGet d p).reclaim.isSome = true ∨
    applying d p = true ∨ d.time.now < (schedGet d p).boundary) : sliceBoundary nv p d = d := by
  cases hup : upcoming d p with
  | none => simp only [sliceBoundary, hup]
  | some e =>
    have hnot : (!firmwareRuns d || (schedGet d p).reclaim.isSome || applying d p ||
        decide (d.time.now < (schedGet d p).boundary)) = true := by
      rcases h with h | h | h | h | h
      · simp [hup] at h
      all_goals simp [h]
    simp only [sliceBoundary, hup, if_pos hnot]

theorem reclaimComplete_of_not
    (h : ((schedGet d p).reclaim.all fun r => decide (r.departing ≠ []) || !procUp d 2) = true) :
    reclaimComplete nv p d = d := by
  cases hr : (schedGet d p).reclaim with
  | none => simp only [reclaimComplete, hr]
  | some r =>
    have hnot : (!r.departing.isEmpty || !procUp d 2) = true := by simpa [hr] using h
    simp only [reclaimComplete, hr, if_pos hnot]

end Partition

section Residency

variable {c k u : Nat}

theorem departureAbandon_of_not (h : ∀ r t, unitGet d k u = some r → (ctxGet d r.ctx.val).departing = some t →
    d.time.now < t + cdiv (tileBudget d (ctxGet d r.ctx.val).part.val * 1600000) (halfMhz d (halfOf k))) :
    departureAbandon k u d = d := by
  cases hr : unitGet d k u with
  | none => simp only [departureAbandon, hr]
  | some r =>
    cases ht : (ctxGet d r.ctx.val).departing with
    | none => simp only [departureAbandon, hr, ht]
    | some t => simp only [departureAbandon, hr, ht, if_neg (Nat.not_le.2 (h r t hr ht))]

theorem contextArrival_of_not (h : (schedGet d (ctxGet d c).part.val).incoming.contains c = false ∨ (ctxGet d c).st ≠ .bound ∨
    ((residents d (ctxGet d c).part.val).all fun y => (ctxGet d y).departing.isNone) = false ∨ firmwareRuns d = false ∨
    maxResident d (ctxGet d c).part.val ≤ (residents d (ctxGet d c).part.val).length ∨
    ((schedGet d (ctxGet d c).part.val).notice ≠ none ∧ d.time.fallback = true ∧
      noticeSeen d (ctxGet d c).part.val = false)) : contextArrival nv c d = d := by
  refine if_neg fun ⟨hlisted, hbound, hclear, hruns, hroom, hnotice⟩ => ?_
  rcases h with h | h | h | h | h | ⟨hopen, hfall, hunseen⟩
  · exact Bool.eq_false_iff.1 h hlisted
  · exact h hbound
  · exact Bool.eq_false_iff.1 h hclear
  · exact Bool.eq_false_iff.1 h hruns
  · exact Nat.not_lt.2 h hroom
  · simp [Option.isNone_iff_eq_none, hopen, hfall, hunseen] at hnotice

/-! ### Teardown and the watchdog (R426 to R429) -/

theorem teardownComplete_of_not (h : (ctxGet d c).st ≠ .tearing ∨ tearReady nv d c = false) : teardownComplete nv c d = d :=
  if_neg fun ⟨hst, hready⟩ => h.elim (· hst) (Bool.eq_false_iff.1 · hready)

theorem teardownTimeout_of_not (h : (ctxGet d c).st ≠ .tearing ∨ nv.up < (ctxGet d c).tearFrom + 200000) :
    teardownTimeout nv c d = d := if_neg fun ⟨hst, hover⟩ => h.elim (· hst) (Nat.not_lt.2 hover)

theorem quiescenceEnd_of_not (h : (ctxGet d c).st ≠ .quiescing ∨ nv.up < quiesceEnd nv d c) : quiescenceEnd nv c d = d :=
  if_neg fun ⟨hst, hover⟩ => h.elim (· hst) (Nat.not_lt.2 hover)

theorem hang_of_not (h : hung d c = none ∨ resident d c = false) : hang nv c d = d := by
  cases hh : hung d c with
  | none => simp only [hang, hh]
  | some e =>
    have hres : ¬resident d c = true := Bool.eq_false_iff.1 (h.resolve_left (by simp [hh]))
    simp only [hang, hh, if_neg hres]

end Residency

/-! ### Resets and the power cycle (R430, R453) -/

theorem engineResetTimeout_of_not {k : Nat}
    (h : ∀ r, (cluGet d k).reset = some r → nv.up < r.1 + 1000000 ∨ r.2 ≤ nv.up) : engineResetTimeout nv k d = d := by
  cases hr : (cluGet d k).reset with
  | none => simp only [engineResetTimeout, hr]
  | some r =>
    have hnot : ¬(r.1 + 1000000 ≤ nv.up ∧ nv.up < r.2) := by have := h r hr; omega
    simp only [engineResetTimeout, hr, if_neg hnot]

theorem partitionResetTimeout_of_not {p : Nat} (h : ∀ a, (schedGet d p).reset = some a → nv.up < a + 10000000) :
    partitionResetTimeout nv p d = d := by
  cases ha : (schedGet d p).reset with
  | none => simp only [partitionResetTimeout, ha]
  | some a => simp only [partitionResetTimeout, ha, if_neg (Nat.not_le.2 (h a ha))]

theorem chipReset_of_not {cause : Nat} {passed : List Nat} (h : nv.mainOn = false ∨ (cause = 0 ∧ d.flt.resetDue = none)) :
    chipReset cause passed nv d = (nv, d) := by
  refine if_neg fun ⟨hon, hdue⟩ => ?_
  rcases h with h | ⟨hcause, hnone⟩
  · exact Bool.eq_false_iff.1 h hon
  · simp [hcause, hnone] at hdue

theorem powerCycle_of_not (h : nv.mainOn = false ∨ (d.flt.cycleDue = false ∧ (bootLate nv d = false ∨ nv.pcycReq = true))) :
    powerCycle nv d = (nv, d) := by
  refine if_neg fun ⟨hon, hdue⟩ => ?_
  rcases h with h | ⟨hnone, h | h⟩
  · exact Bool.eq_false_iff.1 h hon
  · simp [hnone, h] at hdue
  · simp [hnone, h] at hdue

/-! ### Test runs (R435, R436, R438) -/

section Tests

variable {k : Nat}

theorem testRun_of_not (h : d.flt.pkg = none ∨ firmwareRuns d = false ∨ securityUp d = false) : testRun nv k d = d := by
  cases hp : d.flt.pkg with
  | none => simp only [testRun, hp]
  | some p =>
    simp only [testRun, hp]
    refine if_neg fun ⟨_, hruns, hsec, _⟩ => ?_
    rcases h with h | h | h
    · simp [hp] at h
    · exact Bool.eq_false_iff.1 h hruns
    · exact Bool.eq_false_iff.1 h hsec

theorem testRunEnd_of_not {f : Option (Option (Fin 3))}
    (h : d.flt.pkg = none ∨ ((cluGet d k).test.all fun e => decide (nv.up < e)) = true) : testRunEnd nv k f d = d := by
  cases he : (cluGet d k).test with
  | none => simp only [testRunEnd, he]
  | some e =>
    cases hp : d.flt.pkg with
    | none => simp only [testRunEnd, he, hp]
    | some p =>
      have hrun : nv.up < e := by simpa [hp, he] using h
      simp only [testRunEnd, he, hp, if_pos hrun]

theorem testStarved_of_not (h : (healthGet d 0 k).st ≠ .suspect) : testStarved nv k d = d := if_neg fun hdue => h hdue.1

end Tests

/-! ### Boot, staging, activation and application (R341 to R347, R405 to R414) -/

theorem boot_of_not (h : nv.mainOn = false ∨ d.fw.mode ≠ .booting) : boot nv d = (nv, d) :=
  if_pos (by rcases h with h | h <;> simp [h])

theorem frameStageComplete_of_none (h : d.frames.staging = none) : frameStageComplete nv d = d := by
  simp only [frameStageComplete, h]

theorem fwStageComplete_of_not (h : d.fw.staging = none ∨ securityUp d = false) : fwStageComplete nv d = (nv, d) := by
  cases hs : d.fw.staging with
  | none => simp only [fwStageComplete, hs]
  | some e =>
    have hdown : (!securityUp d) = true := by simp [h.resolve_left (by simp [hs])]
    simp only [fwStageComplete, hs, if_pos hdown]

theorem activationComplete_of_not {f : Option (Fin 4 × CluNo)}
    (h : d.fw.acting = none ∨ (f = none ∧ deviceQuiet d = false)) : activationComplete f nv d = (nv, d) := by
  rcases h with h | ⟨rfl, hbusy⟩
  · simp [activationComplete, h]
  · simp [activationComplete, hbusy]

theorem deferredStart_of_not (h : d.fw.deferred = none ∨ d.pwr.emergency = true ∨ activationWaits d = true) :
    deferredStart nv d = d := by
  cases ht : d.fw.deferred with
  | none => simp only [deferredStart, ht]
  | some tag =>
    have hwaits : (d.pwr.emergency || activationWaits d) = true := by simpa [ht] using h
    simp only [deferredStart, ht, if_pos hwaits]

/-- A reclaim of the partition of a partial Frame, or of any for a full one, goes first (R347). -/
def ReclaimFirst (d : Device) (f : Frame) : Prop :=
  (f.isPartial = false ∧ ((List.range 16).any fun p => (schedGet d p).reclaim.isSome) = true) ∨
    (f.isPartial = true ∧ ∃ x l, f.sections = x :: l ∧ (schedGet d x.number).reclaim.isSome = true)

theorem applicationStart_of_none (h : nextApp d = none) : applicationStart nv d = d := by
  simp only [applicationStart, h]

theorem applicationStart_of_reclaim {a : Application} {f : Frame} (ha : nextApp d = some a)
    (hf : d.frames.slots.getD a.slot none = some f) (hfirst : ReclaimFirst d f) : applicationStart nv d = d := by
  rcases hfirst with ⟨hfull, hany⟩ | ⟨hpart, x, l, hsec, hrec⟩
  · simp only [applicationStart, ha, hf, hfull, Bool.not_false, if_true, hany]
  · simp only [applicationStart, ha, hf, hpart, Bool.not_true, Bool.false_eq_true, if_false, hsec, hrec, if_true]

theorem applicationCommit_of_none (h : (d.frames.apps.all fun a => a.frame.isNone) = true) : applicationCommit nv d = d := by
  have hnone : (d.frames.apps.find? fun a => a.frame.isSome) = none :=
    List.find?_eq_none.2 fun a ha => by simpa using List.all_eq_true.1 h a ha
  simp only [applicationCommit, hnone]

/-! ### The remap of a cluster (R264) -/

section Remap

variable {k : Nat}

theorem clusterRemap_of_not (h : (cluGet d k).dead = false ∨ (cluGet d k).remap.isSome = true ∨ procUp d 2 = false ∨
    remapWaits d = true) : clusterRemap nv k d = d := by
  have hnot : (!(cluGet d k).dead || (cluGet d k).remap.isSome || !procUp d 2 || remapWaits d) = true := by
    rcases h with h | h | h | h <;> simp [h]
  simp only [clusterRemap, if_pos hnot]

theorem clusterRemapComplete_of_not (h : (cluGet d k).remap = none ∨ boundAll nv d k = false ∨ procUp d 2 = false) :
    clusterRemapComplete nv k d = d := by
  refine if_neg fun ⟨hremap, hbound, hproc⟩ => ?_
  rcases h with h | h | h
  · simp [h] at hremap
  · exact Bool.eq_false_iff.1 h hbound
  · exact Bool.eq_false_iff.1 h hproc

end Remap

end Sys2Proof.Machine
end

section
/-! SUPPORT. Streams, checkpoints, units, combinations, copies, lists and moves: each leaves the device as it is where what it needs
is not there (O60; log entry 52). -/

namespace Sys2Proof.Machine

variable {nv : NonVol} {d : Device} {c k u : Nat}

/-! ### Programs and their entries (R30 to R33, R63, R120, R366) -/

theorem bubbleStart_of_not {i : Nat} (h : ((ctxGet d c).bubbles[i]?.all fun b =>
    decide (b.count ≤ b.next ∨ d.time.now < (bubbleSpan b b.next).1)) = true) : bubbleStart c i d = d := by
  cases hb : (ctxGet d c).bubbles[i]? with
  | none => simp only [bubbleStart, hb]
  | some b =>
    rw [hb, Option.all_some, decide_eq_true_eq] at h
    have hnot : ¬(b.next < b.count ∧ (bubbleSpan b b.next).1 ≤ d.time.now) := by omega
    simp only [bubbleStart, hb, if_neg hnot]

theorem programComplete_of_not
    (h : ((ctxGet d c).prog.all fun (g : Prog) => !(progEnded g && ctxLive d c && procUp d 2)) = true) :
    programComplete nv c d = d := by
  cases hg : (ctxGet d c).prog with
  | none => simp only [programComplete, hg]
  | some g =>
    have hnot : ¬(progEnded g && ctxLive d c && procUp d 2) = true := by
      rw [hg, Option.all_some, Bool.not_eq_true'] at h
      exact Bool.eq_false_iff.1 h
    simp only [programComplete, hg, if_neg hnot]

/-- Where a stream that may start has a cluster there is no slot for it, or only the spill area is in use (R31, R54). -/
theorem streamGo_of_no_room {g : Prog} {i : StreamInfo} (h : ((partCluster d (ctxGet d c).part.val i.x.home).all fun k =>
    (freeSlot d k).isNone || (usesSpill i.x && spillBusy g && (govCounts d c i.gov).toOption.isSome)) = true) :
    streamGo nv c g i d = d := by
  cases hk : partCluster d (ctxGet d c).part.val i.x.home with
  | none => simp only [streamGo, hk]
  | some k =>
    cases hn : freeSlot d k with
    | none => simp only [streamGo, hk, hn]
    | some n =>
      simp only [hk, hn, Option.all_some, Option.isNone_some, Bool.false_or, Bool.and_eq_true] at h
      obtain ⟨hspill, hcounts⟩ := h
      cases hgov : govCounts d c i.gov with
      | error f => simp [hgov, Except.toOption] at hcounts
      | ok e => simp [streamGo, hk, hn, hgov, hspill]

theorem sortGo_of_no_room {g : Prog} {x : SortDesc} (h : ((partCluster d (ctxGet d c).part.val x.home).all fun k =>
    (freeSlot d k).isNone) = true) : sortGo c g x d = d := by
  cases hk : partCluster d (ctxGet d c).part.val x.home with
  | none => simp only [sortGo, hk]
  | some k =>
    have hn : freeSlot d k = none := by simpa [hk] using h
    simp only [sortGo, hk, hn]

/-- The next entry of the program is none that can start now (R30 to R33, R54). -/
def nextWaits (d : Device) (c : Nat) (g : Prog) : Bool :=
  match (g.entries[g.next]? : Option Entry) with
  | some (.stream x _ _ _ _ gov) => !depMet g x.depKind x.depStream || !govDone g gov || (!x.passThrough &&
      (partCluster d (ctxGet d c).part.val x.home).all fun k => (freeSlot d k).isNone ||
        (usesSpill x && spillBusy g && (govCounts d c gov).toOption.isSome))
  | some (.sort y) => !depMet g y.depKind y.depStream ||
      (partCluster d (ctxGet d c).part.val y.home).all fun k => (freeSlot d k).isNone
  | _ => true

theorem streamStart_of_not (h : ((ctxGet d c).prog.all fun (g : Prog) =>
    !mayDeal d c || g.stop.isSome || decide (8 ≤ g.runs.length) || nextWaits d c g) = true) : streamStart nv c d = d := by
  cases hg : (ctxGet d c).prog with
  | none => simp only [streamStart, hg]
  | some g =>
    rw [hg, Option.all_some, Bool.or_eq_true] at h
    by_cases hhold : (!mayDeal d c || g.stop.isSome || decide (8 ≤ g.runs.length)) = true
    · simp only [streamStart, hg, if_pos hhold]
    · have hwaits := h.resolve_left hhold
      unfold nextWaits at hwaits
      simp only [streamStart, hg, if_neg hhold]
      cases hx : g.entries[g.next]? with
      | none => rfl
      | some e =>
        cases e with
        | finish | marker => rfl
        | stream x slot kernel src dst gov =>
          simp only [hx, Bool.or_eq_true, Bool.and_eq_true, Bool.not_eq_true'] at hwaits ⊢
          split
          · rfl
          · next hready =>
            obtain ⟨hpass, hroom⟩ := hwaits.resolve_left hready
            rw [if_neg (by simp [hpass]), streamGo_of_no_room hroom]
        | sort y =>
          simp only [hx, Bool.or_eq_true, Bool.not_eq_true'] at hwaits ⊢
          split
          · next hdep => exact sortGo_of_no_room (hwaits.resolve_left (by simp [hdep]))
          · rfl

/-- The next entry of the program is no marker of kind `n` (R120). -/
def nextNoMarker (g : Prog) (n : Nat) : Bool :=
  match (g.entries[g.next]? : Option Entry) with
  | some (.marker m) => decide (m.kind ≠ n)
  | _ => true

theorem checkpointBegin_of_not (h : ((ctxGet d c).prog.all fun (g : Prog) =>
    decide (g.runs ≠ []) || g.stop.isSome || !mayDeal d c || nextNoMarker g 1) = true) : checkpointBegin c d = d := by
  cases hg : (ctxGet d c).prog with
  | none => simp only [checkpointBegin, hg]
  | some g =>
    rw [hg, Option.all_some] at h
    unfold nextNoMarker at h
    simp only [checkpointBegin, hg]
    cases hx : g.entries[g.next]? with
    | none => rfl
    | some e =>
      cases e with
      | finish | stream | sort => rfl
      | marker m =>
        refine if_neg fun ⟨hkind, hruns, hstop, hdeal⟩ => ?_
        simp [hx, hkind, hruns, hstop, hdeal] at h

theorem checkpointEnd_of_not (h : ((ctxGet d c).prog.all fun (g : Prog) =>
    decide (g.runs ≠ []) || g.stop.isSome || !mayDeal d c || g.block.isNone || nextNoMarker g 2) = true) :
    checkpointEnd nv c d = d := by
  cases hg : (ctxGet d c).prog with
  | none => simp only [checkpointEnd, hg]
  | some g =>
    rw [hg, Option.all_some] at h
    unfold nextNoMarker at h
    simp only [checkpointEnd, hg]
    cases hx : g.entries[g.next]? with
    | none => rfl
    | some e =>
      cases e with
      | finish | stream | sort => rfl
      | marker m =>
        cases hb : g.block with
        | none => rfl
        | some b =>
          refine if_neg fun ⟨hkind, hruns, hstop, hdeal⟩ => ?_
          simp [hx, hb, hkind, hruns, hstop, hdeal] at h

section Entry

variable {idx : Nat}

theorem recordSlotWrite_of_not (h : ((runGet d c idx).all fun r => (ctxGet d c).prog.isNone || (streamInfo d c idx).all fun i =>
    !resident d c || !has i.x 7 || r.recorded || !allCommitted d c r || decide (r.remoteStatus ≠ 0)) = true) :
    recordSlotWrite nv c idx d = d := by
  cases hg : (ctxGet d c).prog with
  | none => simp only [recordSlotWrite, hg]
  | some g =>
    cases hr : runGet d c idx with
    | none => simp only [recordSlotWrite, hg, hr]
    | some r =>
      cases hi : streamInfo d c idx with
      | none => simp only [recordSlotWrite, hg, hr, hi]
      | some i =>
        rw [hr, hg, hi, Option.all_some, Option.isNone_some, Bool.false_or, Option.all_some] at h
        simp only [recordSlotWrite, hg, hr, hi, if_pos h]

theorem streamComplete_of_not (h : ((runGet d c idx).all fun r => (ctxGet d c).prog.isNone || !resident d c || r.saved.isSome ||
    (decide (r.remoteStatus = 0) && !entryOver d c r) || refusalOpen d c r) = true) : streamComplete nv c idx d = d := by
  cases hg : (ctxGet d c).prog with
  | none => simp only [streamComplete, hg]
  | some g =>
    cases hr : runGet d c idx with
    | none => simp only [streamComplete, hg, hr]
    | some r =>
      rw [hr, hg, Option.all_some, Option.isNone_some, Bool.false_or] at h
      have hnot : (!resident d c || r.saved.isSome || !(decide (r.remoteStatus ≠ 0) || entryOver d c r) ||
          refusalOpen d c r) = true := by simpa using h
      simp only [streamComplete, hg, hr, if_pos hnot]

/-! ### Lists (R161, R165, R174) -/

theorem listPhase_of_not (h : ((runGet d c idx).all fun r => (sortInfo d c idx).all fun x =>
    r.ready || decide (x.op ≠ 0) || !mayDeal d c || outOfService d r.home) = true) : listPhase nv c idx d = d := by
  cases hr : runGet d c idx with
  | none => simp only [listPhase, hr]
  | some r =>
    cases hx : sortInfo d c idx with
    | none => simp only [listPhase, hr, hx]
    | some x =>
      simp only [hr, hx, Option.all_some, Bool.or_eq_true, decide_eq_true_eq] at h
      have hnot : x.op ≠ 0 ∨ r.ready = true ∨ (!mayDeal d c) = true ∨ outOfService d r.home = true := by tauto
      simp only [listPhase, hr, hx, if_pos hnot]

theorem receiveWait_of_not (h : ((runGet d c idx).all fun r => (sortInfo d c idx).all fun x =>
    r.ready || !awaitsRows x || !resident d c) = true) : receiveWait nv c idx d = d := by
  cases hr : runGet d c idx with
  | none => simp only [receiveWait, hr]
  | some r =>
    cases hx : sortInfo d c idx with
    | none => simp only [receiveWait, hr, hx]
    | some x =>
      simp only [hr, hx, Option.all_some, Bool.or_eq_true, or_assoc] at h
      simp only [receiveWait, hr, hx, if_pos h]

end Entry

/-! ### Units (R44, R46, R48, R167, R203) -/

theorem coreContextChange_of_not {c : CtxNo} (h : takesUnits nv d k = false ∨ resident d c.val = false ∨
    wantsCores d k c.val = false ∨ otherParcels d k c.val = true) : coreContextChange nv k c d = d :=
  if_neg (by rcases h with h | h | h | h <;> simp [h])

theorem unitClaim_of_not (h : (cluGet d k).claimed.isSome = true ∨ takesUnits nv d k = false ∨
    ((partOf d k).bind (lostCopy d) = none ∧ claimFrom d k = none)) : unitClaim nv k d = d := by
  by_cases hbusy : ((cluGet d k).claimed.isSome || !takesUnits nv d k) = true
  · simp only [unitClaim, if_pos hbusy]
  · have hnone : (partOf d k).bind (lostCopy d) = none ∧ claimFrom d k = none := by
      rcases h with h | h | h
      · simp [h] at hbusy
      · simp [h] at hbusy
      · exact h
    simp only [unitClaim, if_neg hbusy, hnone.1, hnone.2]

theorem unitGo_of_not (h : ((cluGet d k).claimed.all fun q => !takesUnits nv d k || !mayDeal d q.ctx.val ||
    !fitsOn d k q.ctx.val q.idx || ((streamInfo d q.ctx.val q.idx).any fun i => !unitStartOk d k q.ctx i.x)) = true) :
    unitGo nv k d = d := by
  cases hq : (cluGet d k).claimed with
  | none => simp only [unitGo, hq]
  | some q =>
    rw [hq, Option.all_some, Bool.or_eq_true] at h
    by_cases hhold : (!takesUnits nv d k || !mayDeal d q.ctx.val || !fitsOn d k q.ctx.val q.idx) = true
    · simp only [unitGo, hq, if_pos hhold]
    · have hstart := h.resolve_left hhold
      cases hi : streamInfo d q.ctx.val q.idx with
      | none => simp [hi] at hstart
      | some i =>
        rw [hi, Option.any_some] at hstart
        simp only [unitGo, hq, if_neg hhold, hi, if_pos hstart]

theorem unitCommit_of_not (h : ((unitGet d k u).all fun _ => !unitOver d k u || unitWrites (cluGet d k) u ||
    unitOwes d k u) = true) : unitCommit nv k u d = d := by
  cases hr : unitGet d k u with
  | none => simp only [unitCommit, hr]
  | some r =>
    rw [hr, Option.all_some] at h
    simp only [unitCommit, hr, if_pos h]

theorem moveUnit_of_not (h : ((unitGet d k u).all fun r => (sortInfo d r.ctx.val r.idx).isNone || (runGet d r.ctx.val r.idx).all fun q =>
    r.moved || decide (q.remoteStatus ≠ 0)) = true) : moveUnit nv k u d = d := by
  cases hr : unitGet d k u with
  | none => simp only [moveUnit, hr]
  | some r =>
    cases hx : sortInfo d r.ctx.val r.idx with
    | none => simp only [moveUnit, hr, hx]
    | some x =>
      cases hq : runGet d r.ctx.val r.idx with
      | none => simp only [moveUnit, hr, hx, hq]
      | some q =>
        have hnot : r.moved = true ∨ q.remoteStatus ≠ 0 := by simpa [hr, hx, hq] using h
        simp only [moveUnit, hr, hx, hq, if_pos hnot]

/-! ### Passes (R53, R60, R145) -/

theorem getD_map_false {α : Type} (o : Option α) (f : α → Bool) : (o.map f).getD false = o.any f := by cases o <;> rfl

theorem passGo_of_not (h : ((unitInfo d k u).all fun q =>
    ((unitPasses q.2 q.1 (countsOf d q.1.ctx.val q.1.idx))[q.1.pos]?).all fun p => !q.1.predRead ||
      (((unitBounds q.2 q.1 (trusted d q.1.ctx.val q.1.idx))[q.1.bpos]?).any fun b => decide (b.chunk < p.chunk)) ||
      ((passX q.2 (regionOf q.2 q.1) (countsOf d q.1.ctx.val q.1.idx) q.1.pred p ++
        passW q.2 (regionOf q.2 q.1) (countsOf d q.1.ctx.val q.1.idx) q.1.pred p ++
        (if q.1.pos = 0 then initWords q.2 q.1 else [])).any fun w => !q.1.have_.contains w) ||
      !hasRoom d k q.2 q.1 p) = true) : passGo nv k u d = d := by
  cases hq : unitInfo d k u with
  | none => simp only [passGo, hq]
  | some q =>
    rw [hq, Option.all_some] at h
    cases hp : (unitPasses q.2 q.1 (countsOf d q.1.ctx.val q.1.idx))[q.1.pos]? with
    | none => simp only [passGo, hq, hp]
    | some p =>
      rw [hp, Option.all_some] at h
      simp only [passGo, hq, hp]
      refine if_pos ?_
      rw [getD_map_false]
      simp only [Bool.or_eq_true] at h
      tauto

theorem boundGo_of_not (h : ((unitInfo d k u).all fun q =>
    ((unitBounds q.2 q.1 (trusted d q.1.ctx.val q.1.idx))[q.1.bpos]?).all fun b => !q.1.predRead ||
      (((unitPasses q.2 q.1 (countsOf d q.1.ctx.val q.1.idx))[q.1.pos]?).any fun p => decide (p.chunk ≤ b.chunk)) ||
      ((boundX q.2 (regionOf q.2 q.1) (countsOf d q.1.ctx.val q.1.idx) b ++
        boundW q.2 (regionOf q.2 q.1) (countsOf d q.1.ctx.val q.1.idx) b).any fun w => !q.1.have_.contains w)) = true) :
    boundGo nv k u d = d := by
  cases hq : unitInfo d k u with
  | none => simp only [boundGo, hq]
  | some q =>
    rw [hq, Option.all_some] at h
    cases hb : (unitBounds q.2 q.1 (trusted d q.1.ctx.val q.1.idx))[q.1.bpos]? with
    | none => simp only [boundGo, hq, hb]
    | some b =>
      rw [hb, Option.all_some] at h
      simp only [boundGo, hq, hb]
      refine if_pos ?_
      rw [getD_map_false]
      simp only [Bool.or_eq_true] at h
      tauto

/-! ### Drains (R53, R204, R475) -/

section Drain

variable {r : UnitRun} {i : StreamInfo} {q : Nat}

theorem accDrain_of_not (h : ((stripSet i (regionOf i r) q).all fun z =>
    (stripNos (regionOf i r) z).any r.drained.contains || !r.predRead ||
    !((if r.moved then [] else initWords i r) ++ maskWords i r).all r.have_.contains ||
    !closedSet i (regionOf i r) r (countsOf d r.ctx.val r.idx) (trusted d r.ctx.val r.idx) z) = true) :
    accDrain nv k u q r i d = d := by
  cases hz : stripSet i (regionOf i r) q with
  | none => simp only [accDrain, hz]
  | some z =>
    rw [hz, Option.all_some] at h
    simp only [accDrain, hz]
    refine if_pos ?_
    rwa [← Bool.or_assoc]

/-- Row `q` of a ROW unit waits to be delivered: for the rows before it, the core context, or its words (R204). -/
def DeliveryWaits (d : Device) (k q : Nat) (r : UnitRun) (i : StreamInfo) : Prop :=
  (List.range q).all r.sent.contains = false ∨ (cluGet d k).coreCtx ≠ some r.ctx ∨
    (plainWords i r ((regionOf i r).r0 + q) ++ maskWords i r).all r.have_.contains = false

theorem rowDrain_of_not (h : (regionOf i r).nr ≤ q ∨ r.drained.contains q = true ∨
    (r.sent.contains q = false ∧ DeliveryWaits d k q r i) ∨
    (r.sent.contains q = true ∧ ((List.range q).all r.drained.contains = false ∨
      parcelOpen d k r (fun p => p.row == (regionOf i r).r0 + q) = true))) : rowDrain nv k u q r i d = d := by
  by_cases hout : (regionOf i r).nr ≤ q ∨ r.drained.contains q = true
  · exact if_pos hout
  · refine (if_neg hout).trans ?_
    rcases (or_assoc.2 h).resolve_left hout with ⟨hsent, hwait⟩ | ⟨hsent, hwait⟩
    · have hdeliver : (!r.sent.contains q) = true := by rw [hsent, Bool.not_false]
      rw [if_pos hdeliver, if_pos]
      unfold DeliveryWaits at hwait
      simpa only [Bool.or_eq_true, Bool.not_eq_true', decide_eq_true_eq, or_assoc] using hwait
    · have hfinish : ¬(!r.sent.contains q) = true := by rw [hsent, Bool.not_true]; exact Bool.false_ne_true
      rw [if_neg hfinish, if_pos]
      simpa only [Bool.or_eq_true, Bool.not_eq_true'] using hwait

theorem moveDrain_of_not (h : (regionOf i r).nr ≤ q ∨ r.drained.contains q = true ∨
    (exSource i.x = true ∧ (d.link.reads.any fun x => x.unit = some (k, u)) = true) ∨
    (plainWords i r ((regionOf i r).r0 + q) ++ maskWords i r).all r.have_.contains = false) : moveDrain nv k u q r i d = d := by
  refine if_pos (h.imp_right (Or.imp_right (Or.imp ?waits ?missing)))
  case waits =>
    rintro ⟨hex, hread⟩
    rw [hex, hread, Bool.and_self]
  case missing =>
    intro hmiss
    rwa [← List.not_all_eq_any_not, Bool.not_eq_true']

theorem drainGo_of_none (h : unitInfo d k u = none) : drainGo nv k u q d = d := by
  simp only [drainGo, h]

theorem exchangeEnd_of_none (h : unitInfo d k u = none) : exchangeEnd nv k u d = d := by
  simp only [exchangeEnd, h]

end Drain

/-! ### PART_COMBINE and RESULT_COPY (R45, R113) -/

section Tiles

variable {idx tile : Nat}

theorem partCombine_of_not {c : CtxNo} (h : ((runGet d c.val idx).all fun r => (streamInfo d c.val idx).all fun i =>
    !mayDeal d c.val || !takesUnits nv d r.home || !mayCombine d c.val idx tile r i ||
    (i.x.digest && (freeDigest d r.home).isNone) || (has i.x 6 && !coresServe d r.home c)) = true) :
    partCombine nv c idx tile d = d := by
  cases hr : runGet d c.val idx with
  | none => simp only [partCombine, hr]
  | some r =>
    cases hi : streamInfo d c.val idx with
    | none => simp only [partCombine, hr, hi]
    | some i =>
      rw [hr, hi, Option.all_some, Option.all_some] at h
      simp only [partCombine, hr, hi]
      refine if_pos ?_
      simp only [Bool.or_eq_true, Bool.and_eq_true, Bool.not_eq_true'] at h
      rcases h with (((h | h) | h) | ⟨hdig, h⟩) | ⟨hglaze, h⟩
      · simp [h]
      · simp [h]
      · simp [h]
      · simp [hdig, h]
      · simp [hglaze, h]

theorem resultCopy_of_not (h : ((runGet d c idx).all fun r => (streamInfo d c idx).isNone ||
    !mayDeal d c || !r.staged.contains tile || r.copied.contains tile || decide (smGet r.copier 0 tile = 0) ||
    !takesUnits nv d (smGet r.copier 0 tile - 1)) = true) : resultCopy nv c idx tile d = d := by
  cases hr : runGet d c idx with
  | none => simp only [resultCopy, hr]
  | some r =>
    cases hi : streamInfo d c idx with
    | none => simp only [resultCopy, hr, hi]
    | some i =>
      rw [hr, hi, Option.all_some, Option.isNone_some, Bool.false_or] at h
      simp only [resultCopy, hr, hi]
      exact if_pos h

end Tiles

end Sys2Proof.Machine
end

section
/-! SUPPORT. Every timer and event waits for its condition (O60): the rows over the operations that do nothing before it. -/

namespace Sys2Proof.Machine

section Rows

variable {s : State}

/-- A row whose operation leaves the device as it is leaves the block as it is (log entry 52). -/
theorem next_of_dev_eq {d : Device} (h : d = s.d) :
    (Host.Outcome.next { s with d := d } : Host.Outcome State Fault Refusal) = .next s := by
  rw [h]

/-- The same for an operation on what the module keeps as well. -/
theorem next_of_both_eq {r : NonVol × Device} (h : r = (s.nv, s.d)) :
    (Host.Outcome.next { s with nv := r.1, d := r.2 } : Host.Outcome State Fault Refusal) = .next s := by
  rw [h]

/-- Work of the security core waits while that core is down (R404). -/
theorem ite_securityUp_eq_self {d x : Device} (h : securityUp d = false ∨ x = d) : (if securityUp d then x else d) = d := by
  rcases h with h | h
  · exact if_neg (Bool.eq_false_iff.1 h)
  · rw [h, ite_self]

variable (k : CluNo) (u strip : Nat)

theorem exec_hostLinkUp_of_off (p : Port) (h : s.nv.mainOn = false) : exec (.hostLinkUp p) s = .next s :=
  next_of_dev_eq (if_neg (Bool.eq_false_iff.1 h))

theorem exec_cmisTimeout_of_not (g : CageNo) (h : cageFor s.nv s.d g.val .present 5000000000 = false) :
    exec (.cmisTimeout g) s = .next s := next_of_dev_eq (if_neg (Bool.eq_false_iff.1 h))

theorem exec_trainingDone_of_not (g : CageNo) (h : (cageGet s.d g.val).st ≠ .training) :
    exec (.trainingDone g) s = .next s := next_of_dev_eq (if_neg h)

theorem exec_downTimeout_of_not (g : CageNo) (h : cageFor s.nv s.d g.val .down 1000000000 = false) :
    exec (.downTimeout g) s = .next s := next_of_dev_eq (if_neg (Bool.eq_false_iff.1 h))

theorem exec_testRunAbandon_of_not (h : testInterrupted s.d k.val = false) : exec (.testRunAbandon k) s = .next s :=
  next_of_dev_eq (if_neg (Bool.eq_false_iff.1 h))

/-- The drain of a unit that waits only ends an exchange that is over (R53, R292). -/
theorem exec_stripDrain_of_waits {d : Device} (hd : predTry s.nv k.val u s.d = d) (h : drainGo s.nv k.val u strip d = d) :
    exec (.stripDrain k u strip) s = .next { s with d := exchangeEnd s.nv k.val u d } := by
  rw [exec_stripDrain, hd, h]

end Rows

/-- Settles O60: for each row the lemma of its operation that says when it does nothing, as log entry 52 chose. -/
theorem eventsWaitForTheirCondition : Obligations.EventsWaitForTheirCondition := by
  intro s
  refine ⟨
    fun h => next_of_dev_eq (lossTimeout_of_not h),
    fun h => next_of_dev_eq (handoverTimeout_of_not h),
    fun h => next_of_dev_eq (drainEnd_of_not h),
    fun p h => exec_hostLinkUp_of_off p h,
    fun _ _ h => next_of_dev_eq (ackTimer_of_not_due h),
    fun _ _ _ h => next_of_dev_eq (retransmitTimeout_of_not_due h),
    fun _ _ h => next_of_dev_eq (suspendExpiry_of_not_over h),
    fun _ _ h => next_of_dev_eq (flowIdleFree_of_rx_busy h),
    ?txBusy,
    fun _ _ h => next_of_dev_eq (flowFail_of_sound h),
    fun _ h => next_of_dev_eq (presenceHeld_of_unfitted h),
    fun _ _ _ h => next_of_dev_eq (moduleReady_of_other h),
    fun g h => exec_cmisTimeout_of_not g (cageFor_of_not h),
    fun g h => exec_trainingDone_of_not g h,
    fun _ _ h => next_of_dev_eq (trainingTimeout_of_not (cageFor_of_not h)),
    fun g h => exec_downTimeout_of_not g (cageFor_of_not h),
    fun _ _ h => next_of_dev_eq (linkLoss_of_down h),
    fun _ _ h => next_of_dev_eq (frameReceive_of_down h),
    fun _ h => next_of_dev_eq (noticeTimeout_of_not h),
    fun _ h => next_of_dev_eq (sliceBoundary_of_not h),
    fun _ h => next_of_dev_eq (reclaimComplete_of_not h),
    fun _ h => next_of_dev_eq (teardownComplete_of_not h),
    fun _ h => next_of_dev_eq (teardownTimeout_of_not h),
    fun _ h => next_of_dev_eq (quiescenceEnd_of_not h),
    fun _ h => next_of_dev_eq (hang_of_not h),
    fun _ h => next_of_dev_eq (engineResetTimeout_of_not h),
    fun _ h => next_of_dev_eq (partitionResetTimeout_of_not h),
    fun _ _ h => next_of_both_eq (chipReset_of_not h),
    fun h => next_of_both_eq (powerCycle_of_not h),
    fun h => next_of_both_eq (boot_of_not h),
    fun _ h => next_of_dev_eq (testRun_of_not h),
    fun _ _ h => next_of_dev_eq (testRunEnd_of_not h),
    fun k h => exec_testRunAbandon_of_not k h,
    fun _ h => next_of_dev_eq (testStarved_of_not h),
    fun h => next_of_dev_eq (ite_securityUp_eq_self (h.symm.imp_right frameStageComplete_of_none)),
    fun h => next_of_both_eq (fwStageComplete_of_not h),
    fun _ h => next_of_both_eq (activationComplete_of_not h),
    fun h => next_of_dev_eq (ite_securityUp_eq_self (h.symm.imp_right applicationCommit_of_none)),
    fun _ _ h => next_of_dev_eq (bubbleStart_of_not h),
    fun _ h => next_of_dev_eq (programComplete_of_not h),
    fun _ _ h => next_of_dev_eq (coreContextChange_of_not h),
    fun _ h => next_of_dev_eq (clusterRemap_of_not h),
    fun _ h => next_of_dev_eq (clusterRemapComplete_of_not h),
    fun _ h => next_of_dev_eq (streamStart_of_not h),
    fun _ h => next_of_dev_eq (checkpointBegin_of_not h),
    fun _ h => next_of_dev_eq (checkpointEnd_of_not h),
    fun _ h => next_of_dev_eq (unitClaim_of_not h),
    ?unitStart,
    fun _ _ h => next_of_dev_eq (unitCommit_of_not h),
    ?pass,
    ?boundPass,
    ?drainNone,
    ?drain,
    fun _ _ _ h => next_of_dev_eq (partCombine_of_not h),
    fun _ _ _ h => next_of_dev_eq (resultCopy_of_not h),
    fun _ _ h => next_of_dev_eq (recordSlotWrite_of_not h),
    fun _ _ h => next_of_dev_eq (streamComplete_of_not h),
    fun _ _ h => next_of_dev_eq (listPhase_of_not h),
    fun _ _ h => next_of_dev_eq (receiveWait_of_not h),
    fun _ _ h => next_of_dev_eq (moveUnit_of_not h),
    fun _ _ h => next_of_dev_eq (departureAbandon_of_not h),
    fun _ h => next_of_dev_eq (contextArrival_of_not h),
    fun h => next_of_dev_eq (ite_securityUp_eq_self (h.imp_right ?apply)),
    fun h => next_of_dev_eq (deferredStart_of_not h)⟩
  case txBusy =>
    intro n f h
    rw [exec_flowIdleFree, flowIdleFree_tx, if_neg]
    rintro ⟨hsent, hqueue, hidle⟩
    exact h.elim (· hsent) (·.elim (· hqueue) (Nat.not_lt.2 hidle))
  case unitStart =>
    rintro k d rfl h
    rw [exec_unitStart, unitGo_of_not h]
  case pass =>
    rintro k u d rfl h
    rw [exec_pass, passGo_of_not h]
  case boundPass =>
    rintro k u d rfl h
    rw [exec_boundPass, boundGo_of_not h]
  case drainNone =>
    intro k u strip d hd h
    rw [exec_stripDrain_of_waits k u strip hd (drainGo_of_none h), exchangeEnd_of_none h]
  case drain =>
    intro k u strip d r i hd hui hacc hrow hmove
    refine exec_stripDrain_of_waits k u strip hd ((drainGo_of_unit hui).trans ?_)
    by_cases h5 : has i.x 5 = true
    · rw [if_pos h5, accDrain_of_not (hacc h5)]
    · have h5' := Bool.eq_false_iff.2 h5
      by_cases hr : isRow i.x = true
      · rw [if_neg h5, if_pos hr, rowDrain_of_not (hrow h5' hr)]
      · rw [if_neg h5, if_neg hr, moveDrain_of_not (hmove h5' (Bool.eq_false_iff.2 hr))]
  case apply =>
    rintro (hnone | ⟨a, f, ha, hf, hfirst⟩)
    · exact applicationStart_of_none hnone
    · exact applicationStart_of_reclaim ha hf hfirst

end Sys2Proof.Machine
end

section
/-! SUPPORT. Collectives (O30): COLLECTIVE and IDLE_WINDOWS, and the rows of a collective's gate, stragglers, stages, norm and
end, each by the cases of its operation. -/

namespace Sys2Proof.Machine

/-! ### The commands (R298, R302, R327) -/

section Commands

variable {nv : NonVol} {d : Device} {t : Nat} {x : Taken} {c : CtxNo} (hc : x.ring = some c)
include hc

theorem collective_of_ok {y : CollDesc} {g : Group} (hok : collCheck nv d c.val (eArg x.entry 0 % 2 ^ 52) = .ok (y, g)) :
    collective t x nv d = collAdmitNext nv 64 (markBegun t { d with coll := { d.coll with
      runs := d.coll.runs ++ [CollRun.init c t y g] } }) := by
  simp only [collective, hc, hok]

theorem collective_of_refused {st i : Nat} (hno : collCheck nv d c.val (eArg x.entry 0 % 2 ^ 52) = .error (.refuse st i)) :
    collective t x nv d = complete nv t st i 0 d := by
  simp only [collective, hc, hno]

theorem collective_of_fault {f : FaultAt} (hno : collCheck nv d c.val (eArg x.entry 0 % 2 ^ 52) = .error (.fault f)) :
    collective t x nv d = faultCtx nv c.val { f with tag := some t } d := by
  simp only [collective, hc, hno]

end Commands

section Served

variable {s : State} {t : Nat} {x : Taken} (hst : stateStatus s.nv s.d x.ring x.entry = 0)
include hst

theorem exec_collective_of_served (hx : freshTaken s.d 0x41 t = some x) :
    exec (.collective t) s = .next { s with d := collective t x s.nv s.d } := by
  simp only [exec, execCollective, onDev, withTaken_of_served hx hst]

theorem exec_idleWindows_of_served (hx : freshTaken s.d 0x42 t = some x) :
    exec (.idleWindows t) s = .next { s with d := idleWindows t x s.nv s.d } := by
  simp only [exec, execIdleWindows, onDev, withTaken_of_served hx hst]

end Served

/-! ### The rows of a collective in the engine -/

section Runs

variable {nv : NonVol} {d : Device} {c t : Nat}

/-- A row of collective `t` leaves the device where there is no such collective, or where there is one that holds the row back. -/
theorem eq_self_of_collGet_all {d' : Device} {p : CollRun → Bool} (h : (collGet d c t).all p = true)
    (hnone : collGet d c t = none → d' = d) (hsome : ∀ r, collGet d c t = some r → p r = true → d' = d) : d' = d := by
  cases hr : collGet d c t with
  | none => exact hnone hr
  | some r => exact hsome r hr (by rwa [hr, Option.all_some] at h)

/-! ### COLLECTIVE_GATE_OPEN (R299, R310, R321) -/

/-- The gate may open: it is shut, and its counter has passed where it waits for one (R299). -/
def GateDue (d : Device) (c : Nat) (r : CollRun) : Prop :=
  r.active = true ∧ r.gateOpen = false ∧
    (r.desc.waitEn = false ∨ ctrPassed d c r.desc.waitCtr (w32 r.desc.waitValue) = true)

/-- The device with the gate of collective `t` open from now on. -/
def gateOpened (nv : NonVol) (c t : Nat) (d : Device) : Device :=
  collMod c t (fun r => { r with
    gateOpen := true, startTime := d.time.now, gateUp := nv.up
    records := if holdsNone r then smPut r.records none r.me (some (0, 2 ^ 32 - 1, 0x3FF)) else r.records }) d

/-- READY of `r` goes to its coordinator and its senders, and is held here (R310). -/
def readySent (nv : NonVol) (c t : Nat) (r : CollRun) (d : Device) : Device :=
  readyTake nv c t r.me (collSendAll nv r ((r.coordinator :: sendersTo r).eraseDups.filter (· ≠ r.me)) 2 0 0 [] d)

/-- The device with the digest that this member contributes read and held (R321). -/
def digestHeld (nv : NonVol) (c t : Nat) (r : CollRun) (v : Option Nat) (d : Device) : Device :=
  collMod c t (fun r => { r with digests := smPut r.digests none r.me (some v) })
    (readCharge nv c r.desc.src (if r.desc.mode = 1 then 8 else 256) d)

/-- The same condition, as the row tests it. -/
theorem GateDue.passes {r : CollRun} (h : GateDue d c r) : r.active = true ∧ (!r.gateOpen) = true ∧
    ((!r.desc.waitEn) = true ∨ ctrPassed d c r.desc.waitCtr (w32 r.desc.waitValue) = true) := by
  simpa only [GateDue, Bool.not_eq_true'] using h

theorem collGateOpen_of_waits (h : ((collGet d c t).all fun r => !r.active || r.gateOpen ||
    (r.desc.waitEn && !ctrPassed d c r.desc.waitCtr (w32 r.desc.waitValue))) = true) : collGateOpen nv c t d = d := by
  refine eq_self_of_collGet_all h (fun hr => by simp only [collGateOpen, hr]) fun r hr hwait => ?_
  simp only [collGateOpen, hr]
  refine if_neg ?_
  rintro ⟨hactive, hshut, hpassed⟩
  simp only [Bool.not_eq_true'] at hshut hpassed
  rcases hpassed with hfree | hpassed
  · simp [hactive, hshut, hfree] at hwait
  · simp [hactive, hshut, hpassed] at hwait

section Gate

variable {r : CollRun} (hr : collGet d c t = some r) (hdue : GateDue d c r)
include hr hdue

theorem collGateOpen_of_not_digest (hop : r.desc.op ≠ 6) :
    collGateOpen nv c t d = readySent nv c t r (gateOpened nv c t d) := by
  simp only [collGateOpen, hr]
  exact (if_pos hdue.passes).trans (if_neg hop)

theorem collGateOpen_of_digest (hop : r.desc.op = 6) {v : Option Nat} (hv : ownDigest d r = .ok v) :
    collGateOpen nv c t d = readySent nv c t r (gateOpened nv c t (digestHeld nv c t r v d)) := by
  simp only [collGateOpen, hr, hv]
  exact (if_pos hdue.passes).trans (if_pos hop)

theorem collGateOpen_of_unread (hop : r.desc.op = 6) {f : FaultAt} (hf : ownDigest d r = .error f) :
    collGateOpen nv c t d = faultCtx nv c { f with tag := some t } d := by
  simp only [collGateOpen, hr, hf]
  exact (if_pos hdue.passes).trans (if_pos hop)

end Gate

/-! ### STRAGGLER_TIMEOUT (R310) -/

theorem stragglerTimeout_of_waits (h : ((collGet d c t).all fun r => decide (r.gateOpen = false ∨ r.allReady = true ∨
    (r.coordinator = r.me ∧ nv.up < r.gateUp + (r.raised + 1) * (d.coll.stragglerMs * 1000000)) ∨
    (r.coordinator ≠ r.me ∧ (r.told = true ∨ r.raised ≠ 0 ∨
      nv.up < r.gateUp + d.coll.stragglerMs * 1000000 + 1000000000)))) = true) : stragglerTimeout nv c t d = d := by
  refine eq_self_of_collGet_all h (fun hr => by simp only [stragglerTimeout, hr]) fun r hr hwait => ?_
  simp only [stragglerTimeout, hr]
  rw [decide_eq_true_eq] at hwait
  rcases hwait with hshut | hready | ⟨hhere, hearly⟩ | ⟨hother, hheard⟩
  · exact if_pos (.inl (by rw [hshut]; rfl))
  · exact if_pos (.inr hready)
  · rw [if_pos hhere, if_neg (Nat.not_le.2 hearly), ite_self]
  · have hnot : ¬((!r.told) = true ∧ r.raised = 0 ∧ r.gateUp + d.coll.stragglerMs * 1000000 + 1000000000 ≤ nv.up) := by
      rintro ⟨htold, hraised, hlate⟩
      rcases hheard with h | h | h
      · simp [h] at htold
      · exact h hraised
      · exact Nat.not_le.2 h hlate
    rw [if_neg hother, if_neg hnot, ite_self]

section Straggler

variable {r : CollRun} (hr : collGet d c t = some r) (hopen : r.gateOpen = true) (hready : r.allReady = false)
include hr hopen hready

theorem stragglerTimeout_of_coordinator (hhere : r.coordinator = r.me)
    (hlate : r.gateUp + (r.raised + 1) * (d.coll.stragglerMs * 1000000) ≤ nv.up) {missing : List Nat}
    (hm : missing = (List.range r.size).filter fun m => !r.readyFrom.contains m) : stragglerTimeout nv c t d =
      collSendAll nv r (r.readyFrom.filter (· ≠ r.me)) 4 0 0 (missingMap missing)
        (stragglerRaise nv c t missing (collMod c t (fun r => { r with raised := r.raised + 1 }) d)) := by
  subst hm
  have hheld : ¬((!r.gateOpen) = true ∨ r.allReady = true) := by simp [hopen, hready]
  simp only [stragglerTimeout, hr, if_neg hheld, if_pos hhere, if_pos hlate]

theorem stragglerTimeout_of_member (hother : r.coordinator ≠ r.me) (htold : r.told = false) (hraised : r.raised = 0)
    (hlate : r.gateUp + d.coll.stragglerMs * 1000000 + 1000000000 ≤ nv.up) : stragglerTimeout nv c t d =
      stragglerRaise nv c t [r.coordinator] (collMod c t (fun r => { r with raised := 1 }) d) := by
  have hheld : ¬((!r.gateOpen) = true ∨ r.allReady = true) := by simp [hopen, hready]
  simp only [stragglerTimeout, hr, if_neg hheld, if_neg hother]
  exact if_pos ⟨by rw [htold]; rfl, hraised, hlate⟩

end Straggler

/-! ### COLLECTIVE_STAGE and COLLECTIVE_STAGE_END (R311, R387) -/

theorem collStage_of_ready {r : CollRun} (hr : collGet d c t = some r) (hready : stageReady d r = true) :
    collStage nv c t d = collWork nv c t stageFuel (ctxMod c (fun x => { x with progressAt := nv.up })
      (collMod c t (fun r => { r with stage := some nv.up, traffic := 0 }) d)) := by
  simp only [collStage, hr, if_pos hready]

theorem collStage_of_waits (h : ((collGet d c t).all fun r => !stageReady d r) = true) : collStage nv c t d = d := by
  refine eq_self_of_collGet_all h (fun hr => by simp only [collStage, hr]) fun r hr hwait => ?_
  rw [Bool.not_eq_true'] at hwait
  simp only [collStage, hr, hwait, Bool.false_eq_true, if_false]

theorem collStageEnd_of_stage {r : CollRun} {n : Nat} (hr : collGet d c t = some r) (hn : r.stage = some n) :
    collStageEnd nv c t d = stageOverrun nv c (ctxMod c (fun x => { x with progressAt := nv.up })
      (collMod c t (fun r => { r with stage := none, traffic := 0 }) d)) := by
  simp only [collStageEnd, hr, hn, Option.isSome_some, if_true]

theorem collStageEnd_of_none (h : ((collGet d c t).all fun r => r.stage.isNone) = true) : collStageEnd nv c t d = d := by
  refine eq_self_of_collGet_all h (fun hr => by simp only [collStageEnd, hr]) fun r hr hnone => ?_
  simp only [collStageEnd, hr, Option.isNone_iff_eq_none.1 hnone, Option.isSome_none, Bool.false_eq_true, if_false]

/-! ### NORM_STEP (R315) -/

/-- Member 0 forms the norm once it holds the total of every member. -/
def normFound (r : CollRun) : CollRun :=
  if r.me = 0 ∧ r.normVal.isNone ∧ (List.range r.size).all (fun m => (smGet r.totals none m).isSome)
  then { r with normVal := some (normOf r) } else r

/-- What NORM_STEP does where this member's total is known: totals go up, the norm is formed, and goes down. -/
def normSteps (nv : NonVol) (c t : Nat) (d : Device) : Device :=
  normDown nv c t (collMod c t normFound (totalsUp nv c t d))

theorem normStep_of_waits (h : ((collGet d c t).all fun r => !r.active || !r.desc.normFinal || decide (r.bad ≠ 0) ||
    !reduceOver r || !setReady d c t) = true) : normStep nv c t d = d := by
  refine eq_self_of_collGet_all h (fun hr => by simp only [normStep, hr]) fun r hr hwait => ?_
  simp only [normStep, hr]
  refine if_neg ?_
  rintro ⟨hactive, hfinal, hgood, hover, hset⟩
  simp [hactive, hfinal, hgood, hover, hset] at hwait

section Norm

variable {r : CollRun} (hr : collGet d c t = some r) (hactive : r.active = true) (hfinal : r.desc.normFinal = true)
  (hgood : r.bad = 0) (hover : reduceOver r = true) (hset : setReady d c t = true)
include hr hactive hfinal hgood hover hset

theorem normStep_of_total {v : Word × Word} (hv : smGet r.totals none r.me = some v) :
    normStep nv c t d = normSteps nv c t d := by
  simp only [normStep, hr, hv]
  exact if_pos ⟨hactive, hfinal, hgood, hover, hset⟩

theorem normStep_of_no_total (hv : smGet r.totals none r.me = none) : normStep nv c t d =
    normSteps nv c t (collMod c t (fun x => { x with totals := smPut x.totals none x.me (some (normTotal d r)) }) d) := by
  simp only [normStep, hr, hv]
  exact if_pos ⟨hactive, hfinal, hgood, hover, hset⟩

end Norm

/-! ### COLLECTIVE_COMPLETE (R309, R312) -/

theorem collComplete_of_waits (h : ((collGet d c t).all fun r => !r.open_ || r.stage.isSome ||
    (decide (r.bad = 0) && !collOver d r) || (r.desc.normFinal && !setReady d c t)) = true) :
    collComplete nv c t d = d := by
  refine eq_self_of_collGet_all h (fun hr => by simp only [collComplete, hr]) fun r hr hwait => ?_
  simp only [collComplete, hr]
  refine if_neg ?_
  rintro ⟨hopen, hidle, hends, hset⟩
  simp only [Bool.or_eq_true, Bool.and_eq_true, Bool.not_eq_true', decide_eq_true_eq] at hwait
  rcases hwait with ((hclosed | hstage) | ⟨hgood, hmore⟩) | ⟨hfinal, hearlier⟩
  · simp [hclosed] at hopen
  · rw [Option.isNone_iff_eq_none.1 hidle] at hstage
    exact Bool.false_ne_true hstage
  · simp [hgood, hmore] at hends
  · simp [hfinal, hearlier] at hset

section Complete

variable {r : CollRun} (hr : collGet d c t = some r) (hopen : r.open_ = true) (hidle : r.stage = none)
  (hends : r.bad ≠ 0 ∨ collOver d r = true)
include hr hopen hidle hends

theorem collComplete_of_not_norm (hfinal : r.desc.normFinal = false) : collComplete nv c t d = collFinish nv c t d := by
  simp only [collComplete, hr, hopen, hidle, hfinal, hends, Option.isNone_none, Bool.not_false, Bool.false_eq_true, false_and,
    true_or, and_self, if_true, if_false]

theorem collComplete_of_norm (hfinal : r.desc.normFinal = true) (hset : setReady d c t = true) : collComplete nv c t d =
    collFinish nv c t (if r.bad ≠ 0 ∨ r.clip = none then normClose nv c t (0x7FC00000, 2) d else d) := by
  simp only [collComplete, hr, hopen, hidle, hfinal, hends, hset, Option.isNone_none, Option.isNone_iff_eq_none, true_and,
    or_true, and_self, if_true]

end Complete

end Runs

section Rows

variable (s : State) (c : CtxNo) (t : Nat)

theorem exec_collectiveGateOpen :
    exec (.collectiveGateOpen c t) s = .next { s with d := collGateOpen s.nv c.val t s.d } := rfl
theorem exec_stragglerTimeout :
    exec (.stragglerTimeout c t) s = .next { s with d := stragglerTimeout s.nv c.val t s.d } := rfl
theorem exec_collectiveStage : exec (.collectiveStage c t) s = .next { s with d := collStage s.nv c.val t s.d } := rfl
theorem exec_collectiveStageEnd :
    exec (.collectiveStageEnd c t) s = .next { s with d := collStageEnd s.nv c.val t s.d } := rfl
theorem exec_normStep : exec (.normStep c t) s = .next { s with d := normStep s.nv c.val t s.d } := rfl
theorem exec_collectiveComplete :
    exec (.collectiveComplete c t) s = .next { s with d := collComplete s.nv c.val t s.d } := rfl

end Rows

/-- Settles O30: one lemma for each outcome of a row. A malformed bubble record that leaves the old ones (log entry 46) and a
NORM_FINAL collective that a status ends (log entry 102) are the model's choices. -/
theorem collectivesBeginStageAndComplete : Obligations.CollectivesBeginStageAndComplete := by
  intro s
  refine ⟨?admitted, ?refused, ?faulted, ?bubbles, fun _ _ h => next_of_dev_eq (collGateOpen_of_waits h), ?gateFault,
    ?stragglerMember, fun _ _ h => next_of_dev_eq (stragglerTimeout_of_waits h),
    fun _ _ h => next_of_dev_eq (collStage_of_waits h), fun _ _ h => next_of_dev_eq (collStageEnd_of_none h),
    fun _ _ h => next_of_dev_eq (normStep_of_waits h), ?normTotalKnown, fun _ _ h => next_of_dev_eq (collComplete_of_waits h),
    ?completeNorm, ?gate, ?gateDigest, ?stragglerCoordinator, ?stage, ?stageEnd, ?normTotalNew, ?complete⟩
  case admitted =>
    intro t x c y g hx hst hc hok
    rw [exec_collective_of_served hst hx, collective_of_ok hc hok]
  case refused =>
    intro t x c st i hx hst hc hno
    rw [exec_collective_of_served hst hx, collective_of_refused hc hno]
  case faulted =>
    intro t x c f hx hst hc hno
    rw [exec_collective_of_served hst hx, collective_of_fault hc hno]
  case bubbles =>
    rintro t ⟨⟩ c hx hst rfl
    exact exec_idleWindows_of_served hst hx
  case gate =>
    intro c t r hr hactive hshut hpassed hop
    exact ⟨_, rfl, by rw [exec_collectiveGateOpen, collGateOpen_of_not_digest hr ⟨hactive, hshut, hpassed⟩ hop]; rfl⟩
  case gateDigest =>
    intro c t r v hr hactive hshut hpassed hop hv
    exact ⟨_, _, rfl, rfl, by
      rw [exec_collectiveGateOpen, collGateOpen_of_digest hr ⟨hactive, hshut, hpassed⟩ hop hv]; rfl⟩
  case gateFault =>
    intro c t r f hr hactive hshut hpassed hop hf
    rw [exec_collectiveGateOpen, collGateOpen_of_unread hr ⟨hactive, hshut, hpassed⟩ hop hf]
  case stragglerCoordinator =>
    intro c t r m hr hopen hready hhere hlate hm
    rw [exec_stragglerTimeout, stragglerTimeout_of_coordinator hr hopen hready hhere hlate hm]
  case stragglerMember =>
    intro c t r hr hopen hready hother htold hraised hlate
    rw [exec_stragglerTimeout, stragglerTimeout_of_member hr hopen hready hother htold hraised hlate]
  case stage =>
    intro c t r hr hready
    rw [exec_collectiveStage, collStage_of_ready hr hready]
  case stageEnd =>
    intro c t r n hr hn
    rw [exec_collectiveStageEnd, collStageEnd_of_stage hr hn]
  case normTotalKnown =>
    intro c t r v hr hactive hfinal hgood hover hset hv
    rw [exec_normStep, normStep_of_total hr hactive hfinal hgood hover hset hv]
    rfl
  case normTotalNew =>
    intro c t r hr hactive hfinal hgood hover hset hv
    rw [exec_normStep, normStep_of_no_total hr hactive hfinal hgood hover hset hv]
    rfl
  case completeNorm =>
    intro c t r hr hopen hidle hfinal hset hends
    rw [exec_collectiveComplete, collComplete_of_norm hr hopen hidle hends hfinal hset]
  case complete =>
    intro c t r hr hopen hidle hfinal hends
    rw [exec_collectiveComplete, collComplete_of_not_norm hr hopen hidle hends hfinal]

end Sys2Proof.Machine
end

section
/-! SUPPORT. The rows of the ring commands that do not begin (O59): where nothing waits under the tag, and where the state that
the command needs is gone by then. -/

namespace Sys2Proof.Machine

/-! ### The two ways in which a row serves a taken command -/

section Taken

variable {nv : NonVol} {d : Device} {op t : Nat}

theorem withTaken_of_none {f : Taken → NonVol → Device → Device} (h : freshTaken d op t = none) : withTaken op t f nv d = d := by
  simp only [withTaken, h]

theorem withTakenNv_of_none {f : Taken → NonVol → Device → NonVol × Device} (h : freshTaken d op t = none) :
    withTakenNv op t f nv d = (nv, d) := by
  simp only [withTakenNv, h]

variable {x : Taken} (hx : freshTaken d op t = some x) (hst : stateStatus nv d x.ring x.entry ≠ 0)
include hx hst

/-- A command of the admin ring or of a live context gets the status of the check that fails (R371, log entry 9). -/
theorem withTaken_of_refused {f : Taken → NonVol → Device → Device}
    (hlive : x.ring = none ∨ ∃ c, x.ring = some c ∧ ctxLive d c.val = true) :
    withTaken op t f nv d = complete nv t (stateStatus nv d x.ring x.entry) 0xFFFF 0 d := by
  have hserved : (x.ring.map fun c => ctxLive d c.val).getD true = true := by
    rcases hlive with hc | ⟨c, hc, hl⟩
    · rw [hc]; rfl
    · rw [hc]; exact hl
  simp only [withTaken, hx, if_neg hst, if_pos hserved]

/-- A command of a context that has left the live states is left to the teardown (R370). -/
theorem withTaken_of_gone {f : Taken → NonVol → Device → Device} {c : CtxNo} (hc : x.ring = some c)
    (hgone : ctxLive d c.val = false) : withTaken op t f nv d = d := by
  have hnot : ¬(x.ring.map fun c => ctxLive d c.val).getD true = true := by
    rw [hc]; exact Bool.eq_false_iff.1 hgone
  simp only [withTaken, hx, if_neg hst, if_neg hnot]

theorem withTakenNv_of_refused {f : Taken → NonVol → Device → NonVol × Device} :
    withTakenNv op t f nv d = (nv, complete nv t (stateStatus nv d x.ring x.entry) 0xFFFF 0 d) := by
  simp only [withTakenNv, hx, if_neg hst]

end Taken

/-! ### The rows -/

/-- The row `p.2` of the command table serves the taken entries of opcode `p.1`: by `withTaken`, or by `withTakenNv` for an
admin command that changes what the module keeps. -/
inductive TakenRow (p : Nat × (Nat → Instr)) : Prop
  | dev (f : Nat → Taken → NonVol → Device → Device)
      (hrow : ∀ t s, exec (p.2 t) s = .next (onDev (withTaken p.1 t (f t)) s))
  | both (f : Nat → Taken → NonVol → Device → NonVol × Device) (hadmin : p.1 < 0x40)
      (hrow : ∀ t s, exec (p.2 t) s = .next (onBoth (withTakenNv p.1 t (f t)) s))

section Rows

variable {p : Nat × (Nat → Instr)} (hp : TakenRow p) {s : State} {t : Nat}
include hp

theorem TakenRow.exec_of_none (h : freshTaken s.d p.1 t = none) : exec (p.2 t) s = .next s := by
  cases hp with
  | dev f hrow => exact (hrow t s).trans (next_of_dev_eq (withTaken_of_none h))
  | both f _ hrow => exact (hrow t s).trans (next_of_both_eq (withTakenNv_of_none h))

variable {x : Taken} (hx : freshTaken s.d p.1 t = some x) (hst : stateStatus s.nv s.d x.ring x.entry ≠ 0)
include hx hst

theorem TakenRow.exec_of_refused (hlive : x.ring = none ∨ ∃ c, x.ring = some c ∧ ctxLive s.d c.val = true) :
    exec (p.2 t) s = .next { s with d := complete s.nv t (stateStatus s.nv s.d x.ring x.entry) 0xFFFF 0 s.d } := by
  cases hp with
  | dev f hrow => rw [hrow, onDev, withTaken_of_refused hx hst hlive]
  | both f _ hrow => simp only [hrow, onBoth, withTakenNv_of_refused hx hst]

/-- The commands of a context change the device alone, so that all of them leave a teardown its entries. -/
theorem TakenRow.exec_of_gone (hctx : 0x40 ≤ p.1) {c : CtxNo} (hc : x.ring = some c) (hgone : ctxLive s.d c.val = false) :
    exec (p.2 t) s = .next s := by
  cases hp with
  | dev f hrow => exact (hrow t s).trans (next_of_dev_eq (withTaken_of_gone hx hst hc hgone))
  | both f hadmin _ => exact absurd hadmin (Nat.not_lt.2 hctx)

end Rows

/-- Settles O59: every row of the list is a `TakenRow`, and a `TakenRow` begins only where it may. The second run of the state
checks at the begin, and INDEX 0xFFFF, are the model's choice (log entry 9). -/
theorem takenCommandsBeginOnlyWhereTheyMay : Obligations.TakenCommandsBeginOnlyWhereTheyMay := by
  intro s t p hp
  have hrow : TakenRow p := by
    revert p
    simp only [List.forall_mem_cons]
    exact ⟨
      .dev submit fun _ _ => rfl,
      .dev submitGated fun _ _ => rfl,
      .dev collective fun _ _ => rfl,
      .dev idleWindows fun _ _ => rfl,
      .dev escalate fun _ _ => rfl,
      .dev testPackage fun _ _ => rfl,
      .both fuseWrite (by decide) fun _ _ => rfl,
      .both stackRetire (by decide) fun _ _ => rfl,
      .dev version fun _ _ => rfl,
      .dev fwStage fun _ _ => rfl,
      .dev fwActivate fun _ _ => rfl,
      .dev keyWrite fun _ _ => rfl,
      .dev frameStage fun _ _ => rfl,
      .dev frameApply fun _ _ => rfl,
      .dev _ fun _ _ => rfl,
      .both ctxCreate (by decide) fun _ _ => rfl,
      .dev _ fun _ _ => rfl,
      .dev _ fun _ _ => rfl,
      .dev _ fun _ _ => rfl,
      .dev _ fun _ _ => rfl,
      .dev _ fun _ _ => rfl,
      .dev windowOpen fun _ _ => rfl,
      .dev _ fun _ _ => rfl,
      .dev sliceTable fun _ _ => rfl,
      .dev reclaim fun _ _ => rfl,
      List.forall_mem_nil _⟩
  refine ⟨hrow.exec_of_none, fun x hx hst => ⟨hrow.exec_of_refused hx hst, fun c hop hc hgone => ?_⟩⟩
  exact hrow.exec_of_gone hx hst (by omega) hc hgone

end Sys2Proof.Machine
end

section
/-! SUPPORT. Frames (O6): KEY_WRITE, FRAME_STAGE, FRAME_APPLY, and the start and the commit of an application, each by the
cases of its operation. -/

namespace Sys2Proof.Machine

/-! ### The commands (R335, R341, R343) -/

section Commands

variable {nv : NonVol} {d : Device} {t : Nat} {x : Taken}

/-- While the security core is down a stage command empties its slot and fails check 1 (R341, R348). -/
theorem frameStage_of_down (hdown : securityUp d = false) :
    frameStage t x nv d = complete nv t stState 1 0 (slotPut (eArg x.entry 1) none d) := by
  simp only [frameStage, hdown, Bool.not_false, if_true]

theorem frameStage_of_busy (hup : securityUp d = true) (hbusy : d.frames.staging ≠ none) : frameStage t x nv d = d := by
  have hsome : d.frames.staging.isSome = true := Option.isSome_iff_ne_none.2 hbusy
  simp only [frameStage, hup, Bool.not_true, Bool.false_eq_true, if_false, hsome, if_true]

/-- The container is copied by its LENGTH where that is in range, and its header alone where it is not (R341). -/
theorem frameStage_of_idle (hup : securityUp d = true) (hidle : d.frames.staging = none) {n : Nat}
    (hn : (if 256 ≤ dNat d.mem (eArg x.entry 0 + 8) 4 ∧ dNat d.mem (eArg x.entry 0 + 8) 4 ≤ 131072
      then dNat d.mem (eArg x.entry 0 + 8) 4 else 64) = n) :
    frameStage t x nv d = markBegun t { d with frames := { d.frames with
      staging := some (t, eArg x.entry 1, dRead d.mem (eArg x.entry 0) n) } } := by
  simp only [frameStage, hup, Bool.not_true, Bool.false_eq_true, if_false, hidle, Option.isSome_none, hn]

theorem frameApply_of_down (hdown : securityUp d = false) : frameApply t x nv d = complete nv t stState 0xFFFF 0 d := by
  simp only [frameApply, hdown, Bool.not_false, if_true]

/-- `y` is a FRAME_APPLY taken before the one with tag `t` and not begun, which goes first (R347). -/
def AppliesBefore (t : Nat) (y : Taken) : Prop := y.ring = none ∧ y.begun = false ∧ eOpcode y.entry = 0x0A ∧ y.tag < t

theorem appliesBefore_iff {y : Taken} :
    (y.ring.isNone && !y.begun && decide (eOpcode y.entry = 0x0A ∧ y.tag < t)) = true ↔ AppliesBefore t y := by
  simp [AppliesBefore, and_assoc]

variable (hup : securityUp d = true)
include hup

theorem frameApply_of_earlier {y : Taken} (hy : y ∈ d.rings.taken) (h : AppliesBefore t y) : frameApply t x nv d = d := by
  have hany : (d.rings.taken.any fun y => y.ring.isNone && !y.begun && decide (eOpcode y.entry = 0x0A ∧ y.tag < t)) = true :=
    List.any_eq_true.2 ⟨y, hy, appliesBefore_iff.2 h⟩
  simp only [frameApply, hup, Bool.not_true, Bool.false_eq_true, if_false, hany, if_true]

theorem frameApply_of_first (h : ∀ y ∈ d.rings.taken, ¬AppliesBefore t y) :
    frameApply t x nv d = applicationStart nv (markBegun t { d with frames := { d.frames with
      apps := d.frames.apps ++ [⟨t, eArg x.entry 1, none, false⟩] } }) := by
  have hnone : (d.rings.taken.any fun y => y.ring.isNone && !y.begun && decide (eOpcode y.entry = 0x0A ∧ y.tag < t)) = false :=
    List.any_eq_false.2 fun y hy => mt appliesBefore_iff.1 (h y hy)
  simp only [frameApply, hup, Bool.not_true, Bool.false_eq_true, if_false, hnone]

end Commands

/-! ### The end of a staging (R341) -/

section Staging

variable {nv : NonVol} {d : Device} {t i : Nat} {bs : List Byte} (hstaging : d.frames.staging = some (t, i, bs))
include hstaging

theorem frameStageComplete_of_ok {f : Frame}
    (h : stageCheck nv { d with frames := { d.frames with staging := none } } bs = .ok f) :
    frameStageComplete nv d = complete nv t stOK 0xFFFF 0
      (slotPut i (some f) { d with frames := { d.frames with staging := none } }) := by
  simp only [frameStageComplete, hstaging, h]

theorem frameStageComplete_of_error {n st : Nat}
    (h : stageCheck nv { d with frames := { d.frames with staging := none } } bs = .error (n, st)) :
    frameStageComplete nv d = complete nv t st n 0
      (slotPut i none { d with frames := { d.frames with staging := none } }) := by
  simp only [frameStageComplete, hstaging, h]

end Staging

/-! ### The start of an application (R343, R344, R347) -/

section Start

variable {nv : NonVol} {d : Device} {a : Application} (ha : nextApp d = some a)
include ha

theorem applicationStart_of_empty (hslot : d.frames.slots.getD a.slot none = none) :
    applicationStart nv d = complete nv a.tag stState 0xFFFF 0 (appDrop a.tag d) := by
  simp only [applicationStart, ha, hslot]

variable {f : Frame} (hf : d.frames.slots.getD a.slot none = some f)
include hf

/-- A full Frame with no reclaim in progress begins where every context is FREE and no collective runs (R343). -/
theorem applicationStart_of_full (hfull : f.isPartial = false) (hno : ∀ p < 16, (schedGet d p).reclaim = none) :
    applicationStart nv d =
      if fullOk d then { d with frames := { d.frames with
        apps := d.frames.apps.map fun b => if b.tag = a.tag then { b with frame := some f } else b } }
      else complete nv a.tag stState 0xFFFF 0 (appDrop a.tag d) := by
  have hquiet : ((List.range 16).any fun p => (schedGet d p).reclaim.isSome) = false :=
    List.any_eq_false.2 fun p hp => by simp [hno p (List.mem_range.1 hp)]
  simp only [applicationStart, ha, hf, hfull, Bool.not_false, if_true, hquiet, Bool.false_eq_true, if_false]

/-- A partial Frame with no reclaim of its partition in progress begins where it passes the checks of R344. -/
theorem applicationStart_of_partial (hpart : f.isPartial = true) {x : Section} {l : List Section} (hsec : f.sections = x :: l)
    (hno : (schedGet d x.number).reclaim = none) :
    applicationStart nv d =
      if partialOk d x then { d with frames := { d.frames with
        apps := d.frames.apps.map fun b => if b.tag = a.tag then { b with frame := some f } else b } }
      else complete nv a.tag stState 0xFFFF 0 (appDrop a.tag d) := by
  simp only [applicationStart, ha, hf, hpart, Bool.not_true, hsec, hno, Option.isSome_none, Bool.false_eq_true, if_false]

end Start

/-! ### The commit (R345, R346) -/

section Commit

variable {nv : NonVol} {d : Device} {a : Application} (ha : (d.frames.apps.find? fun a => a.frame.isSome) = some a)
include ha

theorem applicationCommit_of_ready {f : Frame} (hf : a.frame = some f) (hnot : a.committed = false)
    (hready : commitReady d f = true) : applicationCommit nv d = commitInstant nv a f d := by
  simp only [applicationCommit, ha, hnot, Bool.false_eq_true, if_false, hf, hready, if_true]

theorem applicationCommit_of_committed {b : Application} (hcom : a.committed = true)
    (hb : d.frames.apps.find? (·.committed) = some b) :
    applicationCommit nv d = complete nv b.tag stOK 0xFFFF 0 (appDrop b.tag d) := by
  simp only [applicationCommit, ha, hcom, if_true, commitRecord, hb]

end Commit

section Instant

variable {nv : NonVol} {d : Device} {a : Application} {f : Frame}

theorem commitInstant_of_partial (hpart : f.isPartial = true) {d1 : Device}
    (hd1 : d1 = f.sections.foldl (fun d x => sectionApply nv f.serial x d) d) :
    commitInstant nv a f d = txPumpAll nv (cageWatchAll nv (logPoint nv 2 0 0 0x5001 ((f.sections.head?.map (·.number)).getD 0)
      f.serial { d1 with frames := { d1.frames with
        serial := f.serial, seq := (d1.frames.seq + 1) % 2 ^ 16
        apps := d1.frames.apps.map fun b => if b.tag = a.tag then { b with committed := true } else b } })) := by
  simp only [commitInstant, hpart, if_true, ← hd1, wrapInc]

theorem commitInstant_of_full (hfull : f.isPartial = false) {d1 : Device} (hd1 : d1 = fullApply nv f d) :
    commitInstant nv a f d = txPumpAll nv (cageWatchAll nv (logPoint nv 2 0 0 0x5001 0xF f.serial
      { d1 with frames := { d1.frames with
        serial := f.serial, seq := (d1.frames.seq + 1) % 2 ^ 16
        apps := d1.frames.apps.map fun b => if b.tag = a.tag then { b with committed := true } else b } })) := by
  simp only [commitInstant, hfull, Bool.false_eq_true, if_false, ← hd1, wrapInc]

end Instant

/-! ### The rows of the command table -/

section Served

variable {s : State} {t : Nat} {x : Taken} (hst : stateStatus s.nv s.d x.ring x.entry = 0)
include hst

theorem exec_keyWrite_of_served (hx : freshTaken s.d 0x08 t = some x) :
    exec (.keyWrite t) s = .next { s with d := keyWrite t x s.nv s.d } := by
  simp only [exec, execKeyWrite, onDev, withTaken_of_served hx hst]

theorem exec_frameStage_of_served (hx : freshTaken s.d 0x09 t = some x) :
    exec (.frameStage t) s = .next { s with d := frameStage t x s.nv s.d } := by
  simp only [exec, execFrameStage, onDev, withTaken_of_served hx hst]

theorem exec_frameApply_of_served (hx : freshTaken s.d 0x0A t = some x) :
    exec (.frameApply t) s = .next { s with d := frameApply t x s.nv s.d } := by
  simp only [exec, execFrameApply, onDev, withTaken_of_served hx hst]

end Served

section Security

variable {s : State} (hup : securityUp s.d = true)
include hup

theorem exec_frameStageComplete_of_up :
    exec .frameStageComplete s = .next { s with d := frameStageComplete s.nv s.d } := by
  simp only [exec, execFrameStageComplete, onDev, hup, if_true]

theorem exec_frameApplicationStart_of_up :
    exec .frameApplicationStart s = .next { s with d := applicationStart s.nv s.d } := by
  simp only [exec, execFrameApplicationStart, onDev, hup, if_true]

theorem exec_applicationCommit_of_up :
    exec .applicationCommit s = .next { s with d := applicationCommit s.nv s.d } := by
  simp only [exec, execApplicationCommit, onDev, hup, if_true]

end Security

/-- Settles O6: one lemma for each outcome of a row, over the row of its served command or of the running security core. -/
theorem frameCommandsStageApplyAndCommit : Obligations.FrameCommandsStageApplyAndCommit := by
  intro s t x
  refine ⟨exec_keyWrite_of_served, ?stage, ?stageOther, ?applyWaits, ?applyQueues, ?staged, ?startFull, ?startPartial,
    ?startRefused, ?commitPartial, ?commitFull, ?committed⟩
  case stage =>
    intro hst hx hup hidle hlo hhi
    rw [exec_frameStage_of_served hst hx, frameStage_of_idle hup hidle (if_pos ⟨hlo, hhi⟩)]
  case stageOther =>
    intro hst hx
    rw [exec_frameStage_of_served hst hx]
    refine ⟨fun hdown => ?_, fun hup hbusy => next_of_dev_eq (frameStage_of_busy hup hbusy), fun hup hidle hlen => ?_⟩
    · rw [frameStage_of_down hdown]
    · have hout : ¬(256 ≤ dNat s.d.mem (eArg x.entry 0 + 8) 4 ∧ dNat s.d.mem (eArg x.entry 0 + 8) 4 ≤ 131072) :=
        fun ⟨hlo, hhi⟩ => hlen.elim (Nat.not_lt.2 hlo) (Nat.not_lt.2 hhi)
      rw [frameStage_of_idle hup hidle (if_neg hout)]
  case applyWaits =>
    intro hst hx
    rw [exec_frameApply_of_served hst hx]
    refine ⟨fun hdown => ?_, fun y hy hup hring hbegun hop htag => ?_⟩
    · rw [frameApply_of_down hdown]
    · exact next_of_dev_eq (frameApply_of_earlier hup hy ⟨hring, hbegun, hop, htag⟩)
  case applyQueues =>
    intro hst hx hup hfirst
    rw [exec_frameApply_of_served hst hx, frameApply_of_first hup]
    rintro y hy ⟨hring, hbegun, hop, htag⟩
    exact Nat.not_lt.2 (hfirst y hy hring hbegun hop) htag
  case staged =>
    intro i bs hup hstaging
    rw [exec_frameStageComplete_of_up hup]
    refine ⟨fun f hok => ?_, fun n st hno => ?_⟩
    · rw [frameStageComplete_of_ok hstaging hok]
    · rw [frameStageComplete_of_error hstaging hno]
  case startFull =>
    intro a f hup ha hf hfull hno hok
    rw [exec_frameApplicationStart_of_up hup, applicationStart_of_full ha hf hfull hno, if_pos hok]
  case startPartial =>
    intro a f x l hup ha hf hpart hsec hno
    rw [exec_frameApplicationStart_of_up hup, applicationStart_of_partial ha hf hpart hsec hno]
    exact ⟨fun hok => by rw [if_pos hok], fun hbad => by rw [hbad]; rfl⟩
  case startRefused =>
    rintro a hup ha (hslot | ⟨f, hf, hfull, hno, hbad⟩)
    · rw [exec_frameApplicationStart_of_up hup, applicationStart_of_empty ha hslot]
    · rw [exec_frameApplicationStart_of_up hup, applicationStart_of_full ha hf hfull hno, hbad]
      rfl
  case commitPartial =>
    intro a f d1 hup ha hf hnot hpart hready hd1
    rw [exec_applicationCommit_of_up hup, applicationCommit_of_ready ha hf hnot hready, commitInstant_of_partial hpart hd1]
  case commitFull =>
    intro a f hup ha hf hnot hfull hready
    rw [exec_applicationCommit_of_up hup, applicationCommit_of_ready ha hf hnot hready, commitInstant_of_full hfull rfl]
  case committed =>
    intro a b hup ha hcom hb
    rw [exec_applicationCommit_of_up hup, applicationCommit_of_committed ha hcom hb]

end Sys2Proof.Machine
end

section
/-! SUPPORT. The step over its queue (O34, O35) and the fuses of the state after reset (O36). -/

namespace Sys2Proof.Machine

section Rows

variable {s : State}

/-- A row that acts on the device alone ends as its operation does. -/
theorem next_dev_congr {d d' : Device} (h : d = d') :
    (.next { s with d := d } : Host.Outcome State Fault Refusal) = .next { s with d := d' } := by rw [h]

/-- The same of a row that changes what the module keeps as well. -/
theorem next_both_congr {r : NonVol × Device} {nv : NonVol} {d : Device} (h : r = (nv, d)) :
    (.next { s with nv := r.1, d := r.2 } : Host.Outcome State Fault Refusal) = .next { s with nv := nv, d := d } := by rw [h]

end Rows

/-- Settles O34: both equations are the two cases of `step`. -/
theorem stepRunsTheFrontCommand : Obligations.StepRunsTheFrontCommand :=
  ⟨fun _ _ _ => rfl, fun s hempty => by simp only [step, hempty]⟩

/-- The queue of the next state that a command answers; none of a fault or a refusal. -/
def nextQueue : Host.Outcome State Fault Refusal → Option (List Instr)
  | .next t => some t.pending
  | _ => none

theorem nextQueue_eq_some {o : Host.Outcome State Fault Refusal} {q : List Instr} (h : nextQueue o = some q) :
    ∃ t, o = .next t ∧ t.pending = q := by
  cases o with
  | next t => exact ⟨t, rfl, Option.some.inj h⟩
  | _ => cases h

/-- Every arm of `exec` lifts an operation by `onDev` or `onBoth`, which keep the queue. -/
theorem nextQueue_exec (c : Instr) (q : List Instr) (nv : NonVol) (d : Device) : nextQueue (exec c ⟨q, nv, d⟩) = some q := by
  induction c <;> exact Eq.refl (some q)

/-- Settles O35: the answer of each arm holds the queue that it was given. -/
theorem everyCommandAnswersAndLeavesTheQueue : Obligations.EveryCommandAnswersAndLeavesTheQueue :=
  fun c ⟨q, nv, d⟩ => nextQueue_eq_some (nextQueue_exec c q nv d)

/-- Settles O36: the reset state has no fused unit and an empty log. -/
theorem fusesAtReset : Obligations.FusesAtReset := by
  have hbounds : FuseBounds State.reset.nv := by unfold FuseBounds; decide
  exact ⟨hbounds, rfl, rfl, rfl⟩

end Sys2Proof.Machine
end

section
/-! SUPPORT. The checks of state of R371 in a removal (O46). -/

namespace Sys2Proof.Machine

/-- The first check that fails gives the status (R371). -/
theorem firstFail_cons (ok : Bool) (st : Nat) (l : List (Bool × Nat)) :
    firstFail ((ok, st) :: l) = if ok then firstFail l else st := rfl

section Removing

variable {nv : NonVol} {d : Device} {ring : Option CtxNo} {e : Nat}

/-- A removal that quiesces or has quiesced answers the commands of R466 before any other check of state. -/
theorem stateStatus_of_removing (hnv : nv.removal = .quiescing ∨ nv.removal = .quiesced)
    (hop : removalRefuses (eOpcode e) = true) : stateStatus nv d ring e = stState := by
  have hrefused : (!(removalRefuses (eOpcode e) && (nv.removal = .quiescing || nv.removal = .quiesced))) = false := by
    rcases hnv with h | h <;> simp [hop, h]
  rw [stateStatus, hrefused, firstFail_cons, if_neg Bool.false_ne_true]

/-- No other check of state looks at the removal. -/
theorem stateStatus_of_served (r : Removal) (hop : removalRefuses (eOpcode e) = false) :
    stateStatus nv d ring e = stateStatus { nv with removal := r } d ring e := by
  simp only [stateStatus, hop, Bool.false_and, Bool.not_false, firstFail_cons, if_true]
  rfl

/-- An admin entry that passes the checks of right, version and format gets the status of its state (R371). -/
theorem entryStatus_admin_of_pass {port : Port} (hright : isOwner d port = true) (hmode : d.fw.mode = .running)
    (hformat : formatOk d none e = true) : entryStatus nv d none port e = stateStatus nv d none e := by
  simp [entryStatus, hright, hmode, hformat, firstFail]

/-- The same of an entry of a context's ring. -/
theorem entryStatus_ctx_of_pass {port : Port} {c : CtxNo} (hright : (decide (0x40 ≤ eOpcode e) && mayUse d port c.val) = true)
    (hmode : d.fw.mode = .running) (hformat : formatOk d (some c) e = true) :
    entryStatus nv d (some c) port e = stateStatus nv d (some c) e := by
  simp only [entryStatus, firstFail_cons, hright, hmode, hformat, if_true, decide_true, Bool.true_or]
  rfl

end Removing

/-- Settles O46: R466's list is `removalRefuses`, and the first check of state is the only one that reads the removal. -/
theorem removalRefusesNewWork : Obligations.RemovalRefusesNewWork := by
  intro nv d ring e hnv
  refine ⟨fun hop => ?_, fun hop => ?_⟩
  · have hst : stateStatus nv d ring e = 0x11 := stateStatus_of_removing hnv (List.contains_iff_mem.2 hop)
    refine ⟨hst, fun port hright hmode hformat => ?_⟩
    cases ring with
    | none => exact (entryStatus_admin_of_pass hright hmode hformat).trans hst
    | some c => exact (entryStatus_ctx_of_pass hright hmode hformat).trans hst
  · exact stateStatus_of_served .idle (Bool.eq_false_iff.2 (mt List.contains_iff_mem.1 hop))

end Sys2Proof.Machine
end

section
/-! SUPPORT. System time (O51): the counter while it slews or runs at half rate, and what an edge makes of it (R392 to R394). -/

namespace Sys2Proof.Machine

/-! ### A nanosecond of the counter (R394) -/

/-- `Nat.repeat` of a sum of counts. -/
theorem repeat_add {α : Type} (f : α → α) (m n : Nat) (a : α) : Nat.repeat f (m + n) a = Nat.repeat f n (Nat.repeat f m a) := by
  induction n with
  | zero => rfl
  | succ n ih => exact congrArg f ih

section Slew

variable {t : Time}

theorem slewStep_now_le (t : Time) : t.now ≤ (slewStep t).now ∧ (slewStep t).now ≤ t.now + 2 := by
  have hone : t.now ≤ t.now + 1 ∧ t.now + 1 ≤ t.now + 2 := ⟨Nat.le_succ _, Nat.le_succ _⟩
  have hnone : t.now ≤ t.now ∧ t.now ≤ t.now + 2 := ⟨le_rfl, Nat.le_add_right _ 2⟩
  unfold slewStep
  split
  · exact hone
  · split
    · split
      · exact hone
      · exact hnone
    · split
      · exact hone
      · split
        · exact hnone
        · exact ⟨Nat.le_add_right _ 2, le_rfl⟩

/-- Inside the 100,000 nanoseconds of a nanosecond of error the counter runs as it does without one. -/
theorem slewStep_of_inside (hslew : t.slew ≠ 0) (hhalf : t.half = false) (hacc : t.slewAcc + 1 < 100000) :
    slewStep t = { t with now := t.now + 1, slewAcc := t.slewAcc + 1 } :=
  (if_neg hslew).trans ((if_neg (ne_true_of_eq_false hhalf)).trans (if_pos hacc))

/-- The last of them leaves a nanosecond out of a counter that is ahead. -/
theorem slewStep_of_ahead (hslew : 0 < t.slew) (hhalf : t.half = false) (hacc : t.slewAcc = 99999) :
    slewStep t = { t with slew := t.slew - 1, slewAcc := 0 } :=
  (if_neg hslew.ne').trans ((if_neg (ne_true_of_eq_false hhalf)).trans ((if_neg (congrArg (· + 1) hacc).not_lt).trans (if_pos hslew)))

/-- The last of them adds a nanosecond to a counter that is behind. -/
theorem slewStep_of_behind (hslew : t.slew < 0) (hhalf : t.half = false) (hacc : t.slewAcc = 99999) :
    slewStep t = { t with now := t.now + 2, slew := t.slew + 1, slewAcc := 0 } :=
  (if_neg hslew.ne).trans ((if_neg (ne_true_of_eq_false hhalf)).trans
    ((if_neg (congrArg (· + 1) hacc).not_lt).trans (if_neg hslew.not_gt)))

theorem repeat_slewStep_of_inside (hslew : t.slew ≠ 0) (hhalf : t.half = false) (hacc : t.slewAcc = 0) {n : Nat}
    (hn : n < 100000) : Nat.repeat slewStep n t = { t with now := t.now + n, slewAcc := n } := by
  induction n with
  | zero => cases t; cases hacc; rfl
  | succ n ih => exact (congrArg slewStep (ih (Nat.lt_of_succ_lt hn))).trans (slewStep_of_inside hslew hhalf hn)

/-- The 100,000 nanoseconds of a nanosecond of error: the last of them is the one that corrects. -/
theorem repeat_slewStep_of_block (hslew : t.slew ≠ 0) (hhalf : t.half = false) (hacc : t.slewAcc = 0) :
    Nat.repeat slewStep (99999 + 1) t = slewStep { t with now := t.now + 99999, slewAcc := 99999 } := by
  rw [repeat_add, repeat_slewStep_of_inside hslew hhalf hacc (Nat.lt_succ_self 99999)]
  rfl

end Slew

/-! ### The nanoseconds in which one nanosecond of error goes (R394) -/

/-- Where each `m` nanoseconds take one off the error and move the counter by `k`, the whole error takes `m` times as long. -/
theorem repeat_slewStep_of_blocks {P : Nat → Time → Prop} {m k : Nat}
    (hblock : ∀ n t, P (n + 1) t → P n (Nat.repeat slewStep m t) ∧ (Nat.repeat slewStep m t).now = t.now + k) {n : Nat} {t : Time}
    (h : P n t) : P 0 (Nat.repeat slewStep (m * n) t) ∧ (Nat.repeat slewStep (m * n) t).now = t.now + k * n := by
  induction n generalizing t with
  | zero => exact ⟨h, rfl⟩
  | succ n ih =>
    obtain ⟨hrest, hnow⟩ := hblock n t h
    obtain ⟨hend, hsum⟩ := ih hrest
    rw [Nat.mul_succ, Nat.add_comm, repeat_add]
    exact ⟨hend, by rw [hsum, hnow, Nat.mul_succ, Nat.add_assoc, Nat.add_comm k]⟩

/-- The counter slews by an error `e`, at the beginning of a nanosecond of it. -/
def Slews (e : Int) (t : Time) : Prop := t.slew = e ∧ t.half = false ∧ t.slewAcc = 0

/-- The counter runs at half rate over an error `e`, at the beginning of a nanosecond of it. -/
def AtHalfRate (e : Int) (t : Time) : Prop := t.slew = e ∧ t.half = true ∧ t.slewAcc = 0

theorem slews_repeat_of_ahead (n : Nat) (t : Time) (h : Slews ((n + 1 : Nat) : Int) t) :
    Slews n (Nat.repeat slewStep (99999 + 1) t) ∧ (Nat.repeat slewStep (99999 + 1) t).now = t.now + 99999 := by
  obtain ⟨hslew, hhalf, hacc⟩ := h
  have hpos : 0 < t.slew := hslew ▸ Int.natCast_succ_pos n
  rw [repeat_slewStep_of_block hpos.ne' hhalf hacc,
    slewStep_of_ahead (t := { t with now := t.now + 99999, slewAcc := 99999 }) hpos hhalf rfl]
  exact ⟨⟨(congrArg (· - 1) hslew).trans (Int.add_sub_cancel n 1), hhalf, rfl⟩, rfl⟩

theorem slews_repeat_of_behind (n : Nat) (t : Time) (h : Slews (-((n + 1 : Nat) : Int)) t) :
    Slews (-n) (Nat.repeat slewStep (99999 + 1) t) ∧ (Nat.repeat slewStep (99999 + 1) t).now = t.now + 100001 := by
  obtain ⟨hslew, hhalf, hacc⟩ := h
  have hneg : t.slew < 0 := hslew ▸ Int.neg_neg_of_pos (Int.natCast_succ_pos n)
  rw [repeat_slewStep_of_block hneg.ne hhalf hacc,
    slewStep_of_behind (t := { t with now := t.now + 99999, slewAcc := 99999 }) hneg hhalf rfl]
  exact ⟨⟨(congrArg (· + 1) hslew).trans (by rw [Int.natCast_succ, neg_add, neg_add_cancel_right]), hhalf, rfl⟩, rfl⟩

/-- At half rate two nanoseconds take one off the error and one on the counter. -/
theorem atHalfRate_repeat (n : Nat) (t : Time) (h : AtHalfRate ((n + 1 : Nat) : Int) t) :
    AtHalfRate n (Nat.repeat slewStep 2 t) ∧ (Nat.repeat slewStep 2 t).now = t.now + 1 := by
  obtain ⟨hslew, hhalf, hacc⟩ := h
  have hne : t.slew ≠ 0 := hslew ▸ (Int.natCast_succ_pos n).ne'
  have hpair : Nat.repeat slewStep 2 t = { t with now := t.now + 1, slew := t.slew - 1, slewAcc := 0 } :=
    (congrArg slewStep ((if_neg hne).trans ((if_pos hhalf).trans (if_pos hacc)))).trans
      ((if_neg hne).trans ((if_pos hhalf).trans (if_neg (by decide : (1 : Nat) ≠ 0))))
  rw [hpair]
  exact ⟨⟨(congrArg (· - 1) hslew).trans (Int.add_sub_cancel n 1), hhalf, rfl⟩, rfl⟩

/-- While it slews, the counter ends 100,000 nanoseconds for each nanosecond of error corrected by the error. -/
theorem repeat_slewStep_of_slews {e : Int} {t : Time} (h : Slews e t) :
    ((Nat.repeat slewStep (100000 * e.natAbs) t).now : Int) = t.now + 100000 * e.natAbs - e ∧
      (Nat.repeat slewStep (100000 * e.natAbs) t).slew = 0 := by
  rcases Int.natAbs_eq e with he | he <;> generalize e.natAbs = n at he ⊢ <;> subst he
  · obtain ⟨⟨hend, -⟩, hnow⟩ := repeat_slewStep_of_blocks (P := fun n t => Slews n t) slews_repeat_of_ahead h
    refine ⟨?_, hend⟩
    rw [hnow, Nat.cast_add, Nat.cast_mul, show ((99999 : Nat) : Int) = 100000 - 1 from rfl, sub_mul, one_mul, add_sub_assoc]
  · obtain ⟨⟨hend, -⟩, hnow⟩ := repeat_slewStep_of_blocks (P := fun n t => Slews (-n) t) slews_repeat_of_behind h
    refine ⟨?_, hend⟩
    rw [hnow, Nat.cast_add, Nat.cast_mul, show ((100001 : Nat) : Int) = 100000 + 1 from rfl, add_mul, one_mul, ← add_assoc,
      sub_neg_eq_add]

/-! ### The correction of an error (R394) -/

theorem correct_of_step {e : Int} {t : Time} (h : e < -100000) :
    correct e t = { t with now := t.now + (-e).toNat, slew := 0, slewAcc := 0, half := false } := if_pos h

theorem correct_of_slew {e : Int} {t : Time} (h : -100000 ≤ e) :
    correct e t = { t with slew := e, slewAcc := 0, half := decide (100000 < e) } := if_neg (not_lt.2 h)

theorem le_now_correct {n : Nat} {e : Int} {t : Time} (hn : n ≤ t.now) : n ≤ (correct e t).now := by
  rcases lt_or_ge e (-100000) with h | h
  · rw [correct_of_step h]; exact hn.trans (Nat.le_add_right _ _)
  · rw [correct_of_slew h]; exact hn

/-! ### A SYNC edge (R393) -/

@[simp] theorem timeGo_now (nv : NonVol) (st : TimeSt) (e : Int) (d : Device) : (timeGo nv st e d).time.now = d.time.now := by
  simp [timeGo]

section Edge

variable {α : Type} {st : TimeSt} {a b c : α}

theorem edge_of_unused (h : st = .unset ∨ st = .holdover) :
    (match (generalizing := false) st with | .unset | .holdover => a | .locking => b | .locked => c) = a := by
  rcases h with rfl | rfl <;> rfl

theorem edge_of_locking (h : st = .locking) :
    (match (generalizing := false) st with | .unset | .holdover => a | .locking => b | .locked => c) = b := by subst h; rfl

theorem edge_of_locked (h : st = .locked) :
    (match (generalizing := false) st with | .unset | .holdover => a | .locking => b | .locked => c) = c := by subst h; rfl

end Edge

theorem syncEdge_of_unused {nv : NonVol} {d : Device} (h : d.time.st = .unset ∨ d.time.st = .holdover) :
    syncEdge nv d = d := edge_of_unused h

theorem le_now_ite {n : Nat} {P : Prop} [Decidable P] {a b : Device} (ha : n ≤ a.time.now) (hb : n ≤ b.time.now) :
    n ≤ (if P then a else b).time.now := by split <;> assumption

/-- An edge after the counter has been set does not take it back. -/
theorem now_le_syncEdge {nv : NonVol} {d : Device} (hfirst : ¬(d.time.st = .locking ∧ d.time.fromUnset = true)) :
    d.time.now ≤ (syncEdge nv d).time.now := by
  have hgo : ∀ {st : TimeSt} {e : Int} {d' : Device}, d.time.now ≤ d'.time.now → d.time.now ≤ (timeGo nv st e d').time.now :=
    fun h => (timeGo_now ..).symm ▸ h
  cases hst : d.time.st with
  | unset => exact (congrArg (fun d => d.time.now) (syncEdge_of_unused (.inl hst))).ge
  | holdover => exact (congrArg (fun d => d.time.now) (syncEdge_of_unused (.inr hst))).ge
  | locking =>
    rw [show syncEdge nv d = _ from (edge_of_locking hst).trans (if_neg fun h => hfirst ⟨hst, h⟩)]
    exact le_now_ite (hgo (le_now_correct le_rfl)) (le_now_correct le_rfl)
  | locked =>
    rw [show syncEdge nv d = _ from edge_of_locked hst]
    exact le_now_ite (hgo (le_now_correct le_rfl)) (le_now_correct le_rfl)

/-- Settles O51: the corrections by the blocks of nanoseconds in which each takes one off the error, the edge by its cases. -/
theorem systemTimeIsCorrectedAndNeverRunsBackward : Obligations.SystemTimeIsCorrectedAndNeverRunsBackward := by
  refine ⟨slewStep_now_le, fun t e he => ?step, fun t e he => ?kept, fun t e hlo hhi => ?slew, fun t e he => ?half,
    fun s t _ hfirst h => ?edge⟩
  case step => rw [correct_of_step he]; exact ⟨rfl, rfl⟩
  case kept => rw [correct_of_slew he]
  case slew =>
    rw [correct_of_slew hlo]
    exact repeat_slewStep_of_slews ⟨rfl, decide_eq_false (not_lt.2 hhi), rfl⟩
  case half =>
    have hpos : (100000 : Int) < e := by exact_mod_cast he
    rw [correct_of_slew ((show (-100000 : Int) ≤ 0 by decide).trans (Int.natCast_nonneg e))]
    obtain ⟨⟨hend, -⟩, hnow⟩ := repeat_slewStep_of_blocks (P := fun n t => AtHalfRate n t) atHalfRate_repeat
      (n := e) (t := { t with slew := e, slewAcc := 0, half := decide (100000 < (e : Int)) }) ⟨rfl, decide_eq_true hpos, rfl⟩
    exact ⟨by rw [hnow, one_mul], hend⟩
  case edge =>
    cases h
    exact now_le_syncEdge hfirst

end Sys2Proof.Machine
end

section
/-! SUPPORT. The governor's step of a half's clock (O57; R454, R455, R459). -/

namespace Sys2Proof.Machine

/-- `x` is a clock of the voltage table: a 50 MHz step from 400 to 1,600 MHz (R454). -/
def IsClock (x : Nat) : Prop := x % 50 = 0 ∧ 400 ≤ x ∧ x ≤ 1600

namespace IsClock

variable {x y : Nat}

theorem lowest : IsClock 400 := ⟨rfl, le_rfl, by decide⟩

theorem highest : IsClock 1600 := ⟨rfl, by decide, le_rfl⟩

theorem point : IsClock 1000 := ⟨rfl, by decide, by decide⟩

theorem max (hx : IsClock x) (hy : IsClock y) : IsClock (max x y) := by
  rcases max_choice x y with h | h <;> rw [h] <;> assumption

theorem min (hx : IsClock x) (hy : IsClock y) : IsClock (min x y) := by
  rcases min_choice x y with h | h <;> rw [h] <;> assumption

/-- Two clocks of which one is above the other are at least a step apart. -/
theorem add_le (hx : IsClock x) (hy : IsClock y) (h : x < y) : x + 50 ≤ y :=
  Nat.ModEq.add_le_of_lt (hx.1.trans hy.1.symm) h

/-- One step up from a clock is a clock, up to the highest. -/
theorem add (hx : IsClock x) (h : x + 50 ≤ 1600) : IsClock (x + 50) :=
  ⟨(Nat.add_mod_right x 50).trans hx.1, hx.2.1.trans (Nat.le_add_right x 50), h⟩

/-- One step down from a clock is a clock, down to the lowest. -/
theorem sub (hx : IsClock x) (h : 400 + 50 ≤ x) : IsClock (x - 50) :=
  ⟨(Nat.mod_eq_sub_mod (show 50 ≤ x from le_trans (by decide) h)).symm.trans hx.1, Nat.le_sub_of_add_le h,
    (Nat.sub_le x 50).trans hx.2.2⟩

theorem max_sub (hx : IsClock x) : IsClock (Max.max 400 (x - 50)) := by
  rcases Nat.lt_or_ge 400 x with h | h
  · exact lowest.max (hx.sub (lowest.add_le hx h))
  · rw [max_eq_left ((Nat.sub_le x 50).trans h)]
    exact lowest

theorem min_add (hx : IsClock x) : IsClock (Min.min 1600 (x + 50)) := by
  rcases Nat.lt_or_ge x 1600 with h | h
  · exact highest.min (hx.add (hx.add_le highest h))
  · rw [min_eq_left (h.trans (Nat.le_add_right x 50))]
    exact highest

end IsClock

section Caps

variable {w : Pwr} {h : Nat}

/-- The die's hold moves from one clock to another (R455). -/
theorem isClock_dieCap_dieStep {up dieW : Nat} {more : Bool} (hnow : IsClock (smGet w.mhz 1600 h))
    (hcap : IsClock (smGet w.dieCap 1600 h)) : IsClock (smGet (dieStep up h dieW more w).dieCap 1600 h) := by
  simp only [dieStep, smGet_smPut_self]
  generalize (Option.map (fun t => decide (t + 1000000 ≤ up)) _).getD false = low
  split
  · split
    · exact hnow.max_sub
    · exact hcap
  · split
    · exact hcap.min_add
    · exact hcap

theorem ceiling_le (w : Pwr) (h : Nat) : ceiling w h ≤ smGet w.ceil 1600 h := by
  unfold ceiling
  split
  · exact min_le_left _ _
  · exact le_rfl

/-- At the conservative point no ceiling is above 1,000 MHz (R459). -/
theorem ceiling_le_of_conservative (hw : w.conservative = true) : ceiling w h ≤ 1000 := by
  rw [ceiling, if_pos hw]
  exact min_le_right _ _

theorem isClock_ceiling (hceil : IsClock (smGet w.ceil 1600 h)) : IsClock (ceiling w h) := by
  unfold ceiling
  split
  · exact hceil.min IsClock.point
  · exact hceil

/-- Out of the safe state the cap is a clock, and is within the ceiling. -/
theorem clockCap_of_unsafe (hsafe : w.safe = false) (hceil : IsClock (smGet w.ceil 1600 h))
    (hdie : IsClock (smGet w.dieCap 1600 h)) : IsClock (clockCap w h) ∧ clockCap w h ≤ ceiling w h := by
  have hc := isClock_ceiling hceil
  rw [clockCap, if_neg (Bool.eq_false_iff.1 hsafe)]
  exact ⟨IsClock.lowest.max (hc.min hdie), max_le hc.2.1 (min_le_left _ _)⟩

end Caps

/-! ### The next clock (R454) -/

section Next

variable {w : Pwr} {h : Nat} {junction : Int}

theorem clockNext_of_safe (hsafe : w.safe = true) : clockNext w h junction = 400 := if_pos hsafe

/-- Out of the safe state the clock goes down one step where it is above its cap or the junction above 95 °C, up one step where it may,
and else stays. -/
theorem clockNext_cases (hsafe : w.safe = false) (hnow : IsClock (smGet w.mhz 1600 h)) (hcap : IsClock (clockCap w h)) :
    (450 ≤ smGet w.mhz 1600 h ∧ clockNext w h junction = smGet w.mhz 1600 h - 50) ∨
      (junction ≤ 950 ∧ clockNext w h junction = smGet w.mhz 1600 h + 50 ∧ smGet w.mhz 1600 h + 50 ≤ clockCap w h) ∨
      ((950 < junction → smGet w.mhz 1600 h = 400) ∧ clockNext w h junction = smGet w.mhz 1600 h) := by
  unfold clockNext
  rw [if_neg (Bool.eq_false_iff.1 hsafe)]
  generalize smGet w.mhz 1600 h = now at *
  generalize clockCap w h = cap at *
  split
  · next hover =>
    have hstep := hcap.add_le hnow hover
    exact .inl ⟨(Nat.add_le_add_right hcap.2.1 50).trans hstep, max_eq_right (Nat.le_sub_of_add_le hstep)⟩
  · split
    · rcases hnow.2.1.eq_or_lt with hlow | hhigh
      · exact .inr (.inr ⟨fun _ => hlow.symm, by rw [← hlow]; rfl⟩)
      · have hstep := IsClock.lowest.add_le hnow hhigh
        exact .inl ⟨hstep, max_eq_right (Nat.le_sub_of_add_le hstep)⟩
    · next hcool =>
      split
      · next hup =>
        have hstep := hnow.add_le hcap hup.1
        exact .inr (.inl ⟨not_lt.1 hcool, min_eq_right hstep, hstep⟩)
      · exact .inr (.inr ⟨fun hot => absurd hot hcool, rfl⟩)

theorem isClock_clockNext (hnow : IsClock (smGet w.mhz 1600 h)) (hcap : w.safe = false → IsClock (clockCap w h)) :
    IsClock (clockNext w h junction) := by
  cases hsafe : w.safe with
  | true => rw [clockNext_of_safe hsafe]; exact IsClock.lowest
  | false =>
    rcases clockNext_cases (junction := junction) hsafe hnow (hcap hsafe) with ⟨hlow, hnext⟩ | ⟨-, hnext, hle⟩ | ⟨-, hnext⟩
    · rw [hnext]; exact hnow.sub hlow
    · rw [hnext]; exact hnow.add (hle.trans (hcap hsafe).2.2)
    · rw [hnext]; exact hnow

/-- A step of the clock out of the safe state: how far, how high, and what makes it go down. -/
theorem clockNext_step (hsafe : w.safe = false) (hnow : IsClock (smGet w.mhz 1600 h)) (hcap : IsClock (clockCap w h)) :
    clockNext w h junction ≤ smGet w.mhz 1600 h + 50 ∧ smGet w.mhz 1600 h ≤ clockNext w h junction + 50 ∧
      (smGet w.mhz 1600 h < clockNext w h junction → clockNext w h junction ≤ clockCap w h ∧ junction ≤ 950) ∧
      (950 < junction → smGet w.mhz 1600 h ≠ 400 → clockNext w h junction + 50 = smGet w.mhz 1600 h) := by
  rcases clockNext_cases (junction := junction) hsafe hnow hcap with ⟨hlow, hnext⟩ | ⟨hcool, hnext, hle⟩ | ⟨hhot, hnext⟩
  · have hback : smGet w.mhz 1600 h - 50 + 50 = smGet w.mhz 1600 h := Nat.sub_add_cancel (le_trans (by decide) hlow)
    rw [hnext]
    exact ⟨(Nat.sub_le _ _).trans (Nat.le_add_right _ _), hback.ge, fun hup => absurd hup (Nat.sub_le _ _).not_gt, fun _ _ => hback⟩
  · rw [hnext]
    exact ⟨le_rfl, (Nat.le_add_right _ 50).trans (Nat.le_add_right _ 50), fun _ => ⟨hle, hcool⟩, fun hot => absurd hcool hot.not_ge⟩
  · rw [hnext]
    exact ⟨Nat.le_add_right _ _, Nat.le_add_right _ _, fun hup => absurd hup (lt_irrefl _), fun hot hne => absurd (hhot hot) hne⟩

/-- The next clock: 400 MHz in the safe state; else a step at most, up only under the ceiling, and down where it is hot. -/
theorem clockNext_spec (hnow : IsClock (smGet w.mhz 1600 h)) (hceil : IsClock (smGet w.ceil 1600 h))
    (hdie : IsClock (smGet w.dieCap 1600 h)) :
    IsClock (clockNext w h junction) ∧ (w.safe = true → clockNext w h junction = 400) ∧
      (w.safe = false → clockNext w h junction ≤ smGet w.mhz 1600 h + 50 ∧ smGet w.mhz 1600 h ≤ clockNext w h junction + 50 ∧
        (smGet w.mhz 1600 h < clockNext w h junction → clockNext w h junction ≤ smGet w.ceil 1600 h ∧ junction ≤ 950 ∧
          (w.conservative = true → clockNext w h junction ≤ 1000)) ∧
        (950 < junction → smGet w.mhz 1600 h ≠ 400 → clockNext w h junction + 50 = smGet w.mhz 1600 h)) := by
  refine ⟨isClock_clockNext hnow fun hsafe => (clockCap_of_unsafe hsafe hceil hdie).1, clockNext_of_safe, fun hsafe => ?_⟩
  obtain ⟨hcap, hle⟩ := clockCap_of_unsafe hsafe hceil hdie
  obtain ⟨hup, hdown, hrise, hfall⟩ := clockNext_step (junction := junction) hsafe hnow hcap
  refine ⟨hup, hdown, fun hmore => ?_, hfall⟩
  obtain ⟨hbelow, hcool⟩ := hrise hmore
  exact ⟨hbelow.trans (hle.trans (ceiling_le w h)), hcool, fun hw => hbelow.trans (hle.trans (ceiling_le_of_conservative hw))⟩

end Next

/-! ### GOVERNOR_STEP -/

@[simp] theorem clockSet_mhz (nv : NonVol) (h mhz : Nat) (d : Device) :
    (clockSet nv h mhz d).pwr.mhz = smPut d.pwr.mhz 1600 h mhz := by
  unfold clockSet
  dsimp only
  split
  · rfl
  · rw [logPoint_pwr]; rfl

section Step

variable {nv : NonVol} {d : Device} {h dieW : Nat} {junction : Int} {more : Bool}

theorem governorStep_of_recent (hrecent : nv.up < smGet d.pwr.stepAt 0 h + 20000) : governorStep h junction dieW more nv d = d :=
  if_pos (by rw [decide_eq_true hrecent, Bool.or_true])

/-- A step that is due sets the next clock that the measured device gives. -/
theorem governorStep_of_due (hon : nv.mainOn = true) (hdue : smGet d.pwr.stepAt 0 h + 20000 ≤ nv.up) {d1 : Device}
    (hd1 : d1 = { junctionSeen h junction d with pwr := dieStep nv.up h dieW more (junctionSeen h junction d).pwr }) :
    governorStep h junction dieW more nv d = clockSet nv h (clockNext d1.pwr h junction) d1 := by
  rw [hd1]
  exact if_neg (by rw [hon, decide_eq_false (Nat.not_lt.2 hdue)]; decide)

end Step

/-- Settles O57: the cases of the next clock, the ceiling and the die's hold being clocks themselves. -/
theorem clocksMoveOneStepWithinTheirCaps : Obligations.ClocksMoveOneStepWithinTheirCaps := by
  intro s t h junction dieW more now next hon hclocks hstep hnow hnext
  have ht : onDev (governorStep h.val junction dieW more) s = t := Host.Outcome.next.inj hstep
  have hmhz : IsClock (smGet s.d.pwr.mhz 1600 h.val) := hclocks _ (.head _)
  have hceil : IsClock (smGet s.d.pwr.ceil 1600 h.val) := hclocks _ (.tail _ (.head _))
  have hdie : IsClock (smGet s.d.pwr.dieCap 1600 h.val) := hclocks _ (.tail _ (.tail _ (.head _)))
  refine ⟨fun hrecent => ?_, fun hdue => ?_⟩
  · rw [← ht, onDev, governorStep_of_recent hrecent]
  · rw [← ht, onDev_d, governorStep_of_due hon hdue rfl, clockSet_mhz, smGet_smPut_self] at hnext
    rw [hnow, hnext]
    obtain ⟨⟨hstep, hlo, hhi⟩, hsafe, hunsafe⟩ := clockNext_spec (junction := junction)
      (w := dieStep s.nv.up h.val dieW more (junctionSeen h.val junction s.d).pwr) hmhz hceil (isClock_dieCap_dieStep hmhz hdie)
    exact ⟨hstep, hlo, hhi, hsafe, hunsafe⟩

end Sys2Proof.Machine
end

section
/-! SUPPORT. The queue of a device-written ring (O55; R357, R359, R374): a record that joins it, and the oldest that leave it. -/

namespace Sys2Proof.Machine

/-! ### The ring that an operation leaves -/

section Rings

variable (nv : NonVol) (k : Nat) (d : Device)

@[simp] theorem devRing_devRingMod_self (f : DevRing → DevRing) : devRing (devRingMod k f d) k = f (devRing d k) := by
  by_cases h0 : k = 0
  · subst h0; rfl
  · by_cases h1 : k = 1
    · subst h1; rfl
    · rw [devRingMod, if_neg h0, if_neg h1, devRing, if_neg h0, if_neg h1, devRing, if_neg h0, if_neg h1]

@[simp] theorem devRing_irqRaise (ring : Nat) : devRing (irqRaise nv ring d) k = devRing d k := by
  unfold irqRaise irqSend
  dsimp only
  split <;> rfl

theorem devRing_ite {P : Prop} [Decidable P] {a b : Device} {k : Nat} {r : DevRing} (ha : devRing a k = r) (hb : devRing b k = r) :
    devRing (if P then a else b) k = r := by split <;> assumption

/-- Without a gap no EVENTS_LOST is due (R374). -/
theorem lostEvent_of_no_gap (hgap : (devRing d k).gap = 0) : lostEvent k d = d :=
  if_neg fun ⟨_, hne, _⟩ => hne hgap

/-- A gap is not told while the queue is full (R374). -/
theorem lostEvent_of_full (hfull : queueCap k ≤ (devRing d k).queue.length) : lostEvent k d = d :=
  if_neg fun ⟨_, _, hroom⟩ => Nat.not_lt.2 hfull hroom

end Rings

/-! ### The oldest records leave in their order -/

/-- From `r` to `q` the oldest `n` waiting records of a ring have left it, one slot each. -/
structure Leaves (n : Nat) (r q : DevRing) : Prop where
  queue : q.queue = r.queue.drop n
  tail : q.tail % 2 ^ q.log2 = (r.tail + n) % 2 ^ r.log2
  log2 : q.log2 = r.log2
  head : q.head = r.head
  base : q.base = r.base
  en : q.en = r.en
  gap : q.gap = r.gap

theorem Leaves.refl (r : DevRing) : Leaves 0 r r := ⟨rfl, rfl, rfl, rfl, rfl, rfl, rfl⟩

theorem Leaves.trans {m n : Nat} {a b c : DevRing} (h : Leaves m a b) (h' : Leaves n b c) : Leaves (m + n) a c where
  queue := by rw [h'.queue, h.queue, List.drop_drop]
  tail := by rw [h'.tail, Nat.add_mod, h.tail, h.log2, ← Nat.add_mod, Nat.add_assoc]
  log2 := h'.log2.trans h.log2
  head := h'.head.trans h.head
  base := h'.base.trans h.base
  en := h'.en.trans h.en
  gap := h'.gap.trans h.gap

section Flush

variable {nv : NonVol} {k : Nat} {d : Device}

theorem leaves_devRingPop (hq : (devRing d k).queue ≠ []) : Leaves 1 (devRing d k) (devRing (devRingPop nv k d) k) := by
  obtain ⟨rec_, rest, hrest⟩ := List.exists_cons_of_ne_nil hq
  have hring : ∃ ph lost, devRing (devRingPop nv k d) k = { devRing d k with
      queue := rest, tail := ((devRing d k).tail + 1) % 2 ^ (devRing d k).log2, phase := ph, lost := lost } := by
    unfold devRingPop
    dsimp only
    rw [hrest]
    exact ⟨_, _, devRing_ite ((devRing_irqRaise ..).trans (devRing_devRingMod_self ..)) (devRing_devRingMod_self ..)⟩
  obtain ⟨ph, lost, hring⟩ := hring
  rw [hring]
  exact ⟨by simp [hrest], Nat.mod_mod _ _, rfl, rfl, rfl, rfl, rfl⟩

/-- No record of ring `r` can leave: none waits, the ring is not enabled, or no slot is released (R359). -/
def Settled (r : DevRing) : Prop := r.queue = [] ∨ r.en = false ∨ ringRoom r.log2 r.tail r.head = false

theorem settled_of_not {r : DevRing} (hno : ¬(r.en = true ∧ r.queue ≠ [] ∧ ringRoom r.log2 r.tail r.head = true)) : Settled r := by
  by_cases hq : r.queue = []
  · exact .inl hq
  · cases hen : r.en with
    | false => exact .inr (.inl hen)
    | true => exact .inr (.inr (Bool.eq_false_iff.2 fun hroom => hno ⟨hen, hq, hroom⟩))

/-- A flush with fuel for every waiting record writes the oldest of them until none can leave. -/
theorem leaves_flushRing {fuel : Nat} (hgap : (devRing d k).gap = 0) (hfuel : (devRing d k).queue.length < fuel) :
    ∃ n ≤ (devRing d k).queue.length, Leaves n (devRing d k) (devRing (flushRing nv k fuel d) k) ∧
      Settled (devRing (flushRing nv k fuel d) k) := by
  induction fuel generalizing d with
  | zero => exact absurd hfuel (Nat.not_lt_zero _)
  | succ fuel ih =>
    rw [flushRing, lostEvent_of_no_gap k d hgap]
    split
    · next hgo =>
      obtain ⟨-, hq, -⟩ := hgo
      have hpop := leaves_devRingPop (nv := nv) hq
      have hlen : (devRing (devRingPop nv k d) k).queue.length + 1 = (devRing d k).queue.length := by
        rw [hpop.queue, List.length_drop]
        exact Nat.sub_add_cancel (List.length_pos_of_ne_nil hq)
      obtain ⟨n, hn, hleaves, hsettled⟩ := ih (hpop.gap.trans hgap) (Nat.lt_of_succ_lt_succ (hlen.trans_lt hfuel))
      exact ⟨1 + n, ((Nat.add_comm 1 n).trans_le (Nat.succ_le_succ hn)).trans_eq hlen, hpop.trans hleaves, hsettled⟩
    · next hno =>
      exact ⟨0, Nat.zero_le _, .refl _, settled_of_not hno⟩

/-- A ring that is not enabled and whose queue is full keeps all that waits. -/
theorem flushAll_of_full (hfull : queueCap k ≤ (devRing d k).queue.length) (hen : (devRing d k).en = false) :
    flushAll nv k d = d := by
  have hstop : ¬((devRing d k).en = true ∧ (devRing d k).queue ≠ [] ∧
      ringRoom (devRing d k).log2 (devRing d k).tail (devRing d k).head = true) := fun ⟨hon, _⟩ => Bool.eq_false_iff.1 hen hon
  rw [flushAll, flushRing, lostEvent_of_full k d hfull]
  exact if_neg hstop

theorem pushRec_of_room {rec_ : Nat} (hroom : (devRing d k).queue.length < queueCap k) :
    pushRec nv k rec_ d = flushAll nv k (devRingMod k (fun r => { r with queue := r.queue ++ [rec_] }) d) :=
  congrArg (flushAll nv k) (if_pos hroom)

theorem pushRec_of_full {rec_ : Nat} (hfull : queueCap k ≤ (devRing d k).queue.length) (hen : (devRing d k).en = false) :
    pushRec nv k rec_ d = devRingMod k (fun r => { r with
      lost := satInc 32 r.lost, gap := if k = 0 then r.gap + 1 else 0 }) d := by
  refine (congrArg (flushAll nv k) (if_neg (Nat.not_lt.2 hfull))).trans ?_
  exact flushAll_of_full (by rw [devRing_devRingMod_self]; exact hfull) (by rw [devRing_devRingMod_self]; exact hen)

end Flush

/-- Settles O55: the record joins the queue and the flush lets the oldest leave, or it is counted. -/
theorem deviceRecordsKeepTheirOrder : Obligations.DeviceRecordsKeepTheirOrder := by
  intro nv k rec_ d q _ hgap hq
  refine ⟨fun hroom => ?_, fun hfull hen => ?_⟩
  · rw [pushRec_of_room hroom, flushAll] at hq
    obtain ⟨n, hn, hleaves, hsettled⟩ := leaves_flushRing (nv := nv) (k := k)
      (d := devRingMod k (fun r => { r with queue := r.queue ++ [rec_] }) d) (by rw [devRing_devRingMod_self]; exact hgap)
      (Nat.lt_add_of_pos_right (Nat.succ_pos 2))
    rw [← hq] at hleaves hsettled
    simp only [devRing_devRingMod_self, List.length_append, List.length_singleton] at hn hleaves
    exact ⟨n, hn, hleaves.queue, hleaves.tail, hleaves.log2, hleaves.head, hleaves.base, hsettled⟩
  · rw [hq, pushRec_of_full hfull hen, devRing_devRingMod_self]
    exact ⟨rfl, rfl, rfl⟩

end Sys2Proof.Machine
end

section
/-! SUPPORT. The first fault of a context (O54; R421 to R423): where its record goes, and what the detection leaves of the contexts. -/

namespace Sys2Proof.Machine

/-! ### What errors in memory leave (R238, R239) -/

/-- What decides where the next fault record goes, and the contexts: met errors and events change none of it. -/
def faultPlace (d : Device) : SMap Ctx × List StripeSet × Nat × Nat := (d.ctxs, d.mem.sets, d.flt.log, d.flt.head)

section Place

variable (nv : NonVol) (d : Device)

theorem faultPlace_ite {P : Prop} [Decidable P] {a b : Device} {x : SMap Ctx × List StripeSet × Nat × Nat} (ha : faultPlace a = x)
    (hb : faultPlace b = x) : faultPlace (if P then a else b) = x := by split <;> assumption

theorem sets_ite {P : Prop} [Decidable P] {a b : Device} {x : List StripeSet} (ha : a.mem.sets = x) (hb : b.mem.sets = x) :
    (if P then a else b).mem.sets = x := by split <;> assumption

/-- Where the sets stay, so does the place, whatever else of the memory changes. -/
theorem faultPlace_mem {m : Mem} (h : m.sets = d.mem.sets) : faultPlace { d with mem := m } = faultPlace d :=
  congrArg (fun x => (d.ctxs, x, d.flt.log, d.flt.head)) h

theorem sets_devRingMod (k : Nat) (f : DevRing → DevRing) : (devRingMod k f d).mem.sets = d.mem.sets := by rw [devRingMod_frame]

theorem sets_irqRaise (ring : Nat) : (irqRaise nv ring d).mem.sets = d.mem.sets := by rw [irqRaise_frame]

theorem sets_devRingPop (k : Nat) : (devRingPop nv k d).mem.sets = d.mem.sets := by
  unfold devRingPop
  dsimp only
  split
  · rfl
  · exact sets_ite ((sets_irqRaise ..).trans ((sets_devRingMod ..).trans (sets_ite (dWrite_sets ..) rfl)))
      ((sets_devRingMod ..).trans (sets_ite (dWrite_sets ..) rfl))

theorem sets_flushRing (k n : Nat) (d : Device) : (flushRing nv k n d).mem.sets = d.mem.sets := by
  induction n generalizing d with
  | zero => rfl
  | succ n ih =>
    rw [flushRing]
    split
    · rw [ih, sets_devRingPop, lostEvent_frame]
    · rw [lostEvent_frame]

@[simp] theorem sets_pushRec (k r : Nat) : (pushRec nv k r d).mem.sets = d.mem.sets := by
  unfold pushRec flushAll
  rw [sets_flushRing]
  split <;> rw [devRingMod_frame]

@[simp] theorem faultPlace_mgmtPush (cls r : Nat) : faultPlace (mgmtPush cls r d) = faultPlace d := by
  unfold mgmtPush
  split <;> rfl

@[simp] theorem faultPlace_pushRec (k r : Nat) : faultPlace (pushRec nv k r d) = faultPlace d := by
  simp [faultPlace]

@[simp] theorem faultPlace_raiseEv (code : Nat) (c : Option Nat) (a0 a1 : Nat) :
    faultPlace (raiseEv nv code c a0 a1 d) = faultPlace d :=
  faultPlace_ite ((faultPlace_mgmtPush ..).trans (faultPlace_pushRec ..)) (faultPlace_pushRec ..)

@[simp] theorem faultPlace_setHealth (kind id : Nat) (st : Health) (reason : Nat) :
    faultPlace (setHealth nv kind id st reason d) = faultPlace d :=
  faultPlace_ite rfl (faultPlace_raiseEv ..)

@[simp] theorem faultPlace_suspect (kind id reason : Nat) : faultPlace (suspect nv kind id reason d) = faultPlace d :=
  faultPlace_ite (faultPlace_setHealth ..) rfl

@[simp] theorem faultPlace_synRecord (kind source : Nat) (c : Option Nat) (action syndrome wher symbol pattern : Nat) :
    faultPlace (synRecord kind source c action syndrome wher symbol pattern d) = faultPlace d := by
  refine (faultPlace_mgmtPush ..).trans (faultPlace_mem d ?_)
  show Mem.sets (if _ then _ else _) = _
  split
  · exact dWrite_sets ..
  · rfl

@[simp] theorem faultPlace_hbmError (source : Nat) (c : Option Nat) (action : Nat) (e : EccNote) :
    faultPlace (hbmError nv source c action e d) = faultPlace d := by
  refine faultPlace_ite ((faultPlace_suspect ..).trans ((faultPlace_synRecord ..).trans rfl))
    (faultPlace_ite ((faultPlace_suspect ..).trans ?corrected) ?corrected)
  case corrected => exact faultPlace_ite rfl ((faultPlace_synRecord ..).trans rfl)

theorem faultPlace_foldl_hbmError (source : Nat) (c : Option Nat) (action : EccNote → Nat) (l : List EccNote) (d : Device) :
    faultPlace (l.foldl (fun d e => hbmError nv source c (action e) e d) d) = faultPlace d := by
  induction l generalizing d with
  | nil => rfl
  | cons e l ih => rw [List.foldl_cons, ih, faultPlace_hbmError]

@[simp] theorem faultPlace_meetErrors (source : Nat) (c : Option Nat) (action : Nat) (ws : List Nat) :
    faultPlace (meetErrors nv source c action ws d) = faultPlace d := by
  unfold meetErrors
  dsimp only
  split
  · rfl
  · rw [faultPlace_foldl_hbmError]; rfl

end Place

/-! ### The start of a teardown (R370, R425) -/

section Teardown

variable (nv : NonVol) (d : Device)

@[simp] theorem winPut_flt (w v : Nat) : (winPut w v d).flt = d.flt := by simp only [winPut, memMod_flt]
@[simp] theorem winPut_ctxs (w v : Nat) : (winPut w v d).ctxs = d.ctxs := by simp only [winPut, memMod_ctxs]
@[simp] theorem noticeQueue_flt (c n w gen : Nat) : (noticeQueue nv c n w gen d).flt = d.flt := rfl
@[simp] theorem noticeQueue_ctxs (c n w gen : Nat) : (noticeQueue nv c n w gen d).ctxs = d.ctxs := rfl

/-- Revoking a window writes its descriptor and queues a notice: neither the fault block nor a context changes. -/
theorem winRevoke_flt_ctxs (w : Nat) : (winRevoke nv w d).flt = d.flt ∧ (winRevoke nv w d).ctxs = d.ctxs := by
  unfold winRevoke
  dsimp only
  split <;> simp

theorem winRevokeAll_flt_ctxs (c : Nat) : (winRevokeAll nv c d).flt = d.flt ∧ (winRevokeAll nv c d).ctxs = d.ctxs := by
  unfold winRevokeAll
  generalize d.link.valid.filter _ = l
  induction l generalizing d with
  | nil => exact ⟨rfl, rfl⟩
  | cons w l ih =>
    obtain ⟨hflt, hctxs⟩ := winRevoke_flt_ctxs nv d w
    rw [List.foldl_cons, (ih _).1, (ih _).2]
    exact ⟨hflt, hctxs⟩

@[simp] theorem startTeardown_flt (c status : Nat) (tag : Option Nat) : (startTeardown nv c status tag d).flt = d.flt := by
  simp only [startTeardown, schedMod_flt, coresMap_flt, clusMap_flt, ctxMod_flt, (winRevokeAll_flt_ctxs ..).1]

/-- Of the contexts a teardown changes the one that it is of, which becomes TEARING. -/
theorem ctxs_startTeardown (c status : Nat) (tag : Option Nat) : ∃ f : Ctx → Ctx, (∀ x, (f x).st = .tearing) ∧
    (startTeardown nv c status tag d).ctxs = smMod d.ctxs Ctx.init c f := by
  simp only [startTeardown, schedMod_ctxs, coresMap_ctxs, clusMap_ctxs, ctxMod_ctxs, (winRevokeAll_flt_ctxs ..).2]
  exact ⟨_, fun _ => rfl, rfl⟩

theorem ctxGet_startTeardown_self (c status : Nat) (tag : Option Nat) : (ctxGet (startTeardown nv c status tag d) c).st = .tearing := by
  obtain ⟨f, hf, hctxs⟩ := ctxs_startTeardown nv d c status tag
  rw [ctxGet, hctxs, smGet_smMod_self, hf]

theorem ctxGet_startTeardown_ne {c q : Nat} (status : Nat) (tag : Option Nat) (h : q ≠ c) :
    ctxGet (startTeardown nv c status tag d) q = ctxGet d q := by
  obtain ⟨f, -, hctxs⟩ := ctxs_startTeardown nv d c status tag
  rw [ctxGet, hctxs, smGet_smMod_ne _ _ _ h]
  rfl

end Teardown

/-! ### The detection (R421 to R423) -/

/-- The record of a fault takes the next place in the log where there is memory for it. -/
theorem faultPlace_faultLog (nv : NonVol) (c : Nat) (f : FaultAt) (d : Device) :
    faultPlace (faultLog nv c f d) = (d.ctxs, d.mem.sets, d.flt.log,
      if dpaOk d.mem (d.flt.log + 64 * (d.flt.head % 4096)) 64 then wrapInc 32 d.flt.head else d.flt.head) := by
  unfold faultLog
  dsimp only
  split
  · simp [faultPlace, fltCnt]
  · rfl

section States

variable {α : Type} {st : CtxSt} {a b c : α}

theorem detection_of_live (h : st = .bound ∨ st = .resident) :
    (match (generalizing := false) st with | .bound | .resident => a | .tearing | .quiescing => b | .free => c) = a := by
  rcases h with rfl | rfl <;> rfl

theorem detection_of_tearing (h : st = .tearing) :
    (match (generalizing := false) st with | .bound | .resident => a | .tearing | .quiescing => b | .free => c) = b := by
  subst h; rfl

end States

/-- The first fault of a generation is logged and starts the teardown, once what is wrong with the memory that it met is counted. -/
theorem faultCtx_of_live {nv : NonVol} {c : Nat} {f : FaultAt} {d : Device}
    (hst : (ctxGet d c).st = .bound ∨ (ctxGet d c).st = .resident) : ∃ (d1 : Device) (f1 : FaultAt) (a0 a1 : Nat),
      faultPlace d1 = faultPlace d ∧
        faultCtx nv c f d = startTeardown nv c f.status f1.tag (raiseEv nv 0x20 (some c) a0 a1 (faultLog nv c f1 d1)) :=
  ⟨_, _, _, _, faultPlace_ite (faultPlace_meetErrors ..) rfl, detection_of_live hst⟩

/-- A later one is counted. -/
theorem faultCtx_of_tearing {nv : NonVol} {c : Nat} {f : FaultAt} {d : Device} (hst : (ctxGet d c).st = .tearing) :
    faultCtx nv c f d = fltCnt 1 d :=
  detection_of_tearing hst

theorem dpaOk_congr {m n : Mem} (h : n.sets = m.sets) (a len : Nat) : dpaOk n a len = dpaOk m a len := by
  simp only [dpaOk, physOf_congr h]

/-- The head of the log after a first fault. -/
theorem head_faultCtx_of_live {nv : NonVol} {c : Nat} {f : FaultAt} {d : Device}
    (hst : (ctxGet d c).st = .bound ∨ (ctxGet d c).st = .resident) : (faultCtx nv c f d).flt.head =
      if dpaOk d.mem (d.flt.log + 64 * (d.flt.head % 4096)) 64 then wrapInc 32 d.flt.head else d.flt.head := by
  obtain ⟨d1, f1, a0, a1, hplace, heq⟩ := faultCtx_of_live (nv := nv) (f := f) hst
  have hsets : d1.mem.sets = d.mem.sets := congrArg (fun x => x.2.1) hplace
  have hlog : d1.flt.log = d.flt.log := congrArg (fun x => x.2.2.1) hplace
  have hhead : d1.flt.head = d.flt.head := congrArg (fun x => x.2.2.2) hplace
  rw [heq, startTeardown_flt]
  refine (congrArg (fun x => x.2.2.2) ((faultPlace_raiseEv ..).trans (faultPlace_faultLog nv c f1 d1))).trans ?_
  rw [← hlog, ← hhead, dpaOk_congr hsets]

/-- The contexts after a first fault. -/
theorem ctxGet_faultCtx_of_live {nv : NonVol} {c : Nat} {f : FaultAt} {d : Device}
    (hst : (ctxGet d c).st = .bound ∨ (ctxGet d c).st = .resident) :
    (ctxGet (faultCtx nv c f d) c).st = .tearing ∧ ∀ q ≠ c, ctxGet (faultCtx nv c f d) q = ctxGet d q := by
  obtain ⟨d1, f1, a0, a1, hplace, heq⟩ := faultCtx_of_live (nv := nv) (f := f) hst
  rw [heq]
  refine ⟨ctxGet_startTeardown_self .., fun q hq => (ctxGet_startTeardown_ne _ _ _ _ hq).trans ?_⟩
  have hctxs : (faultLog nv c f1 d1).ctxs = d.ctxs :=
    (congrArg Prod.fst (faultPlace_faultLog nv c f1 d1)).trans (congrArg Prod.fst hplace)
  rw [ctxGet, raiseEv_ctxs, hctxs]
  rfl

/-- Settles O54: the first detection by `faultCtx_of_live`, every further one by `faultCtx_of_tearing`. -/
theorem firstFaultOfAGenerationOnly : Obligations.FirstFaultOfAGenerationOnly := by
  rintro nv c f d t hst rfl
  obtain ⟨htearing, hothers⟩ := ctxGet_faultCtx_of_live (nv := nv) (f := f) hst
  have hhead := head_faultCtx_of_live (nv := nv) (f := f) hst
  refine ⟨htearing, fun hok => ?_, fun hno => ?_, fun nv' f' => faultCtx_of_tearing htearing, fun q hq => ?_⟩
  · rw [hhead, if_pos hok]; rfl
  · rw [hhead, if_neg (Bool.eq_false_iff.1 hno)]
  · rw [hothers q.val fun h => hq (Fin.ext h)]

end Sys2Proof.Machine
end

section
/-! SUPPORT. Ownership (O1, O2): a claim and the events of R354 and R355, each by the cases of its operation. -/

namespace Sys2Proof.Machine

/-! ### What depends on the state of ownership (R354) -/

section States

variable {α : Type} {st : OwnSt} {a b c e : α}

theorem claim_of_unowned (h : st = .unowned) :
    (match (generalizing := false) st with | .unowned => a | .owned => b | .lost => c | .handing => e) = a := by subst h; rfl

theorem claim_of_lost (h : st = .lost) :
    (match (generalizing := false) st with | .unowned => a | .owned => b | .lost => c | .handing => e) = c := by subst h; rfl

theorem claim_of_handing (h : st = .handing) :
    (match (generalizing := false) st with | .unowned => a | .owned => b | .lost => c | .handing => e) = e := by subst h; rfl

theorem portLoss_of_owned (h : st = .owned) :
    (match (generalizing := false) st with | .owned => a | .handing => b | .unowned | .lost => c) = a := by subst h; rfl

theorem portLoss_of_handing (h : st = .handing) :
    (match (generalizing := false) st with | .owned => a | .handing => b | .unowned | .lost => c) = b := by subst h; rfl

theorem portLoss_of_neither (h : st = .unowned ∨ st = .lost) :
    (match (generalizing := false) st with | .owned => a | .handing => b | .unowned | .lost => c) = c := by
  rcases h with rfl | rfl <;> rfl

end States

/-! ### OWN_CLAIM (R354) -/

section Claim

variable {nv : NonVol} {d : Device} {p : Port} {v : Word}

theorem claimWrite_of_no_code (h : v.toNat % 2 ^ 16 ≠ 0x0C1A ∨ bit nv.policyMask p.val = false) : claimWrite nv p v d = d :=
  if_neg fun ⟨hcode, hmask⟩ => h.elim (· hcode) (Bool.eq_false_iff.1 · hmask)

/-- A claim that R354's table does not list changes nothing. -/
theorem claimWrite_of_unlisted (h : d.own.st = .owned ∨ (d.own.st = .lost ∧ p ≠ d.own.owner) ∨
    (d.own.st = .handing ∧ (p ≠ d.own.target ∨ d.own.handFrom + 1000000000 ≤ nv.up))) : claimWrite nv p v d = d := by
  unfold claimWrite
  split
  · rcases h with h | ⟨h, hother⟩ | ⟨h, hlate⟩
    · rw [h]
    · rw [h]; exact if_neg hother
    · rw [h]; exact if_neg fun ⟨htarget, hintime⟩ => hlate.elim (· htarget) (Nat.not_le.2 hintime)
  · rfl

section Coded

variable (hcode : v.toNat % 2 ^ 16 = 0x0C1A) (hmask : bit nv.policyMask p.val = true)
include hcode hmask

theorem claimWrite_of_unowned (hst : d.own.st = .unowned) :
    claimWrite nv p v d = ownerChange nv p (if d.own.afterLoss then 2 else 0) (becomeOwner p d) :=
  (if_pos ⟨hcode, hmask⟩).trans (claim_of_unowned hst)

theorem claimWrite_of_lost (hst : d.own.st = .lost) (hp : p = d.own.owner) :
    claimWrite nv p v d = { d with own := { d.own with st := .owned } } :=
  (if_pos ⟨hcode, hmask⟩).trans ((claim_of_lost hst).trans (if_pos hp))

theorem claimWrite_of_handing (hst : d.own.st = .handing) (hp : p = d.own.target)
    (hintime : nv.up < d.own.handFrom + 1000000000) :
    claimWrite nv p v d = ownerChange nv p 1 (becomeOwner p (leaveOwner (endHandover nv stOK d))) :=
  (if_pos ⟨hcode, hmask⟩).trans ((claim_of_handing hst).trans (if_pos ⟨hp, hintime⟩))

end Coded

theorem endHandover_of_open {status t : Nat} (ht : d.own.handTag = some t) :
    endHandover nv status d = complete nv t status 0xFFFF 0 { d with own := { d.own with handTag := none } } := by
  simp only [endHandover, ht]

end Claim

section Rows

variable {s : State} {p : Port} {v : Word}

theorem exec_claim_of_host (hw : hostWrites s.nv s.d p = true) :
    exec (.claim p v) s = .next { s with d := claimWrite s.nv p v s.d } :=
  next_dev_congr (if_pos hw)

theorem exec_claim_of_no_host (hw : hostWrites s.nv s.d p = false) : exec (.claim p v) s = .next s :=
  next_of_dev_eq (if_neg (Bool.eq_false_iff.1 hw))

end Rows

/-- Settles O1: R354's rows for the claim, each by the state of ownership that it names. -/
theorem claimTakesTheDevice : Obligations.ClaimTakesTheDevice := by
  refine ⟨fun s p v hw hcode hmask => ?_, fun s p v h => ?_⟩
  · have hclaim := exec_claim_of_host (v := v) hw
    refine ⟨fun hst => hclaim.trans (next_dev_congr (claimWrite_of_unowned hcode hmask hst)),
      fun hst hp => hclaim.trans (next_dev_congr (claimWrite_of_lost hcode hmask hst hp)),
      fun t hst hp hintime ht => hclaim.trans (next_dev_congr ?_)⟩
    rw [claimWrite_of_handing hcode hmask hst hp hintime, endHandover_of_open ht]
    rfl
  · cases hw : hostWrites s.nv s.d p with
    | false => exact exec_claim_of_no_host hw
    | true =>
      refine (exec_claim_of_host hw).trans (next_of_dev_eq ?_)
      rcases h with h | h | h | h
      · rw [hw] at h; cases h
      · exact claimWrite_of_no_code (.inl h)
      · exact claimWrite_of_no_code (.inr h)
      · exact claimWrite_of_unlisted h

/-! ### The events of ownership (R354, R355, R449) -/

section Events

variable {nv : NonVol} {d : Device} {p : Port}

/-- The device once port `p` is down: its link bit and its captured halves are gone (R17, R449). -/
def portDown (p : Port) (d : Device) : Device := { d with
  own := { d.own with linkUp := putBit d.own.linkUp p.val false }
  rings := { d.rings with captures := d.rings.captures.filter (·.1 ≠ p.val) } }

/-- The loss of the owner's port begins the loss timer (R354). -/
theorem portLost_of_owner (hst : d.own.st = .owned) (hp : p = d.own.owner) : portLost nv p d =
    { portDown p d with own := { (portDown p d).own with st := .lost, lossFrom := nv.up } } :=
  (portLoss_of_owned hst).trans (if_pos hp)

theorem portLost_of_handing_owner {t : Nat} (hst : d.own.st = .handing) (ht : d.own.handTag = some t) (hp : p = d.own.owner) :
    portLost nv p d = complete nv t stState 0xFFFF 0
      { portDown p d with own := { (portDown p d).own with st := .lost, lossFrom := nv.up, handTag := none } } :=
  (portLoss_of_handing hst).trans ((if_pos hp).trans (endHandover_of_open ht))

theorem portLost_of_handing_target {t : Nat} (hst : d.own.st = .handing) (ht : d.own.handTag = some t) (ho : p ≠ d.own.owner)
    (hp : p = d.own.target) : portLost nv p d = complete nv t stState 0xFFFF 0
      { portDown p d with own := { (portDown p d).own with st := .owned, handTag := none } } :=
  (portLoss_of_handing hst).trans ((if_neg ho).trans ((if_pos hp).trans (endHandover_of_open ht)))

/-- The loss of a port that ownership does not rest on. -/
theorem portLost_of_other (h : d.own.st = .unowned ∨ d.own.st = .lost ∨
    (p ≠ d.own.owner ∧ (d.own.st = .owned ∨ p ≠ d.own.target))) : portLost nv p d = portDown p d := by
  rcases h with h | h | ⟨ho, h⟩
  · exact portLoss_of_neither (.inl h)
  · exact portLoss_of_neither (.inr h)
  · cases hst : d.own.st with
    | unowned => exact portLoss_of_neither (.inl hst)
    | lost => exact portLoss_of_neither (.inr hst)
    | owned => exact (portLoss_of_owned hst).trans (if_neg ho)
    | handing =>
      have ht : p ≠ d.own.target := h.resolve_left (by rw [hst]; decide)
      exact (portLoss_of_handing hst).trans ((if_neg ho).trans (if_neg ht))

theorem lossTimeout_of_due (hst : d.own.st = .lost) (hdue : d.own.lossFrom + d.own.lossMs * 1000000 ≤ nv.up) :
    lossTimeout nv d = drawFresh 1 { leaveOwner d with own := { (leaveOwner d).own with
      st := .unowned, afterLoss := true, owner := Fin.ofNat 4 (Config.freeWord (leaveOwner d).fresh).toNat } } :=
  if_pos ⟨hst, hdue⟩

theorem handoverTimeout_of_due {t : Nat} (hst : d.own.st = .handing) (hdue : d.own.handFrom + 1000000000 ≤ nv.up)
    (ht : d.own.handTag = some t) : handoverTimeout nv d =
      complete nv t stState 0xFFFF 0 { d with own := { d.own with st := .owned, handTag := none } } :=
  (if_pos ⟨hst, hdue⟩).trans (endHandover_of_open ht)

theorem drainEnd_of_due (hdrain : d.rings.admin.draining = true) (hall : (d.rings.taken.all fun x => x.ring.isSome) = true)
    {d' : Device} (hd' : d' = drainRecords nv d.rings.admin.untaken d) : drainEnd nv d =
      { d' with rings := { d'.rings with admin := { d'.rings.admin with untaken := [], draining := false } } } := by
  subst hd'
  exact if_pos ⟨hdrain, hall⟩

theorem irqRaise_own (ring : Nat) (d : Device) : (irqRaise nv ring d).own = d.own := by rw [irqRaise_frame]

theorem own_ite {c : Prop} [Decidable c] {x y : Device} {o : Own} (hx : x.own = o) (hy : y.own = o) :
    (if c then x else y).own = o := by split <;> assumption

theorem adminRecord_own (info : Bool) (status cmd index result : Nat) (d : Device) :
    (adminRecord nv info status cmd index result d).own = d.own := by
  refine own_ite ((irqRaise_own _ _).trans ?_) ?_
  · exact own_ite (memMod_own _ _) rfl
  · exact own_ite (memMod_own _ _) rfl

/-- The records of a drain leave ownership alone. -/
theorem drainRecords_own (ids : List Nat) (d : Device) : (drainRecords nv ids d).own = d.own := by
  induction ids generalizing d with
  | nil => rfl
  | cons i ids ih =>
    rw [drainRecords, ih]
    split
    · exact adminRecord_own ..
    · rfl

end Events

/-- Settles O2: one lemma for each event and state of ownership. -/
theorem ownershipEventsFollowTheirTimers : Obligations.OwnershipEventsFollowTheirTimers := by
  intro s
  have hlost (p : Port) : exec (.portLost p) s = .next { s with d := portLost s.nv p s.d } := rfl
  refine ⟨fun p hon => ?up, fun hst => ?owner, ?lost, fun hst hdue => ?loss, fun t hst hdue ht => ?handover,
    fun hdrain hall d' hd' => ?drain⟩
  case up => exact next_dev_congr (if_pos hon)
  case owner => exact (hlost _).trans (next_dev_congr (portLost_of_owner hst rfl))
  case lost =>
    rintro p d1 rfl
    exact ⟨fun h => (hlost p).trans (next_dev_congr (portLost_of_other h)),
      fun t hst ht hp => (hlost p).trans (next_dev_congr (portLost_of_handing_owner hst ht hp)),
      fun t hst ht ho hp => (hlost p).trans (next_dev_congr (portLost_of_handing_target hst ht ho hp))⟩
  case loss => exact next_dev_congr (lossTimeout_of_due hst hdue)
  case handover => exact next_dev_congr (handoverTimeout_of_due hst hdue ht)
  case drain =>
    refine ⟨?_, hd' ▸ drainRecords_own _ _⟩
    exact next_dev_congr (drainEnd_of_due hdrain hall hd')

end Sys2Proof.Machine
end

section
/-! SUPPORT. The admin commands of contexts and ownership (O3; R354, R360, R367 to R370, R372). -/

namespace Sys2Proof.Machine

section Served

variable {s : State} {op t : Nat} {x : Taken} (hst : stateStatus s.nv s.d x.ring x.entry = 0) (hx : freshTaken s.d op t = some x)
include hst hx

/-- The row of a served command has the effect of its operation on the device. -/
theorem next_of_served (f : Taken → NonVol → Device → Device) :
    (.next (onDev (withTaken op t f) s) : Host.Outcome State Fault Refusal) = .next { s with d := f x s.nv s.d } := by
  rw [onDev, withTaken_of_served hx hst]

/-- The same of a command that changes what the module keeps as well. -/
theorem next_of_servedNv (f : Taken → NonVol → Device → NonVol × Device) :
    (.next (onBoth (withTakenNv op t f) s) : Host.Outcome State Fault Refusal) =
      .next { s with nv := (f x s.nv s.d).1, d := (f x s.nv s.d).2 } := by
  simp only [onBoth, withTakenNv_of_served hx hst]

end Served

/-- Settles O3: each command's own row, over the served command. -/
theorem adminCommandsOfContextsAndOwnership : Obligations.AdminCommandsOfContextsAndOwnership := by
  intro s t x hst
  refine ⟨fun hx => ?identify, fun hx => ⟨_, _, rfl, rfl, ?create⟩, fun hx => ?destroy, fun hx => ?grant,
    fun hx p hp => ?handover, fun hx hdone => ?fence, fun hx hdone => ?fenceContext⟩
  case identify => exact next_of_served hst hx _
  case create => exact next_of_servedNv hst hx _
  case destroy => exact next_of_served hst hx _
  case grant =>
    have hfield : fld (eArg x.entry 0) 0 4 = eArg x.entry 0 % 16 := by simp [fld]
    rw [← hfield]
    exact next_of_served hst hx _
  case handover =>
    have hport : p = ⟨fld (eArg x.entry 0) 0 2, Nat.mod_lt _ (by decide)⟩ := Fin.ext (by simp [fld, hp])
    rw [hport]
    exact next_of_served hst hx _
  case fence => exact (next_of_served hst hx _).trans (by rw [if_pos hdone])
  case fenceContext => exact (next_of_served hst hx _).trans (by rw [if_pos hdone])

end Sys2Proof.Machine
end

section
/-! SUPPORT. What hosts write (O4; R351, R353, R358, R359, R376, R474): doorbells, heads, ring control and apertures, each by the
cases of its operation. -/

namespace Sys2Proof.Machine

/-- A write of a port that reaches the registers has the effect of its operation. -/
theorem next_of_host {s : State} {p : Port} (hw : hostWrites s.nv s.d p = true) (f : NonVol → Device → Device) :
    (.next (onDev (fun nv d => if hostWrites nv d p then f nv d else d) s) : Host.Outcome State Fault Refusal) =
      .next { s with d := f s.nv s.d } := by
  rw [onDev, if_pos hw]

variable {nv : NonVol} {d : Device} {p : Port}

/-! ### Doorbells (R358) -/

theorem ctxBell_of_inside {c v : Nat} (hmay : mayUse d p c = true) (hlive : ctxLive d c = true)
    (hen : (ctxGet d c).ringEn = true) (hv : v < 2 ^ (ctxGet d c).sqLog) : ctxBell p c v d = ctxMod c (fun x => { x with
      sqTail := v, bells := if v = x.sqTail then x.bells else x.bells ++ [(v, p)] }) d :=
  if_neg (by rw [hmay, hlive, hen, decide_eq_false (Nat.not_le.2 hv)]; decide)

theorem ctxBell_of_denied {c v : Nat} (h : mayUse d p c = false ∨ ctxLive d c = false ∨ (ctxGet d c).ringEn = false ∨
    2 ^ (ctxGet d c).sqLog ≤ v) : ctxBell p c v d = denied d :=
  if_pos (by rcases h with h | h | h | h <;> simp [h])

theorem adminBell_of_inside {v : Nat} (ho : isOwner d p = true) (hen : d.rings.admin.en = true)
    (hv : v < 2 ^ d.rings.admin.log2) : adminBell p v d =
      { d with rings := { d.rings with admin := { d.rings.admin with
        sqTail := v
        bells := if v = d.rings.admin.sqTail then d.rings.admin.bells else d.rings.admin.bells ++ [(v, p)] } } } :=
  if_neg (by rw [ho, hen, decide_eq_false (Nat.not_le.2 hv)]; decide)

theorem adminBell_of_denied {v : Nat} (h : isOwner d p = false ∨ d.rings.admin.en = false ∨ 2 ^ d.rings.admin.log2 ≤ v) :
    adminBell p v d = denied d :=
  if_pos (by rcases h with h | h | h <;> simp [h])

/-! ### Heads (R359) -/

section Heads

variable {v : Word}

theorem headPut_ctx_of_inside {c : CtxNo} (hmay : mayUse d p c.val = true) (hv : v.toNat % 4096 < 2 ^ (ctxGet d c.val).cqLog) :
    headPut nv p (.inl c) v d = ctxMod c.val (fun x => { x with cqHead := v.toNat % 4096 }) d :=
  if_neg (by rw [hmay, decide_eq_false (Nat.not_le.2 hv)]; decide)

theorem headPut_ctx_of_denied {c : CtxNo} (h : mayUse d p c.val = false ∨ 2 ^ (ctxGet d c.val).cqLog ≤ v.toNat % 4096) :
    headPut nv p (.inl c) v d = denied d :=
  if_pos (by rcases h with h | h <;> simp [h])

theorem headPut_of_other {k : Fin 4} (ho : isOwner d p = false) : headPut nv p (.inr k) v d = denied d :=
  if_pos (by rw [ho]; rfl)

variable (ho : isOwner d p = true)
include ho

theorem not_other : ¬(!isOwner d p) = true := by rw [ho]; decide

theorem headPut_admin_of_inside (hv : v.toNat % 4096 < 2 ^ d.rings.admin.log2) : headPut nv p (.inr 0) v d =
    { d with rings := { d.rings with admin := { d.rings.admin with cqHead := v.toNat % 4096 } } } :=
  (if_neg (not_other ho)).trans ((if_pos rfl).trans (if_neg (Nat.not_le.2 hv)))

theorem headPut_admin_of_outside (hv : 2 ^ d.rings.admin.log2 ≤ v.toNat % 4096) : headPut nv p (.inr 0) v d = denied d :=
  (if_neg (not_other ho)).trans ((if_pos rfl).trans (if_pos hv))

theorem headPut_dev_of_inside {k : Fin 4} (hk : k ≠ 0) (hv : v.toNat % 4096 < 2 ^ (devRing d (k.val - 1)).log2) :
    headPut nv p (.inr k) v d =
      flushAll nv (k.val - 1) (devRingMod (k.val - 1) (fun r => { r with head := v.toNat % 4096 }) d) :=
  (if_neg (not_other ho)).trans ((if_neg hk).trans (if_neg (Nat.not_le.2 hv)))

theorem headPut_dev_of_outside {k : Fin 4} (hk : k ≠ 0) (hv : 2 ^ (devRing d (k.val - 1)).log2 ≤ v.toNat % 4096) :
    headPut nv p (.inr k) v d = denied d :=
  (if_neg (not_other ho)).trans ((if_neg hk).trans (if_pos hv))

end Heads

/-! ### Ring control (R376) -/

section Ctrl

variable {v : Nat}

theorem adminCtrl_of_draining (hdrain : d.rings.admin.draining = true) : adminCtrl v d = d := if_pos hdrain

section Still

variable (hstill : d.rings.admin.draining = false)
include hstill

theorem not_draining : ¬d.rings.admin.draining = true := Bool.eq_false_iff.1 hstill

/-- A ring that stays enabled takes the vector only. -/
theorem adminCtrl_of_kept (hen : d.rings.admin.en = true) (hon : bit v 0 = true) : adminCtrl v d =
    { d with rings := { d.rings with admin := { d.rings.admin with vector := fld v 8 5 } } } :=
  (if_neg (not_draining hstill)).trans (if_pos ⟨hen, hon⟩)

/-- A ring that is disabled drains where commands of it are taken (R355). -/
theorem adminCtrl_of_disabled (hen : d.rings.admin.en = true) (hon : bit v 0 = false) {busy : Bool}
    (hbusy : busy = d.rings.taken.any fun x => x.ring.isNone) : adminCtrl v d =
      { d with rings := { d.rings with admin := { d.rings.admin with
        en := false, vector := fld v 8 5, bells := [], untaken := [], draining := busy
        log2 := if busy then d.rings.admin.log2 else fld v 4 4 } } } := by
  subst hbusy
  exact (if_neg (not_draining hstill)).trans
    ((if_neg fun h => Bool.eq_false_iff.1 hon h.2).trans (if_pos hen))

theorem adminCtrl_of_enabled (hen : d.rings.admin.en = false) (hon : bit v 0 = true) {lg : Nat} (hlg : lg = fld v 4 4) :
    adminCtrl v d =
      if 4 ≤ lg ∧ lg ≤ 12 ∧ dpaOk d.mem (d.rings.admin.base * 4096) (96 * 2 ^ lg) = true then
        { d with rings := { d.rings with admin := { d.rings.admin with
          en := true, vector := fld v 8 5, log2 := lg, sqTail := 0, sqHead := 0, cqTail := 0, cqHead := 0
          phase := true, bells := [], untaken := [] } } }
      else d := by
  subst hlg
  exact (if_neg (not_draining hstill)).trans
    ((if_neg fun h => Bool.eq_false_iff.1 hen h.1).trans ((if_neg (Bool.eq_false_iff.1 hen)).trans (if_pos hon)))

theorem adminCtrl_of_off (hen : d.rings.admin.en = false) (hon : bit v 0 = false) : adminCtrl v d =
    { d with rings := { d.rings with admin := { d.rings.admin with vector := fld v 8 5, log2 := fld v 4 4 } } } :=
  (if_neg (not_draining hstill)).trans ((if_neg fun h => Bool.eq_false_iff.1 hen h.1).trans
    ((if_neg (Bool.eq_false_iff.1 hen)).trans (if_neg (Bool.eq_false_iff.1 hon))))

end Still

theorem devCtrl_of_kept {k : Nat} (hen : (devRing d k).en = true) (hon : bit v 0 = true) :
    devCtrl nv k v d = devRingMod k (fun r => { r with vector := fld v 8 5 }) d :=
  if_pos ⟨hen, hon⟩

theorem devCtrl_of_enabled {k : Nat} (hen : (devRing d k).en = false) (hon : bit v 0 = true) {lg : Nat} (hlg : lg = fld v 4 4) :
    devCtrl nv k v d =
      if 4 ≤ lg ∧ lg ≤ 12 ∧ dpaOk d.mem ((devRing d k).base * 4096) (recSize k * 2 ^ lg) = true then
        flushAll nv k (devRingMod k (fun r => { r with
          en := true, vector := fld v 8 5, log2 := lg, head := 0, tail := 0, phase := true }) d)
      else d := by
  subst hlg
  exact (if_neg fun h => Bool.eq_false_iff.1 hen h.1).trans (if_pos hon)

theorem devCtrl_of_off {k : Nat} (hon : bit v 0 = false) :
    devCtrl nv k v d = devRingMod k (fun r => { r with en := false, vector := fld v 8 5, log2 := fld v 4 4 }) d :=
  (if_neg fun h => Bool.eq_false_iff.1 hon h.2).trans (if_neg (Bool.eq_false_iff.1 hon))

end Ctrl

section CtrlWrite

variable {v : Word}

theorem ringCtrlWrite_of_other {r : Fin 4} (ho : isOwner d p = false) : ringCtrlWrite nv p r v d = denied d :=
  if_pos (by rw [ho]; rfl)

theorem ringCtrlWrite_admin (ho : isOwner d p = true) : ringCtrlWrite nv p 0 v d = adminCtrl v.toNat d :=
  (if_neg (not_other ho)).trans (if_pos rfl)

theorem ringCtrlWrite_dev {r : Fin 4} (ho : isOwner d p = true) (hr : r ≠ 0) :
    ringCtrlWrite nv p r v d = devCtrl nv (r.val - 1) v.toNat d :=
  (if_neg (not_other ho)).trans (if_neg hr)

end CtrlWrite

/-! ### Apertures (R351, R474) -/

section Apertures

variable {a off len : Nat} {bs : List Byte} {ps : List (Nat × Nat)} {ctx : Option Nat}
  (hctx : ctx = if (aperGet d p.val a).mode = 2 then some (aperGet d p.val a).ctx else none)

include hctx in
theorem aperAccess_write_of_reached (hps : aperSpan d p a off len true = some ps) : aperAccess nv p a off len (some bs) d =
    memMod (spanWrite ps bs) (meetErrors nv 3 ctx 3 (partWords d.mem ps) d) := by
  subst hctx
  delta aperAccess
  rw [show aperSpan d p a off len (some bs).isSome = some ps from hps]

include hctx in
theorem aperAccess_read_of_reached (hps : aperSpan d p a off len false = some ps) {e : Device}
    (he : e = meetErrors nv 3 ctx 3 (ps.flatMap fun q => touchedWords d.mem q.1 q.2) d) :
    aperAccess nv p a off len none d = { e with rings := { e.rings with
      readData := hostRead e.mem ps, readPoison := ps.any fun q => dPoisoned e.mem q.1 q.2 } } := by
  rw [he, hctx]
  delta aperAccess
  rw [show aperSpan d p a off len (none : Option (List Byte)).isSome = some ps from hps]

theorem aperAccess_write_of_refused (hps : aperSpan d p a off len true = none) :
    aperAccess nv p a off len (some bs) d = denied d := by
  delta aperAccess
  rw [show aperSpan d p a off len (some bs).isSome = none from hps]

theorem aperAccess_read_of_refused (hps : aperSpan d p a off len false = none) : aperAccess nv p a off len none d =
    denied { d with rings := { d.rings with readData := List.replicate len 0, readPoison := false } } := by
  delta aperAccess
  rw [show aperSpan d p a off len (none : Option (List Byte)).isSome = none from hps]

theorem aperHi_of_owner {q : Port} {a : Fin 16} {v : Word} (ho : isOwner d p = true) : aperHi p q a v d =
    aperMod q.val a.val (fun x => { x with
      base := v.toNat % 2 ^ 20 * 2 ^ 32 + x.stage.getD (x.base % 2 ^ 32), stage := none }) d :=
  if_neg (not_other ho)

end Apertures

/-- Settles O4: for each register the lemma of its operation that says what the write does. -/
theorem hostWritesOfRingsAndApertures : Obligations.HostWritesOfRingsAndApertures := by
  intro s p hw
  have hbell (r : Option CtxNo) (v : Word) : exec (.doorbell p r v) s = .next { s with d := bellWrite p r v s.d } :=
    next_of_host hw _
  have hhead (r : CtxNo ⊕ Fin 4) (v : Word) : exec (.headWrite p r v) s = .next { s with d := headPut s.nv p r v s.d } :=
    next_of_host hw _
  have hctrl (r : Fin 4) (v : Word) : exec (.ringCtrl p r v) s = .next { s with d := ringCtrlWrite s.nv p r v s.d } :=
    next_of_host hw _
  have haper (a : Fin 16) (off len : Nat) (data : Option (List Byte)) : exec (.apertureAccess p a off len data) s =
      .next { s with d := aperAccess s.nv p a.val off len data s.d } := next_of_host hw _
  refine ⟨fun c v hmay hlive hen hv => ?bell, fun v ho hen hv => ?adminBell, fun c v hmay => ?denied, fun c v hmay hv => ?head,
    fun a off len bs ps ctx hctx => ?aperture, fun q a v ho => ?aperHi, fun r v ho => ?other, fun c v h => ?bellOut,
    fun v h => ?adminBellOut, fun c v h => ?headOut, fun v ho => ?devHeads, ?adminCtrl, ?devCtrl, fun v ho hen hon => ?evCtrl⟩
  case bell => exact (hbell _ v).trans (next_dev_congr (ctxBell_of_inside hmay hlive hen hv))
  case adminBell => exact (hbell _ v).trans (next_dev_congr (adminBell_of_inside ho hen hv))
  case denied =>
    exact ⟨(hbell _ v).trans (next_dev_congr (ctxBell_of_denied (.inl hmay))),
      (hhead _ v).trans (next_dev_congr (headPut_ctx_of_denied (.inl hmay)))⟩
  case head => exact (hhead _ v).trans (next_dev_congr (headPut_ctx_of_inside hmay hv))
  case aperture =>
    exact ⟨fun hps => (haper ..).trans (next_dev_congr (aperAccess_write_of_reached hctx hps)),
      fun e hps he => (haper ..).trans (next_dev_congr (aperAccess_read_of_reached hctx hps he)),
      fun hps => (haper ..).trans (next_dev_congr (aperAccess_write_of_refused hps)),
      fun hps => (haper ..).trans (next_dev_congr (aperAccess_read_of_refused hps))⟩
  case aperHi => exact (next_of_host hw fun _ d => aperHi p q a v d).trans (next_dev_congr (aperHi_of_owner ho))
  case other =>
    exact ⟨(hctrl r v).trans (next_dev_congr (ringCtrlWrite_of_other ho)), (hhead _ v).trans (next_dev_congr (headPut_of_other ho)),
      (hbell _ v).trans (next_dev_congr (adminBell_of_denied (.inl ho)))⟩
  case bellOut => exact (hbell _ v).trans (next_dev_congr (ctxBell_of_denied (.inr h)))
  case adminBellOut => exact (hbell _ v).trans (next_dev_congr (adminBell_of_denied (.inr h)))
  case headOut => exact (hhead _ v).trans (next_dev_congr (headPut_ctx_of_denied (.inr h)))
  case devHeads =>
    exact ⟨fun hv => (hhead _ v).trans (next_dev_congr (headPut_admin_of_inside ho hv)),
      fun hv => (hhead _ v).trans (next_dev_congr (headPut_admin_of_outside ho hv)),
      fun r hr => ⟨fun hv => (hhead _ v).trans (next_dev_congr (headPut_dev_of_inside ho hr hv)),
        fun hv => (hhead _ v).trans (next_dev_congr (headPut_dev_of_outside ho hr hv))⟩⟩
  case adminCtrl =>
    rintro v r ho rfl
    have hrow := (hctrl 0 v).trans (next_dev_congr (ringCtrlWrite_admin ho))
    exact ⟨fun hdrain => hrow.trans (next_of_dev_eq (adminCtrl_of_draining hdrain)),
      fun hstill hen hon => hrow.trans (next_dev_congr (adminCtrl_of_kept hstill hen hon)),
      fun hstill hen hon busy hbusy => hrow.trans (next_dev_congr (adminCtrl_of_disabled hstill hen hon hbusy)),
      fun hstill hen hon lg hlg => hrow.trans (next_dev_congr (adminCtrl_of_enabled hstill hen hon hlg)),
      fun hstill hen hon => hrow.trans (next_dev_congr (adminCtrl_of_off hstill hen hon))⟩
  case devCtrl =>
    rintro r v k q ho hr rfl rfl
    have hrow := (hctrl r v).trans (next_dev_congr (ringCtrlWrite_dev ho hr))
    exact ⟨fun hen hon => hrow.trans (next_dev_congr (devCtrl_of_kept hen hon)),
      fun hen hon lg hlg => hrow.trans (next_dev_congr (devCtrl_of_enabled hen hon hlg)),
      fun hon => hrow.trans (next_dev_congr (devCtrl_of_off hon))⟩
  case evCtrl =>
    exact (hctrl 1 v).trans (next_dev_congr ((ringCtrlWrite_dev ho (by decide)).trans (devCtrl_of_kept (k := 0) hen hon)))

end Sys2Proof.Machine
end

section
/-! SUPPORT. The taking of an entry (O5; R358, R360, R371, R480). -/

namespace Sys2Proof.Machine

variable {nv : NonVol} {d : Device}

/-! ### The admin ring -/

section Admin

/-- The address of the entry at the head of the admin ring (R357). -/
def adminEntry (d : Device) : Nat := d.rings.admin.base * 4096 + 64 * d.rings.admin.sqHead

/-- The device with the head of the admin ring one entry on, and the doorbells that end there used up. -/
def adminPassed (d : Device) : Device := { d with rings := { d.rings with admin := { d.rings.admin with
  sqHead := (d.rings.admin.sqHead + 1) % 2 ^ d.rings.admin.log2
  bells := bellsAfter d.rings.admin.bells ((d.rings.admin.sqHead + 1) % 2 ^ d.rings.admin.log2) } } }

/-- The completion ring of the admin ring has room for the entry at its head (R360). -/
def adminRoom (d : Device) : Bool :=
  roomFor d none (eOpcode (dNat d.mem (adminEntry d) 64)) d.rings.admin.log2 d.rings.admin.cqTail d.rings.admin.cqHead

/-- An admin ring that is not enabled, or empty, or whose next entry has no completion slot, is left alone. -/
theorem takeAdmin_of_not (h : d.rings.admin.en = false ∨ d.rings.admin.sqHead = d.rings.admin.sqTail ∨
    (dpaOk d.mem (adminEntry d) 64 = true ∧ adminRoom d = false)) : takeAdmin nv d = d := by
  rcases h with h | h | ⟨hok, hroom⟩
  · exact if_neg fun ⟨_, hon, _⟩ => Bool.eq_false_iff.1 h hon
  · exact if_neg fun ⟨_, _, hne⟩ => hne h
  · exact ite_eq_right_iff.2 fun _ => (if_pos hok).trans (if_neg (Bool.eq_false_iff.1 hroom))

variable (hup : schedulerUp d = true) (hen : d.rings.admin.en = true) (hwaits : d.rings.admin.sqHead ≠ d.rings.admin.sqTail)
include hup hen hwaits

theorem takeAdmin_of_room (hok : dpaOk d.mem (adminEntry d) 64 = true) (hroom : adminRoom d = true) :
    takeAdmin nv d = takeEntry nv none ((d.rings.admin.bells.head?.map (·.2)).getD d.own.owner)
      (dNat d.mem (adminEntry d) 64) (adminPassed d) :=
  (if_pos ⟨hup, hen, hwaits⟩).trans ((if_pos hok).trans (if_pos hroom))

/-- An entry outside a valid set is passed over and counted (R480). -/
theorem takeAdmin_of_no_memory (hno : dpaOk d.mem (adminEntry d) 64 = false) : takeAdmin nv d = denied (adminPassed d) :=
  (if_pos ⟨hup, hen, hwaits⟩).trans (if_neg (Bool.eq_false_iff.1 hno))

end Admin

/-! ### The ring of a context -/

section Context

variable {c : CtxNo}

theorem takeCtx_of_not (h : ctxLive d c.val = false ∨ (ctxGet d c.val).ringEn = false ∨
    (ctxGet d c.val).sqHead = (ctxGet d c.val).sqTail) : takeCtx nv c d = d := by
  refine if_neg fun ⟨_, hlive, hen, hwaits⟩ => ?_
  rcases h with h | h | h
  · exact Bool.eq_false_iff.1 h hlive
  · exact Bool.eq_false_iff.1 h hen
  · exact hwaits h

theorem takeCtx_of_no_room {bs : List Byte}
    (hbs : vRead d.mem (ctxGet d c.val).root ((ctxGet d c.val).ring + 64 * (ctxGet d c.val).sqHead) 64 = .ok bs)
    (hroom : roomFor d (some c) (eOpcode (ofBytes bs)) (ctxGet d c.val).cqLog (ctxGet d c.val).cqTail
      (ctxGet d c.val).cqHead = false) : takeCtx nv c d = d := by
  delta takeCtx
  dsimp only
  refine ite_eq_right_iff.2 fun _ => ?_
  rw [hbs]
  exact if_neg (Bool.eq_false_iff.1 hroom)

variable (hup : schedulerUp d = true) (hlive : ctxLive d c.val = true) (hen : (ctxGet d c.val).ringEn = true)
  (hwaits : (ctxGet d c.val).sqHead ≠ (ctxGet d c.val).sqTail)
include hup hlive hen hwaits

/-- An entry that the context's translation does not reach faults the context (R480). -/
theorem takeCtx_of_unread {e : VErr}
    (he : vRead d.mem (ctxGet d c.val).root ((ctxGet d c.val).ring + 64 * (ctxGet d c.val).sqHead) 64 = .error e) :
    takeCtx nv c d = faultCtx nv c.val (vFault e 6) d := by
  delta takeCtx
  dsimp only
  refine (if_pos ⟨hup, hlive, hen, hwaits⟩).trans ?_
  rw [he]

variable {bs : List Byte}
  (hbs : vRead d.mem (ctxGet d c.val).root ((ctxGet d c.val).ring + 64 * (ctxGet d c.val).sqHead) 64 = .ok bs)
include hbs

variable (hroom : roomFor d (some c) (eOpcode (ofBytes bs)) (ctxGet d c.val).cqLog (ctxGet d c.val).cqTail
    (ctxGet d c.val).cqHead = true)
include hroom

/-- A reserved completion slot that the translation does not reach faults the context (R480). -/
theorem takeCtx_of_slotFault {e : VErr} (he : slotFault d c (eOpcode (ofBytes bs)) = some e) :
    takeCtx nv c d = faultCtx nv c.val (vFault e 6) d := by
  delta takeCtx
  dsimp only
  refine (if_pos ⟨hup, hlive, hen, hwaits⟩).trans ?_
  rw [hbs]
  refine (if_pos hroom).trans ?_
  rw [he]

theorem takeCtx_of_room (hslots : slotFault d c (eOpcode (ofBytes bs)) = none) :
    takeCtx nv c d = takeEntry nv (some c) (((ctxGet d c.val).bells.head?.map (·.2)).getD d.own.owner) (ofBytes bs)
      (ctxMod c.val (fun x => { x with
        sqHead := ((ctxGet d c.val).sqHead + 1) % 2 ^ (ctxGet d c.val).sqLog
        bells := bellsAfter x.bells (((ctxGet d c.val).sqHead + 1) % 2 ^ (ctxGet d c.val).sqLog) }) d) := by
  delta takeCtx
  dsimp only
  refine (if_pos ⟨hup, hlive, hen, hwaits⟩).trans ?_
  rw [hbs]
  refine (if_pos hroom).trans ?_
  rw [hslots]

end Context

/-- Settles O5: each outcome of the two rings' rows by the lemma of that outcome. -/
theorem entriesAreTakenFromTheRings : Obligations.EntriesAreTakenFromTheRings := by
  intro s hup
  refine ⟨fun hen hwaits hok hroom => ?_, fun c bs hlive hen hwaits hbs hroom hslots => ?_, fun hen hwaits hno => ?_,
    fun h => next_of_dev_eq (takeAdmin_of_not h), fun c hlive hen hwaits => ⟨fun e he => ?_, fun bs hbs => ⟨fun hroom => ?_,
    fun e hroom he => ?_⟩⟩, fun c h => next_of_dev_eq (takeCtx_of_not h)⟩
  · exact next_dev_congr (takeAdmin_of_room hup hen hwaits hok hroom)
  · exact next_dev_congr (takeCtx_of_room hup hlive hen hwaits hbs hroom hslots)
  · exact next_dev_congr (takeAdmin_of_no_memory hup hen hwaits hno)
  · exact next_dev_congr (takeCtx_of_unread hup hlive hen hwaits he)
  · exact next_of_dev_eq (takeCtx_of_no_room hbs hroom)
  · exact next_dev_congr (takeCtx_of_slotFault hup hlive hen hwaits hbs hroom he)

end Sys2Proof.Machine
end

section
/-! SUPPORT. Teardown, the watchdog, resets and the power cycle (O15; R370, R425 to R430, R453), each once its time has come. -/

namespace Sys2Proof.Machine

variable {nv : NonVol} {d : Device}

/-! ### Contexts (R370, R426 to R429) -/

section Contexts

variable {c : Nat}

theorem teardownComplete_of_ready (hst : (ctxGet d c).st = .tearing) (hready : tearReady nv d c = true) :
    teardownComplete nv c d = raiseEv nv 0x03 (some c) (genOf nv c) (ctxGet d c).faultStatus
      (ctxMod c (fun y => { y with st := .quiescing, ringEn := false, grant := 0, prog := none, tearFrom := nv.up })
        (tearRecords nv c (acctWrite nv c 1 (collTornAll nv
          { d with link := { d.link with reads := d.link.reads.filter fun r => r.ctx.val ≠ c } })))) :=
  if_pos ⟨hst, hready⟩

theorem teardownTimeout_of_due (hst : (ctxGet d c).st = .tearing) (hdue : (ctxGet d c).tearFrom + 200000 ≤ nv.up) :
    teardownTimeout nv c d =
      (holders d c).foldl (fun d k => if (cluGet d k).reset.isSome then d else engineEscalate nv k 0 none d) d :=
  if_pos ⟨hst, hdue⟩

theorem quiescenceEnd_of_over (hst : (ctxGet d c).st = .quiescing) (hover : quiesceEnd nv d c ≤ nv.up) :
    quiescenceEnd nv c d = ctxMod c (fun _ => Ctx.init) d := if_pos ⟨hst, hover⟩

/-- The watchdog faults the context of an activity that has hung, counts it and writes the dump (R429). -/
theorem hang_of_hung {n k stream u : Nat} {rep : Bool} (hh : hung d c = some (n, k, stream, u, rep)) (hres : resident d c = true) :
    hang nv c d = (dumpWrite nv 1 0x0C c k (fltCnt 2 (faultCtx nv c
      ⟨0x0C, stHang, 5, some k, none, some (stream, u, rep), 0, n, (ctxGet d c).prog.map (·.tag)⟩ d))).1 := by
  simp only [hang, hh, hres, if_true]

end Contexts

/-! ### Resets (R430, R437) -/

section Resets

variable {k a e : Nat} (hr : (cluGet d k).reset = some (a, e)) (hdue : a + 1000000 ≤ nv.up) (hopen : nv.up < e)
include hr hdue hopen

/-- An engine reset past its bound is escalated to the partition of the cluster, where no reset of it runs. -/
theorem engineResetTimeout_of_due {p : Nat} (hp : partOf (declareDead nv k 3 d) k = some p)
    (hnone : (schedGet (declareDead nv k 3 d) p).reset = none) :
    engineResetTimeout nv k d = partitionEscalate nv p none (declareDead nv k 3 d) := by
  simp only [engineResetTimeout, hr, hdue, hopen, and_self, if_true, hp, hnone, Option.isSome_none, Bool.false_eq_true, if_false]

theorem engineResetTimeout_of_dead (h : partOf (declareDead nv k 3 d) k = none ∨ ∃ p n,
    partOf (declareDead nv k 3 d) k = some p ∧ (schedGet (declareDead nv k 3 d) p).reset = some n) :
    engineResetTimeout nv k d = declareDead nv k 3 d := by
  rcases h with hp | ⟨p, n, hp, hn⟩
  · simp only [engineResetTimeout, hr, hdue, hopen, and_self, if_true, hp]
  · simp only [engineResetTimeout, hr, hdue, hopen, and_self, if_true, hp, hn, Option.isSome_some]

end Resets

theorem partitionResetTimeout_of_due {p a : Nat} (ha : (schedGet d p).reset = some a) (hdue : a + 10000000 ≤ nv.up) :
    partitionResetTimeout nv p d = { d with flt := { d.flt with resetDue := some 0 } } := by
  simp only [partitionResetTimeout, ha, if_pos hdue]

theorem chipReset_of_due {cause : Nat} {passed : List Nat} (hon : nv.mainOn = true)
    (h : cause ≠ 0 ∨ d.flt.resetDue.isSome = true) : chipReset cause passed nv d = chipResetGo passed nv d :=
  if_pos ⟨hon, h⟩

theorem powerCycle_of_due (hon : nv.mainOn = true)
    (h : d.flt.cycleDue = true ∨ (bootLate nv d = true ∧ nv.pcycReq = false)) : powerCycle nv d =
      ({ nv with pcycReq := true },
        mgmtPush 3 3 (pwrCount 5 (escalation nv 5 0 0 { d with flt := { d.flt with cycleDue := false } }))) := by
  refine if_pos ⟨hon, ?_⟩
  rwa [Bool.not_eq_true']

/-- Settles O15: for each row the lemma of its operation once it is due. -/
theorem teardownHangAndResetsRunTheirCourse : Obligations.TeardownHangAndResetsRunTheirCourse := by
  intro s c k
  refine ⟨fun hst hready => ?complete, fun hst hdue => ?timeout, fun hst hover => ?quiescence,
    fun n k stream u rep hh hres => ?hang, fun a e p hr hdue hopen hp hnone => ?escalate, fun a e hr hdue hopen h => ?dead,
    fun p a ha hdue => ?partition, fun cause passed hon h => ?chip, fun hon h => ?cycle⟩
  case complete => exact next_dev_congr (teardownComplete_of_ready hst hready)
  case timeout => exact next_dev_congr (teardownTimeout_of_due hst hdue)
  case quiescence => exact next_dev_congr (quiescenceEnd_of_over hst hover)
  case hang => exact next_dev_congr (hang_of_hung hh hres)
  case escalate => exact next_dev_congr (engineResetTimeout_of_due hr hdue hopen hp hnone)
  case dead => exact next_dev_congr (engineResetTimeout_of_dead hr hdue hopen h)
  case partition => exact next_dev_congr (partitionResetTimeout_of_due ha hdue)
  case chip => exact next_both_congr ((chipReset_of_due hon h).trans (Prod.eta _).symm)
  case cycle => exact next_both_congr (powerCycle_of_due hon h)

end Sys2Proof.Machine
end

section
/-! SUPPORT. Power sequencing, the governor, emergencies and the margin (O28; R451 to R460, R481). -/

namespace Sys2Proof.Machine

variable {nv : NonVol} {d : Device}

/-! ### Power sequencing (R451, R452, R458, R467) -/

section Sequencing

variable {mv : Nat} {inlet : Int} {passed : List Nat}

theorem standbyStart_of_up (hoff : nv.standby = false) (hmv : 47000 ≤ mv) : standbyStart mv nv d =
    ({ nv with
        standby := true, vin := mv, gens := [], removal := .idle, removalSource := 0, graceFrom := 0, cagesBefore := 0
        quiescedPin := false, prsnt := true, up := 0 }, Device.afterReset { nv with up := 0 } [] [] Kept.init) :=
  if_pos (by rw [hoff, decide_eq_true hmv]; rfl)

theorem standbyStart_of_not (h : nv.standby = true ∨ mv < 47000) : standbyStart mv nv d = (nv, d) := by
  refine if_neg ?_
  rcases h with h | h
  · rw [h]; exact Bool.false_ne_true
  · rw [decide_eq_false (Nat.not_le.2 h), Bool.and_false]; exact Bool.false_ne_true

theorem mainPowerOn_of_not (h : nv.standby = false ∨ nv.trayEn = true) : mainPowerOn mv inlet passed nv d = (nv, d) := by
  refine if_pos ?_
  rcases h with h | h <;> rw [h]
  · rfl
  · exact Bool.or_true _

/-- In standby the conditions of the start decide (R451 step 2). -/
theorem mainPowerOn_of_tray (hst : nv.standby = true) (htray : nv.trayEn = false) {nv1 : NonVol}
    (hnv1 : nv1 = { nv with
      trayEn := true, vin := mv, mainOn := true, pg := true, pcycReq := false, removal := .idle, removalSource := 0
      quiescedPin := false }) :
    mainPowerOn mv inlet passed nv d =
      if startOk mv inlet then
        (nv1, checkReplace nv1 (emergencyStays d (retiredHealth nv1 (withholdSpares passed
          (Device.afterReset nv1 [] [] (keptMessages d))))))
      else ({ nv with trayEn := true, vin := mv }, controllerReport 1 d) := by
  subst hnv1
  exact if_neg (by rw [hst, htray]; decide)

theorem startOk_eq_false (h : mv < 48000 ∨ 57000 < mv ∨ 450 < inlet) : startOk mv inlet = false :=
  decide_eq_false fun ⟨hlo, hhi, hin⟩ => h.elim (Nat.not_lt.2 hlo) (Or.rec (Nat.not_lt.2 hhi) (not_lt.2 hin))

theorem mainOff_of_on (hon : nv.mainOn = true) : mainOff nv d =
    ({ nv with mainOn := false, pg := false, pcycReq := false },
      emergencyStays d (Device.afterReset nv [] [] (keptMessages d))) := if_pos hon

theorem mainOff_of_off (hoff : nv.mainOn = false) : mainOff nv d = (nv, d) := if_neg (Bool.eq_false_iff.1 hoff)

theorem mainPowerOff_of_low (hmv : mv < 46000) : mainPowerOff (some mv) nv d = mainOff { nv with vin := mv } d := if_pos hmv

theorem mainPowerOff_of_not_low (hmv : 46000 ≤ mv) : mainPowerOff (some mv) nv d = (nv, d) := if_neg (Nat.not_lt.2 hmv)

theorem standbyStop_of_low (hst : nv.standby = true) (hmv : mv < 42000) : standbyStop mv nv d =
    ({ nv with standby := false, vin := mv, mainOn := false, pg := false, pcycReq := false },
      Device.afterReset { nv with standby := false, vin := mv } [] [] Kept.init) := if_pos ⟨hmv, hst⟩

theorem standbyStop_of_not (h : nv.standby = false ∨ 42000 ≤ mv) : standbyStop mv nv d = (nv, d) :=
  if_neg fun ⟨hlow, hst⟩ => h.elim (fun hoff => Bool.eq_false_iff.1 hoff hst) (Nat.not_le.2 hlow)

theorem thermalTrip_of_hot {junction stack : Int} (hon : nv.mainOn = true) (hhot : 1100 ≤ junction ∨ 1000 ≤ stack) :
    thermalTrip junction stack nv d = ({ nv with mainOn := false, pg := false, pcycReq := false },
      controllerReport 2 (emergencyStays d (Device.afterReset nv [] [] (keptMessages d)))) :=
  (if_pos ⟨hon, hhot⟩).trans (congrArg (fun r : NonVol × Device => (r.1, controllerReport 2 r.2)) (mainOff_of_on hon))

theorem thermalTrip_of_not {junction stack : Int} (h : nv.mainOn = false ∨ (junction < 1100 ∧ stack < 1000)) :
    thermalTrip junction stack nv d = (nv, d) := by
  refine if_neg fun ⟨hon, hhot⟩ => ?_
  rcases h with hoff | hcool
  · exact Bool.eq_false_iff.1 hoff hon
  · exact hhot.elim (not_le.2 hcool.1) (not_le.2 hcool.2)

end Sequencing

/-! ### The governor and the windows (R454 to R456) -/

section Governor

variable {h dieW : Nat} {junction : Int} {more : Bool}

theorem governorStep_of_off (hoff : nv.mainOn = false) : governorStep h junction dieW more nv d = d :=
  if_pos (by rw [hoff]; rfl)

end Governor

/-- The share of cycles held off is 1 to 75 percent, the governor's own (R456; log entry 69). -/
theorem powerOne_share (p est : Nat) (d : Device) : ∃ n, n < 75 ∧ powerOne p est d =
    drawFresh 1 { d with
      pwr := { d.pwr with
        part := smPut d.pwr.part (0, 0) p
          (if ((partGet d p).map (·.powerW)).getD 0 ≠ 0 ∧ ((partGet d p).map (·.powerW)).getD 0 < est then 1 + n else 0,
            min 65535 est) } } :=
  ⟨(Config.freeWord d.fresh).toNat % 75, Nat.mod_lt _ (by decide), rfl⟩

/-! ### Emergencies and the margin (R457, R460) -/

/-- The power manager's fields once flag `i` is up at time `up` (R457). -/
def flagUp (up i : Nat) (w : Pwr) : Pwr :=
  { w with flags := putBit w.flags i true, emergency := true, safe := true, clearFrom := up }

theorem emergencyFlag_of_standby {i : Nat} (hoff : nv.mainOn = false) :
    emergencyFlag i nv d = if nv.standby then { d with pwr := flagUp nv.up i d.pwr } else d := by
  cases hst : nv.standby with
  | true => exact (if_neg (by rw [hst]; exact Bool.false_ne_true)).trans (if_pos (by rw [hoff]; rfl))
  | false => exact if_pos (by rw [hst, hoff]; rfl)

/-- Under main power both halves go to 400 MHz, and the flag that begins an emergency is an event (R457, R471). -/
theorem emergencyFlag_of_main {i : Nat} {d1 : Device} (hon : nv.mainOn = true)
    (hd1 : d1 = clockSet nv 1 400 (clockSet nv 0 400 { d with pwr := flagUp nv.up i d.pwr })) :
    emergencyFlag i nv d = if d.pwr.emergency then d1 else raiseEv nv 0x60 none d1.pwr.flags 0 (pwrCount 0 d1) := by
  subst hd1
  refine (if_neg (by rw [hon, Bool.not_true, Bool.and_false]; decide)).trans ((if_neg (by rw [hon]; decide)).trans ?_)
  cases d.pwr.emergency <;> rfl

theorem safeRelease_of_free {w : Pwr} (hsafe : d.pwr.safe = true) (hem : d.pwr.emergency = false) (hact : d.fw.acting = none)
    (hw : w = { d.pwr with safe := false }) :
    safeRelease d = { d with
      pwr := { w with reason := smPut (smPut w.reason 0 0 (clockReason w 0)) 0 1 (clockReason w 1) } } := by
  subst hw
  exact if_pos (by rw [hsafe, hem, hact]; rfl)

theorem safeRelease_of_held (h : d.pwr.safe = false ∨ d.pwr.emergency = true ∨ d.fw.acting.isSome = true) : safeRelease d = d := by
  refine if_neg ?_
  rcases h with h | h | h
  · simp [h]
  · simp [h]
  · simp [Option.isNone_eq_false_iff.2 h]

/-- At the end of an emergency an activation in progress holds the safe state (R416, R457). -/
theorem safeRelease_calm_of_held (h : d.pwr.safe = false ∨ d.fw.acting.isSome = true) :
    safeRelease { d with pwr := { d.pwr with emergency := false } } = { d with pwr := { d.pwr with emergency := false } } :=
  safeRelease_of_held (h.imp_right .inr)

theorem safeRelease_calm_of_free {w : Pwr} (hsafe : d.pwr.safe = true) (hact : d.fw.acting = none)
    (hw : w = { d.pwr with emergency := false, safe := false }) :
    safeRelease { d with pwr := { d.pwr with emergency := false } } = { d with
      pwr := { w with reason := smPut (smPut w.reason 0 0 (clockReason w 0)) 0 1 (clockReason w 1) } } :=
  safeRelease_of_free hsafe rfl hact hw

section EmergencyEnd

theorem emergencyEnd_of_not (h : d.pwr.emergency = false ∨ d.pwr.flags ≠ 0 ∨ nv.up < d.pwr.clearFrom + 100000000) :
    emergencyEnd nv d = d := by
  refine if_neg fun ⟨hem, hclear, hover⟩ => ?_
  rcases h with h | h | h
  · exact Bool.eq_false_iff.1 h hem
  · exact h hclear
  · exact Nat.not_lt.2 hover h

variable (hem : d.pwr.emergency = true) (hclear : d.pwr.flags = 0) (hover : d.pwr.clearFrom + 100000000 ≤ nv.up)
include hem hclear hover

theorem emergencyEnd_on (hon : nv.mainOn = true) : emergencyEnd nv d =
    raiseEv nv 0x60 none 0 1 (safeRelease { d with pwr := { d.pwr with emergency := false } }) :=
  (if_pos ⟨hem, hclear, hover⟩).trans (if_pos hon)

theorem emergencyEnd_off (hoff : nv.mainOn = false) : emergencyEnd nv d =
    safeRelease { d with pwr := { d.pwr with emergency := false } } :=
  (if_pos ⟨hem, hclear, hover⟩).trans (if_neg (Bool.eq_false_iff.1 hoff))

end EmergencyEnd

/-- The bits of MARGIN that a report sets (R460). -/
theorem marginBits (ms : Nat) (high : Bool) : pack [(0, 1, b2n (decide (3600000 < ms))), (1, 1, b2n high)] =
    (if 3600000 < ms then 1 else 0) + (if high then 2 else 0) := by
  by_cases hlow : 3600000 < ms
  · rw [decide_eq_true hlow, if_pos hlow]; cases high <;> rfl
  · rw [decide_eq_false hlow, if_neg hlow]; cases high <;> rfl

theorem marginExhausted_of_main {ms : Nat} {high : Bool} (hon : nv.mainOn = true) : marginExhausted ⟨ms, high⟩ nv d =
    checkReplace nv { d with kept := { d.kept with
      margin := d.kept.margin ||| ((if 3600000 < ms then 1 else 0) + (if high then 2 else 0)) } } := by
  rw [← marginBits]
  exact if_pos hon

/-- Settles O28: each operation is its equation of the case; the releases of the safe state are those of `safeRelease`. -/
theorem powerSequencesAndGovernor : Obligations.PowerSequencesAndGovernor := by
  intro s
  refine ⟨fun mv nv1 hst hmv hnv1 => ?standbyStart, fun mv h => next_of_both_eq (standbyStart_of_not h),
    fun mv inlet passed h => next_of_both_eq (mainPowerOn_of_not h), fun hoff => ?trayOff, fun v hoff hv => ?lowOff,
    fun v hv => next_of_both_eq (mainPowerOff_of_not_low hv), fun mv h => next_of_both_eq (standbyStop_of_not h), fun hoff => ?pulledOff,
    fun j t h => next_of_both_eq (thermalTrip_of_not h), fun h j dieW more hnot => next_of_dev_eq ?governorNot,
    fun est hoff => next_of_dev_eq (if_neg (Bool.eq_false_iff.1 hoff)), fun i hoff => ?flagOff,
    fun h => next_of_dev_eq (emergencyEnd_of_not h), fun hoff hem hclear hover hheld => ?endOffHeld,
    fun hon hem hclear hover hheld => ?endOnHeld, fun e => ⟨fun hsafe hem hact => ⟨_, rfl, safeRelease_of_free hsafe hem hact rfl⟩,
      safeRelease_of_held⟩,
    fun hoff hem hclear hover hsafe hact => ⟨_, rfl, ?endOff⟩, fun m hoff => next_of_dev_eq (if_neg (Bool.eq_false_iff.1 hoff)),
    fun mv inlet passed nv1 hst htray hlo hhi hinlet hnv1 => ?start, fun mv inlet passed hst htray hno => ?refused,
    fun hon => ?trayOn, fun v hon hv => ?lowOn, fun mv hst hmv => ?standbyStop, fun hon => ?pulledOn, fun j t hon hhot => ?trip,
    fun h j dieW more d1 hon hdue hd1 => ?governor, fun est hon => ?window, fun p est limit hlimit => hlimit ▸ powerOne_share p est s.d,
    fun i d1 hon hd1 => ?flagOn, fun hon hem hclear hover hsafe hact => ⟨_, rfl, ?endOn⟩, fun ms high hon => ?margin⟩
  case standbyStart => rw [hnv1]; exact next_both_congr (standbyStart_of_up hst hmv)
  case trayOff => exact next_both_congr (mainOff_of_off (nv := { s.nv with trayEn := false }) hoff)
  case lowOff => exact next_both_congr ((mainPowerOff_of_low hv).trans (mainOff_of_off (nv := { s.nv with vin := v }) hoff))
  case pulledOff => exact next_both_congr (mainOff_of_off (nv := { s.nv with prsnt := false }) hoff)
  case governorNot => exact hnot.elim governorStep_of_off governorStep_of_recent
  case flagOff => exact next_dev_congr (emergencyFlag_of_standby hoff)
  case endOffHeld =>
    exact next_dev_congr ((emergencyEnd_off hem hclear hover hoff).trans (safeRelease_calm_of_held hheld))
  case endOnHeld =>
    exact next_dev_congr ((emergencyEnd_on hem hclear hover hon).trans (congrArg _ (safeRelease_calm_of_held hheld)))
  case endOff =>
    exact next_dev_congr ((emergencyEnd_off hem hclear hover hoff).trans (safeRelease_calm_of_free hsafe hact rfl))
  case start =>
    have hok : startOk mv inlet = true := decide_eq_true ⟨hlo, hhi, hinlet⟩
    exact next_both_congr ((mainPowerOn_of_tray hst htray hnv1).trans (if_pos hok))
  case refused =>
    exact next_both_congr ((mainPowerOn_of_tray hst htray rfl).trans (if_neg (Bool.eq_false_iff.1 (startOk_eq_false hno))))
  case trayOn => exact next_both_congr (mainOff_of_on (nv := { s.nv with trayEn := false }) hon)
  case lowOn => exact next_both_congr ((mainPowerOff_of_low hv).trans (mainOff_of_on (nv := { s.nv with vin := v }) hon))
  case standbyStop => exact next_both_congr (standbyStop_of_low hst hmv)
  case pulledOn => exact next_both_congr (mainOff_of_on (nv := { s.nv with prsnt := false }) hon)
  case trip => exact next_both_congr (thermalTrip_of_hot hon hhot)
  case governor => exact next_dev_congr (governorStep_of_due hon hdue hd1)
  case window => exact next_dev_congr (if_pos hon)
  case flagOn => exact next_dev_congr (emergencyFlag_of_main hon hd1)
  case endOn =>
    exact next_dev_congr ((emergencyEnd_on hem hclear hover hon).trans (congrArg _ (safeRelease_calm_of_free hsafe hact rfl)))
  case margin => exact next_dev_congr (marginExhausted_of_main hon)

end Sys2Proof.Machine
end

section
/-! SUPPORT. Removal and the management commands (O29; R463 to R468). -/

namespace Sys2Proof.Machine

variable {nv : NonVol} {d : Device} {source : Nat}

/-! ### A request, quiescing at once, and a cancel (R464, R465) -/

theorem removalRequest_of_idle (h : nv.removal = .idle) : removalRequest source nv d =
    ({ nv with removal := .pending, removalSource := source, graceFrom := nv.up }, removalEvent .pending source nv d) := if_pos h

theorem removalRequest_of_not (h : nv.removal ≠ .idle) : removalRequest source nv d = (nv, d) := if_neg h

theorem removalCancel_of_idle (h : nv.removal = .idle) : removalCancel source nv d = (nv, d) := if_pos h

/-- A cancel during the grace time finds every cage as it was. -/
theorem removalCancel_of_pending (h : nv.removal = .pending) : removalCancel source nv d =
    ({ nv with removal := .idle, quiescedPin := false }, pwrCount 4 (removalEvent .idle source nv d)) :=
  (if_neg (by rw [h]; decide)).trans (congrArg (fun e => ({ nv with removal := .idle, quiescedPin := false },
    pwrCount 4 (removalEvent .idle source nv e))) (if_pos h))

/-- A cancel of a removal that quiesces or has quiesced restores the cages (R464). -/
theorem removalCancel_of_quiesce (h : nv.removal = .quiescing ∨ nv.removal = .quiesced) : removalCancel source nv d =
    ({ nv with removal := .idle, quiescedPin := false },
      pwrCount 4 (removalEvent .idle source nv ((List.range 8).foldl (fun d g => cageRestore nv g d) d))) := by
  have hbusy : nv.removal ≠ .idle ∧ nv.removal ≠ .pending := by rcases h with h | h <;> rw [h] <;> decide
  exact (if_neg hbusy.1).trans (congrArg (fun e => ({ nv with removal := .idle, quiescedPin := false },
    pwrCount 4 (removalEvent .idle source nv e))) (if_neg hbusy.2))

theorem quiesceAsked_of_idle (h : nv.removal = .idle) : quiesceAsked source nv d =
    quiesceBegin { nv with removalSource := source } (removalEvent .quiescing source nv d) := by simp only [quiesceAsked, h]

theorem quiesceAsked_of_pending (h : nv.removal = .pending) : quiesceAsked source nv d = quiesceBegin nv d := by
  simp only [quiesceAsked, h]

theorem quiesceAsked_of_quiesce (h : nv.removal = .quiescing ∨ nv.removal = .quiesced) : quiesceAsked source nv d = (nv, d) := by
  rcases h with h | h <;> simp only [quiesceAsked, h]

/-- Quiescing begins without a deferred activation; one that waited is answered with STATE_MISMATCH (R465). -/
theorem quiesceBegin_device (nv : NonVol) (d : Device) :
    (d.fw.deferred = none → (quiesceBegin nv d).2 = quiesceWork (quiesceBegin nv d).1 d) ∧
      (∀ tag, d.fw.deferred = some tag → (quiesceBegin nv d).2 = quiesceWork (quiesceBegin nv d).1
        (fwDone (quiesceBegin nv d).1 tag stState { d with fw := { d.fw with deferred := none } })) := by
  refine ⟨fun h => ?_, fun tag h => ?_⟩
  · simp only [quiesceBegin, h]
  · simp only [quiesceBegin, h]

theorem removal_pending_or_quiesce (h : nv.removal ≠ .idle) :
    nv.removal = .pending ∨ nv.removal = .quiescing ∨ nv.removal = .quiesced := by
  cases hr : nv.removal with
  | idle => exact absurd hr h
  | pending => exact .inl rfl
  | quiescing => exact .inr (.inl rfl)
  | quiesced => exact .inr (.inr rfl)

/-! ### The button (R463) -/

section Button

variable {ms : Nat}

theorem shortPress_of_press (hst : nv.standby = true) (hlo : 50 ≤ ms) (hhi : ms ≤ 2000) :
    shortPress ms nv d = removalRequest 0 nv (pwrCount 2 d) := if_pos ⟨hst, hlo, hhi⟩

theorem shortPress_of_not (h : nv.standby = false ∨ ms < 50 ∨ 2000 < ms) : shortPress ms nv d = (nv, d) := by
  refine if_neg fun ⟨hst, hlo, hhi⟩ => ?_
  rcases h with hoff | h
  · exact Bool.eq_false_iff.1 hoff hst
  · exact h.elim (Nat.not_lt.2 hlo) (Nat.not_lt.2 hhi)

theorem longPress_of_press (hst : nv.standby = true) (hms : 5000 ≤ ms) : longPress ms nv d = removalCancel 0 nv (pwrCount 3 d) :=
  if_pos ⟨hst, hms⟩

theorem longPress_of_not (h : nv.standby = false ∨ ms < 5000) : longPress ms nv d = (nv, d) :=
  if_neg fun ⟨hst, hms⟩ => h.elim (fun hoff => Bool.eq_false_iff.1 hoff hst) (Nat.not_lt.2 hms)

end Button

/-! ### The owner's action bits (R464) -/

section Bits

variable {p : Port}

theorem removeBits_of_other (hown : isOwner d p = false) (bits : Nat) : removeBits p bits nv d = (nv, denied d) :=
  if_pos (by rw [hown]; rfl)

variable (hown : isOwner d p = true)
include hown

theorem removeBits_request : removeBits p 1 nv d = removalRequest 1 nv d := if_neg (not_other hown)

theorem removeBits_quiesceNow : removeBits p 2 nv d = quiesceAsked 1 nv d := if_neg (not_other hown)

theorem removeBits_cancel : removeBits p 4 nv d = removalCancel 1 nv d := if_neg (not_other hown)

end Bits

/-- An operation of a port that may write is what it does. -/
theorem onBoth_of_host {s : State} {p : Port} (hw : hostWrites s.nv s.d p = true) (f : NonVol → Device → NonVol × Device) :
    (Host.Outcome.next (onBoth (fun nv d => if hostWrites nv d p then f nv d else (nv, d)) s) : Host.Outcome State Fault Refusal) =
      .next { s with nv := (f s.nv s.d).1, d := (f s.nv s.d).2 } := by
  rw [onBoth, if_pos hw]

/-! ### The grace time and the end of quiescing (R464, R465) -/

theorem graceTimeout_of_due (hp : nv.removal = .pending) (hover : nv.graceFrom + d.pwr.graceS * 1000000000 ≤ nv.up) :
    graceTimeout nv d = quiesceBegin nv d := if_pos ⟨hp, hover⟩

theorem graceTimeout_of_not (h : nv.removal ≠ .pending ∨ nv.up < nv.graceFrom + d.pwr.graceS * 1000000000) :
    graceTimeout nv d = (nv, d) := if_neg fun ⟨hp, hover⟩ => h.elim (· hp) (Nat.not_lt.2 hover)

theorem quiesceWork_of_not (h : nv.removal ≠ .quiescing) : quiesceWork nv d = d := if_pos (.inl h)

theorem quiesceComplete_of_done (hq : nv.removal = .quiescing) (hdone : quiesceDone nv (quiesceWork nv d) = true) :
    quiesceComplete nv d = ({ nv with removal := .quiesced, quiescedPin := true },
      removalEvent .quiesced nv.removalSource nv (quiesceWork nv d)) := if_pos ⟨hq, hdone⟩

theorem quiesceComplete_of_not_done (h : nv.removal ≠ .quiescing ∨ quiesceDone nv (quiesceWork nv d) = false) :
    quiesceComplete nv d = (nv, quiesceWork nv d) :=
  if_neg fun ⟨hq, hdone⟩ => h.elim (· hq) (Bool.eq_false_iff.1 · hdone)

theorem quiesceComplete_of_not (h : nv.removal ≠ .quiescing) : quiesceComplete nv d = (nv, d) := by
  rw [quiesceComplete_of_not_done (.inl h), quiesceWork_of_not h]

/-! ### Management commands (R468) -/

theorem setTime_of_off {ns : Nat} (hoff : nv.standby = false) : setTime ns nv d = d :=
  if_pos (by rw [hoff]; rfl)

theorem getStatus_of_off (hoff : nv.standby = false) : getStatus nv d = d :=
  if_pos (by rw [hoff]; rfl)

theorem removalCmd_of_off {code : Nat} (hoff : nv.standby = false) : removalCmd code nv d = (nv, d) :=
  if_pos (by rw [hoff]; rfl)

/-- What a command of the tray leaves, with the response that it gives: the state of the removal (R468). -/
def respondTo (r : NonVol × Device) : NonVol × Device := (r.1, respond [removalCode r.1.removal] r.2)

theorem respondTo_eq {r r' : NonVol × Device} (h : r = r') : respondTo r = (r'.1, respond [removalCode r'.1.removal] r'.2) := by
  rw [h]; rfl

section Standby

variable (hst : nv.standby = true)
include hst

theorem not_standby_off : ¬(!nv.standby) = true := by rw [hst]; decide

theorem setTime_of_ok {ns : Nat} (hon : nv.mainOn = true) (hms : ns % 1000000 = 0) :
    setTime ns nv d = respond [1] (armTime nv ns d) :=
  (if_neg (not_standby_off hst)).trans (if_pos (by rw [hon, armOk, hms]; rfl))

theorem setTime_of_refused {ns : Nat} (h : nv.mainOn = false ∨ ns % 1000000 ≠ 0) : setTime ns nv d = respond [0] d := by
  refine (if_neg (not_standby_off hst)).trans (if_neg ?_)
  rcases h with h | h
  · rw [h]; exact Bool.false_ne_true
  · rw [armOk, decide_eq_false h, Bool.and_false]; exact Bool.false_ne_true

theorem getStatus_of_standby : getStatus nv d =
    respond (if nv.mainOn then [pwrStatus nv d, fltReg nv d 0x20, fwState nv d, timeReg nv d 8] else [pwrStatus nv d, 0, 0, 0]) d :=
  (if_neg (not_standby_off hst)).trans (apply_ite (respond · d) _ _ _).symm

theorem removalCmd_cancel : removalCmd 0 nv d = respondTo (removalCancel 2 nv d) := if_neg (not_standby_off hst)

theorem removalCmd_request : removalCmd 1 nv d = respondTo (removalRequest 2 nv d) := if_neg (not_standby_off hst)

theorem removalCmd_quiesce : removalCmd 2 nv d = respondTo (quiesceAsked 2 nv d) := if_neg (not_standby_off hst)

theorem removalCmd_other {code : Nat} (hcode : 2 < code) : removalCmd code nv d = respondTo (nv, d) := by
  obtain ⟨n, rfl⟩ := Nat.exists_eq_add_of_le' hcode
  exact if_neg (not_standby_off hst)

/-- A command that does not fit the state answers the state as it is. -/
theorem removalCmd_of_not {code : Nat} (h : 2 < code ∨ (code = 0 ∧ nv.removal = .idle) ∨ (code = 1 ∧ nv.removal ≠ .idle) ∨
    (code = 2 ∧ (nv.removal = .quiescing ∨ nv.removal = .quiesced))) :
    removalCmd code nv d = respondTo (nv, d) := by
  rcases h with hcode | ⟨rfl, h⟩ | ⟨rfl, h⟩ | ⟨rfl, h⟩
  · exact removalCmd_other hst hcode
  · rw [removalCmd_cancel hst, removalCancel_of_idle h]
  · rw [removalCmd_request hst, removalRequest_of_not h]
  · rw [removalCmd_quiesce hst, quiesceAsked_of_quiesce h]

end Standby

/-- Settles O29: the equations of the button, the action bits, the timeouts and the commands, each at the state of the removal. -/
theorem removalAndManagement : Obligations.RemovalAndManagement := by
  intro s
  refine ⟨fun ms hst hlo hhi hidle => ?short, fun ms hst hlo hhi hbusy => ?shortBusy, fun ms h => next_of_both_eq (shortPress_of_not h),
    fun ms hst hms hidle => ?longIdle, fun ms h => next_of_both_eq (longPress_of_not h), fun p hw hown c hc => ?other,
    fun h => next_of_both_eq (graceTimeout_of_not h), fun h => next_of_both_eq (quiesceComplete_of_not h), fun h => ?notDone,
    fun hoff ns code => ⟨next_of_dev_eq (setTime_of_off hoff), next_of_dev_eq (getStatus_of_off hoff),
      next_of_both_eq (removalCmd_of_off hoff)⟩,
    fun ms hst hms hp => ?longPending, fun ms hst hms hq => ?longQuiesce, fun p hw hown => ?owner, fun hp hover => ?grace,
    fun nv d => ⟨rfl, quiesceBegin_device nv d⟩, fun hq hdone => ?done, fun ns hst hon hms => ?time, fun ns hst h => ?timeRefused,
    fun hst => ?status, fun hst hr => ?request, fun hst hr => ?cancel, fun hst hr => ?quiesce, fun hst hr => ?cancelQuiesce,
    fun hst hr => ?quiesceIdle, fun code hst h => ?answer⟩
  case short => exact next_both_congr ((shortPress_of_press hst hlo hhi).trans (removalRequest_of_idle hidle))
  case shortBusy => exact next_both_congr ((shortPress_of_press hst hlo hhi).trans (removalRequest_of_not hbusy))
  case longIdle => exact next_both_congr ((longPress_of_press hst hms).trans (removalCancel_of_idle hidle))
  case longPending => exact next_both_congr ((longPress_of_press hst hms).trans (removalCancel_of_pending hp))
  case longQuiesce => exact next_both_congr ((longPress_of_press hst hms).trans (removalCancel_of_quiesce hq))
  case other =>
    simp only [List.mem_cons, List.not_mem_nil, or_false] at hc
    rcases hc with rfl | rfl | rfl
    all_goals exact (onBoth_of_host hw _).trans (next_both_congr (removeBits_of_other hown _))
  case owner =>
    refine ⟨fun h => (onBoth_of_host hw _).trans ?_, fun h => (onBoth_of_host hw _).trans (next_of_both_eq ?_),
      fun h => (onBoth_of_host hw _).trans (next_of_both_eq ?_), fun h => (onBoth_of_host hw _).trans (next_of_both_eq ?_),
      fun h => (onBoth_of_host hw _).trans ?_, fun h => (onBoth_of_host hw _).trans ?_, fun h => (onBoth_of_host hw _).trans ?_,
      fun h => (onBoth_of_host hw _).trans ?_⟩
    · exact next_both_congr ((removeBits_request hown).trans (removalRequest_of_idle h))
    · exact (removeBits_request hown).trans (removalRequest_of_not h)
    · exact (removeBits_quiesceNow hown).trans (quiesceAsked_of_quiesce h)
    · exact (removeBits_cancel hown).trans (removalCancel_of_idle h)
    · exact next_both_congr ((removeBits_cancel hown).trans (removalCancel_of_quiesce h))
    · exact next_both_congr ((removeBits_quiesceNow hown).trans (quiesceAsked_of_idle h))
    · exact next_both_congr ((removeBits_quiesceNow hown).trans (quiesceAsked_of_pending h))
    · exact next_both_congr ((removeBits_cancel hown).trans (removalCancel_of_pending h))
  case grace => exact next_both_congr (graceTimeout_of_due hp hover)
  case done => exact next_both_congr (quiesceComplete_of_done hq hdone)
  case notDone => exact next_both_congr (quiesceComplete_of_not_done (.inr h))
  case time => exact next_dev_congr (setTime_of_ok hst hon hms)
  case timeRefused => exact next_dev_congr (setTime_of_refused hst h)
  case status => exact next_dev_congr (getStatus_of_standby hst)
  case request => exact next_both_congr ((removalCmd_request hst).trans (respondTo_eq (removalRequest_of_idle hr)))
  case cancel => exact next_both_congr ((removalCmd_cancel hst).trans (respondTo_eq (removalCancel_of_pending hr)))
  case quiesce => exact next_both_congr ((removalCmd_quiesce hst).trans (respondTo_eq (quiesceAsked_of_pending hr)))
  case cancelQuiesce => exact next_both_congr ((removalCmd_cancel hst).trans (respondTo_eq (removalCancel_of_quiesce hr)))
  case quiesceIdle => exact next_both_congr ((removalCmd_quiesce hst).trans (respondTo_eq (quiesceAsked_of_idle hr)))
  case answer => exact next_both_congr (removalCmd_of_not hst h)

end Sys2Proof.Machine
end

section
/-! SUPPORT. System time and its reference, accounting records, the energy scale, and lending where all are blocked (O27; R388 to R402). -/

namespace Sys2Proof.Machine

variable {nv : NonVol} {d : Device}

/-! ### What depends on the state of time (R393) -/

section States

variable {α : Type} {st : TimeSt} {a b c : α}

theorem arrival_of_unset (h : st = .unset) :
    (match (generalizing := false) st with | .unset => a | .holdover => b | .locking | .locked => c) = a := by subst h; rfl

theorem arrival_of_holdover (h : st = .holdover) :
    (match (generalizing := false) st with | .unset => a | .holdover => b | .locking | .locked => c) = b := by subst h; rfl

theorem arrival_of_used (h : st = .locked ∨ st = .locking) :
    (match (generalizing := false) st with | .unset => a | .holdover => b | .locking | .locked => c) = c := by
  rcases h with rfl | rfl <;> rfl

theorem loss_of_used (h : st = .locked ∨ st = .locking) :
    (match (generalizing := false) st with | .locked | .locking => a | .unset | .holdover => b) = a := by
  rcases h with rfl | rfl <;> rfl

theorem loss_of_unused (h : st = .unset ∨ st = .holdover) :
    (match (generalizing := false) st with | .locked | .locking => a | .unset | .holdover => b) = b := by
  rcases h with rfl | rfl <;> rfl

end States

/-! ### A SYNC edge (R392 to R394) -/

section Edge

variable {e : Int} {seen : Time} (he : e = (d.time.now : Int) - marks nv d.time)
  (hseen : seen = { d.time with error := e, armed := if (armedNow nv d.time).isSome then none else d.time.armed })
include he

/-- Before the first time is armed an edge only shows the error. -/
theorem syncEdge_of_unarmed (hst : d.time.st = .locking) (hfirst : d.time.fromUnset = true) (harm : armedNow nv d.time = none) :
    syncEdge nv d = { d with time := { d.time with error := e } } := by
  subst he
  exact (edge_of_locking hst).trans ((if_pos hfirst).trans (if_neg (by rw [harm]; decide)))

include hseen

/-- The first armed time is loaded, and the periods that the load sets the counter behind come again (R400). -/
theorem syncEdge_of_armed (hst : d.time.st = .locking) (hfirst : d.time.fromUnset = true) (harm : (armedNow nv d.time).isSome = true) :
    syncEdge nv d = timeGo nv .locked e { d with
      time := { seen with
        now := marks nv d.time
        acctAt := min d.time.acctAt (marks nv d.time / (d.time.acctPeriod * 1000000) * (d.time.acctPeriod * 1000000))
        fallback := false, slew := 0, slewAcc := 0, half := false } } := by
  subst he hseen
  exact (edge_of_locking hst).trans ((if_pos hfirst).trans (if_pos harm))

theorem syncEdge_of_locking (hst : d.time.st = .locking) (hfirst : d.time.fromUnset = false) : syncEdge nv d =
    if -50 ≤ e ∧ e ≤ 50 then timeGo nv .locked e { d with time := { correct e seen with fallback := false } }
    else { d with time := correct e seen } := by
  subst he hseen
  exact (edge_of_locking hst).trans (if_neg (Bool.eq_false_iff.1 hfirst))

theorem syncEdge_of_locked (hst : d.time.st = .locked) : syncEdge nv d =
    if e < -1000 ∨ 1000 < e then timeGo nv .locking e { d with time := { correct e seen with fallback := true, fromUnset := false } }
    else { d with time := correct e seen } := by
  subst he hseen
  exact edge_of_locked hst

end Edge

/-! ### The reference (R393) -/

theorem referencePresent_of_unset (h : d.time.st = .unset) : referencePresent nv d =
    timeGo nv .locking d.time.error { d with time := { d.time with refOk := true, syncOk := true, fromUnset := true } } :=
  arrival_of_unset h

theorem referencePresent_of_holdover (h : d.time.st = .holdover) : referencePresent nv d =
    timeGo nv .locking d.time.error { d with time := { d.time with refOk := true, syncOk := true, fromUnset := false } } :=
  arrival_of_holdover h

theorem referencePresent_of_used (h : d.time.st = .locked ∨ d.time.st = .locking) :
    referencePresent nv d = { d with time := { d.time with refOk := true, syncOk := true } } := arrival_of_used h

theorem not_both (a b : Bool) : (a && (b && !a)) = false := by cases a <;> cases b <;> rfl

/-- One of the two is absent: the free bits of its loss are not both 1 (log entry 17). -/
theorem referenceLost_of_unused (h : d.time.st = .unset ∨ d.time.st = .holdover) : ∃ a b, (a && b) = false ∧ referenceLost nv d =
    drawFresh 1 { d with time := { d.time with refOk := a, syncOk := b } } :=
  ⟨bit (Config.freeWord d.fresh).toNat 0,
    bit (Config.freeWord d.fresh).toNat 1 && !bit (Config.freeWord d.fresh).toNat 0, not_both _ _, loss_of_unused h⟩

theorem referenceLost_of_used (h : d.time.st = .locked ∨ d.time.st = .locking) : ∃ a b, (a && b) = false ∧ referenceLost nv d =
    timeGo nv .holdover d.time.error (drawFresh 1 { d with
      time := { d.time with
        refOk := a, syncOk := b, fallback := true, holdovers := satInc 16 d.time.holdovers, holdFrom := nv.up } }) :=
  ⟨bit (Config.freeWord d.fresh).toNat 0,
    bit (Config.freeWord d.fresh).toNat 1 && !bit (Config.freeWord d.fresh).toNat 0, not_both _ _, loss_of_used h⟩

/-! ### The owner's registers of time (R392, R400, R403) -/

section Registers

variable {p : Port} {v : Word}

theorem timeArmHi_of_other (hown : isOwner d p = false) : timeArmHi nv p v d = denied d :=
  if_neg (Bool.eq_false_iff.1 hown)

/-- A write of the owner arms a whole millisecond, and drops the low half that waited. -/
theorem timeArmHi_of_owner (hown : isOwner d p = true) {x : Nat}
    (hx : x = v.toNat * 4294967296 + d.time.armStage.getD (d.time.arm % 4294967296)) :
    timeArmHi nv p v d = { d with
      time := if x % 1000000 = 0 then { d.time with armed := some (x, nv.up), arm := x, armStage := none }
        else { d.time with armStage := none } } := by
  subst hx
  refine (if_pos hown).trans ?_
  by_cases hms : (v.toNat * 4294967296 + d.time.armStage.getD (d.time.arm % 4294967296)) % 1000000 = 0
  · rw [if_pos hms]; exact if_pos (decide_eq_true hms)
  · rw [if_neg hms]; exact if_neg (Bool.eq_false_iff.1 (decide_eq_false hms))

theorem acctSnap_of_other (hown : isOwner d p = false) : acctSnap nv p v d = denied d :=
  if_pos (by rw [hown]; rfl)

variable {c : Nat} (hown : isOwner d p = true) (hc : c = v.toNat % 256)
include hown hc

theorem acctSnap_of_live (hbit : bit v.toNat 8 = true) (hlive : ctxLive d c = true) : acctSnap nv p v d =
    acctWrite nv c 2 { d with
      time := { d.time with snapCtx := c, snapValid := true, snapSeq := wrapInc 16 d.time.snapSeq } } := by
  subst hc
  exact (if_neg (by rw [hown]; decide)).trans ((if_pos hbit).trans (if_pos hlive))

theorem acctSnap_of_free (hbit : bit v.toNat 8 = true) (hlive : ctxLive d c = false) : acctSnap nv p v d =
    { d with time := { d.time with snapRefused := true } } := by
  subst hc
  exact (if_neg (by rw [hown]; decide)).trans ((if_pos hbit).trans (if_neg (Bool.eq_false_iff.1 hlive)))

theorem acctSnap_of_choice (hbit : bit v.toNat 8 = false) : acctSnap nv p v d = { d with time := { d.time with snapCtx := c } } := by
  subst hc
  exact (if_neg (by rw [hown]; decide)).trans (if_neg (Bool.eq_false_iff.1 hbit))

end Registers

/-! ### The accounting period and the energy scale (R400, R402) -/

theorem accountingPeriod_of_not
    (h : d.time.now / (d.time.acctPeriod * 1000000) * (d.time.acctPeriod * 1000000) ≤ d.time.acctAt) : accountingPeriod nv d = d :=
  if_neg (Nat.not_lt.2 h)

theorem accountingPeriod_of_due {last : Nat}
    (hlast : last = d.time.now / (d.time.acctPeriod * 1000000) * (d.time.acctPeriod * 1000000)) (hdue : d.time.acctAt < last) :
    accountingPeriod nv d = ((d.ctxs.filter fun e => decide (e.2.st ≠ .free ∧ e.2.acct ≠ e.2.acctLast)).map (·.1)).foldl
      (fun d c => acctWrite nv c 0 d) { d with time := { d.time with acctAt := last } } := by
  subst hlast
  exact if_pos hdue

/-- The scale stays from 0.5 to 2.0. -/
theorem kappaOf_bounds (measured estimate free : Nat) :
    2048 ≤ kappaOf measured estimate free ∧ kappaOf measured estimate free ≤ 8192 :=
  ⟨le_max_left _ _, max_le (by decide) (min_le_left _ _)⟩

theorem kappaOf_of_estimate {measured estimate : Nat} (h : estimate ≠ 0) (free : Nat) :
    kappaOf measured estimate free = max 2048 (min 8192 (measured * 4096 / estimate)) :=
  congrArg (fun q => max 2048 (min 8192 q)) (if_neg h)

section Kappa

variable {measured : Nat}

theorem kappaCalibration_of_early (h : nv.up < d.time.kappaAt + 100000000) : kappaCalibration nv measured d = d :=
  if_neg (Nat.not_le.2 h)

theorem kappaCalibration_of_down (hdue : d.time.kappaAt + 100000000 ≤ nv.up) (hproc : procUp d 1 = false) :
    kappaCalibration nv measured d = { d with time := { d.time with kappaAt := nv.up, estimate := 0 } } :=
  (if_pos hdue).trans (if_neg (Bool.eq_false_iff.1 hproc))

theorem kappaCalibration_of_due (hdue : d.time.kappaAt + 100000000 ≤ nv.up) (hproc : procUp d 1 = true) :
    kappaCalibration nv measured d = drawFresh 1 { d with
      time := { d.time with
        kappa := kappaOf measured d.time.estimate (Config.freeWord d.fresh).toNat
        kappaWindows := satInc 16 d.time.kappaWindows, kappaAt := nv.up, estimate := 0 } } :=
  (if_pos hdue).trans (if_pos hproc)

end Kappa

/-! ### All residents blocked (R388, R389) -/

section Lending

variable {p c : Nat} {t : SliceTable}

/-- Every resident has been blocked for the time of the table, and none departs. -/
def AllIdle (nv : NonVol) (d : Device) (p : Nat) (t : SliceTable) : Prop :=
  ∀ c ∈ residents d p, (ctxGet d c).departing = none ∧ blocked nv d c (t.blockUs * 1000) = true

theorem all_idle_iff : ((residents d p).all fun c => (ctxGet d c).departing.isNone && blocked nv d c (t.blockUs * 1000)) = true ↔
    AllIdle nv d p t := by
  simp only [List.all_eq_true, Bool.and_eq_true, Option.isNone_iff_eq_none, AllIdle]

theorem any_awake_iff : ((residents d p).any fun c => (ctxGet d c).departing.isSome || !blocked nv d c (t.blockUs * 1000)) = true ↔
    ¬AllIdle nv d p t := by
  rw [← all_idle_iff, Bool.not_eq_true, ← Bool.not_eq_true', List.not_all_eq_any_not]
  simp only [Bool.not_and, Option.not_isNone]

/-- What R389 waits for before it looks for a standby. -/
structure MayLend (nv : NonVol) (d : Device) (p : Nat) (t : SliceTable) : Prop where
  runs : firmwareRuns d = true
  noReclaim : (schedGet d p).reclaim = none
  notApplying : applying d p = false
  noIncoming : (schedGet d p).incoming = []
  idle : AllIdle nv d p t

theorem mayLend_iff : MayLend nv d p t ↔
    ¬(!firmwareRuns d || (schedGet d p).reclaim.isSome || applying d p || !(schedGet d p).incoming.isEmpty ||
      !((residents d p).all fun c => (ctxGet d c).departing.isNone && blocked nv d c (t.blockUs * 1000))) = true := by
  constructor
  · rintro ⟨hruns, hrec, happ, hin, hidle⟩
    simp [hruns, hrec, happ, hin, all_idle_iff.2 hidle]
  · intro h
    simp only [Bool.or_eq_true, Bool.not_eq_true', not_or, Bool.not_eq_false, Bool.not_eq_true, Option.isSome_eq_false_iff,
      Option.isNone_iff_eq_none, List.isEmpty_iff] at h
    obtain ⟨⟨⟨⟨hruns, hrec⟩, happ⟩, hin⟩, hidle⟩ := h
    exact ⟨hruns, hrec, happ, hin, all_idle_iff.1 hidle⟩

theorem allBlocked_of_no_table (ht : (schedGet d p).table = none) : allBlocked nv p d = d := by
  delta allBlocked
  dsimp only
  rw [ht]

section Table

variable (ht : (schedGet d p).table = some t)
include ht

theorem allBlocked_of_not_mayLend (h : ¬MayLend nv d p t) : allBlocked nv p d = d := by
  rw [mayLend_iff, not_not] at h
  delta allBlocked
  dsimp only
  rw [ht]
  exact if_pos h

theorem allBlocked_of_no_standby (h : standbyNext d p t = none) : allBlocked nv p d = d := by
  delta allBlocked
  dsimp only
  rw [ht]
  refine ite_eq_left_iff.2 fun _ => ?_
  rw [h]

theorem allBlocked_of_no_eviction (hfull : maxResident d p ≤ (residents d p).length)
    (h : mayEvict nv d p (t.blockUs * 1000) = false ∨
      bestOf (departsBefore d) ((residents d p).filter fun v => !inBubble d v) = none) : allBlocked nv p d = d := by
  by_cases hmay : MayLend nv d p t
  · cases hc : standbyNext d p t with
    | none => exact allBlocked_of_no_standby ht hc
    | some c =>
      delta allBlocked
      dsimp only
      rw [ht]
      refine (if_neg (mayLend_iff.1 hmay)).trans ?_
      rw [hc]
      refine (if_neg (Nat.not_lt.2 hfull)).trans ?_
      rcases h with h | h <;> rw [h]
      cases mayEvict nv d p (t.blockUs * 1000) <;> rfl
  · exact allBlocked_of_not_mayLend ht hmay

variable (hmay : MayLend nv d p t) (hc : standbyNext d p t = some c)
include hmay hc

theorem allBlocked_of_room (hroom : (residents d p).length < maxResident d p) : allBlocked nv p d = arrive nv c d := by
  delta allBlocked
  dsimp only
  rw [ht]
  refine (if_neg (mayLend_iff.1 hmay)).trans ?_
  rw [hc]
  exact if_pos hroom

theorem allBlocked_of_eviction {v : Nat} {d1 : Device} (hfull : maxResident d p ≤ (residents d p).length)
    (hevict : mayEvict nv d p (t.blockUs * 1000) = true)
    (hbest : bestOf (departsBefore d) ((residents d p).filter fun v => !inBubble d v) = some v)
    (hd1 : d1 = schedMod p (fun x => { x with
        evictions := satInc 16 x.evictions, evictAt := some nv.up, evicted := x.evicted ++ [v], incoming := [c] })
      (raiseEv nv 0x43 (some v) (pack [(0, 4, p), (8, 8, v), (16, 8, c), (24, 2, blockedKind d v)]) 0 d)) :
    allBlocked nv p d = beginDeparture v d1.time.now none d1 := by
  subst hd1
  delta allBlocked
  dsimp only
  rw [ht]
  refine (if_neg (mayLend_iff.1 hmay)).trans ?_
  rw [hc]
  refine (if_neg (Nat.not_lt.2 hfull)).trans ?_
  rw [hevict, hbest]

end Table

/-- Each of the conditions leaves the residents as they are (R389). -/
theorem allBlocked_of_not
    (h : ((schedGet d p).table.all fun t => decide (firmwareRuns d = false ∨ (schedGet d p).reclaim.isSome = true ∨
      applying d p = true ∨ (schedGet d p).incoming ≠ [] ∨ standbyNext d p t = none ∨
      ((residents d p).any fun c => (ctxGet d c).departing.isSome || !blocked nv d c (t.blockUs * 1000)) = true ∨
      (maxResident d p ≤ (residents d p).length ∧ (mayEvict nv d p (t.blockUs * 1000) = false ∨
        bestOf (departsBefore d) ((residents d p).filter fun v => !inBubble d v) = none)))) = true) : allBlocked nv p d = d := by
  cases ht : (schedGet d p).table with
  | none => exact allBlocked_of_no_table ht
  | some t =>
    rw [ht, Option.all_some, decide_eq_true_eq, any_awake_iff] at h
    rcases h with h | h | h | h | h | h | ⟨hfull, h⟩
    · exact allBlocked_of_not_mayLend ht fun hmay => Bool.eq_false_iff.1 h hmay.runs
    · exact allBlocked_of_not_mayLend ht fun hmay => by simp [hmay.noReclaim] at h
    · exact allBlocked_of_not_mayLend ht fun hmay => Bool.eq_false_iff.1 hmay.notApplying h
    · exact allBlocked_of_not_mayLend ht fun hmay => h hmay.noIncoming
    · exact allBlocked_of_no_standby ht h
    · exact allBlocked_of_not_mayLend ht fun hmay => h hmay.idle
    · exact allBlocked_of_no_eviction ht hfull h

end Lending

/-- Settles O27: the edge by the state of time, the registers by the writer's right, lending by what R389 waits for. -/
theorem timeAccountingAndLending : Obligations.TimeAccountingAndLending := by
  intro s
  have harm {p : Port} (hw : hostWrites s.nv s.d p = true) (v : Word) : exec (.timeArmHi p v) s =
      .next { s with d := timeArmHi s.nv p v s.d } := next_of_host hw _
  have hsnap {p : Port} (hw : hostWrites s.nv s.d p = true) (v : Word) : exec (.timeAcctSnap p v) s =
      .next { s with d := acctSnap s.nv p v s.d } := next_of_host hw _
  refine ⟨fun h => next_of_dev_eq (syncEdge_of_unused h), fun e seen he hseen => ?edge, fun h => ?fromUnset, fun h => ?fromHoldover,
    fun h => ?present, fun h => ?lostUnused, fun p v hw hown => ?other, fun h => next_of_dev_eq (accountingPeriod_of_not h),
    fun m h => next_of_dev_eq (kappaCalibration_of_early h), fun m hdue hproc => ?kappaDown, fun m hdue hproc hzero => ?kappaFree,
    fun p h => next_of_dev_eq (allBlocked_of_not h), fun h => ?lostUsed, fun p v x hw hown hx => ?arm, fun last hlast hdue => ?period,
    fun p v c hw hown hc => ?snap, fun m hdue hproc hest => ?kappa, fun p t c ht hruns hrec happ hin hidle hc => ?lend⟩
  case edge =>
    refine ⟨fun hst hfirst harmed => ?armed, fun hst hfirst harmed => ?unarmed, fun hst hfirst hlo hhi => ?close,
      fun hst hfirst hfar => ?far, fun hst hlo hhi => ?kept, fun hst hfar => ?dropped⟩
    case armed => exact next_dev_congr (syncEdge_of_armed he hseen hst hfirst harmed)
    case unarmed => exact next_dev_congr (syncEdge_of_unarmed he hst hfirst harmed)
    case close => exact next_dev_congr ((syncEdge_of_locking he hseen hst hfirst).trans (if_pos ⟨hlo, hhi⟩))
    case far =>
      have hout : ¬(-50 ≤ e ∧ e ≤ 50) := fun ⟨hlo, hhi⟩ => hfar.elim (not_lt.2 hlo) (not_lt.2 hhi)
      exact next_dev_congr ((syncEdge_of_locking he hseen hst hfirst).trans (if_neg hout))
    case kept =>
      have hin : ¬(e < -1000 ∨ 1000 < e) := not_or.2 ⟨not_lt.2 hlo, not_lt.2 hhi⟩
      exact next_dev_congr ((syncEdge_of_locked he hseen hst).trans (if_neg hin))
    case dropped => exact next_dev_congr ((syncEdge_of_locked he hseen hst).trans (if_pos hfar))
  case fromUnset => exact next_dev_congr (referencePresent_of_unset h)
  case fromHoldover => exact next_dev_congr (referencePresent_of_holdover h)
  case present => exact next_dev_congr (referencePresent_of_used h)
  case lostUnused =>
    obtain ⟨a, b, hab, hlost⟩ := referenceLost_of_unused (nv := s.nv) h
    exact ⟨a, b, hab, next_dev_congr hlost⟩
  case lostUsed =>
    obtain ⟨a, b, hab, hlost⟩ := referenceLost_of_used (nv := s.nv) h
    exact ⟨a, b, hab, next_dev_congr hlost⟩
  case other =>
    exact ⟨(harm hw v).trans (next_dev_congr (timeArmHi_of_other hown)),
      (hsnap hw v).trans (next_dev_congr (acctSnap_of_other hown))⟩
  case arm => exact (harm hw v).trans (next_dev_congr (timeArmHi_of_owner hown hx))
  case period => exact next_dev_congr (accountingPeriod_of_due hlast hdue)
  case snap =>
    exact ⟨fun hbit hlive => (hsnap hw v).trans (next_dev_congr (acctSnap_of_live hown hc hbit hlive)),
      fun hbit hlive => (hsnap hw v).trans (next_dev_congr (acctSnap_of_free hown hc hbit hlive)),
      fun hbit => (hsnap hw v).trans (next_dev_congr (acctSnap_of_choice hown hc hbit))⟩
  case kappaDown => exact next_dev_congr (kappaCalibration_of_down hdue hproc)
  case kappaFree =>
    obtain ⟨hlo, hhi⟩ := kappaOf_bounds m s.d.time.estimate (Config.freeWord s.d.fresh).toNat
    exact ⟨_, hlo, hhi, next_dev_congr (kappaCalibration_of_due hdue hproc)⟩
  case kappa =>
    rw [← kappaOf_of_estimate hest (Config.freeWord s.d.fresh).toNat]
    exact next_dev_congr (kappaCalibration_of_due hdue hproc)
  case lend =>
    have hmay : MayLend s.nv s.d p.val t := ⟨hruns, hrec, happ, hin, hidle⟩
    refine ⟨fun hroom => ?_, fun v hfull hevict hbest => ⟨_, rfl, ?_⟩⟩
    · exact next_dev_congr (allBlocked_of_room ht hmay hc hroom)
    · exact next_dev_congr (allBlocked_of_eviction ht hmay hc hfull hevict hbest rfl)

end Sys2Proof.Machine
end

section
/-! SUPPORT. Slice tables, boundaries, departures, arrivals and reclaims (O13; R378 to R396). -/

namespace Sys2Proof.Machine

variable {nv : NonVol} {d : Device} {p c : Nat}

/-! ### SLICE_TABLE and RECLAIM (R381, R390) -/

section Commands

variable {t : Nat} {x : Taken} {tab : SliceTable}

theorem sliceTable_of_ok (hcheck : tableCheck d (ePartition x.entry) (eArg x.entry 0) = .ok tab)
    (hrec : (schedGet d (ePartition x.entry)).reclaim = none) {d1 : Device} {a : Nat}
    (hd1 : d1 = dropNext nv (ePartition x.entry) d)
    (ha : a = boundaryTime tab (nextBoundary tab (d1.time.now + (tab.lead + 200) * 1000))) :
    sliceTable t x nv d = markBegun t (schedMod (ePartition x.entry) (fun y => { y with
      next := some (tab, t, a), boundary := if y.table.isSome then min y.boundary a else a }) d1) := by
  subst hd1 ha
  simp only [sliceTable, hcheck, hrec]

theorem sliceTable_of_error {i st : Nat} (hcheck : tableCheck d (ePartition x.entry) (eArg x.entry 0) = .error (i, st)) :
    sliceTable t x nv d = complete nv t st i 0 d := by
  simp only [sliceTable, hcheck]

theorem sliceTable_of_reclaim {r : Reclaim} (hcheck : tableCheck d (ePartition x.entry) (eArg x.entry 0) = .ok tab)
    (hrec : (schedGet d (ePartition x.entry)).reclaim = some r) : sliceTable t x nv d = complete nv t stState 2 0 d := by
  simp only [sliceTable, hcheck, hrec]

theorem reclaim_of_waiting (h : applying d (ePartition x.entry) = true ∨ d.fw.acting.isSome = true) : reclaim t x nv d = d :=
  if_pos h

theorem reclaim_free (happ : applying d (ePartition x.entry) = false) (hact : d.fw.acting = none) :
    ¬(applying d (ePartition x.entry) = true ∨ d.fw.acting.isSome = true) := by simp [happ, hact]

theorem reclaim_of_error {i st : Nat} (happ : applying d (ePartition x.entry) = false) (hact : d.fw.acting = none)
    (hcheck : tableCheck d (ePartition x.entry) (eArg x.entry 0) = .error (i, st)) : reclaim t x nv d = complete nv t st i 0 d := by
  simp only [reclaim, if_neg (reclaim_free happ hact), hcheck]

/-- The residents that the table does not keep depart, and those that depart already stay in the count (R390). -/
theorem reclaim_of_ok (happ : applying d (ePartition x.entry) = false) (hact : d.fw.acting = none)
    (hcheck : tableCheck d (ePartition x.entry) (eArg x.entry 0) = .ok tab) {d1 : Device} {stay out : List Nat}
    (hd1 : d1 = abandonTests (ePartition x.entry) (dropNext nv (ePartition x.entry) d))
    (hstay : stay = ((sliceAt tab d1.time.now).map fun n => sliceResidents d1 (ePartition x.entry) (sliceOf tab n)).getD [])
    (hout : out = (residents d1 (ePartition x.entry)).filter fun c => !stay.contains c && (ctxGet d1 c).departing.isNone) :
    reclaim t x nv d = markBegun t (schedMod (ePartition x.entry) (fun y => { y with
        table := none, next := none, incoming := [], evicted := [], notice := none, boundary := 0
        reclaim := some ⟨t, tab, eTime x.entry,
          ((residents d1 (ePartition x.entry)).filter fun c => (ctxGet d1 c).departing.isSome) ++ out, 0, 0⟩ })
      (out.foldl (fun d c => beginDeparture c d.time.now none d) d1)) := by
  subst hd1 hstay hout
  refine (if_neg (reclaim_free happ hact)).trans ?_
  rw [hcheck]
  dsimp only
  cases sliceAt tab (abandonTests (ePartition x.entry) (dropNext nv (ePartition x.entry) d)).time.now <;> rfl

end Commands

/-- A reclaim that nobody keeps open puts its table in force, and reports what it kept and whether it was late (R390 steps 3, 4). -/
theorem reclaimComplete_of_done {r : Reclaim} (hr : (schedGet d p).reclaim = some r) (hdep : r.departing = [])
    (hproc : procUp d 2 = true) {n : Option Nat} {d1 d2 : Device} (hn : n = sliceAt r.table d.time.now)
    (hd1 : d1 = schedMod p (fun y => { y with
      reclaim := none, table := some r.table, entry := n.getD 0 % r.table.slices.length, number := n.getD 0
      incoming := ((n.map fun n => sliceResidents d p (sliceOf r.table n)).getD []).filter fun c => !resident d c
      boundary := boundaryTime r.table ((n.map (· + 1)).getD 0) }) d)
    (hd2 : d2 = if r.deadline < d.time.now then raiseEv nv 0x42 none p (d.time.now - r.deadline) d1 else d1) :
    reclaimComplete nv p d = complete nv r.tag stOK 0xFFFF
      (pack [(0, 32, r.kept / 1024), (32, 8, r.gone), (40, 1, b2n (decide (r.deadline < d.time.now)))])
      (logPoint nv 2 2 0 0x3003 p (r.kept / 1024) d2) := by
  subst hd2 hd1 hn
  delta reclaimComplete
  rw [hr]
  refine (if_neg (by rw [hdep, hproc]; decide)).trans ?_
  cases sliceAt r.table d.time.now <;> rfl

/-! ### A boundary (R381, R382) -/

/-- What follows the switch of a boundary's slice: the notices of a coordinated one, its log entry, and the answer to a new table. -/
def sliceEntered (nv : NonVol) (t : SliceTable) (p n : Nat) (done : Option Nat) (d : Device) : Device :=
  let d := logPoint nv 3 2 0 0x3002 p n (if (sliceOf t n).coord then sendNotices nv t n d else d)
  (done.map fun tag => complete nv tag stOK 0xFFFF 0 d).getD d

/-- A due boundary: the departures, the slice in force with its arrivals, the notices, and the answer to a new table. -/
theorem sliceBoundary_of_due {t : SliceTable} {n : Nat} {y : PartSched} {d0 d1 : Device} {after : Nat} {done : Option Nat}
    (hup : upcoming d p = some (t, n)) (hruns : firmwareRuns d = true) (hy : y = schedGet d p) (hrec : y.reclaim = none)
    (happ : applying d p = false) (hdue : y.boundary ≤ d.time.now)
    (hd0 : d0 = ((residents d p).filter fun c => !(sliceResidents d p (sliceOf t n)).contains c).foldl
      (fun d c => beginDeparture c (boundaryTime t n - t.lead * 1000) (some (boundaryTime t n)) d) d)
    (hafter : after = boundaryTime t (n + 1))
    (hdone : done = y.next.bind fun e => if e.2.2 ≤ y.boundary then some e.2.1 else none)
    (hd1 : d1 = schedMod p (fun z => { z with
      table := some t, entry := n % t.slices.length, number := n, evicted := []
      next := if done.isSome then none else z.next
      incoming := (sliceResidents d p (sliceOf t n)).filter fun c => !(resident d0 c && (ctxGet d0 c).departing.isNone)
      notice := if needsNotice d0 t (sliceOf t n) then some (boundaryTime t n) else none
      boundary := if done.isSome then after else (z.next.map fun e => min after e.2.2).getD after }) d0) :
    sliceBoundary nv p d = sliceEntered nv t p n done d1 := by
  have hguard : ¬(!firmwareRuns d || y.reclaim.isSome || applying d p || decide (d.time.now < y.boundary)) = true := by
    rw [hruns, hrec, happ, decide_eq_false (Nat.not_lt.2 hdue)]; decide
  subst hd1 hd0 hafter hdone hy
  delta sliceBoundary
  rw [hup]
  refine (if_neg hguard).trans ?_
  cases (schedGet d p).next.bind fun e => if e.2.2 ≤ (schedGet d p).boundary then some e.2.1 else none with
  | none => exact congrArg (fun f => sliceEntered nv t p n none (schedMod p f _)) (funext fun z => by cases z.next <;> rfl)
  | some tag => exact congrArg (fun f => sliceEntered nv t p n (some tag) (schedMod p f _)) (funext fun z => by cases z.next <;> rfl)

/-! ### Departures and arrivals (R382 to R386, R396) -/

/-- A departure that has begun ends once nothing of the context is in flight (R383). -/
def departureEnd (nv : NonVol) (c : Nat) (d : Device) : Device :=
  if (ctxGet d c).departing.isSome = true ∧ departReady d c = true ∧ procUp d 2 = true then finishDeparture nv c d else d

theorem departure_of_not_due (h : departureDue d c = none) : departure nv c d = departureEnd nv c d := by
  simp only [departure, h]
  rfl

theorem departure_of_due {t b use : Nat} (h : departureDue d c = some (t, b, use)) : departure nv c d =
    departureEnd nv c (if firmwareRuns d = true ∧ applying d (ctxGet d c).part.val = false then
      ctxMod c (fun x => { x with overrun := x.overrun - use }) (beginDeparture c t (some b) d) else d) := by
  simp only [departure, h, Bool.not_eq_true']
  rfl

theorem departureAbandon_of_due {k u t : Nat} {r : UnitRun} (hr : unitGet d k u = some r)
    (ht : (ctxGet d r.ctx.val).departing = some t)
    (hdue : t + cdiv (tileBudget d (ctxGet d r.ctx.val).part.val * 1600000) (halfMhz d (halfOf k)) ≤ d.time.now) :
    departureAbandon k u d = abandonUnit k u d := by
  simp only [departureAbandon, hr, ht, if_pos hdue]

theorem contextArrival_of_room (hlisted : (schedGet d (ctxGet d c).part.val).incoming.contains c = true)
    (hbound : (ctxGet d c).st = .bound)
    (hclear : ((residents d (ctxGet d c).part.val).all fun y => (ctxGet d y).departing.isNone) = true)
    (hruns : firmwareRuns d = true)
    (hroom : (residents d (ctxGet d c).part.val).length < maxResident d (ctxGet d c).part.val)
    (hnotice : (schedGet d (ctxGet d c).part.val).notice = none ∨ d.time.fallback = false ∨
      noticeSeen d (ctxGet d c).part.val = true) :
    contextArrival nv c d = arrive nv c (schedMod (ctxGet d c).part.val (fun y => { y with notice := none }) d) := by
  refine if_pos ⟨hlisted, hbound, hclear, hruns, hroom, hnotice.imp ?_ (Or.imp_left ?_)⟩
  · intro h; simp [h]
  · intro h; simp [h]

theorem noticeTimeout_of_due {t : Nat} (ht : (schedGet d p).notice = some t) (hdue : t + 1000000 ≤ d.time.now) {d1 : Device}
    (hd1 : d1 = schedMod p (fun y => { y with notice := none }) d) : noticeTimeout nv p d =
      if d.time.fallback = true ∧ noticeSeen d p = false then raiseEv nv 0x44 none p (schedGet d p).number d1 else d1 := by
  subst hd1
  delta noticeTimeout
  dsimp only
  rw [ht]
  refine (if_pos hdue).trans ?_
  cases d.time.fallback <;> cases noticeSeen d p <;> rfl

/-- Settles O13: the commands over a served entry, the other rows by their equations. -/
theorem slicesSwitchContextsAtBoundaries : Obligations.SlicesSwitchContextsAtBoundaries := by
  intro s p c
  refine ⟨fun t x tab d1 a hst hx hcheck hrec hd1 ha => ?table, fun t x hst hx => ⟨fun i st hcheck => ?tableError,
      fun tab r hcheck hrec => ?tableReclaim⟩,
    fun t x hst hx => ⟨fun h => ?waits, fun i st happ hact hcheck => ?reclaimError⟩,
    fun t x tab hst hx happ hact hcheck d1 stay out hd1 hstay hout => ?reclaim,
    fun r hr hdep hproc n d1 d2 hn hd1 hd2 => ?reclaimed,
    fun t n y d0 d1 d2 after done hup hruns hy hrec happ hdue hd0 hafter hdone hd1 hd2 => ?boundary,
    fun d1 h => ?departure, fun k u r t hr ht hdue => ?abandon, fun hlisted hbound hclear hruns hroom hnotice => ?arrival,
    fun t ht hdue => ⟨_, rfl, ?notice⟩⟩
  case table => exact (next_of_served hst hx _).trans (next_dev_congr (sliceTable_of_ok hcheck hrec hd1 ha))
  case tableError => exact (next_of_served hst hx _).trans (next_dev_congr (sliceTable_of_error hcheck))
  case tableReclaim => exact (next_of_served hst hx _).trans (next_dev_congr (sliceTable_of_reclaim hcheck hrec))
  case waits => exact (next_of_served hst hx _).trans (next_of_dev_eq (reclaim_of_waiting h))
  case reclaimError => exact (next_of_served hst hx _).trans (next_dev_congr (reclaim_of_error happ hact hcheck))
  case reclaim => exact (next_of_served hst hx _).trans (next_dev_congr (reclaim_of_ok happ hact hcheck hd1 hstay hout))
  case reclaimed => exact next_dev_congr (reclaimComplete_of_done hr hdep hproc hn hd1 hd2)
  case boundary =>
    subst hd2
    exact next_dev_congr (sliceBoundary_of_due hup hruns hy hrec happ hdue hd0 hafter hdone hd1)
  case departure =>
    rcases h with ⟨hnone, rfl⟩ | ⟨t, b, use, hsome, rfl⟩
    · exact next_dev_congr (departure_of_not_due hnone)
    · exact next_dev_congr (departure_of_due hsome)
  case abandon => exact next_dev_congr (departureAbandon_of_due hr ht hdue)
  case arrival => exact next_dev_congr (contextArrival_of_room hlisted hbound hclear hruns hroom hnotice)
  case notice => exact next_dev_congr (noticeTimeout_of_due ht hdue rfl)

end Sys2Proof.Machine
end

section
/-! SUPPORT. Tests of clusters and of link lanes, and the base of the fault log (O16; R434 to R438, R445). -/

namespace Sys2Proof.Machine

variable {nv : NonVol} {d : Device} {k : Nat}

/-! ### A run and its end (R435, R436, R438) -/

theorem testRun_of_due {p : TestPkg} (hp : d.flt.pkg = some p) (helig : testEligible nv d k (p.runUs * 1000) = true)
    (hruns : firmwareRuns d = true) (hsec : securityUp d = true) (hdue : ((testUnits p k).any fun u => testDue nv d u.1 u.2) = true) :
    testRun nv k d = chargeNone 15 p.runUs (fltCnt 7 (cluMod k (fun x => { x with test := some (nv.up + p.runUs * 1000) }) d)) := by
  simp only [testRun, hp]
  exact if_pos ⟨helig, hruns, hsec, hdue⟩

section End

variable {e : Nat} {p : TestPkg} (he : (cluGet d k).test = some e) (hp : d.flt.pkg = some p) (hover : e ≤ nv.up)
include he hp hover

theorem testRunEnd_of_pass : testRunEnd nv k none d =
    (testUnits p k).foldl (fun d u => unitPass nv u.1 u.2 d) (cluMod k (fun x => { x with test := none }) d) := by
  simp only [testRunEnd, he, hp, if_neg (Nat.not_lt.2 hover)]

theorem testRunEnd_of_cluster : testRunEnd nv k (some none) d =
    unitFail nv 0 k (fltCnt 8 (cluMod k (fun x => { x with test := none }) d)) := by
  simp only [testRunEnd, he, hp, if_neg (Nat.not_lt.2 hover)]

theorem testRunEnd_of_array (a : Fin 3) : testRunEnd nv k (some (some a)) d =
    unitFail nv 0 k (unitFail nv 1 (3 * k + a.val) (fltCnt 8 (cluMod k (fun x => { x with test := none }) d))) := by
  simp only [testRunEnd, he, hp, if_neg (Nat.not_lt.2 hover)]

end End

theorem abandonTest_of_run (h : (cluGet d k).test.isSome = true) :
    abandonTest k d = fltCnt 9 (cluMod k (fun x => { x with test := none }) d) := if_pos h

/-- The unit that an event names: its kind 0 and its number (R436). -/
theorem testStarved_unit (hk : k < 4096) : pack [(0, 4, 0), (4, 12, k)] = k * 16 := by
  simp [pack, Nat.mod_eq_of_lt hk]

theorem testStarved_of_due (hk : k < 4096) (hst : (healthGet d 0 k).st = .suspect)
    (hover : max (healthGet d 0 k).starvedAt (healthGet d 0 k).eligibleAt + 3600000000000 ≤ nv.up) :
    testStarved nv k d = raiseEv nv 0x25 none (k * 16)
      ((nv.up - (healthGet d 0 k).testedAt.getD (healthGet d 0 k).suspectAt) / 60000000000)
      (healthMod 0 k (fun u => { u with starvedAt := nv.up }) d) := by
  rw [← testStarved_unit hk]
  exact if_pos ⟨hst, hover⟩

/-! ### Lanes (R435) -/

section Lanes

variable {l ppm : Nat}

theorem linkLaneTest_of_healthy (h : (healthGet d 2 l).st = .healthy) :
    linkLaneTest nv l ppm d = if 10 < ppm then suspect nv 2 l 6 d else d := by
  simp only [linkLaneTest, h]

theorem linkLaneTest_of_suspect (h : (healthGet d 2 l).st = .suspect) (hdue : testDue nv d 2 l = true) :
    linkLaneTest nv l ppm d = if ppm < 1 then unitPass nv 2 l d else unitFail nv 2 l d := by
  simp only [linkLaneTest, h, hdue, Bool.not_true, Bool.false_eq_true, if_false]

end Lanes

/-! ### The base of the fault log (R445) -/

theorem fltLogHi_of_other {p : Port} (hown : isOwner d p = false) (v : Word) : fltLogHi p v d = denied d :=
  if_neg (Bool.eq_false_iff.1 hown)

theorem fltLogHi_of_owner {p : Port} (hown : isOwner d p = true) (v : Word) : fltLogHi p v d = { d with flt := { d.flt with
    log := if dpaOk d.mem (v.toNat % 4096 * 2 ^ 32 + d.flt.logStage.getD (d.flt.log % 2 ^ 32)) 262144 then
      v.toNat % 4096 * 2 ^ 32 + d.flt.logStage.getD (d.flt.log % 2 ^ 32) else d.flt.log
    logStage := none } } := if_pos hown

/-- Settles O16: the equations of the runs and of the lanes by the unit's state, the log's base by the writer's right. -/
theorem testsRunOnIdleUnits : Obligations.TestsRunOnIdleUnits := by
  intro s k
  have hlog {p : Port} (hw : hostWrites s.nv s.d p = true) (v : Word) :
      exec (.fltLogHi p v) s = .next { s with d := fltLogHi p v s.d } := next_of_host hw fun _ d => fltLogHi p v d
  refine ⟨fun p hp helig hruns hsec hdue => ?run, fun e p he hp hover => ⟨?pass, ?cluster, fun a => ?array⟩, fun hint hrun => ?abandon,
    fun hst hover => ?starved, fun l ppm hst hppm => ?laneHigh, fun l ppm => ⟨fun hst hppm => ?laneLow, fun hst hdue => ?laneTest⟩,
    fun p v hw hown => ?other, fun p v hw hown => ?owner⟩
  case run => exact next_dev_congr (testRun_of_due hp helig hruns hsec hdue)
  case pass => exact next_dev_congr (testRunEnd_of_pass he hp hover)
  case cluster => exact next_dev_congr (testRunEnd_of_cluster he hp hover)
  case array => exact next_dev_congr (testRunEnd_of_array he hp hover _)
  case abandon => exact next_dev_congr ((if_pos hint).trans (abandonTest_of_run hrun))
  case starved =>
    have hk : k.val < 4096 := k.isLt.trans (by decide)
    exact next_dev_congr (testStarved_of_due hk hst hover)
  case laneHigh => exact next_dev_congr ((linkLaneTest_of_healthy hst).trans (if_pos hppm))
  case laneLow => exact next_dev_congr ((linkLaneTest_of_healthy hst).trans (if_neg (Nat.not_lt.2 hppm)))
  case laneTest => exact next_dev_congr (linkLaneTest_of_suspect hst hdue)
  case other => rw [hlog hw, fltLogHi_of_other hown]
  case owner => rw [hlog hw, fltLogHi_of_owner hown]

end Sys2Proof.Machine
end

section
/-! SUPPORT. Crashes of the firmware processors and their restarts (O8; R404, R417 to R419). -/

namespace Sys2Proof.Machine

variable {nv : NonVol} {d : Device} {k cause : Nat}

/-! ### A processor of the I/O ring (R417, R418) -/

/-- What a crash of processor `p` of the I/O ring takes along: the security core's its applications and its staging (R348, R410), the
power-management core's the clocks (R459). -/
def crashTakes (p : Fin 4) (d : Device) : Device :=
  if p = 0 then stageCrash (frameCrash d)
  else if p = 1 then { d with pwr := { d.pwr with conservative := true } }
  else d

/-- The same in the order of the model: the staging goes after the rest. -/
def ringCrash (p : Nat) (d : Device) : Device :=
  let d := if p = 0 then frameCrash d else d
  if p = 1 then { d with pwr := { d.pwr with conservative := true } } else d

theorem crashTakes_eq (p : Fin 4) (d : Device) :
    (if p.val = 0 then stageCrash (ringCrash p.val d) else ringCrash p.val d) = crashTakes p d := by
  by_cases h0 : p = 0
  · subst h0; rfl
  · have hv0 : p.val ≠ 0 := fun h => h0 (Fin.ext h)
    refine (if_neg hv0).trans ?_
    rw [ringCrash, if_neg hv0, crashTakes, if_neg h0]
    exact if_congr (Fin.ext_iff (b := 1)).symm rfl rfl

/-- A processor that can crash does, and an activation in progress fails with it (R414). -/
theorem processorCrash_of_can {p : Nat} (hmode : d.fw.mode ≠ .booting) (hcan : canCrash d p k = true) {e : Device}
    (he : e = if p = 3 then clusterCrash nv k cause d else procCrash nv p cause d) :
    processorCrash p k cause nv d =
      if (if p = 0 then stageCrash e else e).fw.acting.isSome then
        activationFail p (if p = 3 then k else 0) nv (if p = 0 then stageCrash e else e)
      else (nv, if p = 0 then stageCrash e else e) := by
  subst he
  exact if_neg (by simp [hmode, hcan])

section RingProcessor

variable {p : Fin 4} {x : Proc} {l : List Nat} {stop : Bool} {d1 d2 : Device}

theorem procCrash_of_running (hx : x = smGet d.fw.procs Proc.init p.val) (hrun : x.st = .running)
    (hl : l = recentCrashes nv.up x.recent) (hstop : stop = decide (4 ≤ l.length))
    (hd1 : d1 = crashReport nv p.val 0 l.length cause { d with fw := { d.fw with procs := smPut d.fw.procs Proc.init p.val { x with
      st := if stop then .stopped else .restarting
      crashes := min (x.crashes + 1) (2 ^ 16 - 1)
      recent := l
      downFrom := nv.up } } })
    (hd2 : d2 = if stop then { d1 with flt := { d1.flt with resetDue := some 0 } } else d1) :
    procCrash nv p.val cause d = ringCrash p.val d2 := by
  have hite {α : Type} (a b : α) : (if stop = true then a else b) = if 4 ≤ l.length then a else b := by
    rw [hstop]; exact if_congr decide_eq_true_iff rfl rfl
  rw [hite] at hd1 hd2
  subst hx
  rw [hd2, hd1, hl]
  exact if_neg (not_not.2 hrun)

/-- The crash of a running processor of the I/O ring, and the activation in progress that fails with it. -/
theorem processorCrash_of_running (hmode : d.fw.mode ≠ .booting) (hp : p ≠ 3) (hx : x = smGet d.fw.procs Proc.init p.val)
    (hrun : x.st = .running) (hl : l = recentCrashes nv.up x.recent) (hstop : stop = decide (4 ≤ l.length))
    (hd1 : d1 = crashReport nv p.val 0 l.length cause { d with fw := { d.fw with procs := smPut d.fw.procs Proc.init p.val { x with
      st := if stop then .stopped else .restarting
      crashes := min (x.crashes + 1) (2 ^ 16 - 1)
      recent := l
      downFrom := nv.up } } })
    (hd2 : d2 = if stop then { d1 with flt := { d1.flt with resetDue := some 0 } } else d1) :
    processorCrash p.val k cause nv d =
      if (crashTakes p d2).fw.acting.isSome then activationFail p.val 0 nv (crashTakes p d2) else (nv, crashTakes p d2) := by
  have hv3 : p.val ≠ 3 := fun h => hp (Fin.ext h)
  have hcan : canCrash d p.val k = true := by
    subst hx
    simp only [canCrash, if_neg hv3, procUp, hrun, decide_true]
  have he : ringCrash p.val d2 = if p.val = 3 then clusterCrash nv k cause d else procCrash nv p.val cause d := by
    rw [if_neg hv3, procCrash_of_running hx hrun hl hstop hd1 hd2]
  rw [processorCrash_of_can hmode hcan he, if_neg hv3, crashTakes_eq]

end RingProcessor

/-! ### A cluster control core (R210, R417, R435) -/

/-- The fourth crash in the window stops the core of cluster `k`, which is dead unless its site is fenced; another one restarts it. -/
def coreStopped (nv : NonVol) (k : Nat) (l : List Nat) (d : Device) : Device :=
  if 4 ≤ l.length then
    if (bindGet nv (cluMod k (fun x => { x with stopped := true }) d) k).fenced
    then cluMod k (fun x => { x with stopped := true }) d
    else declareDead nv k 4 (cluMod k (fun x => { x with stopped := true }) d)
  else cluMod k (fun x => { x with downFrom := some nv.up }) d

section ClusterCore

variable {l : List Nat} {d1 d2 d3 : Device}

/-- A crash of a cluster's control core, and the activation in progress that fails with it. -/
theorem processorCrash_of_cluster (hmode : d.fw.mode ≠ .booting) (hstop : (cluGet d k).stopped = false)
    (hdown : (cluGet d k).downFrom = none) (hin : outOfService d k = false) (hl : l = recentCrashes nv.up (cluGet d k).crashes)
    (hd1 : d1 = clearUnits k (crashReport nv 3 k l.length cause { d with
      fw := { d.fw with cccCrashes := min (d.fw.cccCrashes + 1) (2 ^ 16 - 1) } }))
    (hd2 : d2 = suspect nv 0 k 4 (cluMod k (fun x => { x with
        crashes := l, bars := smMapV x.bars ⟨[], 0, 0⟩ (fun _ b => { b with arrived := [] })
        sems := smMapV x.sems ⟨0, []⟩ (fun _ m => { m with waiters := [] }) })
      ((List.range 64).foldl (fun d j => coreMod k j coreReset d) d1)))
    (hd3 : d3 = coreStopped nv k l d2) :
    processorCrash 3 k cause nv d = if d3.fw.acting.isSome then activationFail 3 k nv d3 else (nv, d3) := by
  have hcan : canCrash d 3 k = true := by simp [canCrash, hstop, hdown, hin]
  have hcrash : clusterCrash nv k cause d = d3 := by
    have hup : ¬((cluGet d k).stopped || (cluGet d k).downFrom.isSome || outOfService d k) = true := by simp [hstop, hdown, hin]
    rw [hd3, hd2, hd1, hl]
    exact if_neg hup
  exact processorCrash_of_can hmode hcan hcrash.symm

end ClusterCore

theorem processorCrash_of_not {p : Nat} (h : d.fw.mode = .booting ∨ canCrash d p k = false) : processorCrash p k cause nv d = (nv, d) :=
  if_pos (by rcases h with h | h <;> simp [h])

/-! ### Restarts (R404, R417) -/

/-- The choice of the model by a processor's code. -/
theorem ite_val {α : Type} (p : Fin 4) (a b c : α) :
    (if p.val = 0 then a else if p.val = 1 then b else c) = if p = 0 then a else if p = 1 then b else c :=
  if_congr (Fin.ext_iff (b := 0)).symm rfl (if_congr (Fin.ext_iff (b := 1)).symm rfl rfl)

theorem processorRestart_of_restarting {p : Fin 4} {x : Proc} {d1 : Device} (hp : p ≠ 3) (hx : x = smGet d.fw.procs Proc.init p.val)
    (hst : x.st = .restarting)
    (hd1 : d1 = restartReport nv p.val 0 (nv.up - x.downFrom) { d with fw := { d.fw with
      procs := smPut d.fw.procs Proc.init p.val { x with st := .running } } }) :
    processorRestart p.val k nv d = if p = 0 then frameReturn nv d1
      else if p = 1 then { d1 with pwr := { d1.pwr with conservative := false } } else d1 := by
  have hv3 : p.val ≠ 3 := fun h => hp (Fin.ext h)
  subst hx hd1
  exact (if_neg hv3).trans ((if_neg (not_not.2 hst)).trans (ite_val p _ _ _))

theorem processorRestart_of_not {p : Fin 4} (hp : p ≠ 3) (hst : (smGet d.fw.procs Proc.init p.val).st ≠ .restarting) :
    processorRestart p.val k nv d = d := by
  have hv3 : p.val ≠ 3 := fun h => hp (Fin.ext h)
  exact (if_neg hv3).trans (if_pos hst)

theorem processorRestart_of_cluster {t : Nat} (ht : (cluGet d k).downFrom = some t) : processorRestart 3 k nv d =
    restartReport nv 3 k (nv.up - t) (cluMod k (fun x => { x with downFrom := none }) d) := by
  refine (if_pos rfl).trans ?_
  rw [ht]

theorem processorRestart_of_cluster_up (ht : (cluGet d k).downFrom = none) : processorRestart 3 k nv d = d := by
  refine (if_pos rfl).trans ?_
  rw [ht]

/-- Settles O8: the crash by the kind of processor, then the activation that it fails; the restarts by their equations. -/
theorem processorsCrashAndRestart : Obligations.ProcessorsCrashAndRestart := by
  intro s k c
  refine ⟨fun p x l stop d1 d2 d3 hmode hp hx hrun hl hstop hd1 hd2 hd3 => ?ring,
    fun l d1 d2 hmode hstop hdown hin hl hd1 hd2 d3 hd3 => ?cluster, fun p h => next_of_both_eq (processorCrash_of_not h),
    fun p x d1 hp hx hst hd1 => ?restart, fun p hp hst => next_of_dev_eq (processorRestart_of_not hp hst), fun t ht => ?clusterRestart,
    fun ht => next_of_dev_eq (processorRestart_of_cluster_up ht)⟩
  case ring =>
    have hcrash := processorCrash_of_running (k := k.val) hmode hp hx hrun hl hstop hd1 hd2
    rw [show crashTakes p d2 = d3 from hd3.symm] at hcrash
    refine ⟨fun hact => ?_, fun hact => ?_⟩
    · exact next_both_congr (hcrash.trans (if_neg (by rw [hact]; decide)))
    · exact next_both_congr (hcrash.trans (if_pos hact))
  case cluster =>
    have hcrash := processorCrash_of_cluster hmode hstop hdown hin hl hd1 hd2 hd3
    refine ⟨fun hact => ?_, fun hact => ?_⟩
    · exact next_both_congr (hcrash.trans (if_neg (by rw [hact]; decide)))
    · exact next_both_congr (hcrash.trans (if_pos hact))
  case restart =>
    exact next_dev_congr (processorRestart_of_restarting hp hx hst hd1)
  case clusterRestart =>
    exact next_dev_congr (processorRestart_of_cluster ht)

end Sys2Proof.Machine
end

section
/-! SUPPORT. The firmware: the interface's version, staging, activation and boot (O7; R405 to R416). -/

namespace Sys2Proof.Machine

variable {nv : NonVol} {d : Device} {t : Nat} {x : Taken}

/-! ### VERSION (R406, R407) -/

section Version

variable {im : Image} (him : d.fw.image = some im)
include him

theorem fwIf_of_image : fwIfMin d = im.ifMin ∧ fwIfMax d = im.ifMax := by
  rw [fwIfMin, fwIfMax, him]
  exact ⟨rfl, rfl⟩

theorem version_of_inside (hmode : d.fw.mode ≠ .recovery) (hlo : im.ifMin ≤ eArg x.entry 0) (hhi : eArg x.entry 0 ≤ im.ifMax) :
    version t x nv d = complete nv t stOK 0xFFFF (im.ifMin + im.ifMax * 2 ^ 32)
      { d with fw := { d.fw with mode := .running, ifAccepted := eArg x.entry 0 } } := by
  obtain ⟨hmin, hmax⟩ := fwIf_of_image him
  rw [← hmin, ← hmax]
  exact (if_neg hmode).trans (if_pos ⟨hmin.trans_le hlo, hhi.trans_eq hmax.symm, by rw [him]; rfl⟩)

theorem version_of_outside (hmode : d.fw.mode ≠ .recovery) (h : eArg x.entry 0 < im.ifMin ∨ im.ifMax < eArg x.entry 0) :
    version t x nv d = complete nv t stVersion 0xFFFF (im.ifMin + im.ifMax * 2 ^ 32)
      (raiseEv nv 0x54 none (eArg x.entry 0) (im.ifMin + im.ifMax * 2 ^ 32) { d with fw := { d.fw with mode := .held } }) := by
  obtain ⟨hmin, hmax⟩ := fwIf_of_image him
  rw [← hmin, ← hmax] at h ⊢
  exact (if_neg hmode).trans (if_neg fun ⟨hlo, hhi, _⟩ => h.elim (Nat.not_lt.2 hlo) (Nat.not_lt.2 hhi))

end Version

theorem version_of_recovery (hmode : d.fw.mode = .recovery) :
    version t x nv d = complete nv t stVersion 0xFFFF (fwIfMin d + fwIfMax d * 2 ^ 32) d := if_pos hmode

/-! ### Staging (R410) -/

theorem fwStage_of_refused (h : securityUp d = false ∨ fwBusy d = true) : fwStage t x nv d = fwDoneAt nv (some t) stState 1 d :=
  if_pos (by rcases h with h | h <;> simp [h])

/-- A stage copies the image of the length in its header, or only the header of one whose length no image has. -/
theorem fwStage_of_free (hsec : securityUp d = true) (hfree : fwBusy d = false) : fwStage t x nv d =
    markBegun t { d with fw := { d.fw with staging := some (some t, dRead d.mem (eArg x.entry 0)
      (if 4096 ≤ dNat d.mem (eArg x.entry 0 + 0x1C) 4 ∧ dNat d.mem (eArg x.entry 0 + 0x1C) 4 ≤ 33554432 then
        dNat d.mem (eArg x.entry 0 + 0x1C) 4 else 256)) } } :=
  if_neg (by rw [hsec, hfree]; decide)

section StageComplete

variable {tag : Option Nat} {bs : List Byte} (hs : d.fw.staging = some (tag, bs)) (hsec : securityUp d = true)
include hs hsec

theorem fwStageComplete_of_ok (hok : imageCheck nv bs = none) {nv1 : NonVol}
    (hnv1 : nv1 = { bankPut (!d.fw.bankB) (some (imageOf (ofBytes (bs.take 256)))) nv with pendingB := some (!d.fw.bankB) }) :
    fwStageComplete nv d = (nv1, fwDone nv1 tag stOK { d with fw := { d.fw with staging := none } }) := by
  subst hnv1
  delta fwStageComplete
  rw [hs]
  refine (if_neg (by rw [hsec]; decide)).trans ?_
  rw [hok]

/-- A stage that fails leaves the bank, or leaves it empty (R410). -/
theorem fwStageComplete_of_error {i st : Nat} (hbad : imageCheck nv bs = some (i, st)) : ∃ nv1,
    (nv1 = nv ∨ nv1 = bankPut (!d.fw.bankB) none nv) ∧
      fwStageComplete nv d = (nv1, fwDoneAt nv1 tag st i (drawFresh 1 { d with fw := { d.fw with staging := none } })) := by
  refine ⟨if bit (Config.freeWord d.fresh).toNat 0 then bankPut (!d.fw.bankB) none nv else nv, ?_, ?_⟩
  · split
    · exact .inr rfl
    · exact .inl rfl
  · delta fwStageComplete
    rw [hs]
    refine (if_neg (by rw [hsec]; decide)).trans ?_
    rw [hbad]

end StageComplete

/-! ### An activation is asked for (R412 to R414) -/

section Activate

theorem fwActivate_of_recovery (hmode : d.fw.mode = .recovery) : fwActivate t x nv d =
    if nv.pendingB.isSome then fwDone nv (some t) stOK { d with flt := { d.flt with resetDue := some 0 } }
    else fwDone nv (some t) stState d := if_pos hmode

theorem fwActivate_of_refused (hmode : d.fw.mode ≠ .recovery) (hno : activateRefused nv d = true) :
    fwActivate t x nv d = fwDone nv (some t) stState d :=
  (if_neg hmode).trans (if_pos hno)

theorem fwActivate_of_allowed (hmode : d.fw.mode ≠ .recovery) (hgo : activateRefused nv d = false) :
    fwActivate t x nv d = activateGo nv (some t) d :=
  (if_neg hmode).trans (if_neg (Bool.eq_false_iff.1 hgo))

theorem activateGo_command_of_emergency (hem : d.pwr.emergency = true) : activateGo nv (some t) d =
    inform nv t stDeferred (logPoint nv 1 0 0 0x1002 d.pwr.flags 0
      (markBegun t { d with fw := { d.fw with deferred := some (some t) } })) := if_pos hem

theorem activateGo_tray_of_emergency (hem : d.pwr.emergency = true) : activateGo nv none d =
    logPoint nv 1 0 0 0x1002 d.pwr.flags 0 { d with fw := { d.fw with deferred := some none } } := if_pos hem

variable {tag : Option Nat} (hem : d.pwr.emergency = false)
include hem

theorem activateGo_of_waiting (hwait : activationWaits d = true) : activateGo nv tag d = d :=
  (if_neg (Bool.eq_false_iff.1 hem)).trans (if_pos hwait)

variable (hnow : activationWaits d = false)
include hnow

theorem activateGo_command_of_free : activateGo nv (some t) d = logPoint nv 2 0 0 0x1001 1 0 { markBegun t d with
    fw := { d.fw with acting := some (some t, nv.up), deferred := none } } :=
  (if_neg (Bool.eq_false_iff.1 hem)).trans (if_neg (Bool.eq_false_iff.1 hnow))

theorem activateGo_tray_of_free : activateGo nv none d = logPoint nv 2 0 0 0x1001 1 0 { d with
    fw := { d.fw with acting := some (none, nv.up), deferred := none } } :=
  (if_neg (Bool.eq_false_iff.1 hem)).trans (if_neg (Bool.eq_false_iff.1 hnow))

theorem deferredStart_of_free (htag : d.fw.deferred = some tag) : deferredStart nv d = logPoint nv 2 0 0 0x1001 1 0 { d with
    fw := { d.fw with acting := some (tag, nv.up), deferred := none } } := by
  delta deferredStart
  rw [htag]
  exact if_neg (by rw [hem, hnow]; decide)

end Activate

/-! ### An activation ends (R414, R415) -/

section ActivationEnd

variable (hact : d.fw.acting.isSome = true)
include hact

theorem not_idle : ¬d.fw.acting.isNone = true := Bool.eq_false_iff.1 (Option.isNone_eq_false_iff.2 hact)

theorem activationComplete_of_failed (p : Fin 4) (k : CluNo) : activationComplete (some (p, k)) nv d =
    activationFail p.val (if p.val = 3 then k.val else 0) nv d :=
  if_neg (not_idle hact)

variable (hquiet : deviceQuiet d = true) {d' : Device}
include hquiet

theorem activationComplete_of_handed (hgo : handoffGo nv d = (none, d')) : activationComplete none nv d = activationOk nv d' := by
  refine (if_neg (not_idle hact)).trans ((if_neg (by rw [hquiet]; decide)).trans ?_)
  rw [hgo]

/-- A section that does not read back right is a failed start of its processor (R415). -/
theorem activationComplete_of_bad_section {p k : Nat} (hgo : handoffGo nv d = (some (p, k), d')) :
    activationComplete none nv d = activationFail p k nv d' := by
  refine (if_neg (not_idle hact)).trans ((if_neg (by rw [hquiet]; decide)).trans ?_)
  rw [hgo]

end ActivationEnd

section Outcome

variable {tag : Option Nat} {from_ : Nat} (hact : d.fw.acting = some (tag, from_))
include hact

theorem activationOk_of_acting {im : Image} {b : Bool} {port : Nat} {r : NonVol × Device} {held : Bool} (him : pendingImage nv = some im)
    (hb : nv.pendingB = some b) (hport : port = ((tag.bind (takenGet d)).map (·.port.val)).getD 0)
    (hr : r = raiseCounter im.rollback (if tag.isSome then 1 else 2) port { nv with activeB := b, pendingB := none } d)
    (hheld : held = decide (d.fw.mode = .running ∧ ¬(im.ifMin ≤ d.fw.ifAccepted ∧ d.fw.ifAccepted ≤ im.ifMax))) :
    activationOk nv d = (r.1, fwDone r.1 tag stOK (raiseEv r.1 0x50 none im.version (fwVersion d)
      (activationLog r.1 (r.1.up - from_) (safeRelease { r.2 with fw := { r.2.fw with
        acting := none, bankB := b, image := some im, activations := (r.2.fw.activations + 1) % 2 ^ 16
        actPause := min 65535 ((r.1.up - from_) / 1000), mode := if held then .held else r.2.fw.mode } })))) := by
  rw [hheld, hr, hport]
  delta activationOk
  rw [hact, him, hb]
  rfl

theorem activationFail_of_acting (p k : Nat) : activationFail p k nv d = ({ nv with pendingB := none }, fwDone nv tag 0x75
    (raiseEv nv 0x51 none (fwStaged nv) p (logPoint nv 0 0 0 0x1003 p k (safeRelease { d with fw := { d.fw with
      acting := none, actPause := min 65535 ((nv.up - from_) / 1000) } })))) := by
  delta activationFail
  rw [hact]

end Outcome

/-! ### Boot (R405, R408, R409) -/

section Boot

variable (hon : nv.mainOn = true) (hmode : d.fw.mode = .booting)
include hon hmode

theorem boot_due : ¬(!nv.mainOn || decide (d.fw.mode ≠ .booting)) = true := by rw [hon, hmode]; decide

theorem boot_of_good {b : Bool} {im : Image} (hb : b = nv.pendingB.getD nv.activeB) (him : bootImage nv b = some im) :
    boot nv d = bootFrom b im nv d := by
  subst hb
  refine (if_neg (boot_due hon hmode)).trans ?_
  dsimp only
  rw [him]

variable {b : Bool} {d1 : Device} (hb : b = nv.pendingB.getD nv.activeB) (hbad : bootImage nv b = none)
  (hd1 : d1 = logPoint nv 0 0 0 0x0002 (b2n b) (bankCheck nv d b) (raiseEv nv 0x55 none (b2n b) (bankCheck nv d b) (drawFresh 1 d)))
include hb hbad hd1

theorem boot_of_other {im : Image} (him : bootImage nv (!b) = some im) : boot nv d = bootFrom (!b) im nv d1 := by
  subst hb hd1
  refine (if_neg (boot_due hon hmode)).trans ?_
  dsimp only
  rw [hbad]
  dsimp only
  rw [him]

theorem boot_of_none (hnone : bootImage nv (!b) = none) {d2 : Device}
    (hd2 : d2 = logPoint nv 0 0 0 0x0002 (b2n !b) (bankCheck nv d1 (!b)) (drawFresh 1 d1)) :
    boot nv d = (nv, { d2 with fw := { d2.fw with mode := .recovery, image := none } }) := by
  subst hb
  rw [hd2, hd1]
  refine (if_neg (boot_due hon hmode)).trans ?_
  dsimp only
  rw [hbad]
  dsimp only
  rw [hnone]

end Boot

/-- A pending bank that boots becomes active, and COUNTER rises to its ROLLBACK (R409; the model's choice, log entry 127). -/
theorem bootFrom_of_pending {b : Bool} (hb : nv.pendingB = some b) (im : Image) : bootFrom b im nv d =
    raiseCounter im.rollback 3 0 { nv with activeB := b, pendingB := none }
      (bootLog nv b { d with fw := { d.fw with mode := .held, bankB := b, image := some im } }) := if_pos hb

theorem bootFrom_of_not_pending {b : Bool} (hb : nv.pendingB ≠ some b) (im : Image) : bootFrom b im nv d =
    (nv, bootLog nv b { d with fw := { d.fw with mode := .held, bankB := b, image := some im } }) := if_neg hb

/-! ### PLDM (R410, R469) -/

/-- What the tray controller's request of an activation comes to (R407, R412). -/
def trayActivate (nv : NonVol) (d : Device) : Device :=
  if d.fw.mode = .recovery then
    if nv.pendingB.isSome then fwDone nv none stOK { d with flt := { d.flt with resetDue := some 0 } } else fwDone nv none stState d
  else if activateRefused nv d then fwDone nv none stState d
  else activateGo nv none d

theorem pldm_allowed (hmode : d.fw.mode ≠ .recovery) (hgo : activateRefused nv d = false) : trayActivate nv d = activateGo nv none d :=
  (if_neg hmode).trans (if_neg (Bool.eq_false_iff.1 hgo))

section Pldm

variable {image : List Byte} (hon : nv.mainOn = true) (hmode : d.fw.mode ≠ .booting) (hfree : fwBusy d = false)
include hon hmode hfree

theorem pldmUpdate_stage : pldmUpdate false image nv d =
    if securityUp d then { d with fw := { d.fw with staging := some (none, image) } } else fwDoneAt nv none stState 1 d :=
  (if_neg (by simp [hon, hmode, hfree])).trans (if_pos rfl)

/-- The tray controller's activation is a host command's without one (R412, R469). -/
theorem pldmUpdate_activate : pldmUpdate true image nv d = trayActivate nv d :=
  (if_neg (by simp [hon, hmode, hfree])).trans (if_neg (by decide))

end Pldm

/-- Settles O7: the commands over a served entry, the other rows by their equations; an activation by what asks for it, then by what holds
it. -/
theorem firmwareStagesActivatesAndBoots : Obligations.FirmwareStagesActivatesAndBoots := by
  intro s t x
  refine ⟨fun hst hx hmode => ⟨fun im him hlo hhi => ?inside, fun im him h => ?outside⟩, fun hst hx hmode => ?recovery,
    fun hst hx => ⟨fun h => ?stageRefused, fun hsec hfree h => ?stageShort⟩, fun tag bs i st hs hsec hbad => ?staged,
    fun hst hx => ⟨fun hmode hp => ?resetAsked, fun hmode hp => ?nothing, fun hmode hno => ?refused, fun hmode hgo hem => ?deferred,
      fun hmode hgo hem hwait => ?waits⟩,
    fun hst hx hsec hfree hlo hhi => ?stage, fun tag bs hs hsec hok => ?stagedOk, fun hst hx hmode hgo hem hnow => ?activate,
    fun tag htag hem hnow => ?deferredStart, fun d' hact hquiet hgo => ?handed, fun p k d' hact hquiet hgo => ?badSection,
    fun p k hact => ?failed, fun d tag from_ hact => ⟨fun im b port him hb hport => ⟨_, _, rfl, rfl, ?ok⟩, ?fail⟩,
    fun im b hon hmode hb him => ⟨_, rfl, ?bootPending⟩,
    fun b d1 hon hmode hb hbad hd1 => ⟨fun im him => ?bootOther, fun hnone => ⟨_, rfl, ?bootNone⟩⟩,
    fun image hon hmode hfree => ?tray, fun im hon hmode hp him => ?bootActive, fun image hon hmode hfree hsec => ?trayStage⟩
  case inside => exact (next_of_served hst hx _).trans (next_dev_congr (version_of_inside him hmode hlo hhi))
  case outside => exact (next_of_served hst hx _).trans (next_dev_congr (version_of_outside him hmode h))
  case recovery => exact (next_of_served hst hx _).trans (next_dev_congr (version_of_recovery hmode))
  case stageRefused => exact (next_of_served hst hx _).trans (next_dev_congr (fwStage_of_refused h))
  case stageShort =>
    have hlen : ¬(4096 ≤ dNat s.d.mem (eArg x.entry 0 + 0x1C) 4 ∧ dNat s.d.mem (eArg x.entry 0 + 0x1C) 4 ≤ 33554432) :=
      fun ⟨hlo, hhi⟩ => h.elim (Nat.not_lt.2 hlo) (Nat.not_lt.2 hhi)
    refine (next_of_served hst hx _).trans (next_dev_congr ((fwStage_of_free hsec hfree).trans ?_))
    rw [if_neg hlen]
  case stage =>
    refine (next_of_served hst hx _).trans (next_dev_congr ((fwStage_of_free hsec hfree).trans ?_))
    rw [if_pos ⟨hlo, hhi⟩]
  case staged =>
    obtain ⟨nv1, hnv1, hdone⟩ := fwStageComplete_of_error hs hsec hbad
    exact ⟨nv1, hnv1, next_both_congr hdone⟩
  case stagedOk => exact next_both_congr (fwStageComplete_of_ok hs hsec hok rfl)
  case resetAsked => exact (next_of_served hst hx _).trans (next_dev_congr ((fwActivate_of_recovery hmode).trans (if_pos hp)))
  case nothing =>
    have hno : ¬s.nv.pendingB.isSome = true := by simp [hp]
    exact (next_of_served hst hx _).trans (next_dev_congr ((fwActivate_of_recovery hmode).trans (if_neg hno)))
  case refused => exact (next_of_served hst hx _).trans (next_dev_congr (fwActivate_of_refused hmode hno))
  case deferred =>
    exact (next_of_served hst hx _).trans (next_dev_congr ((fwActivate_of_allowed hmode hgo).trans (activateGo_command_of_emergency hem)))
  case waits =>
    exact (next_of_served hst hx _).trans
      (next_of_dev_eq ((fwActivate_of_allowed hmode hgo).trans (activateGo_of_waiting hem hwait)))
  case activate =>
    exact (next_of_served hst hx _).trans (next_dev_congr ((fwActivate_of_allowed hmode hgo).trans (activateGo_command_of_free hem hnow)))
  case deferredStart => exact next_dev_congr (deferredStart_of_free hem hnow htag)
  case handed => exact next_both_congr (activationComplete_of_handed hact hquiet hgo)
  case badSection => exact next_both_congr (activationComplete_of_bad_section hact hquiet hgo)
  case failed => exact next_both_congr (activationComplete_of_failed hact p k)
  case ok => exact activationOk_of_acting hact him hb hport rfl rfl
  case fail => exact activationFail_of_acting hact
  case bootPending =>
    have hbank : b = s.nv.pendingB.getD s.nv.activeB := by rw [hb, Option.getD_some]
    exact next_both_congr ((boot_of_good hon hmode hbank him).trans (bootFrom_of_pending hb im))
  case bootActive =>
    have hbank : s.nv.activeB = s.nv.pendingB.getD s.nv.activeB := by rw [hp, Option.getD_none]
    have hnot : s.nv.pendingB ≠ some s.nv.activeB := by simp [hp]
    exact next_both_congr ((boot_of_good hon hmode hbank him).trans (bootFrom_of_not_pending hnot im))
  case bootOther => exact next_both_congr (boot_of_other hon hmode hb hbad hd1 him)
  case bootNone => exact next_both_congr (boot_of_none hon hmode hb hbad hd1 hnone rfl)
  case trayStage => exact next_dev_congr ((pldmUpdate_stage hon hmode hfree).trans (if_pos hsec))
  case tray =>
    have hact := pldmUpdate_activate (image := image) hon hmode hfree
    refine ⟨fun hsec => next_dev_congr ((pldmUpdate_stage hon hmode hfree).trans (if_neg (Bool.eq_false_iff.1 hsec))),
      fun hrec hp => next_dev_congr (hact.trans ((if_pos hrec).trans (if_pos hp))),
      fun hrec hp => next_dev_congr (hact.trans ((if_pos hrec).trans (if_neg (by rw [hp]; decide)))),
      fun hrec hno => next_dev_congr (hact.trans ((if_neg hrec).trans (if_pos hno))),
      fun hrec hgo hem => next_dev_congr (hact.trans ((pldm_allowed hrec hgo).trans (activateGo_tray_of_emergency hem))),
      fun hrec hgo hem hnow => next_dev_congr (hact.trans ((pldm_allowed hrec hgo).trans (activateGo_tray_of_free hem hnow))),
      fun hrec hgo hem hwait => next_of_dev_eq (hact.trans ((pldm_allowed hrec hgo).trans (activateGo_of_waiting hem hwait)))⟩

end Sys2Proof.Machine
end
